-- ==== Sys2Proof/Word.lean ====
section
/-! DEFINITION. The word types of the CLM-256 model and their plainest arithmetic. -/

namespace Sys2Proof

/-- One byte of a packet, of a memory or of a network frame. -/
abbrev Byte := BitVec 8

/-- A byte string: a payload, an SPI frame, a datagram (multi-byte fields little-endian, R13). -/
abbrev Bytes := List Byte

/-- A 32-bit register or Cooper word. -/
abbrev Word := BitVec 32

/-- A source or sink handle (R15): class in the high byte, index in the low byte. -/
abbrev Handle := BitVec 16

end Sys2Proof
end

