-- ==== Sys2Proof/Syntax.lean ====
section
/-! DEFINITION. The commands of the CLM-256, one constructor of `Instr` for each row of the opcode table:
host opcodes, register writes with a row of their own, the transports, the events and the Cooper instructions. -/

namespace Sys2Proof

/-- Who sends a command packet (R144): the SPI host, or a network session, known by its source IP address, its source UDP
port and its key ID, none for packets without AUTH. -/
inductive Requester where
  | spi
  | net (ip : BitVec 32) (udpPort : BitVec 16) (key : Option (Fin 16))
  deriving DecidableEq, Repr

/-- The three ports of the internal switch. -/
inductive LinkPort where
  | neta
  | netb
  | hostnet
  deriving DecidableEq, Repr

/-- What the header of an admitted command packet says (R127), with the SYSCNT counts (5 ns, R8) that have
passed since the previous command. `port` is the network port the packet arrived on (R138), without meaning over SPI;
`timed` is the apply time of R154 when TIMED is set. -/
structure Hdr where
  dt : Nat
  rq : Requester
  port : LinkPort
  tag : BitVec 16
  cls : Fin 4
  noReply : Bool
  timed : Option (BitVec 64)
  deriving DecidableEq, Repr

/-- The two network ports that also carry power. -/
inductive NetPort where
  | a
  | b
  deriving DecidableEq, Repr

/-- The two auxiliary rails (R77). -/
inductive Rail where
  | aux3v3
  | aux5v0
  deriving DecidableEq, Repr

/-- The two rails of adaptive voltage scaling (R520). -/
inductive AvsRail where
  | blend
  | coop
  deriving DecidableEq, Repr

/-- A filter chain by direction and number (R251). -/
inductive Chain where
  | press (c : Fin 36)
  | pour (c : Fin 46)
  deriving DecidableEq, Repr

/-- A clocked serial port (R393, R400, R405). -/
inductive PortId where
  | tdm (p : Fin 4)
  | aesIn (x : Fin 4)
  | aesOut (x : Fin 4)
  deriving DecidableEq, Repr

/-- A monitored input clock (R197). -/
inductive ClockIn where
  | tdm (p : Fin 4)
  | aes (x : Fin 4)
  | wclk
  | ptp (p : NetPort)
  deriving DecidableEq, Repr

/-- A target of Decant (R207). -/
inductive DecantTarget where
  | tdmIn (p : Fin 4)
  | tdmOut (p : Fin 4)
  | aesIn (x : Fin 4)
  | aesOut (x : Fin 4)
  | streamRx (s : Fin 64)
  | streamTx (s : Fin 64)
  deriving DecidableEq, Repr

/-- An object with a mute of its own (R372). -/
inductive GainObj where
  | source (h : Handle)
  | xpoint (src sink : Handle)
  | sink (h : Handle)
  deriving DecidableEq, Repr

/-- What one converter delivers over a frame: the samples of its high-gain and its low-gain modulator at 12.288 MHz, oldest
first, in units of 2^-37 of full scale (R223, R253); whether the high-gain modulator's overload detector fired (R224). A
headset microphone has the low path alone. -/
structure ConvIn where
  high : List Int
  low : List Int
  overload : Bool
  deriving DecidableEq, Repr

/-- What the outside presents at one frame tick: what the converter of each Press chain delivers, zeros where none is
named, the phase error of the audio PLL against its reference (ps, R189) and the offset of the
audio master clock from nominal (units of 2^-32, R220). -/
structure TickIn where
  press : List (Fin 36 × ConvIn)
  phasePs : Int
  freq : Int
  deriving DecidableEq, Repr

/-- What AO measures over one governor period (R72, R82): powers in mW, voltages in mV, rail loads averaged over
100 ms in mA (R69), and whether the case is above +85 °C (R3). -/
structure PowerMeas where
  drawA : Nat
  drawB : Nat
  vpdA : Nat
  vpdB : Nat
  hupMv : Nat
  hupCharging : Bool
  aux3Ma : Nat
  aux5Ma : Nat
  dissMw : Nat
  caseAbove85 : Bool
  deriving DecidableEq, Repr

/-- What a Taster measures over one window (R239, R247): rms levels in mdB re full scale, the level difference
(channel minus Taster) in mdB, the correlation defect 1 − r in units of 1e-9, the noise difference in mdB, and
whether INPUT_OVER or CODE_FS was set on either during the window. -/
structure TasterMeas where
  chRms : Int
  tsRms : Int
  levelDiff : Int
  corrDefect : Nat
  noiseDiff : Int
  overload : Bool
  deriving DecidableEq, Repr

/-- What a headset measurement cycle finds (R318): impedances in mΩ (0xFFFF_FFFF above 5 kΩ), Z_MIC at 20 µA and
at 10 µA, and the idle voltages of steps 5 and 6 in mV. -/
structure HsMeas where
  zL : Nat
  zR : Nat
  zMic : Nat
  zMic10 : Nat
  vIdle5 : Nat
  vIdle6 : Nat
  deriving DecidableEq, Repr

/-- A Sync message that passed the receive checks: the TAI time of the present SYSCNT count as the grandmaster and
the measured path delay give it (ns), and the grandmaster it comes from (R179, R217). -/
structure SyncMsg where
  taiNs : Int
  gmId : BitVec 64
  gmClass : BitVec 8
  steps : BitVec 8
  deriving DecidableEq, Repr

/-- An Announce message (R195, R183): the announced grandmaster and the fields the BMCA compares. -/
structure AnnounceMsg where
  gmId : BitVec 64
  gmClass : BitVec 8
  accuracy : BitVec 8
  variance : BitVec 16
  priority1 : BitVec 8
  priority2 : BitVec 8
  steps : BitVec 8
  utcOffset : BitVec 16
  deriving DecidableEq, Repr

/-- A received TDM frame (R395, R398): one 32-bit slot word per slot, MSB first and left-aligned, the bit clocks
counted in it, the edge-to-edge period in SYSCNT counts, and whether the measured BCLK was above 50.5 MHz. -/
structure TdmFrame where
  slots : List Word
  bclks : Nat
  period : Nat
  bclkHz : Nat
  deriving DecidableEq, Repr

/-- One received AES3 subframe (R400, R401): 24 bits of audio and auxiliary data, V, U, C and a parity verdict. -/
structure Subframe where
  audio : BitVec 24
  v : Bool
  u : Bool
  c : Bool
  parityOk : Bool
  deriving DecidableEq, Repr

/-- A received AES3 frame: both subframes, the preamble kind, and the edge-to-edge period in SYSCNT counts. -/
structure AesFrame where
  subA : Subframe
  subB : Subframe
  zPreamble : Bool
  period : Nat
  deriving DecidableEq, Repr

/-- A received media packet as the stream engine sees it (R438): where it arrived and was addressed to, and its
RTP or IEEE 1722 header fields and payload. -/
structure MediaPacket where
  port : NetPort
  rtp : Bool
  destIp : BitVec 32
  srcIp : BitVec 32
  udpPort : BitVec 16
  destMac : BitVec 48
  streamId : BitVec 64
  vlan : BitVec 12
  pt : BitVec 7
  ssrc : BitVec 32
  seq : BitVec 16
  timestamp : BitVec 32
  payload : Bytes
  deriving DecidableEq, Repr

/-- An Ethernet frame at the switch (R430 to R433): addresses, optional VLAN tag, length, and the header facts the
queue rules of R427 look at. -/
structure EthFrame where
  dst : BitVec 48
  src : BitVec 48
  tagged : Bool
  vlan : BitVec 12
  pcp : BitVec 3
  isIp : Bool
  dscp : BitVec 6
  group : BitVec 32
  ptpEvent : Bool
  ptp : Bool
  bpdu : Bool
  igmpReport : Bool
  igmpLeave : Bool
  residenceNs : Nat
  len : Nat
  deriving DecidableEq, Repr

/-- A bulk record of the Vintage pool (R104). -/
inductive BulkId where
  | graph
  | coefSet (pour : Bool) (set : Fin 8)
  | image (core : Fin 4)
  | streamRx (slot : Fin 64)
  | streamTx (slot : Fin 64)
  deriving DecidableEq, Repr

/-- What the read-back of a commit finds (R107). -/
inductive ReadBack where
  | good
  | headerCrc
  | stateCrc
  deriving DecidableEq, Repr

/-- A message a PTP master sends (R195). -/
inductive PtpKind where
  | announce
  | sync
  deriving DecidableEq, Repr

/-- Post-modification of a pointer (R484, R488). -/
inductive PMod where
  | none
  | inc
  | off
  | modulo
  deriving DecidableEq, Repr

/-- Source of a Cooper store: a data register, or an accumulator narrowed (R484, R492). -/
inductive StSrc where
  | data (n : Fin 16)
  | acc (a : Fin 4)
  deriving DecidableEq, Repr

/-- The two loads of LDD (R484). -/
structure LddFields where
  da : Fin 8
  db : Fin 8
  pa : Fin 8
  pb : Fin 8
  ma : PMod
  mb : PMod
  deriving DecidableEq, Repr

/-- The parallel move of a multiply (R484). -/
inductive Move where
  | none
  | ldd (f : LddFields)
  | ld (dd : Fin 16) (pa : Fin 8) (ma : PMod)
  | st (src : StSrc) (p : Fin 8) (m : PMod)
  deriving DecidableEq, Repr

/-- Fields of MAC, MSU and MPY (R483). -/
structure MulFields where
  dual : Bool
  a : Fin 4
  x : Fin 16
  y : Fin 16
  mv : Move
  deriving DecidableEq, Repr

/-- Source B of a data-form ALU instruction (R485). -/
inductive AluB where
  | reg (n : Fin 16)
  | imm (v : BitVec 16)
  deriving DecidableEq, Repr

/-- ADD and SUB (R485). -/
inductive AddForm where
  | data (d a : Fin 16) (b : AluB)
  | acc (d a b : Fin 4)
  deriving DecidableEq, Repr

/-- AND, OR and XOR (R485). -/
structure LogicForm where
  d : Fin 16
  a : Fin 16
  b : AluB
  deriving DecidableEq, Repr

/-- A shift count: Db[6:0], or an immediate (R485, R494). -/
inductive ShCount where
  | reg (n : Fin 16)
  | imm (v : Fin 72)
  deriving DecidableEq, Repr

/-- SHL and ASR (R485). -/
inductive ShiftForm where
  | data (d a : Fin 16) (n : ShCount)
  | acc (d a : Fin 4) (n : ShCount)
  deriving DecidableEq, Repr

/-- NORM (R485). -/
inductive NormForm where
  | data (d a : Fin 16)
  | acc (d : Fin 16) (a : Fin 4)
  deriving DecidableEq, Repr

/-- RND (R485): narrowing an accumulator, or rounding a data register to w bits. -/
inductive RndForm where
  | narrow (d : Fin 16) (a : Fin 4)
  | data (d a : Fin 16) (w : Fin 32)
  deriving DecidableEq, Repr

/-- SAT (R485). -/
inductive SatForm where
  | acc (d a : Fin 4)
  | data (d a : Fin 16) (w : Fin 32)
  deriving DecidableEq, Repr

/-- CMP (R485). -/
inductive CmpForm where
  | data (a : Fin 16) (b : AluB)
  | acc (a b : Fin 4)
  deriving DecidableEq, Repr

/-- Effective address of a standalone load or store (R486, R488). -/
inductive Addr where
  | post (m : PMod)
  | disp (d : BitVec 14)
  deriving DecidableEq, Repr

/-- LD (R486); register codes as R487. -/
inductive LdForm where
  | mem (dd : Fin 16) (p : Fin 8) (ad : Addr)
  | immLow (r : Fin 42) (v : BitVec 16)
  | immHigh (r : Fin 42) (v : BitVec 16)
  | reg (dst : Fin 48) (src : Fin 44)
  deriving DecidableEq, Repr

/-- ST (R486). -/
structure StForm where
  src : StSrc
  p : Fin 8
  ad : Addr
  deriving DecidableEq, Repr

/-- Target of BR and CALL (R485). -/
inductive BrTarget where
  | imm (t : BitVec 14)
  | reg (n : Fin 16)
  deriving DecidableEq, Repr

/-- Conditions 0 to 12 of R495. -/
abbrev Cond := Fin 13

/-- ACS (R485, R499). -/
structure AcsForm where
  d : Fin 16
  a : Fin 16
  b : Fin 16
  l : Fin 16
  ha : Bool
  hb : Bool
  sw : Bool
  deriving DecidableEq, Repr

/-- BEXP (R485, R500). -/
structure BexpForm where
  pa : Fin 8
  pb : Fin 8
  ma : PMod
  mb : PMod
  clr : Bool
  n : BitVec 12
  deriving DecidableEq, Repr

/-- The instructions a Cooper core decodes (R482 to R487). -/
inductive CoopOp where
  | mac (f : MulFields)
  | msu (f : MulFields)
  | mpy (f : MulFields)
  | add (f : AddForm)
  | sub (f : AddForm)
  | and (f : LogicForm)
  | or (f : LogicForm)
  | xor (f : LogicForm)
  | shl (f : ShiftForm)
  | asr (f : ShiftForm)
  | norm (f : NormForm)
  | rnd (f : RndForm)
  | sat (f : SatForm)
  | cmp (f : CmpForm)
  | ld (f : LdForm)
  | ldd (f : LddFields)
  | st (f : StForm)
  | br (c : Cond) (t : BrTarget)
  | call (t : BrTarget)
  | ret
  | rep (len1 : Fin 1024) (count : BitVec 16)
  | repReg (len1 : Fin 1024) (n : Fin 16)
  | endrep (c : Cond)
  | wait (mask : BitVec 4)
  | blkdone
  | halt
  | acs (f : AcsForm)
  | bexp (f : BexpForm)
  deriving DecidableEq, Repr

/-- The commands of the CLM-256. Host opcodes carry the packet's header and payload bytes; register-write rows
carry the register and the word; every other row carries the SYSCNT counts that have passed since the previous
command (`dt`) and what the outside determines; a Cooper instruction carries its core and its fields. -/
inductive Instr where
  -- device and retained state (R523, R524)
  | nop (h : Hdr) (p : Bytes)
  | devInfo (h : Hdr) (p : Bytes)
  | devState (h : Hdr) (p : Bytes)
  | devRun (h : Hdr) (p : Bytes)
  | devMode (h : Hdr) (p : Bytes)
  | devReset (h : Hdr) (p : Bytes)
  | boardDescribe (h : Hdr) (p : Bytes)
  | timeRead (h : Hdr) (p : Bytes)
  | eventMask (h : Hdr) (p : Bytes)
  | vintCommit (h : Hdr) (p : Bytes)
  | vintStatus (h : Hdr) (p : Bytes)
  | vintPolicy (h : Hdr) (p : Bytes)
  | vintClear (h : Hdr) (p : Bytes)
  | lifeState (h : Hdr) (p : Bytes)
  | lifeAdvance (h : Hdr) (p : Bytes)
  | fwBegin (h : Hdr) (p : Bytes)
  | fwData (h : Hdr) (p : Bytes)
  | fwEnd (h : Hdr) (p : Bytes)
  | fwSelect (h : Hdr) (p : Bytes)
  | keyInstall (h : Hdr) (p : Bytes)
  -- graph and mixing (R525)
  | graphStage (h : Hdr) (p : Bytes)
  | graphCommit (h : Hdr) (p : Bytes)
  | graphAbort (h : Hdr) (p : Bytes)
  | graphQuery (h : Hdr) (p : Bytes)
  | routeSet (h : Hdr) (p : Bytes)
  | latencyQuery (h : Hdr) (p : Bytes)
  | gainSet (h : Hdr) (p : Bytes)
  | muteSet (h : Hdr) (p : Bytes)
  | rampDefaults (h : Hdr) (p : Bytes)
  | sinkSet (h : Hdr) (p : Bytes)
  | genSet (h : Hdr) (p : Bytes)
  | override (h : Hdr) (p : Bytes)
  | overrideConfig (h : Hdr) (p : Bytes)
  | meterRead (h : Hdr) (p : Bytes)
  -- inputs, outputs and filters (R526)
  | inputSet (h : Hdr) (p : Bytes)
  | inputStatus (h : Hdr) (p : Bytes)
  | tasterConfig (h : Hdr) (p : Bytes)
  | tasterRun (h : Hdr) (p : Bytes)
  | tasterSubstitute (h : Hdr) (p : Bytes)
  | inputExpert (h : Hdr) (p : Bytes)
  | outputSet (h : Hdr) (p : Bytes)
  | outputStatus (h : Hdr) (p : Bytes)
  | holdSet (h : Hdr) (p : Bytes)
  | holdSafeSet (h : Hdr) (p : Bytes)
  | speakerSet (h : Hdr) (p : Bytes)
  | clearConfig (h : Hdr) (p : Bytes)
  | outputExpert (h : Hdr) (p : Bytes)
  | filtConfig (h : Hdr) (p : Bytes)
  | filtCoefLoad (h : Hdr) (p : Bytes)
  | filtRun (h : Hdr) (p : Bytes)
  | filtSync (h : Hdr) (p : Bytes)
  | filtPhase (h : Hdr) (p : Bytes)
  | filtStatus (h : Hdr) (p : Bytes)
  | filtExpert (h : Hdr) (p : Bytes)
  -- ports and clocks (R527)
  | tdmSet (h : Hdr) (p : Bytes)
  | aesSet (h : Hdr) (p : Bytes)
  | portStart (h : Hdr) (p : Bytes)
  | portStop (h : Hdr) (p : Bytes)
  | portStatus (h : Hdr) (p : Bytes)
  | portStamp (h : Hdr) (p : Bytes)
  | aesCsSet (h : Hdr) (p : Bytes)
  | aesCsRead (h : Hdr) (p : Bytes)
  | clockRefs (h : Hdr) (p : Bytes)
  | clockStatus (h : Hdr) (p : Bytes)
  | ptpSet (h : Hdr) (p : Bytes)
  | wclkSet (h : Hdr) (p : Bytes)
  | fsSet (h : Hdr) (p : Bytes)
  | decantSet (h : Hdr) (p : Bytes)
  | alignGroupSet (h : Hdr) (p : Bytes)
  | clockExpert (h : Hdr) (p : Bytes)
  -- network, headset and Cooper (R528)
  | netSet (h : Hdr) (p : Bytes)
  | streamRxSet (h : Hdr) (p : Bytes)
  | streamTxSet (h : Hdr) (p : Bytes)
  | streamEnable (h : Hdr) (p : Bytes)
  | streamStatus (h : Hdr) (p : Bytes)
  | netStatus (h : Hdr) (p : Bytes)
  | netAuthSet (h : Hdr) (p : Bytes)
  | hsSet (h : Hdr) (p : Bytes)
  | hsStatus (h : Hdr) (p : Bytes)
  | hsEvents (h : Hdr) (p : Bytes)
  | hsExpert (h : Hdr) (p : Bytes)
  | coopLoad (h : Hdr) (p : Bytes)
  | coopStart (h : Hdr) (p : Bytes)
  | coopStop (h : Hdr) (p : Bytes)
  | coopStatus (h : Hdr) (p : Bytes)
  | coopParam (h : Hdr) (p : Bytes)
  | coopDebug (h : Hdr) (p : Bytes)
  -- faults, power, expert and test (R529)
  | faultRead (h : Hdr) (p : Bytes)
  | faultAck (h : Hdr) (p : Bytes)
  | powerStatus (h : Hdr) (p : Bytes)
  | powerPolicy (h : Hdr) (p : Bytes)
  | thermalStatus (h : Hdr) (p : Bytes)
  | expertOpen (h : Hdr) (p : Bytes)
  | expertClose (h : Hdr) (p : Bytes)
  | regRead (h : Hdr) (p : Bytes)
  | regWrite (h : Hdr) (p : Bytes)
  -- expert registers with a row of their own: one word written by REG_WRITE
  | govTest (h : Hdr) (v : Word)
  | pathForce (h : Hdr) (n : Fin 34) (v : Word)
  | clampTest (h : Hdr) (n : Fin 8) (v : Word)
  | trackFreeze (h : Hdr) (n : Fin 2) (v : Word)
  | forceType (h : Hdr) (n : Fin 2) (v : Word)
  | loopback (h : Hdr) (n : Fin 4) (v : Word)
  | phyLoop (h : Hdr) (n : LinkPort) (v : Word)
  | breakpointSet (h : Hdr) (core : Fin 4) (n : Fin 4) (v : Word)
  | coopRegisterWrite (h : Hdr) (core : Fin 4) (off : BitVec 20) (v : Word)
  | injectCode (h : Hdr) (v : Word)
  -- test (R536, R537)
  | testLoop (h : Hdr) (p : Bytes)
  | testSelf (h : Hdr) (p : Bytes)
  -- transports (R134 to R138)
  /-- `frame` is the whole chip-select frame as HMOSI carries it, its first byte included (R133) -/
  | writeCmd (dt : Nat) (frame : Bytes)
  | readReply (dt : Nat) (clocked : Nat)
  | readStatus (dt : Nat)
  | commandDatagram (dt : Nat) (port : LinkPort) (srcIp : BitVec 32) (srcPort : BitVec 16) (udp : Bytes)
  | commandPreemption (dt : Nat)
  | commandAgeing (dt : Nat)
  /-- `tickTai` is the time the sender holds the tick for; the tick's own time decides (R182) -/
  | timedCommandApply (dt : Nat) (tickTai : Nat)
  | eventNotice (dt : Nat)
  | sessionTimeout (dt : Nat) (session : Fin 8)
  | expertIdleTimeout (dt : Nat)
  -- the frame
  | frameTick (dt : Nat) (i : TickIn)
  | corkTimeout (dt : Nat) (o : GainObj)
  | deferredCommandLands (dt : Nat)
  | sweepEnd (dt : Nat) (g : Fin 4)
  -- power and start-up
  | powerApplied (dt : Nat) (port : NetPort) (granted : Fin 9)
  | inputPowerGood (dt : Nat) (port : NetPort)
  | powerUpDelayEnd (dt : Nat) (port : NetPort)
  | auxRailsInRegulation (dt : Nat)
  | aoReady (dt : Nat) (startupHoldN : Bool)
  | leesPurgeComplete (dt : Nat) (clean : Bool)
  | bootImageVerified (dt : Nat)
  | restore (dt : Nat)
  | serviceEntry (dt : Nat)
  | portSupplyStopped (dt : Nat) (a b : Bool)
  | holdUpExhausted (dt : Nat)
  | hupReady (dt : Nat)
  | lldpAllocation (dt : Nat) (port : NetPort) (mw : Nat)
  | governorPeriod (dt : Nat) (m : PowerMeas)
  | shedRestore (dt : Nat)
  | powerBudgetRelease (dt : Nat)
  | auxFault (dt : Nat) (r : Rail)
  | auxRetry (dt : Nat) (r : Rail) (ok : Bool)
  | resetNLow (dt : Nat)
  | resetNHigh (dt : Nat) (startupHoldN : Bool)
  | watchdogExpiry (dt : Nat) (startupHoldN : Bool)
  | devResetStart (dt : Nat) (startupHoldN : Bool)
  | lifeTransitionStart (dt : Nat) (startupHoldN : Bool)
  -- vintage
  | bulkRecordStored (dt : Nat) (id : BulkId)
  | vintCommitComplete (dt : Nat) (rb : ReadBack) (durationUs : Nat)
  | pendingCommitStart (dt : Nat)
  | autoCommit (dt : Nat)
  -- temperature, voltage and faults
  | thermalSensorRead (dt : Nat) (t : List Int)
  | thermalWarnRelease (dt : Nat)
  | thermalTripRelease (dt : Nat)
  | thermalResetHoldEnd (dt : Nat) (startupHoldN : Bool)
  | avsStep (dt : Nat) (slackBlend slackCoop : Int) (monitorBlend monitorCoop : Fin 16)
  | avsNegativeSlack (dt : Nat) (r : AvsRail) (slack : Int) (monitor : Fin 16)
  | avsMarginRelease (dt : Nat) (r : AvsRail)
  | recoveryEntry (dt : Nat)
  | faultLogWrite (dt : Nat)
  -- clocks
  | ptpSync (dt : Nat) (port : NetPort) (m : SyncMsg)
  | ptpAnnounce (dt : Nat) (port : NetPort) (m : AnnounceMsg)
  | referenceQualified (dt : Nat) (entry : Fin 8)
  | phaseMoveComplete (dt : Nat)
  | pllLock (dt : Nat)
  | pllLockLost (dt : Nat)
  | pllBandwidthStep (dt : Nat) (widen : Bool)
  | refLostGraceEnd (dt : Nat)
  | taiTimeout (dt : Nat)
  | clockLost (dt : Nat) (c : ClockIn) (reason : Fin 4)
  | clockResumed (dt : Nat) (p : PortId)
  | decantRelock (dt : Nat) (t : DecantTarget) (rateMhz : Nat)
  -- pads
  | syncInEdge (dt : Nat)
  | clearNLow (dt : Nat)
  | clearNHigh (dt : Nat)
  | ovrNLow (dt : Nat)
  | ovrNHigh (dt : Nat)
  | gpioMuteInput (dt : Nat) (g : Fin 16) (level : Bool)
  -- inputs and the Taster
  | inputOver (dt : Nat) (ch : Fin 32)
  | extPhantomDetect (dt : Nat) (ch : Fin 32) (above : Bool)
  | phantomRampEnd (dt : Nat) (ch : Fin 32)
  | phantomOvercurrent (dt : Nat) (ch : Fin 32)
  | phantomRetry (dt : Nat) (ch : Fin 32) (dmA : Nat)
  | matchLimit (dt : Nat) (ch : Fin 32)
  | matchReturnComplete (dt : Nat) (ch : Fin 32)
  | tasterVisitStart (dt : Nat) (t : Fin 2)
  | tasterSettleEnd (dt : Nat) (t : Fin 2)
  | tasterWindowEnd (dt : Nat) (t : Fin 2) (m : TasterMeas) (other : TasterMeas) (between : TasterMeas)
  | tasterSubstituted (dt : Nat)
  -- filters
  | settlingEnd (dt : Nat) (c : Chain)
  | filtStopComplete (dt : Nat) (c : Chain)
  | filtReloadClear (dt : Nat) (c : Chain)
  | filtSyncClear (dt : Nat)
  /-- `samples` is what the sender holds the capture to be; the outputs the chain gave are stored (R280) -/
  | captureComplete (dt : Nat) (samples : List Word)
  -- outputs
  | outputShort (dt : Nat) (n : Fin 32) (legP legM : Bool)
  | outputShortProbe (dt : Nat) (n : Fin 32) (legMicroamp : Nat)
  | servoLimit (dt : Nat) (n : Fin 32)
  | holdShort (dt : Nat) (n : Fin 8)
  | holdShortRelease (dt : Nat) (n : Fin 8)
  | rangeChangeComplete (dt : Nat) (n : Fin 8)
  | loadCheckVerdict (dt : Nat) (n : Fin 2) (mohm : Nat)
  | loadCheckRepeat (dt : Nat) (n : Fin 2)
  | speakerShortInOperation (dt : Nat) (n : Fin 2)
  | outputThermal (dt : Nat) (stage : Fin 4) (tempMc : Int)
  | outputThermalRelease (dt : Nat) (stage : Fin 4)
  -- headset
  | hsPlugInsertion (dt : Nat) (n : Fin 2)
  | hsXlrPoll (dt : Nat) (n : Fin 2) (zL zMic : Nat)
  | hsMeasurementCycle (dt : Nat) (n : Fin 2)
  | hsVerdict (dt : Nat) (n : Fin 2) (m : HsMeas)
  | hsFaultRetry (dt : Nat) (n : Fin 2)
  | hsRemoval (dt : Nat) (n : Fin 2)
  | buttonPress (dt : Nat) (n : Fin 2) (micUv ago : Nat)
  | buttonLongPress (dt : Nat) (n : Fin 2)
  | buttonRepeat (dt : Nat) (n : Fin 2)
  | buttonRelease (dt : Nat) (n : Fin 2) (ago : Nat)
  -- racking
  | rackComplete (dt : Nat)
  | dipBankSwitch (dt : Nat)
  | pendingGraphTrigger (dt : Nat)
  -- serial ports
  | tdmFrameReceived (dt : Nat) (p : Fin 4) (f : TdmFrame)
  | aes3FrameReceived (dt : Nat) (x : Fin 4) (f : AesFrame)
  | aesCsBlockComplete (dt : Nat) (x : Fin 4) (sub : Fin 2) (cs user : Bytes) (frames : Nat)
  | portStartComplete (dt : Nat) (p : PortId)
  | portStopComplete (dt : Nat) (p : PortId)
  -- network
  | linkUp (dt : Nat) (l : LinkPort) (fast : Bool)
  | linkDown (dt : Nat) (l : LinkPort) (noCommonSpeed : Bool)
  | mediaPacketReceived (dt : Nat) (m : MediaPacket)
  | streamPacketSend (dt : Nat) (slot : Fin 64)
  | streamLost (dt : Nat) (slot : Fin 64)
  | streamReportRepeat (dt : Nat) (slot : Fin 64)
  | pathLost (dt : Nat) (slot : Fin 64) (path : NetPort)
  | arpRequest (dt : Nat) (l : LinkPort) (targetIp senderIp : BitVec 32) (senderMac : BitVec 48)
  | icmpEcho (dt : Nat) (l : LinkPort) (targetIp senderIp : BitVec 32) (data : Bytes)
  | igmpQuery (dt : Nat) (l : LinkPort) (v2 : Bool) (group : BitVec 32)
  | switchForward (dt : Nat) (l : LinkPort) (f : EthFrame)
  | fdbAgeOut (dt : Nat) (mac : BitVec 48) (vlan : BitVec 12)
  -- Cooper scheduling
  | coopBlockTrigger (dt : Nat) (core : Fin 4)
  | coopInitComplete (dt : Nat) (core : Fin 4)
  | coopOverrun (dt : Nat) (core : Fin 4)
  | coopRunaway (dt : Nat) (core : Fin 4)
  | coopRestart (dt : Nat) (core : Fin 4)
  | coopRestartCountReset (dt : Nat) (core : Fin 4)
  | dmaDone (dt : Nat) (core : Fin 4) (ch : Fin 4)
  -- Cooper instructions
  | mac (core : Fin 4) (f : MulFields)
  | msu (core : Fin 4) (f : MulFields)
  | mpy (core : Fin 4) (f : MulFields)
  | add (core : Fin 4) (f : AddForm)
  | sub (core : Fin 4) (f : AddForm)
  | and (core : Fin 4) (f : LogicForm)
  | or (core : Fin 4) (f : LogicForm)
  | xor (core : Fin 4) (f : LogicForm)
  | shl (core : Fin 4) (f : ShiftForm)
  | asr (core : Fin 4) (f : ShiftForm)
  | norm (core : Fin 4) (f : NormForm)
  | rnd (core : Fin 4) (f : RndForm)
  | sat (core : Fin 4) (f : SatForm)
  | cmp (core : Fin 4) (f : CmpForm)
  | ld (core : Fin 4) (f : LdForm)
  | ldd (core : Fin 4) (f : LddFields)
  | st (core : Fin 4) (f : StForm)
  | br (core : Fin 4) (c : Cond) (t : BrTarget)
  | call (core : Fin 4) (t : BrTarget)
  | ret (core : Fin 4)
  | rep (core : Fin 4) (len1 : Fin 1024) (count : BitVec 16)
  | repRegisterCount (core : Fin 4) (len1 : Fin 1024) (n : Fin 16)
  | endrep (core : Fin 4) (c : Cond)
  | wait (core : Fin 4) (mask : BitVec 4)
  | blkdone (core : Fin 4)
  | halt (core : Fin 4)
  | acs (core : Fin 4) (f : AcsForm)
  | bexp (core : Fin 4) (f : BexpForm)
  -- later rows of the table
  | announceReceiptTimeout (dt : Nat) (port : NetPort)
  | ptpMasterTransmit (dt : Nat) (port : NetPort) (k : PtpKind)
  | ptpDelayRequest (dt : Nat) (port : NetPort)
  | ptpDelayResponse (dt : Nat) (port : NetPort) (pathNs : Int)
  | wclkInEdge (dt : Nat) (period : Nat)
  | aes3TransmitFrame (dt : Nat) (x : Fin 4)
  | matchSuspect (dt : Nat) (ch : Fin 32) (residual : Int)
  | hsSideAtLimit (dt : Nat) (n : Fin 2) (right : Bool)
  | illegalInstruction (core : Fin 4)
  | fwEraseComplete (dt : Nat)
  | testSelfComplete (dt : Nat) (durationUs : Nat)
  | hostnetBridgeFrame (dt : Nat) (fromHost : Bool) (toModule : Bool) (f : EthFrame)
  deriving DecidableEq, Repr

end Sys2Proof
end

