-- ==== Sys2Proof/Decode.lean ====
section
/-! DEFINITION. Reading a command from a word of the opcode table's bits. -/

namespace Sys2Proof

/-- The command a word spells by the table's bits. No row of the table gives bits: the commands are packets, events and
Cooper words, whose forms chapters 04 and 15 give and which `parsePacket` and `coopDecode` read. -/
def decodeTableWord (_nbits _w : Nat) : Option Instr := none

end Sys2Proof
end

