-- ==== Sys2Proof/Machine/Crypto.lean ====
section
/-! DEFINITION. The codes that protect packets: CRC-32C as R129 gives it, and SHA-256 with HMAC (R139), the named
standards FIPS 180-4 and FIPS 198-1 (PRESUMED, log 8). -/

namespace Sys2Proof.Machine

/-- One bit of the reflected CRC-32C division (R129). -/
def crcBit (c : BitVec 32) : BitVec 32 :=
  if c.getLsbD 0 then (c >>> 1) ^^^ 0x82F63B78 else c >>> 1

/-- One byte of CRC-32C. -/
def crcByte (c : BitVec 32) (b : Byte) : BitVec 32 :=
  crcBit (crcBit (crcBit (crcBit (crcBit (crcBit (crcBit (crcBit (c ^^^ b.setWidth 32))))))))

/-- CRC-32C over a byte string (R129). -/
def crc32c (bs : Bytes) : BitVec 32 :=
  (bs.foldl crcByte 0xFFFFFFFF) ^^^ 0xFFFFFFFF

/-- The bits of a `k`-th root from bit `b` - 1 down, found one after another: the largest `r` with `r ^ k` at most `x`. -/
def rootFrom (k x : Nat) : Nat → Nat → Nat
  | 0, r => r
  | b + 1, r => rootFrom k x b (if (r + 2 ^ b) ^ k ≤ x then r + 2 ^ b else r)

/-- The first 32 bits of the fraction of the `k`-th root of `p`: what FIPS 180-4 takes its constants from. -/
def rootFraction (k p : Nat) : BitVec 32 := BitVec.ofNat 32 (rootFrom k (p * 2 ^ (32 * k)) 36 0)

/-- The 64 primes up to 311. -/
def firstPrimes : List Nat :=
  (List.range 312).filter (fun n => decide (2 ≤ n) && (List.range 16).all (fun d => n == d + 2 || n % (d + 2) != 0))

/-- Three rotations of a word, the third a shift where `cut` is set, combined by exclusive or. -/
def shaMix (cut : Bool) (i j k : Nat) (x : BitVec 32) : BitVec 32 :=
  (if cut then x >>> k else x.rotateRight k) ^^^ (x.rotateRight j ^^^ x.rotateRight i)

/-- One round on the eight working words, given the sum of its schedule word and its constant: the words move up by one place, the
fifth takes up the round's sum, and the first becomes it with what the first three give. -/
def shaTurn (sum : BitVec 32) (v : List (BitVec 32)) : List (BitVec 32) :=
  let x (n : Nat) : BitVec 32 := v.getD n 0
  let chosen := x 6 ^^^ (x 4 &&& (x 5 ^^^ x 6))
  let most := (x 0 &&& x 1) ||| (x 2 &&& (x 0 ||| x 1))
  let t := x 7 + shaMix false 6 11 25 (x 4) + chosen + sum
  let top := t + shaMix false 2 13 22 (x 0) + most
  top :: v.take 3 ++ (x 3 + t) :: (v.drop 4).take 3

/-- The rounds of a block: each takes the oldest word of a window of 16, which moves on by the word that follows from it. -/
def shaRounds : List Nat → List (BitVec 32) → List (BitVec 32) → List (BitVec 32)
  | [], _, v => v
  | p :: rest, window, v =>
    let w (n : Nat) : BitVec 32 := window.getD n 0
    let next := shaMix true 17 19 10 (w 14) + w 9 + shaMix true 7 18 3 (w 1) + w 0
    shaRounds rest (window.drop 1 ++ [next]) (shaTurn (rootFraction 3 p + w 0) v)

/-- Takes `n` blocks of 64 bytes into the hash value. -/
def shaBlocks : Nat → List (BitVec 32) → Bytes → List (BitVec 32)
  | 0, v, _ => v
  | n + 1, v, bytes =>
    let window := (List.range 16).map (fun i =>
      (List.range 4).foldl (fun (a : BitVec 32) j => (a <<< 8) ||| (bytes.getD (4 * i + j) 0).setWidth 32) 0)
    shaBlocks n (List.zipWith (· + ·) v (shaRounds firstPrimes window v)) (bytes.drop 64)

/-- `n` bytes of a number, most significant first. -/
def beBytes : Nat → Nat → Bytes
  | 0, _ => []
  | n + 1, v => BitVec.ofNat 8 (v / 256 ^ n) :: beBytes n v

/-- SHA-256 of a byte string. -/
def sha256 (m : Bytes) : Bytes :=
  let k := (119 - m.length % 64) % 64
  let padded := m ++ [0x80] ++ List.replicate k 0 ++ beBytes 8 (8 * m.length)
  (shaBlocks (padded.length / 64) ((firstPrimes.take 8).map (rootFraction 2)) padded).flatMap (fun x => beBytes 4 x.toNat)

/-- HMAC-SHA-256 under a 32-byte key (R139). -/
def hmacSha256 (key m : Bytes) : Bytes :=
  let k := key ++ List.replicate (64 - key.length) 0
  sha256 (k.map (· ^^^ 0x5c) ++ sha256 (k.map (· ^^^ 0x36) ++ m))

end Sys2Proof.Machine
end

