-- ==== Sys2Proof/Config.lean ====
section
/-! DEFINITION. What one module fixes for itself and what the manual leaves open: identity and version numbers
(R177), keys in ROM, and the free values, constants without a body about which nothing can be proved. -/

namespace Sys2Proof.Config

/-- The module is a CLM-256X (R1). -/
opaque gradeX : Bool
/-- MODULE_ID (R177). -/
opaque moduleId : Nat → BitVec 8
/-- HW_LEVEL counted from 1, BOOT_VERSION, CAL_DAYS and the MAC_BASE bytes (R177). -/
opaque hwLevelAbove : Fin 255
opaque bootVersion : BitVec 32
opaque calDays : BitVec 32
opaque macBase : BitVec 48
/-- Numbers of the image the module is delivered with (R124, R177). -/
opaque factoryVersion : BitVec 32
opaque factorySecVersion : BitVec 32
/-- VINT_FORMAT counted from 1 that the delivered image writes, and an image of a VERSION (R177). -/
opaque factoryFormat : Fin 65535
opaque imageFormat : Nat → Fin 65535
/-- The image in the flash reads the vintage format given (R124, VINT_FORMATS), for the delivered image. -/
opaque factoryReads : Nat → Bool
/-- ECDSA P-256 verification: key, message, signature (R119, R123, R468). A named standard, not given in the manual. -/
opaque ecdsaVerify : List (BitVec 8) → List (BitVec 8) → List (BitVec 8) → Bool
/-- The Planuval public key held in ROM (R123). -/
opaque planuvalKey : List (BitVec 8)
/-- The nonce drawn at the k-th draw (R120). -/
opaque nonce : Nat → BitVec 64
/-- The rate the PTP servo sets after a Sync with a non-zero offset below STEP_NS, units of 2^-40 (R179, R181). -/
opaque servoRate : Nat → Int
/-- Size of a state record captured now (R105, R113), bytes. -/
opaque stateSize : Nat → BitVec 32

/-- The seed AO's random generator draws at the k-th start with SEED 0 (R383). -/
opaque genSeed : Nat → BitVec 32

/-- DC blocker and wind HPF of a Press chain (R274, R275), whose arithmetic the manual does not give: from the rate
(and the setting), the branch's state and a sample, the state and the sample after. -/
opaque dcBlocker : Nat → Int → Int → Int × Int
opaque hpf : Nat → Nat → Nat → Int → Int → Int × Int
/-- Taps, Q2.30, of a standard response's programmable FIR (R257): Pour or not, response, number; and how many a
minimum-phase one has, counted from 1. -/
opaque stdTap : Bool → Nat → Nat → BitVec 32
opaque minTaps : Bool → Fin 512
/-- A sample after a halfband stage (R255), whose coefficients the manual does not give: Pour or not, its minimum-phase variant or
not, the stage, the fine phase delay it applies (R273), and its input newest first. -/
opaque halfband : Bool → Bool → Nat → Nat → List Int → Int
/-- A sum of products of the programmable FIR that does not fit 72 bits (R256). -/
opaque firOver : Int → Int
/-- The high path delayed by a fraction of a sample (R226): delay in ps, the path newest first. -/
opaque fracDelay : Int → List Int → Int
/-- Factory calibration of a converter's matching loop (R227): gain in 10^-6 dB, delay in ps. What the loop adds to them in a
frame it adapts (R226): converter, MU_SHIFT, frame. -/
opaque matchGain : Nat → Int
opaque matchDelay : Nat → Int
opaque matchStep : Nat → Nat → Nat → Int × Int
/-- Factory calibration of a line output's DC servo (R291), µV, and what the servo adds to it in a frame it runs: output, leg,
SERVO_TC, frame. -/
opaque servoFactory : Nat → Nat → Int
opaque servoStep : Nat → Nat → Nat → Nat → Int
/-- Group delay (1/128 frame) of a custom set whose response at 1 kHz is zero, and DC gain of one whose taps do not sum
above zero (R276). -/
opaque delayQ7 : Int → Int
opaque dcGain : Int → Int

/-- A value the hardware measures and no command of the table brings in: quantity, object, SYSCNT. -/
opaque measure : Nat → Nat → Nat → Int
/-- Whether a value between two units takes the upper one where the manual does not say how it is rounded: quantity, and the
exact value in the model's units. -/
opaque roundUp : Nat → Int → Bool

/-- Verdict of a headset cycle where no row of R319 applies: impedances of left, right and microphone. -/
opaque hsOther : Nat → Nat → Nat → Nat

/-- A sample Decant computes (R206, R208, R209), whose filter the manual does not give: target, channel, the instant on the
target's timeline, and the samples around it with their times, oldest first. -/
opaque decantOut : Nat → Nat → Int → List (Int × Int) → Int
/-- First sequence number and SSRC drawn at an enable (R439, R441). -/
opaque rtpSeq : Nat → BitVec 16
opaque rtpSsrc : Nat → BitVec 32
/-- ARP has resolved a declared unicast destination or gateway (R425): address, SYSCNT. -/
opaque arpResolved : Nat → Nat → Bool
/-- The MAC address it has resolved to. -/
opaque arpMac : Nat → Nat → BitVec 48

/-- What a Cooper core reads at an unlisted word of its CTRL page (R459): core, offset, draw. -/
opaque ctrlHole : Nat → Nat → Nat → BitVec 32
/-- C after a shift by 0 (R485): no bit has left; per draw. -/
opaque shiftC : Nat → Bool
/-- Cycles a block waited for DMA (R461, R463), per draw. -/
opaque stallCycles : Nat → Nat
/-- Byte offset of the Cooper pool in Cask (R460). -/
opaque caskPool : Nat


/-- A generator's sample at amplitude 1, units of 2^-31, before its level (R384): a sine at a phase (numerator and
denominator of a turn), noise of a seed at a frame, a sweep (F1, F2, duration, rate) at a frame. -/
opaque sine : Nat → Nat → Int
opaque noise : Nat → Nat → Nat → Int
opaque sweep : Nat → Nat → Nat → Nat → Nat → Int
/-- True peak of a sample (R377, R381), whose 4x interpolation filter is a named standard: handle, frame; units of
2^-31. -/
opaque truePeak : Nat → Nat → Nat
/-- Dither of a sink at a frame (R379), units of 2^-31 before its bound. -/
opaque dither : Nat → Nat → Int

end Sys2Proof.Config
end

