-- ==== Sys2Proof/Machine/Tab.lean ====
section
/-! DEFINITION. Sparse tables: lists of (key, value) pairs in one canonical form, keys strictly rising and no entry
equal to the value an unlisted key has. Channel tables, gains, meters and byte memories are held in them. -/

namespace Sys2Proof

/-- A table from natural-number keys. What an unlisted key reads as is an argument of the operations. -/
abbrev Tab (α : Type) := List (Nat × α)

/-- The value at key `k`; `d` where nothing is listed. -/
def tget {α : Type} (d : α) : Tab α → Nat → α
  | [], _ => d
  | (j, v) :: t, k => if j = k then v else if k < j then d else tget d t k

/-- Writes `v` at key `k`, keeping the canonical form: writing the default removes the entry. -/
def tset {α : Type} [DecidableEq α] (d : α) : Tab α → Nat → α → Tab α
  | [], k, v => if v = d then [] else [(k, v)]
  | (j, w) :: t, k, v =>
    if k < j then (if v = d then (j, w) :: t else (k, v) :: (j, w) :: t)
    else if k = j then (if v = d then t else (k, v) :: t)
    else (j, w) :: tset d t k v

/-- Applies `f` to the value at key `k`. -/
def tmod {α : Type} [DecidableEq α] (d : α) (t : Tab α) (k : Nat) (f : α → α) : Tab α :=
  tset d t k (f (tget d t k))

/-- Every listed key is at least `lo` and the keys rise strictly. -/
def tabRising {α : Type} : Nat → Tab α → Bool
  | _, [] => true
  | lo, (k, _) :: t => decide (lo ≤ k) && tabRising (k + 1) t

/-- The canonical form of a table with default `d`. -/
def tabWf {α : Type} [DecidableEq α] (d : α) (t : Tab α) : Bool :=
  tabRising 0 t && t.all (fun e => decide (e.2 ≠ d))

/-- Byte memory: an unlisted address reads as zero, as the lees purge leaves it (R117, R118). -/
abbrev Memory := Tab Byte

/-- The canonical form of a memory. -/
def memWf (m : Memory) : Bool := tabWf (0 : Byte) m

end Sys2Proof
end

