-- ==== Sys2Proof/Machine/State.lean ====
section
/-! DEFINITION. The state of the CLM-256 as plain data, every register, queue, buffer and mode the manual gives it,
and the queue of waiting commands; the state after reset; and how a step can stop. -/

namespace Sys2Proof.Machine

/-! ### Names used throughout -/

/-- The operating modes (R89), in the order of their codes. -/
inductive Mode where
  | off | reset | start | hold | service | maintenance | recovery
  deriving DecidableEq, Repr

/-- Lifecycle states (R119), in the order of their codes. -/
inductive LifeState where
  | blank | provisioned | deployed | returned
  deriving DecidableEq, Repr

/-- Reply statuses (R538). -/
inductive Status where
  | ok | okDeferred | okStaged | warnHeadroom | warnDip | shadowStale | busy | wrongMode | locked | badOpcode
  | badLength | badParam | outOfRange | badHandle | badVersion | crcError | authFail | replay | noResource
  | graphTooLarge | queueFull | internal
  deriving DecidableEq, Repr

/-- The host opcodes (R523 to R529). -/
inductive Op where
  | nop | devInfo | devState | devRun | devMode | devReset | boardDescribe | timeRead | eventMask
  | vintCommit | vintStatus | vintPolicy | vintClear | lifeState | lifeAdvance | fwBegin | fwData | fwEnd | fwSelect
  | keyInstall
  | graphStage | graphCommit | graphAbort | graphQuery | routeSet | latencyQuery
  | gainSet | muteSet | rampDefaults | sinkSet | genSet | override | overrideConfig | meterRead
  | inputSet | inputStatus | tasterConfig | tasterRun | tasterSubstitute | inputExpert
  | outputSet | outputStatus | holdSet | holdSafeSet | speakerSet | clearConfig | outputExpert
  | filtConfig | filtCoefLoad | filtRun | filtSync | filtPhase | filtStatus | filtExpert
  | tdmSet | aesSet | portStart | portStop | portStatus | portStamp | aesCsSet | aesCsRead
  | clockRefs | clockStatus | ptpSet | wclkSet | fsSet | decantSet | alignGroupSet | clockExpert
  | netSet | streamRxSet | streamTxSet | streamEnable | streamStatus | netStatus | netAuthSet
  | hsSet | hsStatus | hsEvents | hsExpert
  | coopLoad | coopStart | coopStop | coopStatus | coopParam | coopDebug
  | faultRead | faultAck | powerStatus | powerPolicy | thermalStatus
  | expertOpen | expertClose | regRead | regWrite | testLoop | testSelf
  deriving DecidableEq, Repr

/-! ### Pads (R52 to R56, R58) -/

/-- Levels of the input pads, as recognised after their deglitch filters. -/
structure Pads where
  resetN : Bool := true
  clearN : Bool := true
  ovrN : Bool := true
  startupHoldN : Bool := true
  gpioIn : BitVec 16 := 0
  /-- levels of the GPIO outputs, and which of them are driven; the others are high impedance (R56) -/
  gpioOut : BitVec 16 := 0
  gpioDriven : BitVec 16 := 0
  pwrGood : Bool := false
  pdStat0 : Bool := false
  pdStat1 : Bool := false
  /-- WCLK_OUT at the latest tick: its level, `none` while it is high impedance (R56, R203) -/
  wclkOut : Option Bool := none
  /-- MCLK_OUT gives a clock of this many cycles a frame, `none` while it is high impedance (R203) -/
  mclkOut : Option Nat := none
  deriving DecidableEq, Repr

/-! ### Power (chapter 02) -/

/-- Fields of BOARD_DESCRIBE (R59) but HOUT_WIRED, whose value in force is the safe record's (R111). -/
structure BoardCfg where
  ainWired : BitVec 32 := 0xFFFFFFFF
  phantomPermit : BitVec 32 := 0
  loutWired : BitVec 32 := 0xFFFFFFFF
  houtWired : BitVec 8 := 0
  hsWired : BitVec 2 := 3
  hsConnector : BitVec 4 := 0
  spkWired : BitVec 2 := 0
  spk0Load : Nat := 80
  spk1Load : Nat := 80
  aux3v3Ma : Nat := 2000
  aux5v0Ma : Nat := 1000
  tdmWired : BitVec 4 := 0xF
  aesWired : BitVec 8 := 0xFF
  miscWired : BitVec 5 := 0x1F
  hostnetMode : Nat := 0
  gpioMode : List Nat := List.replicate 16 0
  deriving DecidableEq, Repr

/-- Fields of POWER_POLICY (R84). -/
structure PowerPolicyCfg where
  onePort : Bool := false
  lldpMode : Nat := 0
  guardW : Nat := 3
  lldpA : Nat := 0
  lldpB : Nat := 0
  deriving DecidableEq, Repr

/-- One network port as a powered device (R62 to R68). -/
structure PdPort where
  granted : Nat := 0
  /-- power applied and inrush running (step 2 of R86) -/
  applied : Bool := false
  supplying : Bool := false
  /-- AO's count at input power good, from which the 80 ms of R64 run -/
  goodAt : Nat := 0
  counting : Bool := false
  /-- LLDP allocation in force, and one received that enters at the next governor period (R68), mW -/
  lldp : Option Nat := none
  lldpNext : Option (Option Nat) := none
  /-- AO's count when the module last sent its power-via-MDI TLV here (R68) -/
  lldpSent : Option Nat := none
  deriving DecidableEq, Repr

/-- The power path, the governor and the hold-up (R62 to R85). -/
structure Pwr where
  portA : PdPort := {}
  portB : PdPort := {}
  /-- AO runs on its RC oscillator (step 3 of R86) -/
  aoOn : Bool := false
  auxOn : Bool := false
  auxReg : Bool := false
  auxFault3 : Bool := false
  auxFault5 : Bool := false
  /-- AO's count at which a rail was switched off or last retried (R77) -/
  auxTry3 : Nat := 0
  auxTry5 : Nat := 0
  auxOver : Bool := false
  /-- averages of the AUX loads over the last 10 s: SYSCNT, mA -/
  aux3Hist : List (Nat × Nat) := []
  aux5Hist : List (Nat × Nat) := []
  meas : PowerMeas := ⟨0, 0, 0, 0, 0, false, 0, 0, 0, false⟩
  /-- counts of 5 ns since AO started on its RC oscillator -/
  aoCnt : Nat := 0
  /-- B and R_ns as the latest governor period took them (R68, R76, R235): mW, µW -/
  budget : Nat := 0
  rns : Nat := 0
  /-- what the governor charges the sheddable loads that are active (R70), mW -/
  charge : Nat := 0
  /-- periods have had P at or below T − 3 W since this count, and B at or above R_ns + 2 W since this one -/
  lowSince : Option Nat := none
  fitSince : Option Nat := none
  /-- AO's count at the latest step of restoring (R74) -/
  restoreAt : Nat := 0
  hupReady : Bool := false
  hupCharging : Bool := false
  /-- power-loss sequence running since this SYSCNT (R80) -/
  loss : Option Nat := none
  /-- governor speaker ceiling and headset level, mdB; −144000 is off (R72) -/
  spkCeil : Int := 0
  hsLevel : Int := 0
  phShed : BitVec 32 := 0
  /-- consecutive periods with P above B; and those since POWER_BUDGET shed every load -/
  overB : Nat := 0
  overBShort : Nat := 0
  restoring : Bool := false
  hard : Bool := false
  flags : BitVec 8 := 0
  /-- the speaker limit of R3 relative to 15 W, mdB; 0 while it does not act -/
  caseCeil : Int := 0
  govTest : Word := 0
  govEvents : Nat := 0
  deriving DecidableEq, Repr

/-! ### Start-up, retained state and lifecycle (chapter 03) -/

/-- Fields of VINT_POLICY (R114). -/
structure VintPolicyCfg where
  autoRun : Bool := false
  powerLossCommit : Bool := false
  restoreFade : Nat := 500000
  autoCommitS : Nat := 0
  deriving DecidableEq, Repr

/-- Contents of one image area of the firmware flash (R123, R125). -/
inductive FwImage where
  | blank
  /-- the image the module was delivered with; its numbers are Config's -/
  | factory
  /-- bytes as FW_DATA wrote them, and whether FW_END verified them -/
  | loaded (data : Bytes) (verified : Bool)
  deriving DecidableEq, Repr

/-- Why the module stays in START (R87). -/
inductive Held where
  | no | boot | purge
  deriving DecidableEq, Repr

/-- Phase of a warm reset (R100). -/
inductive ResetPhase where
  | idle
  /-- step 2: the drivers mute since this SYSCNT; STARTUP_HOLD_N as it will be sampled where RESET_N is high; whether the
  extended hold of R518 follows -/
  | muting (since : Nat) (holdN thermal : Bool)
  /-- steps 1 to 3 done; waiting for RESET_N high -/
  | waiting
  /-- the extended hold of R518 -/
  | thermal
  deriving DecidableEq, Repr

/-- Modes, start-up, firmware, keys and lifecycle. -/
structure Life where
  mode : Mode := .off
  prev : Mode := .off
  since : Nat := 0
  cause : Nat := 0
  /-- the crystal runs and SYSCNT counts -/
  crystal : Bool := false
  holdPad : Bool := false
  autoRunRestored : Bool := false
  factoryRestored : Bool := false
  powerLossSlot : Bool := false
  trialBoot : Bool := false
  slot : Option (Fin 2) := none
  vintSeq : Nat := 0
  image : Option (Fin 2) := none
  purgeTries : Nat := 0
  purgeDone : Bool := false
  fwDone : Bool := false
  held : Held := .no
  phase : ResetPhase := .idle
  /-- DEV_RUN or AUTO_RUN waiting for entry to SERVICE, with its FADE_US (0: RESTORE_FADE) -/
  runPending : Option Nat := none
  stayHold : Bool := false
  /-- DEV_RESET and LIFE_ADVANCE accepted: what they ask for, and the SYSCNT at which it begins (R96, R530) -/
  resetDue : Option (Bool × Nat) := none
  lifeDue : Option (LifeState × Nat) := none
  watchdog : Bool := false
  state : LifeState := .blank
  integratorKey : Option Bytes := none
  netKeys : List (Option Bytes) := List.replicate 16 none
  nonce : BitVec 64 := 0
  minSec : Word := 0
  imageA : FwImage := .factory
  imageB : FwImage := .blank
  defaultImage : Fin 2 := 0
  trialMark : Option (Fin 2) := none
  /-- FW_BEGIN accepted: target, IMAGE_LEN -/
  fwTarget : Option (Fin 2 × Nat) := none
  fwErasing : Bool := false
  /-- TEST_SELF running: its TESTS -/
  testSelf : Option Word := none
  deriving DecidableEq, Repr

/-- One hold output's entry of the safe record (R111). Values in the units of HOLD_SAFE_SET. -/
structure SafeEntry where
  declared : Bool := false
  range : Nat := 0
  value : Int := 0
  slew : Nat := 5000
  deriving DecidableEq, Repr

/-- One copy of the safe record (R111). -/
structure SafeCopy where
  valid : Bool := true
  seq : Nat := 0
  entries : List SafeEntry := List.replicate 8 {}
  deriving DecidableEq, Repr

/-- A bulk record of the pool (R104): its object, the version of the object it holds, its size in 64-byte lines. -/
structure BulkRec where
  id : BulkId
  version : Nat
  lines : Nat
  /-- it has space in the pool -/
  placed : Bool
  complete : Bool
  deriving DecidableEq, Repr

/-- Commit kinds (R113). -/
inductive CommitKind where
  | command | periodic | powerLoss
  deriving DecidableEq, Repr

/-! ### Command packets, transports and sessions (chapter 04) -/

/-- A reply waiting to be read or sent (R130): its header fields and payload. -/
structure Reply where
  opcode : BitVec 16
  tag : BitVec 16
  status : Status
  payload : Bytes
  cls : Fin 4
  deriving DecidableEq, Repr

/-- A datagram the module has sent from port 4750 (R138), with the trailer of R142 where it is authenticated. -/
structure SentReply where
  destIp : BitVec 32
  destPort : BitVec 16
  port : LinkPort
  reply : Reply
  trailer : Bytes
  deriving DecidableEq, Repr

/-- A command waiting in the queue of R146. -/
structure Queued where
  op : Op
  hdr : Hdr
  payload : Bytes
  since : Nat
  aged : Bool := false
  /-- its place in the order of arrival at the module (R35) -/
  arr : Nat := 0
  deriving DecidableEq, Repr

/-- A prepared effect that lands at a tick (R34, R155). -/
structure Landing where
  op : Op
  hdr : Hdr
  payload : Bytes
  completion : Bool := false
  /-- its place in the order of arrival at the module (R35, R159) -/
  arr : Nat := 0
  /-- its apply time had passed when it was prepared: it is due at the next tick (R156) -/
  atOnce : Bool := false
  deriving DecidableEq, Repr

/-- A held network session (R144), and the port its latest packet came through. -/
structure Session where
  rq : Requester
  port : LinkPort
  last : Nat
  deriving DecidableEq, Repr

/-- Read shadow of a requester (R167). -/
structure ReadShadow where
  addr : BitVec 32 := 0
  high : Word := 0
  consumed : Bool := true
  deriving DecidableEq, Repr

/-- Write shadow of a requester (R169). -/
structure WriteShadow where
  addr : BitVec 32 := 0
  low : Word := 0
  valid : Bool := false
  deriving DecidableEq, Repr

/-- The expert session (R172). -/
structure Expert where
  owner : Requester
  idleS : Nat
  last : Nat
  deriving DecidableEq, Repr

/-- Fields of EVENT_MASK (R163), part of the vintage. -/
structure EventCfg where
  irqMask : BitVec 8 := 1
  notify : Bool := false
  deriving DecidableEq, Repr

/-- Fields of NET_AUTH_SET (R535), part of the vintage. -/
structure NetAuthCfg where
  unauthRead : Bool := true
  keyEnable : BitVec 16 := 0xFFFF
  deriving DecidableEq, Repr

/-- A refusal sent to a source address (R141): the SYSCNT values of the refusals of the last second. -/
structure RefusalRate where
  ip : BitVec 32
  times : List Nat
  deriving DecidableEq, Repr

/-- The command layer: input buffer, queues, reply stores, sessions, events, expert session. -/
structure Cmd where
  /-- packets still in the SPI input buffer while the holding list is full (R137) -/
  inBuf : List Bytes := []
  queue : List Queued := []
  /-- packets admitted since the reset -/
  arrivals : Nat := 0
  /-- the command the control core has selected, until it has been executed -/
  running : Option Queued := none
  preempted : List Queued := []
  store : List Reply := []
  holding : List Reply := []
  miso : Bytes := []
  sent : List SentReply := []
  sessions : List (Option Session) := List.replicate 8 none
  keyHigh : Tab Nat := []
  keyOut : Tab Nat := []
  refusals : List RefusalRate := []
  /-- the shadows of each requester that has used one -/
  readShadow : List (Requester × ReadShadow) := []
  writeShadow : List (Requester × WriteShadow) := []
  /-- the timed queue, in order of arrival (R159) -/
  timed : List Landing := []
  landing : List Landing := []
  /-- commands whose reply comes after a sequence (R533): opcode, header, and the bytes of R157 that precede its
  payload where the command was timed -/
  late : List (Op × Hdr × Bytes) := []
  events : BitVec 8 := 0
  listener : Option Requester := none
  /-- when each listener got its last notice, kept for 10 ms -/
  notices : List (Requester × Nat) := []
  noticeDue : Bool := false
  expert : Option Expert := none
  deriving DecidableEq, Repr

/-! ### Clocks, time, rate conversion and alignment (chapter 05) -/

/-- An entry of CLOCK_REFS (R185): KIND and INDEX as R184 numbers them. -/
structure RefEntry where
  kind : Nat
  index : Nat
  deriving DecidableEq, Repr

/-- Fields of CLOCK_REFS (R185). -/
structure ClockRefsCfg where
  revert : Bool := true
  waitS : Nat := 60
  entries : List RefEntry := [⟨5, 0⟩]
  deriving DecidableEq, Repr

/-- Fields of PTP_SET (R192). -/
structure PtpCfg where
  profile : Nat := 0
  domain : Nat := 0xFF
  ports : BitVec 2 := 3
  role : Bool := false
  priority1 : Nat := 128
  priority2 : Nat := 128
  logSync : BitVec 8 := 0x7F
  logAnnounce : BitVec 8 := 0x7F
  announceTimeout : Nat := 3
  delayMech : Bool := false
  logDelayReq : BitVec 8 := 0x7F
  stepNs : Nat := 1000000
  deriving DecidableEq, Repr

/-- Fields of WCLK_SET (R202). -/
structure WclkCfg where
  inDiv : Nat := 1
  inEdge : Bool := false
  wclkOut : Nat := 0
  mclkOut : Nat := 0
  deriving DecidableEq, Repr

/-- Decant assignments (R207). -/
structure DecantCfg where
  tdmIn : BitVec 4 := 0
  tdmOut : BitVec 4 := 0
  aesIn : BitVec 4 := 0
  aesOut : BitVec 4 := 0
  streamRx : BitVec 64 := 0
  streamTx : BitVec 64 := 0
  deriving DecidableEq, Repr

/-- An alignment group (R211). -/
structure AlignGroup where
  kind : Nat := 0
  repeatLimit : Nat := 8
  linkUs : Nat := 1000
  deriving DecidableEq, Repr

/-- The clock settings a vintage holds (R102). -/
structure ClockCfg where
  refs : ClockRefsCfg := {}
  ptp : PtpCfg := {}
  wclk : WclkCfg := {}
  fs : Fin 3 := 0
  decant : DecantCfg := {}
  align : Tab AlignGroup := []
  deriving DecidableEq, Repr

/-- Qualification of a reference (R186, R187), by KIND × 4 + INDEX. -/
structure Qual where
  qualified : Bool := false
  since : Nat := 0
  /-- how often it has qualified since the reset -/
  count : Nat := 0
  deriving DecidableEq, Repr

/-- The monitor of a clocked input (R197 to R201). -/
structure Monitor where
  seen : Bool := false
  lost : Bool := false
  reason : Nat := 0
  /-- frame edges since the monitor started -/
  edges : Nat := 0
  /-- edge numbers of recent glitches -/
  glitches : List Nat := []
  /-- frames without a glitch since the last glitch or loss -/
  good : Nat := 0
  /-- edge-to-edge periods of the last 16 frames, SYSCNT counts, newest first -/
  periods : List Nat := []
  lastEdge : Nat := 0
  /-- periods summed over the second that runs, and their number (R186) -/
  secSum : Nat := 0
  secCount : Nat := 0
  /-- the mean of the latest whole second lies within 100 ppm of the expected rate (R186) -/
  meanOk : Bool := false
  /-- SYSCNT of the first edge, or of the latest glitch or loss -/
  cleanSince : Nat := 0
  deriving DecidableEq, Repr

/-- One port's PTP slave (R186, R194). -/
structure PtpPort where
  locked : Bool := false
  goodRun : Nat := 0
  badRun : Nat := 0
  /-- offset against this port's grandmaster at its last Sync, units of 2^-16 ns -/
  offset : Int := 0
  pathNs : Int := 0
  syncs : Nat := 0
  master : Option AnnounceMsg := none
  gmId : BitVec 64 := 0
  gmClass : BitVec 8 := 0
  steps : BitVec 8 := 0
  /-- SYSCNT of the latest Announce, and of the latest Announce, Sync and delay request sent -/
  announceAt : Nat := 0
  sentAnnounce : Option Nat := none
  sentSync : Option Nat := none
  sentDelay : Option Nat := none
  deriving DecidableEq, Repr

/-- State of the audio PLL as CLOCK_STATUS codes it (R217). -/
inductive PllState where
  | acquiring | locked | holdover | moving
  deriving DecidableEq, Repr

/-- The audio PLL and reference selection (R187 to R191, R219). -/
structure Pll where
  active : Option RefEntry := none
  /-- list entry of the active reference when it was selected -/
  entry : Nat := 0xFF
  state : PllState := .acquiring
  bw : Nat := 0
  phase : Int := 0
  freq : Int := 0
  holdFreq : Int := 0
  /-- runs of equal frequency values over the last 10 s, newest first: value and frames -/
  history : List (Int × Nat) := []
  good : Nat := 0
  bad : Nat := 0
  /-- squares of the phase errors over the last 8 τ_k of this step, as runs, newest first (R190) -/
  errs : List (Int × Nat) := []
  /-- the frequency kept at a switch, and the sign of the 20 ppm that move the tick: 0 until the move's first frame (R188) -/
  keep : Int := 0
  dir : Int := 0
  /-- an edge of the active reference glitched since the latest tick (R199) -/
  skip : Bool := false
  holdSince : Option Nat := none
  lastSwitch : Nat := 0
  forcedBw : Option Nat := none
  forcedHold : Bool := false
  forcedPort : Option NetPort := none
  /-- an entry has qualified since the restore (R191) -/
  anyQualified : Bool := false
  restoredAt : Nat := 0
  deriving DecidableEq, Repr

/-- A block time stamp (R210). -/
structure BlockStamp where
  valid : Bool := false
  block : Nat := 0
  stamp : Nat := 0
  prev : Nat := 0
  /-- frame edges since the start -/
  edges : Nat := 0
  /-- clock lost since the previous PORT_STAMP -/
  lost : Bool := false
  deriving DecidableEq, Repr

/-- A Decant target's lock (R201, R207). -/
structure DecantState where
  locked : Bool := false
  rateMhz : Nat := 0
  deriving DecidableEq, Repr

/-- Clock state: the TAI map, the tick, the PLL, the monitors. -/
structure Clk where
  -- the frame tick
  ticks : Bool := false
  frame : Nat := 0
  started : Bool := false
  stamp : Nat := 0
  /-- the rate in force; it differs from the vintage's only while FS_SET runs -/
  fs : Fin 3 := 0
  /-- FS_SET accepted and waiting for its tick, and the sequence of R205 between FT(m) and step 3 -/
  fsPending : Option (Fin 3) := none
  fsSwitching : Bool := false
  /-- the next tick takes its number from PTP time (R28, R188) -/
  rebase : Bool := false
  /-- CLOCK_REFS has written a new list since the last tick (R185, R187) -/
  refsChanged : Bool := false
  /-- TAI time of the latest tick (R182) -/
  tickTai : Int := 0
  /-- the tick has been taken and its timed commands have landed; the rest of its frame follows (R33, R35) -/
  tickBegun : Bool := false
  /-- the code of WCLK_OUT whose periods are being given (R203) -/
  wclkRun : Nat := 0
  /-- as grandmaster: TAI time of the tick counted from, and ticks since (R195) -/
  gmBase : Int := 0
  gmTicks : Nat := 0
  -- TAI time
  taiT0 : Int := 0
  taiS0 : Nat := 0
  taiRate : Int := 0
  taiValid : Bool := false
  taiStepped : Bool := false
  arb : Bool := false
  grandmaster : Bool := false
  lastSync : Nat := 0
  utcOffset : BitVec 16 := 0
  ptpOffset : Int := 0
  ptpPort : Option NetPort := none
  portA : PtpPort := {}
  portB : PtpPort := {}
  -- references
  pll : Pll := {}
  quals : Tab Qual := []
  monitors : Tab Monitor := []
  glitchTotal : Nat := 0
  wclkStamp : BlockStamp := {}
  decant : Tab DecantState := []
  deriving DecidableEq, Repr

/-! ### Analogue inputs and the Taster (chapter 06) -/

/-- Fields of INPUT_SET for one channel (R236). -/
structure InCfg where
  trim : Int := 0
  phantom : Bool := false
  essential : Bool := false
  invert : Bool := false
  deriving DecidableEq, Repr

/-- Fields of TASTER_CONFIG (R246). -/
structure TasterCfg where
  enable : Bool := true
  autoSubst : Bool := false
  failMute : Bool := false
  pairCheck : Bool := true
  schedule : BitVec 32 := 0xFFFFFFFF
  windowMs : Nat := 50
  levelTol : Nat := 50
  corrPpm : Nat := 100
  noiseTol : Nat := 3000
  rackUs : Nat := 10000
  residualLimit : Int := -80000
  pauseMs : Nat := 0
  deriving DecidableEq, Repr

/-- Input settings a vintage holds, the substitution in force among them (R244). -/
structure InputCfg where
  ch : Tab InCfg := []
  taster : TasterCfg := {}
  subst : Option (Fin 32 × Fin 2) := none
  deriving DecidableEq, Repr

/-- Phases of a phantom switch (R232). -/
inductive PhStage where
  | idle | corking | ramping | settling
  deriving DecidableEq, Repr

/-- A channel's phantom supply; kept through a warm reset (R69, R234). -/
structure Phantom where
  /-- supply voltage in units of 48 V / 19,200 -/
  pos : Nat := 0
  /-- the state the switch that runs, or the last one, moves to -/
  up : Bool := false
  stage : PhStage := .idle
  /-- removed over 10 ms (R73) -/
  fast : Bool := false
  fold : Bool := false
  retries : Nat := 0
  ext : Bool := false
  /-- MIC_PRESENT (R233) -/
  mic : Bool := false
  /-- SYSCNT of the latest frame of its ramp, and of its foldback or latest retry (R232, R234) -/
  endAt : Nat := 0
  tryAt : Nat := 0
  deriving DecidableEq, Repr

/-- A channel's converter flags and last verdict (R228, R230, R239, R247). -/
structure ChanIn where
  overTrip : Option Nat := none
  overSticky : Bool := false
  fsSticky : Bool := false
  overCount : Nat := 0
  fsCount : Nat := 0
  suspect : Bool := false
  matchLimit : Bool := false
  returning : Bool := false
  /-- SYSCNT at which MATCH_LIMIT cleared last, and frames within the handover window since (R228) -/
  limitClearAt : Nat := 0
  winFrames : Nat := 0
  /-- frames within the handover window for which a correction has stood at its limit (R228) -/
  pinned : Nat := 0
  /-- combiner (R224): its weight × 65,536, its envelope in units of 2^-37, whether the weight rises or falls, and samples at
  8·fs_int since the envelope was last at or above the downward threshold -/
  weight : Nat := 0
  env : Nat := 0
  rising : Bool := false
  falling : Bool := false
  below : Nat := 0
  /-- matching loop (R226): its corrections relative to the factory calibration, 10^-6 dB and ps; its residual, mdB -/
  gain : Int := 0
  delay : Int := 0
  residual : Int := 0
  muShift : Nat := 16
  pathForce : Nat := 0
  muted : Bool := false
  verdict : Nat := 0
  verdictBy : Nat := 0xFF
  levelDiff : Int := 0
  noiseDiff : Int := 0
  corrDefect : Nat := 0
  lastVisit : Nat := 0
  deriving DecidableEq, Repr

/-- What a Taster does, as INPUT_STATUS codes it (R247). -/
inductive TState where
  | idle | roving | check | parked | withdrawn | forced
  deriving DecidableEq, Repr

/-- Phases of a visit (R237, R240). -/
inductive TPhase where
  | none | settling | window | second
  deriving DecidableEq, Repr

/-- One Taster. -/
structure Taster where
  state : TState := .idle
  channel : Option (Fin 32) := none
  phase : TPhase := .none
  pair : Bool := false
  /-- the channel of its first visit after a release (R245) -/
  first : Option (Fin 32) := none
  /-- frames left of its comparison window and the verdict's (R237), and SYSCNT at which its last visit ended -/
  winLeft : Nat := 0
  freeAt : Nat := 0
  deriving DecidableEq, Repr

/-- A substitution (R244, R245): its channel, Taster once known, and crossfade. -/
inductive SubstStage where
  | none | pending | settling | fading | held | releasing
  deriving DecidableEq, Repr

/-- The inputs. Channels 0 to 31 of `ch`; entry 32 + t of `ch` is Taster t's own converter. -/
structure Inp where
  ph : Tab Phantom := []
  ch : Tab ChanIn := []
  t0 : Taster := {}
  t1 : Taster := {}
  visited : BitVec 32 := 0
  goesFirst : BitVec 32 := 0
  rounds : Nat := 0
  roundMs : Nat := 0
  /-- SYSCNT at which the round began, once one has -/
  roundStart : Option Nat := none
  lastPair : Nat := 31
  seqRunning : Option (BitVec 32) := none
  seqPair : Bool := false
  seqPending : Option (BitVec 32 × Bool) := none
  seqOverruns : Nat := 0
  substCh : Option (Fin 32) := none
  substBy : Option (Fin 2) := none
  substStage : SubstStage := .none
  /-- frames of the crossfade done, and its length -/
  substPos : Nat := 0
  substLen : Nat := 0
  deriving DecidableEq, Repr
/-! ### Press and Pour (chapter 07) -/

/-- Settings of one chain (R262, R273, R260). RESPONSE: 0 sharp, 1 short, 2 minimum-phase, 3 custom. -/
structure FiltChainCfg where
  run : Bool := true
  resp : Nat := 0
  set : Nat := 0
  corner : Nat := 0
  slope : Nat := 0
  coarse : Nat := 0
  fine : Nat := 0
  deriving DecidableEq, Repr

/-- A valid custom coefficient set: its stored words, Q2.30 (R276). -/
structure CoefSet where
  symmetric : Bool
  taps : Nat
  words : List Word
  deriving DecidableEq, Repr

/-- The filter settings a vintage holds. Press chains are keyed 0 to 35, Pour chains 0 to 45. -/
structure FiltCfg where
  press : Tab FiltChainCfg := []
  pour : Tab FiltChainCfg := []
  pressSets : Tab (Option CoefSet) := []
  pourSets : Tab (Option CoefSet) := []
  selPress : BitVec 36 := 0
  selPour : BitVec 46 := 0
  deriving DecidableEq, Repr

/-- STATE of a chain (R260), in the order of its codes. -/
inductive FState where
  | stopped | settling | running | fadingStop | fadingReload
  deriving DecidableEq, Repr

/-- A branch of the wind HPF (R275): its setting, its state, and its weight in units of 2^-60 in the mixture left. -/
structure HpfBranch where
  corner : Nat := 0
  slope : Nat := 0
  st : Int := 0
  w : Nat := 0
  deriving DecidableEq, Repr

/-- Samples that the stages of a chain hold, newest first; a list of zeros is empty (R253, R254). -/
structure Stages where
  /-- Press: modulator samples of the two paths, and the outputs of stage 1 -/
  modHigh : List Int := []
  modLow : List Int := []
  high8 : List Int := []
  low8 : List Int := []
  /-- what enters or leaves the stages at 8, 4, 2 and 1 times fs_int -/
  at8 : List Int := []
  at4 : List Int := []
  at2 : List Int := []
  at1 : List Int := []
  deriving DecidableEq, Repr

/-- A chain as it runs. `resp` and `set` are the response in force; `w` is the weight of its routes or of its input in
units of 1/64. -/
structure FChain where
  state : FState := .stopped
  /-- frames of the settle count, or of the fade, that are left -/
  left : Nat := 0
  resp : Nat := 0
  set : Nat := 0
  w : Nat := 0
  /-- the weight returns with the slope of the mute ramp -/
  back : Bool := false
  /-- a new response comes into force at the end of the fade (R263) -/
  reload : Bool := false
  /-- cleared since the last tick: that tick stamps it -/
  stampDue : Bool := false
  clearStamp : Nat := 0
  satCount : Nat := 0
  gateOpen : Bool := false
  stages : Stages := {}
  /-- Pour: the latest sample that went to the modulator, units of 2^-37 (R254) -/
  out : Int := 0
  /-- coarse phase delay, newest first -/
  line : List Int := []
  dc : Int := 0
  hpf : HpfBranch := {}
  hpfOld : List HpfBranch := []
  hpfK : Nat := 0
  hpfN : Nat := 0
  deriving DecidableEq, Repr

/-- A coefficient load that has begun (R278): words received so far, of a set of `taps` taps. -/
structure CoefLoad where
  symmetric : Bool
  taps : Nat
  words : List Word
  deriving DecidableEq, Repr

/-- A FILT_SYNC mode 1 that fades (R271), with what its reply needs. -/
structure SyncRun where
  press : BitVec 36
  pour : BitVec 46
  hdr : Hdr
  pre : Bytes
  /-- frames to its clear -/
  left : Nat
  deriving DecidableEq, Repr

/-- The filters. Loads are keyed DIR × 8 + SET. `capture` is CAPTURE_STATE's code, chain and direction. -/
structure Filt where
  press : Tab FChain := []
  pour : Tab FChain := []
  loads : Tab (Option CoefLoad) := []
  syncs : List SyncRun := []
  /-- a recognised SYNC_IN edge waiting for its tick -/
  syncEdge : Option Nat := none
  syncInCount : Nat := 0
  syncInStamp : Nat := 0
  capture : Nat := 0
  captureChain : Nat := 0
  captureDir : Bool := false
  /-- what a capture that runs has taken, Q3.37, oldest first -/
  captureGot : List Int := []
  captureBuf : List Word := List.replicate 512 0
  deriving DecidableEq, Repr

/-! ### Outputs (chapter 08) -/

/-- Settings of a line or headphone output (R289). -/
structure OutCfg where
  enable : Bool := true
  servoHeld : Bool := false
  clear : Int := 0
  deriving DecidableEq, Repr

/-- Operating values of a hold output (R294): µV, mV/s. -/
structure HoldCfg where
  audio : Bool := false
  range : Nat := 0
  target : Int := 0
  slew : Nat := 10000
  deriving DecidableEq, Repr

/-- Settings of a speaker (R303). -/
structure SpkCfg where
  enable : Bool := false
  powerMw : Nat := 15000
  deriving DecidableEq, Repr

/-- Fields of CLEAR_CONFIG (R288). -/
structure ClearCfg where
  lout : BitVec 32 := 0xFFFFFFFF
  hout : BitVec 8 := 0xFF
  hsout : BitVec 4 := 0xF
  spk : BitVec 2 := 3
  releaseUs : Nat := 500000
  deriving DecidableEq, Repr

/-- The output settings a vintage holds. -/
structure OutputCfg where
  lout : Tab OutCfg := []
  hs : Tab OutCfg := []
  hold : Tab HoldCfg := []
  spk : Tab SpkCfg := []
  clear : ClearCfg := {}
  deriving DecidableEq, Repr

/-- A linear move over `m` frames, `k` of them done. -/
structure Glide where
  start : Int := 0
  dest : Int := 0
  k : Nat := 0
  m : Nat := 0
  deriving DecidableEq, Repr

/-- Why an output is, or was last, at its clear code: its release depends on it (R285, R287, R312). -/
inductive ClearWhy where
  | none | mode | clearPad | short
  deriving DecidableEq, Repr

/-- An audio output at its driver, by sink handle. `w` is the weight of the clear code, units of 2^-60. -/
structure OutRt where
  clamped : Bool := true
  /-- SYSCNT at which the clamp engages at the end of a ramp of the driver's own -/
  clampAt : Option Nat := none
  w : Glide := {}
  why : ClearWhy := .none
  code : Glide := {}
  ilimLive : Bool := false
  ilimSticky : Bool := false
  ilimCount : Nat := 0
  /-- SYSCNT at which a short was recorded or last probed (R290) -/
  probeAt : Nat := 0
  servoLimit : Bool := false
  /-- DC servo (R291): its corrections of the two legs relative to the factory calibration, µV, and frames for which one has
  stood at its limit; it returns to its factory value (R313) -/
  servoP : Int := 0
  servoM : Int := 0
  servoPinned : Nat := 0
  servoReturn : Bool := false
  servoTc : Word := 0
  deriving DecidableEq, Repr

/-- A speaker bridge (R305, R306). -/
structure SpkRt where
  checking : Bool := false
  /-- SYSCNT at which the check began, and at which the speaker was last clamped by a load fault -/
  checkAt : Nat := 0
  faultAt : Nat := 0
  /-- last load result, 0 not checked -/
  result : Nat := 0
  mohm : Nat := 0
  /-- stopped and clamped by a load fault -/
  loadClamp : Bool := false
  limitCount : Nat := 0
  deriving DecidableEq, Repr

/-- Temperature of a stage (R304): 0 SPK0, 1 SPK1, 2 HS0, 3 HS1. `ceil` in mdB; `at` is when it last moved. -/
structure StageTherm where
  temp : Int := 0
  ceil : Int := 0
  at_ : Nat := 0
  /-- SYSCNT since which it has read below 110 °C -/
  cool : Option Nat := none
  deriving DecidableEq, Repr

/-- A hold output's controller in AO (R292 to R298): a movement from a value at a time toward a target at a slew, or the
value it follows in AUDIO mode. -/
structure HoldRt where
  start : Int := 0
  t0 : Nat := 0
  dest : Int := 0
  slew : Nat := 5000
  audio : Bool := false
  audioFrom : Int := 0
  audioVal : Int := 0
  audioK : Nat := 0
  audioN : Nat := 64
  range : Nat := 0
  /-- the range a range change moves to (R297) -/
  rc : Option Nat := none
  /-- moving in step 5 of a range change -/
  step5 : Bool := false
  releasing : Bool := false
  ilimit : Bool := false
  clampTest : Bool := false
  deriving DecidableEq, Repr

/-- The outputs. -/
structure Outp where
  out : Tab OutRt := []
  spk : Tab SpkRt := []
  stage : Tab StageTherm := []
  hold : Tab HoldRt := []
  /-- highest current of each output since the last CLEAR, mA, by handle (R311) -/
  peaks : Tab Nat := []
  /-- the safe values AO holds in retained registers (R111, R117, R295) -/
  safe : List SafeEntry := List.replicate 8 {}
  /-- neither copy of the safe record was valid (R111) -/
  safeBad : Bool := false
  /-- CLEAR_N as taken at the latest tick (R286) -/
  clearOn : Bool := false
  deriving DecidableEq, Repr

/-! ### Headset ports (chapter 09) -/

/-- Fields of HS_SET but MIC_TRIM (R328). -/
structure HsCfg where
  enable : Bool := true
  detPol : Bool := false
  buttons : Bool := true
  longMs : Nat := 1000
  repeatMs : Nat := 250
  deriving DecidableEq, Repr

/-- STATE of a headset port (R317), in the order of its codes. -/
inductive HsState where
  | empty | measuring | identified | fault
  deriving DecidableEq, Repr

/-- A headset port (R317 to R329). Impedances in mΩ, voltages in µV. -/
structure HsRt where
  state : HsState := .empty
  type : Nat := 0
  left : Bool := false
  right : Bool := false
  reason : Nat := 0
  /-- with reason 3 the side that stood at its current limit, right true -/
  limSide : Option Bool := none
  button : Nat := 0
  /-- SYSCNT at which the held reading began -/
  pressAt : Nat := 0
  longDone : Bool := false
  /-- repeats reported of the held button -/
  repeats : Nat := 0
  /-- SYSCNT of the latest poll of an XLR port, and of the latest fault -/
  pollAt : Nat := 0
  faultAt : Nat := 0
  micUnknown : Bool := false
  bias : Bool := false
  order : Bool := false
  present : Bool := false
  /-- a cycle is to start; another waits behind it or behind the one that runs -/
  due : Bool := false
  again : Bool := false
  cycleAt : Nat := 0
  polls : Nat := 0
  /-- the threshold loop's value, µV, and until when it holds; its factory value is Config's -/
  vIdle : Option Nat := none
  /-- its fraction, units of 2^-32 µV -/
  idleFine : Nat := 0
  holdUntil : Nat := 0
  zL : Nat := 0
  zR : Nat := 0
  zMic : Nat := 0
  overruns : Nat := 0
  cycles : Nat := 0
  identStamp : Nat := 0
  /-- SYSCNT from which the microphone source is uncorked -/
  micLiveAt : Nat := 0
  /-- the source's fade to zeros at a removal, weight in units of 2^-60 -/
  micFade : Glide := {}
  trackFreeze : Bool := false
  forceType : Nat := 0
  deriving DecidableEq, Repr

/-- A headset event (R330). -/
structure HsEvent where
  port : Fin 2
  kind : Nat
  button : Nat
  info : Nat
  heldMs : Nat
  stamp : Nat
  deriving DecidableEq, Repr

/-- The headset ports and their event queue. -/
structure Hs where
  p0 : HsRt := {}
  p1 : HsRt := {}
  events : List HsEvent := []
  lost : Nat := 0
  deriving DecidableEq, Repr


/-! ### The routing graph (chapter 10) -/

/-- An edge of a graph (R335). `gain` of the program in force is the gain in force, or the target of its ramp. -/
structure Edge where
  src : Handle
  sink : Handle
  gain : Int
  limit : Int
  invert : Bool := false
  setGain : Bool := false
  remove : Bool := false
  reserved : Bool := false
  deriving DecidableEq, Repr

/-- An equalisation group (R339, R346). -/
structure EqGroup where
  num : Nat
  follow : Bool
  target : Nat
  members : List Handle
  deriving DecidableEq, Repr

/-- A graph: edges, groups and the fields of BEGIN. -/
structure GraphCfg where
  edges : List Edge := []
  groups : List EqGroup := []
  /-- equalising pads in frames, by sink -/
  pads : Tab Nat := []
  rackUs : Nat := 10000
  graphId : Word := 0
  deriving DecidableEq, Repr

/-- One sink of a compiled program: its level and its edges in source order (R341). -/
structure ProgSink where
  level : Nat
  sink : Handle
  edges : List Edge
  deriving DecidableEq, Repr

/-- What the compiler reports of a graph (R340). -/
structure Compiled where
  prog : List ProgSink := []
  rows : Nat := 0
  levels : Nat := 1
  headroom : Nat := 0
  headroomSink : Handle := 0
  warn : Bool := false
  pads : Tab Nat := []
  deriving DecidableEq, Repr

/-- State of the staging area (R359). -/
inductive StageState where
  | empty | loading | compiling | staged
  deriving DecidableEq, Repr

/-- The staging area (R339, R340). -/
structure Staging where
  state : StageState := .empty
  owner : Requester := .spi
  noDip : Bool := false
  groups : Nat := 0
  edges : Nat := 0
  rackUs : Nat := 0
  graphId : Word := 0
  crc : Word := 0
  recv : List Edge := []
  raw : List Bytes := []
  recvGroups : List (EqGroup × Bytes) := []
  compiled : Compiled := {}
  /-- the rate it was compiled for -/
  fs : Fin 3 := 0
  deriving DecidableEq, Repr

/-- A graph captured by a trigger (R350, R358). -/
structure Captured where
  op : Op
  hdr : Hdr
  graph : GraphCfg
  compiled : Compiled
  /-- edges whose SET_GAIN gives their gain -/
  noDip : Bool
  rackUs : Nat
  /-- the command's place in the order of arrival (R35) -/
  arr : Nat
  deriving DecidableEq, Repr

/-- What the rack engine does (R351, R353). -/
inductive RackKind where
  | idle | rack | dip
  deriving DecidableEq, Repr

/-- The rack engine and the registers of R360. -/
structure Graph where
  stage : Staging := {}
  errStatus : Status := .ok
  errIndex : Nat := 0xFFFFFFFF
  /-- program of the bank in force -/
  prog : Compiled := {}
  generation : Nat := 0
  bank : Bool := false
  rack : RackKind := .idle
  /-- old program during a rack, old edges with their gains; new program during a dip before its switch -/
  oldProg : Compiled := {}
  newGraph : GraphCfg := {}
  /-- amplitudes of the old bank's own gain states, units of 2^-96, by crosspoint (R356) -/
  frozen : Tab Nat := []
  /-- the dip has switched banks -/
  switched : Bool := false
  /-- METHOD of the reply (R355) -/
  method : Nat := 0
  changed : List Handle := []
  rackN : Nat := 0
  /-- frames of the rack or dip done -/
  rackK : Nat := 0
  rackRows : Nat := 0
  commitFrame : Nat := 0
  commitTai : Int := 0
  commitHdr : Option (Op × Hdr) := none
  /-- status of the reply that ends the rack (R534) -/
  commitStatus : Status := .ok
  pendingTrig : Option Captured := none
  /-- a captured trigger waiting for its tick -/
  armed : Option Captured := none
  /-- graphs captured by timed commits that wait for their tick (R350) -/
  caps : List Captured := []
  overruns : Nat := 0
  misaligned : List Nat := []
  rackCount : Nat := 0
  dipCount : Nat := 0
  /-- fewest idle cycles of any frame, once one has run -/
  minIdle : Option Nat := none
  rowsLast : Nat := 0
  commitStamp : Nat := 0
  deriving DecidableEq, Repr

/-! ### Mixing, the sink stage, meters, generators, override (chapter 11) -/

/-- A crosspoint. -/
structure XPoint where
  src : Handle
  sink : Handle
  deriving DecidableEq, Repr

/-- Fields of SINK_SET for one sink (R380). -/
structure SinkCfg where
  limMode : Nat := 1
  lookahead : Nat := 0
  invert : Bool := false
  delayUs : Nat := 0
  limThresh : Int := 0
  releaseMs : Nat := 100
  narrow : Nat := 0
  deriving DecidableEq, Repr

/-- Fields of GEN_SET (R383). -/
structure GenCfg where
  type : Nat := 0
  rpt : Bool := false
  level : Int := -20000
  freq : Nat := 1000000
  freq2 : Nat := 20000000
  durMs : Nat := 10000
  seed : Word := 0
  deriving DecidableEq, Repr

/-- Fields of OVERRIDE_CONFIG (R389). -/
structure OvrCfg where
  source : Handle := 0x0200
  pinEnable : Bool := true
  gain : Int := 0
  lout : BitVec 32 := 0
  hsout : BitVec 4 := 0
  spk : BitVec 2 := 0
  aesout : BitVec 8 := 0
  tdmout : BitVec 128 := 0
  nettx : BitVec 256 := 0
  deriving DecidableEq, Repr

/-- A GPIO function (R374). -/
structure GpioFn where
  func : Nat := 0
  activeHigh : Bool := false
  thresh : Int := -40000
  handles : List Handle := []
  deriving DecidableEq, Repr

/-- The mixing settings a vintage holds. Gains and mutes of sources and sinks are by handle. -/
structure MixCfg where
  srcGain : Tab Int := []
  sinkGain : Tab Int := []
  srcMute : List Handle := []
  sinkMute : List Handle := []
  xMute : List XPoint := []
  rampUs : Nat := 5000
  shapeLog : Bool := true
  corkUs : Nat := 10000
  sinks : Tab SinkCfg := []
  gens : Tab GenCfg := []
  ovr : OvrCfg := {}
  gpio : Tab GpioFn := []
  deriving DecidableEq, Repr

/-- What a ramp acts on (R369). -/
inductive RampObj where
  | source (h : Handle)
  | sink (h : Handle)
  | xpoint (src sink : Handle)
  | trim (ch : Fin 32)
  | micTrim (n : Fin 2)
  deriving DecidableEq, Repr

/-- A ramp (R367): from a gain in units of 2^-40 mdB and its amplitude in units of 2^-96, to a gain in mdB. -/
structure Ramp where
  obj : RampObj
  fromDb : Int
  fromLin : Nat
  dest : Int
  log : Bool
  k : Nat
  m : Nat
  deriving DecidableEq, Repr

/-- How a mute stands (R372): `w` is its weight, 32 open, 0 silent. -/
inductive CorkStage where
  | steady | waiting | ramping
  deriving DecidableEq, Repr

/-- A mute as it runs: its weight, and the stage of its cork (R372). -/
structure MuteSt where
  muted : Bool := false
  w : Nat := 32
  stage : CorkStage := .steady
  /-- muted by a fault action that moves by the 32-frame ramp both ways -/
  byRamp : Bool := false
  /-- SYSCNT at which the wait for a crossing began, and whether it ran out in the latest frame -/
  since : Nat := 0
  late : Bool := false
  deriving DecidableEq, Repr

/-- A corked change of polarity (R372, R378): what is applied, and the stage of a change through zero. -/
structure InvSt where
  applied : Bool := false
  waiting : Bool := false
  ramping : Bool := false
  w : Nat := 32
  /-- SYSCNT at which the wait for a crossing began, and whether it ran out in the latest frame -/
  since : Nat := 0
  late : Bool := false
  deriving DecidableEq, Repr

/-- A moving read point (R376): the mixture it leaves, tap and weight in units of 2^-60, the tap it moves to, and the
crossfade's progress. -/
structure ReadPoint where
  old : List (Nat × Nat) := []
  tap : Nat := 0
  pos : Nat := 0
  len : Nat := 0
  deriving DecidableEq, Repr

/-- One sink's stage: delay line (runs of equal values, newest first), read points, limiter, polarity, gates. -/
structure SinkRt where
  line : List (Int × Nat) := []
  delay : ReadPoint := {}
  /-- values after the override multiplexer, newest first -/
  look : List Int := []
  lookPt : ReadPoint := {}
  /-- applied limiter gain, 2^-40 mdB, not above 0 -/
  lim : Int := 0
  inv : InvSt := {}
  /-- weight of the override, units of 2^-60 (R385) -/
  ovr : Glide := {}
  /-- the sink's own value under the mode's mute ramp (R94, R513): 32 open -/
  own : Nat := 0
  /-- gate at an analogue output's driver: enables, ceilings and fault actions; 32 open -/
  gate : Nat := 0
  zeroRun : Nat := 0
  prev : Int := 0
  /-- value handed on: to Pour, or to a packer -/
  out : Int := 0
  deriving DecidableEq, Repr

/-- A meter (R381). Peaks are absolute values in units of 2^-31. -/
structure Meter where
  peak : Nat := 0
  tpeak : Nat := 0
  stamp : Nat := 0
  clipped : Bool := false
  saturated : Bool := false
  grMax : Int := 0
  limiting : Bool := false
  /-- absolute values over the last 300 ms, runs of equal values, newest first -/
  win : List (Nat × Nat) := []
  deriving DecidableEq, Repr

/-- A generator (R384). `kind` is the signal that runs, as TYPE codes it; `t` counts frames since its start; `phase` is
the sine's phase in units of 1 / (1000 fs) turn. -/
structure Gen where
  running : Bool := false
  kind : Nat := 0
  t : Nat := 0
  phase : Nat := 0
  seed : Word := 0
  /-- level ramp: from this level (2^-40 mdB) and its amplitude (2^-96), its shape, frame, frames -/
  fromDb : Int := 0
  fromLin : Nat := 0
  log : Bool := true
  k : Nat := 0
  m : Nat := 0
  stopping : Bool := false
  deriving DecidableEq, Repr

/-- The override (R385 to R387, R392). -/
structure Ovr where
  command : Bool := false
  inForce : Bool := false
  frame : Nat := 0
  count : Nat := 0
  arrive : Nat := 0
  landed : Nat := 0
  /-- crossfade of a changed SOURCE or GAIN: the mixture it leaves (source, gain, weight in units of 2^-60), and frames
  done of 8 -/
  old : List (Handle × Int × Nat) := []
  swap : Nat := 8
  deriving DecidableEq, Repr

/-- The mixer. -/
structure Mix where
  ramps : List Ramp := []
  rampPeak : Nat := 0
  deferred : List Landing := []
  mutes : List (GainObj × MuteSt) := []
  srcInv : Tab InvSt := []
  /-- source values captured at the latest tick, and those of the tick before -/
  src : Tab Int := []
  srcPrev : Tab Int := []
  /-- values drained in the latest frame, handed on at the next tick; with those before the sinks' own mutes -/
  sinkBuf : Tab Int := []
  drain : Tab Int := []
  sinks : Tab SinkRt := []
  srcMeters : Tab Meter := []
  sinkMeters : Tab Meter := []
  gens : Tab Gen := []
  ovr : Ovr := {}
  satCount : Nat := 0
  satLast : Word := 0
  corkTimeouts : Nat := 0
  /-- weight of what crosses to and from the Cooper cores: zeros in HOLD (R94), 32 open -/
  modeW : Nat := 0
  /-- frames of the fade of the last entry to SERVICE (R98) -/
  fadeN : Nat := 0
  deriving DecidableEq, Repr
/-! ### Serial audio ports (chapter 12) -/

/-- Fields of TDM_SET (R399) and the run state (R410). -/
structure TdmCfg where
  format : Nat := 0
  master : Bool := false
  bclkPol : Bool := false
  lrckPol : Bool := false
  unusedHiz : Bool := false
  slots : Nat := 2
  width : Nat := 32
  word : Nat := 24
  offset : Nat := 1
  frameBclks : Nat := 64
  group : Nat := 0xFF
  rx : Word := 3
  tx : Word := 3
  run : Bool := false
  deriving DecidableEq, Repr

/-- Fields of AES_SET for a receiver (R407) and the run state. -/
structure AesRxCfg where
  validity : Nat := 0
  word : Nat := 0
  group : Nat := 0xFF
  run : Bool := false
  deriving DecidableEq, Repr

/-- Channel-status table as AES_CS_SET starts: professional format (R408). -/
def csDefault : Bytes := 1 :: List.replicate 23 0

/-- Fields of AES_SET for a transmitter, its channel-status tables (R408) and the run state. -/
structure AesTxCfg where
  word : Nat := 0
  txClock : Nat := 0
  synthRate : Nat := 48000
  csA : Bytes := csDefault
  csB : Bytes := csDefault
  run : Bool := false
  deriving DecidableEq, Repr

/-- The port settings a vintage holds. -/
structure PortCfg where
  tdm : Tab TdmCfg := []
  rx : Tab AesRxCfg := []
  tx : Tab AesTxCfg := []
  deriving DecidableEq, Repr

/-- STATE of a port (R418), in the order of its codes. -/
inductive PortState where
  | stopped | starting | running | stopping
  deriving DecidableEq, Repr

/-- A received frame: its capture time, and per channel the value and whether its source is to be
faded (R401). -/
structure RxFrame where
  capture : Nat
  vals : List Int
  fade : List Bool := []
  deriving DecidableEq, Repr

/-- Sink values handed on at a tick: its time, its sink frame number and the values. -/
structure TxFrame where
  time : Nat
  frame : Nat
  vals : List Int
  deriving DecidableEq, Repr

/-- One subframe of an AES3 receiver (R400 to R404). -/
structure SubRt where
  lastGood : Int := 0
  inRun : Bool := false
  reps : Nat := 0
  fade : Bool := false
  cs : Bytes := List.replicate 24 0
  user : Bytes := List.replicate 24 0
  passed : Bool := false
  rejected : Bool := false
  await : Option Bytes := none
  age : Nat := 0
  vSeen : Bool := false
  vLast : Bool := false
  deriving DecidableEq, Repr

/-- A port as it runs: TDM p under p, AES3 receiver x under 4 + x, transmitter x under 8 + x. -/
structure PortRt where
  state : PortState := .stopped
  /-- it has been running since its start -/
  presented : Bool := false
  frames : Nat := 0
  lastEdge : Nat := 0
  bclksLast : Nat := 0
  bclkHz : Nat := 0
  glitches : Nat := 0
  rxStamp : BlockStamp := {}
  txStamp : BlockStamp := {}
  -- receive direction
  queue : List RxFrame := []
  cur : List Int := []
  curFade : List Bool := []
  w : List Nat := []
  reps : Nat := 0
  rxW : Nat := 32
  rxUnder : Nat := 0
  rxOver : Nat := 0
  subA : SubRt := {}
  subB : SubRt := {}
  parityCount : Nat := 0
  csCrcCount : Nat := 0
  biphase : Nat := 0
  -- transmit direction
  txq : List TxFrame := []
  sent : List Int := []
  /-- slot words of the frame that goes out, `none` where SDO is high impedance, or the two 24-bit words of an AES3 frame -/
  sdo : List (Option Word) := []
  vOut : Bool := false
  txReps : Nat := 0
  txW : Nat := 32
  txUnder : Nat := 0
  txOver : Nat := 0
  -- AES3 transmitter
  blockPos : Nat := 0
  started : Bool := false
  fallback : Bool := false
  csA : Bytes := csDefault
  csB : Bytes := csDefault
  vSent : Nat := 0
  loopback : Bool := false
  /-- frames discarded as glitches since the latest tick (R199) -/
  missed : Nat := 0
  /-- the tick at which every channel of a port that stops was silent (R412) -/
  silentAt : Option Nat := none
  deriving DecidableEq, Repr

/-! ### Network, switch and media streams (chapter 13) -/

/-- Fields of NET_SET (R426). Addresses are 32-bit numbers, first octet highest; 0 is none. -/
structure NetCfg where
  switched : Bool := false
  speedA : Nat := 0
  speedB : Nat := 0
  bridge : Nat := 0
  addrA : Word := 0
  gwA : Word := 0
  prefixA : Nat := 24
  prefixB : Nat := 24
  ctrlPcp : Nat := 5
  ctrlDscp : Nat := 40
  addrB : Word := 0
  gwB : Word := 0
  vlanA : Nat := 0
  vlanB : Nat := 0
  ptpDscp : Nat := 46
  ptpPcp : Nat := 6
  stormMbps : Nat := 10
  igmpV2 : Bool := false
  deriving DecidableEq, Repr

/-- Fields of STREAM_RX_SET (R437) and the run state; TRANSPORT 0 is unconfigured. -/
structure RxSlotCfg where
  transport : Nat := 0
  encoding : Nat := 1
  paths : BitVec 2 := 1
  rate : Nat := 0
  ptime : Nat := 3
  streamCh : Nat := 8
  chFirst : Nat := 0
  channels : Nat := 8
  first : Nat := 0
  group : Nat := 0xFF
  pt : Nat := 0
  linkUs : Nat := 1000
  destA : Word := 0
  destB : Word := 0
  srcA : Word := 0
  srcB : Word := 0
  portA : Nat := 5004
  portB : Nat := 5004
  vlan : Nat := 0
  streamId : BitVec 64 := 0
  destMac : BitVec 48 := 0
  ssrc : Word := 0
  timeOffset : Nat := 0
  run : Bool := false
  deriving DecidableEq, Repr

/-- Fields of STREAM_TX_SET (R439) and the run state. -/
structure TxSlotCfg where
  transport : Nat := 0
  encoding : Nat := 1
  paths : BitVec 2 := 1
  rate : Nat := 0
  ptime : Nat := 3
  channels : Nat := 8
  first : Nat := 0
  pcp : Nat := 5
  dscp : Nat := 34
  ttl : Nat := 16
  pt : Nat := 97
  ssrc : Word := 0
  destA : Word := 0
  destB : Word := 0
  portA : Nat := 5004
  portB : Nat := 5004
  vlan : Nat := 0
  classB : Bool := false
  streamId : BitVec 64 := 0
  destMac : BitVec 48 := 0
  timeOffset : Nat := 0
  run : Bool := false
  deriving DecidableEq, Repr

/-- The network settings a vintage holds. -/
structure NetworkCfg where
  net : NetCfg := {}
  rx : Tab RxSlotCfg := []
  tx : Tab TxSlotCfg := []
  deriving DecidableEq, Repr

/-- What a stream slot does (R441, R452). -/
inductive SlotState where
  | off | starting | running | repeating | faded | stopping
  deriving DecidableEq, Repr

/-- One frame of samples of a stream, with the V, U, C and block-start bits of an AM824 channel (R447). -/
structure StreamSample where
  vals : List Int
  aux : List Nat := []
  deriving DecidableEq, Repr

/-- A receive slot. Buffers are keyed by media time. -/
structure RxSlot where
  state : SlotState := .off
  buf : Tab (Option StreamSample) := []
  /-- media time presented last -/
  shown : Option Nat := none
  /-- extended sequence numbers used, newest first, with their path and arrival -/
  seqs : List (Nat × NetPort × Nat) := []
  lastA : Option Nat := none
  lastB : Option Nat := none
  packetsA : Nat := 0
  packetsB : Nat := 0
  under : Nat := 0
  late : Nat := 0
  discards : Nat := 0
  cur : List Int := []
  reps : Nat := 0
  w : Nat := 0
  /-- per channel, the last value with V clear, and its run of V set (AM824) -/
  vLast : List Int := []
  vReps : List Nat := []
  /-- AM824 channel status per channel: frames since the block start, and whether it marks non-audio -/
  csPos : List Nat := []
  nonAudio : List Bool := []
  /-- arrival margins (ns) and path skews (counts) of the last second, with their SYSCNT -/
  margins : List (Nat × Int) := []
  skews : List (Nat × Int) := []
  /-- bits that came with the frames presented, newest first -/
  aux : List (List Nat) := []
  /-- SYSCNT of the enable, and of STREAM_LOST or the report repeated last (R453) -/
  since : Nat := 0
  reportAt : Nat := 0
  deriving DecidableEq, Repr

/-- A transmit slot. -/
structure TxSlot where
  state : SlotState := .off
  seq : BitVec 16 := 0
  ssrc : Word := 0
  buf : List (Nat × StreamSample) := []
  packetsA : Nat := 0
  packetsB : Nat := 0
  /-- suspended on NETA, on NETB (R449) -/
  susA : Bool := false
  susB : Bool := false
  /-- media time of the first frame silent on every sink, while the slot stops -/
  silentAt : Option Nat := none
  /-- the frame Decant computed last, and the weight of its fade (R201) -/
  last : List Int := []
  w : Nat := 32
  deriving DecidableEq, Repr

/-- A frame the module sends, as far as this manual gives its contents. -/
inductive NetOut where
  | arpReply (l : LinkPort) (ip : Word) (mac : BitVec 48) (toIp : Word) (toMac : BitVec 48)
  | icmpReply (l : LinkPort) (toIp : Word) (data : Bytes)
  | igmp (l : LinkPort) (group : Word) (source : Word) (v2 leave : Bool)
  /-- a PTP master's message: domain, log2 of its interval, over UDP or in an Ethernet frame, and priority1, clockClass,
  clockAccuracy, offsetScaledLogVariance, priority2 and timeSource as it announces them (R193, R195) -/
  | ptp (p : NetPort) (kind : PtpKind) (tai : Int) (domain : Nat) (log : Int) (udp : Bool) (own : List Nat)
  /-- a delay request, peer-to-peer or end-to-end -/
  | ptpDelay (p : NetPort) (domain : Nat) (log : Int) (udp peer : Bool)
  | media (p : LinkPort) (slot : Fin 64) (head : TxSlotCfg) (seq : BitVec 16) (ssrc timestamp : Word) (payload : Bytes)
  | forward (l : LinkPort) (f : EthFrame) (queue : Nat) (correctionNs : Nat)
  /-- a reply or an event notice -/
  | control (r : SentReply)
  /-- a power-via-MDI TLV that requests a power, mW (R68) -/
  | lldp (p : NetPort) (requestMw : Nat)
  deriving DecidableEq, Repr

/-- A frame as it leaves a port: its egress queue (R427), its VLAN (0 untagged) and PCP, and its DSCP. -/
structure SentFrame where
  port : LinkPort
  queue : Nat
  vlan : Nat
  pcp : Nat
  dscp : Nat
  body : NetOut
  deriving DecidableEq, Repr

/-- A frame in an egress queue, with its length on the wire in bytes. -/
structure Egress where
  len : Nat
  frame : SentFrame
  deriving DecidableEq, Repr

/-- A network port (R423, R451, R454): link 0 down, 1 at 1 Gbit/s, 2 at 2.5 Gbit/s. -/
structure LinkRt where
  link : Nat := 0
  noCommon : Bool := false
  ups : Nat := 0
  lastUp : Nat := 0
  rxFrames : Nat := 0
  txFrames : Nat := 0
  longDrops : Nat := 0
  stormDrops : Nat := 0
  /-- frames received with a bad FCS, and frames dropped at a full egress queue (R454) -/
  fcsErr : Nat := 0
  queueDrops : Nat := 0
  stormActed : Bool := false
  /-- bits of storm-limited traffic passed in the last second -/
  storm : List (Nat × Nat) := []
  v2Heard : Bool := false
  phyLoop : Bool := false
  /-- SYSCNT of the latest query of an IGMPv2 querier (R434) -/
  v2At : Nat := 0
  /-- frames that wait to leave, in order of arrival (R427) -/
  queue : List Egress := []
  /-- the end of the frame that leaves, tenths of a nanosecond from SYSCNT 0, and its queue -/
  free : Nat := 0
  sending : Nat := 8
  /-- credits of SR classes A and B, units of 10^-10 bit, and the time they are of (R428) -/
  creditA : Int := 0
  creditB : Int := 0
  creditAt : Nat := 0
  deriving DecidableEq, Repr

/-- A learned address (R430). -/
structure FdbEntry where
  mac : BitVec 48
  vlan : BitVec 12
  port : LinkPort
  at_ : Nat
  deriving DecidableEq, Repr

/-- The network. -/
structure Net where
  a : LinkRt := {}
  b : LinkRt := {}
  host : LinkRt := {}
  rx : Tab RxSlot := []
  tx : Tab TxSlot := []
  fdb : List FdbEntry := []
  hostGroups : List Word := []
  tcMaxNs : Nat := 0
  ctrlPrio : Nat := 0
  sent : List SentFrame := []
  deriving DecidableEq, Repr

/-! ### Cooper cores (chapters 14 and 15) -/

/-- What a vintage holds of a core: its image as loaded, its parameter values in force, RESTART and the run state. -/
structure CoopCfg where
  image : Bytes := []
  params : Tab Word := []
  restart : Bool := false
  run : Bool := false
  deriving DecidableEq, Repr

/-- STATE of a core (R475), in the order of its codes. -/
inductive CoopState where
  | empty | loading | stopped | starting | running | stopping | trapped | halted
  deriving DecidableEq, Repr

/-- An installed image's header fields (R467) and whether its signature was verified (R468). -/
structure CoopImage where
  id : Word := 0
  version : Word := 0
  block : Nat := 8
  inCh : Nat := 0
  outCh : Nat := 0
  cyclesMax : Nat := 0
  caskKib : Nat := 0
  entry : Nat := 0
  progWords : Nat := 0
  xinit : List Word := []
  yinit : List Word := []
  paramWords : Nat := 0
  rbWords : Nat := 0
  verified : Bool := false
  deriving DecidableEq, Repr

/-- A load that has begun (R469). -/
structure CoopLoading where
  owner : Requester
  len : Nat
  data : Bytes
  deriving DecidableEq, Repr

/-- A repeat level (R497): first and last instruction of the body, passes left. -/
structure RepLevel where
  first : Nat
  last : Nat
  left : Nat
  deriving DecidableEq, Repr

/-- A DMA channel (R459, R461). `now` is the transfer that runs: Cask offset, local address, length, local to Cask. -/
structure DmaCh where
  cask : Word := 0
  loc : Word := 0
  len : Word := 0
  dir : Bool := false
  doneBit : Bool := false
  now : Option (Nat × Nat × Nat × Bool) := none
  deriving DecidableEq, Repr

/-- The registers of a core (R479). `sr` is SR[12:0]; RDEPTH is the number of repeat levels. -/
structure CoopRegs where
  d : Tab Word := []
  a : Tab (BitVec 72) := []
  p : Tab Word := []
  n : Tab Word := []
  m : Tab Word := []
  tb : BitVec 64 := 0
  be : BitVec 5 := 31
  sr : BitVec 13 := 0x40
  deriving DecidableEq, Repr

/-- A block of input: its number, the frame number of its first frame, its frames, oldest first. -/
structure InBlock where
  num : Nat
  frame : Nat
  vals : List (List Int)
  deriving DecidableEq, Repr

/-- A Cooper core. -/
structure Core where
  state : CoopState := .empty
  image : CoopImage := {}
  load : Option CoopLoading := none
  /-- offset of the allocation in the Cooper pool -/
  caskOff : Nat := 0
  cask : Tab Word := []
  prog : Tab Word := []
  xmem : Tab Word := []
  ymem : Tab Word := []
  regs : CoopRegs := {}
  pc : Nat := 0
  rstack : List Nat := []
  reps : List RepLevel := []
  dma : List DmaCh := List.replicate 4 {}
  -- start
  inited : Bool := false
  /-- frames to FT(b0), once counting down; collection runs when it has reached zero -/
  toB0 : Option Nat := none
  /-- frame number the next collected frame has, as numbered at the start -/
  nextNum : Nat := 0
  /-- block boundaries passed since FT(b0) -/
  bnd : Nat := 0
  collect : List (List Int) := []
  waiting : Option InBlock := none
  /-- latest complete input block, kept while halted by debug -/
  latest : Option InBlock := none
  -- the block being executed
  active : Bool := false
  cur : InBlock := ⟨0, 0, []⟩
  out : Tab Word := []
  lateStart : Bool := false
  cycles : Nat := 0
  dmaSeen : Bool := false
  aovEdge : BitVec 4 := 0
  /-- overruns noticed but not yet recorded: 1 late, 2 dropped -/
  unrec : List Nat := []
  noted : Bool := false
  -- output
  ready : Option (Nat × List (List Int)) := none
  present : List (List Int) := []
  last : List Int := []
  w : Nat := 0
  presented : Bool := false
  /-- frames left until a stop may complete (R471) -/
  stopIn : Nat := 0
  -- parameters
  param : Tab Word := []
  shadow : Tab (Option Word) := []
  paramSeq : Nat := 0
  paramBlock : Nat := 0
  rb : Tab Word := []
  rbHost : Tab Word := []
  rbBlock : Nat := 0
  -- status
  /-- SYSCNT of the last trap, and of the last change to running (R474) -/
  trapAt : Nat := 0
  runAt : Nat := 0
  trapReason : Nat := 0
  trapPc : Nat := 0
  restarts : Nat := 0
  exhausted : Bool := false
  cyclesLast : Nat := 0
  cyclesPeak : Nat := 0
  overruns : Nat := 0
  dropped : Nat := 0
  onTime : Nat := 0
  blocks : Nat := 0
  boundary : Nat := 0
  -- debug
  haltReq : Bool := false
  steps : Nat := 0
  skipBreak : Bool := false
  breaks : List Word := List.replicate 4 0
  deriving DecidableEq, Repr


/-! ### Faults, recovery and supervision (chapter 16) -/

/-- Fault classes (R502, R503), lowest rank first as their codes number them. -/
inductive FaultClass where
  | note | channel | port | device | safety
  deriving DecidableEq, Repr

/-- The fault codes of the master table (R511). -/
inductive FaultCode where
  | authFail | vintSlotBad | vintCommitFail | blendSaturated | rampDeferred | phantomOvercurrent | convImplausible
  | tasterSubstituted | outputShort | holdShort | speakerLoad | outputThermal | portClockLost | portGlitch
  | portUnderrun | portOverrun | aesCsCrc | aesValidity | refLost | refSwitched | ptpUnlocked | decantUnlocked
  | linkDown | streamUnderrun | streamLost | streamLate | pathLost | hsFault | coopOverrun | coopGuard | coopTrap
  | powerBudget | powerPortLost | thermalWarn | thermalTrip | faultOverflow | avsMargin
  deriving DecidableEq, Repr

/-- A record of the fault queue (R502, R509). `stamp` and `lastStamp` are full SYSCNT values. -/
structure FaultRec where
  code : FaultCode
  cls : FaultClass
  injected : Bool := false
  released : Bool := false
  seq : BitVec 8
  object : BitVec 16
  stamp : Nat
  detail : Word
  repeats : Nat := 0
  lastStamp : Nat
  /-- the index that belongs to the identity of R504 (stage, port or rail), 0 where there is none -/
  index : Nat := 0
  deriving DecidableEq, Repr

/-- A condition in force (R504). -/
structure Condition where
  code : FaultCode
  object : BitVec 16
  index : Nat
  seq : BitVec 8
  stamp : Nat
  detail : Word
  deriving DecidableEq, Repr

/-- A record of the fault log (R510). -/
structure LogRec where
  code : FaultCode
  cls : FaultClass
  injected : Bool
  boot : BitVec 8
  object : BitVec 16
  ms : BitVec 16
  time : Word
  detail : Word
  deriving DecidableEq, Repr

/-- Temperature and adaptive voltage scaling (R515 to R520). -/
structure Thermal where
  /-- readings of the eight junction sensors, m°C -/
  temp : List Int := List.replicate 8 0
  peak : Int := 0
  /-- consecutive readings with T_j at or above each threshold, up to 4 -/
  over105 : Nat := 0
  over125 : Nat := 0
  over135 : Nat := 0
  /-- the THERMAL_WARN ceiling, mdB, and the SYSCNT at which it last moved or began to count -/
  warnCeiling : Int := 0
  warnStep : Nat := 0
  /-- a 135 °C reset has happened since power-up -/
  reset135 : Bool := false
  avsBlend : Nat := 900
  avsCoop : Nat := 900
  slackBlend : Int := 0
  slackCoop : Int := 0
  /-- SYSCNT since which T_j has read below 100 °C, and below 110 °C (R516 to R518) -/
  below100 : Option Nat := none
  below110 : Option Nat := none
  /-- SYSCNT since which the BLEND rail, and the COOP rail, has shown slack at or above 3 % (R520) -/
  blendOk : Option Nat := none
  coopOk : Option Nat := none
  avsSteps : Nat := 0
  deriving DecidableEq, Repr

/-- The fault manager (R501 to R510), the log and the supervision registers (R521). -/
structure Flt where
  queue : List FaultRec := []
  active : List Condition := []
  nextSeq : BitVec 8 := 0
  lost : Nat := 0
  recoverySeq : Option (BitVec 8) := none
  /-- the code, object and index of the fault that caused the present RECOVERY -/
  recoveryCause : Option (FaultCode × BitVec 16 × Nat) := none
  /-- a fault has called for RECOVERY, entered at the next tick (R512) -/
  recoveryDue : Option (BitVec 8) := none
  /-- records queued but not yet written to the log -/
  logPending : List FaultRec := []
  log : List LogRec := []
  /-- SYSCNT of the last logged repeat, by sequence number -/
  logRepeat : Tab Nat := []
  boot : BitVec 8 := 0
  /-- Cooper cores a fault action stopped, started at the next entry to SERVICE (R514, R520) -/
  marked : BitVec 4 := 0
  /-- the cores of `marked` that AVS_MARGIN stopped -/
  markedAvs : BitVec 4 := 0
  lastDetect : Nat := 0
  injectObj : BitVec 16 := 0
  injectCode : BitVec 16 := 0
  th : Thermal := {}
  deriving DecidableEq, Repr

/-- The configuration in force: every field a vintage holds (R102), targets of ramps and stored operating values
included (R36, R105). -/
structure Settings where
  board : BoardCfg := {}
  policy : PowerPolicyCfg := {}
  vint : VintPolicyCfg := {}
  event : EventCfg := {}
  netAuth : NetAuthCfg := {}
  clock : ClockCfg := {}
  input : InputCfg := {}
  filt : FiltCfg := {}
  outp : OutputCfg := {}
  hs0 : HsCfg := {}
  hs1 : HsCfg := {}
  port : PortCfg := {}
  net : NetworkCfg := {}
  mix : MixCfg := {}
  graph : GraphCfg := {}
  coop : Tab CoopCfg := []
  /-- MIC_TRIM of the headset ports (R324), mdB -/
  micTrim : Tab Int := []
  deriving DecidableEq, Repr

/-! ### The vintage store (chapter 03) -/

/-- A vintage slot (R105, R110, R113). -/
structure Slot where
  blank : Bool := true
  interrupted : Bool := false
  headerOk : Bool := true
  stateOk : Bool := true
  format : Nat := 0
  seq : Nat := 0
  tai : Nat := 0
  label : Word := 0
  kind : CommitKind := .command
  content : Settings := {}
  /-- the bulk records it refers to: object and version -/
  refs : List (BulkId × Nat) := []
  deriving DecidableEq, Repr

/-- A commit that runs: its capture and target (R105). -/
structure Commit where
  target : Fin 2
  seq : Nat
  tai : Nat
  label : Word
  kind : CommitKind
  content : Settings
  refs : List (BulkId × Nat)
  repeated : Bool := false
  deriving DecidableEq, Repr

/-- A pending commit trigger (R106). -/
structure CommitReq where
  label : Word
  kind : CommitKind
  deriving DecidableEq, Repr

/-- The Vintage store controller. -/
structure Vint where
  slotA : Slot := {}
  slotB : Slot := {}
  /-- the slot last restored or committed (R105) -/
  current : Option (Fin 2) := none
  running : Option Commit := none
  /-- a commit that captures at the next tick (R105), and one that waits behind the commit that runs (R106) -/
  armed : Option CommitReq := none
  pendingReq : Option CommitReq := none
  /-- a slot whose power-loss commit failed its read-back, and the SYSCNT at which it is marked interrupted again (R109) -/
  remark : Option (Fin 2 × Nat) := none
  /-- SYSCNT from which AUTO_COMMIT_S runs (R108) -/
  autoSince : Nat := 0
  overruns : Nat := 0
  /-- the configuration when the last commit completed (R108) -/
  lastContent : Option Settings := none
  pool : List BulkRec := []
  /-- the version of each bulk object in force -/
  bulkNow : List (BulkId × Nat) := []
  nextVersion : Nat := 1
  safeA : SafeCopy := {}
  safeB : SafeCopy := {}
  deriving DecidableEq, Repr

/-- What each island latched at the latest tick, for the snapshots the status commands give (R217, R247, R279, R311, R418,
R452, R475). -/
structure Latch where
  taken : Bool := false
  sysCnt : Nat := 0
  pads : Pads := {}
  cfg : Settings := {}
  pwr : Pwr := {}
  flt : Flt := {}
  clk : Clk := {}
  inp : Inp := {}
  filt : Filt := {}
  outp : Outp := {}
  port : Tab PortRt := []
  net : Net := {}
  mix : Mix := {}
  coop : Tab Core := []
  deriving DecidableEq, Repr

/-- The whole machine. `seed` is the model's own counter for fresh free values. -/
structure State where
  pending : List Instr := []
  sysCnt : Nat := 0
  seed : Nat := 0
  pads : Pads := {}
  cfg : Settings := {}
  pwr : Pwr := {}
  life : Life := {}
  vint : Vint := {}
  cmd : Cmd := {}
  flt : Flt := {}
  clk : Clk := {}
  inp : Inp := {}
  filt : Filt := {}
  outp : Outp := {}
  hs : Hs := {}
  port : Tab PortRt := []
  net : Net := {}
  gr : Graph := {}
  mix : Mix := {}
  coop : Tab Core := []
  latch : Latch := {}
  deriving DecidableEq, Repr

/-- Reasons for a fault: none. No command of this block stops it (R501: a fault of the hardware is a record and an
action, which is a next state). -/
inductive Fault where
  deriving DecidableEq, Repr

/-- Reasons for a refusal. -/
inductive Refusal where
  /-- raised by `exec` for a row of the opcode table without a meaning; safe -/
  | notModelled (mnemonic : String)
  deriving DecidableEq, Repr

/-- The module as delivered and unpowered: every field at the value its declaration names. -/
def State.reset : State := {}

end Sys2Proof.Machine
end

