-- ==== Sys2Proof/Machine/Num.lean ====
section
/-! DEFINITION. Numbers every file uses: bytes of payloads (R13), saturation, SYSCNT and TAI time (R8, R179). -/

namespace Sys2Proof.Machine

/-! ### Numbers -/

/-- Byte `i` of a payload. -/
def u8 (p : Bytes) (i : Nat) : Nat := (p.getD i 0).toNat
def u16 (p : Bytes) (i : Nat) : Nat := u8 p i + 256 * u8 p (i + 1)
def u32 (p : Bytes) (i : Nat) : Nat := u16 p i + 65536 * u16 p (i + 2)
def u64 (p : Bytes) (i : Nat) : Nat := u32 p i + 4294967296 * u32 p (i + 4)

/-- The signed reading of an unsigned `w`-bit number. -/
def signed (w : Nat) (v : Nat) : Int := if v < 2 ^ (w - 1) then (v : Int) else (v : Int) - (2 ^ w : Nat)
def i8 (p : Bytes) (i : Nat) : Int := signed 8 (u8 p i)
def i32 (p : Bytes) (i : Nat) : Int := signed 32 (u32 p i)

/-- `n` bytes of a number, little-endian. -/
def le : Nat → Nat → Bytes
  | 0, _ => []
  | n + 1, v => BitVec.ofNat 8 v :: le n (v / 256)

/-- `n` bytes of a signed number, little-endian two's complement. -/
def leI (n : Nat) (v : Int) : Bytes := le n (v % (2 ^ (8 * n) : Nat)).toNat

/-- `n` zero bytes. -/
def zeros (n : Nat) : Bytes := List.replicate n 0

/-- A number saturated to 32 bits. -/
def sat32 (n : Nat) : Nat := min n 0xFFFFFFFF

/-- A signed number clamped to an interval. -/
def clampI (lo hi v : Int) : Int := if v < lo then lo else if hi < v then hi else v

/-- 1 for true. -/
def bit (b : Bool) : Nat := if b then 1 else 0

/-- The bit `k` of a byte where `b` holds. -/
def flag (k : Nat) (b : Bool) : Nat := if b then 2 ^ k else 0

/-- Every one of the bytes from `i`, `n` of them, is zero. -/
def zeroAt (p : Bytes) (i n : Nat) : Bool := ((p.drop i).take n).all (· == 0)

/-- Replaces element `i` of a list. -/
def lset {α : Type} (l : List α) (i : Nat) (v : α) : List α := l.set i v

/-- Place of the first element that satisfies `f`. -/
def firstIdx {α : Type} (f : α → Bool) : List α → Option Nat
  | [] => none
  | x :: t => if f x then some 0 else (firstIdx f t).map (· + 1)

/-- Division rounded up. -/
def ceilDiv (a b : Nat) : Nat := (a + b - 1) / b

/-! ### Time (R8, R179) -/

/-- Counts of SYSCNT in a millisecond and in a second. -/
def msCounts : Nat := 200000
def secCounts : Nat := 200000000

/-- `dt` counts pass; AO counts them from input power good, SYSCNT while the crystal runs (R86, steps 3 and 6). -/
def advance (dt : Nat) (s : State) : State :=
  { s with
    sysCnt := if s.life.crystal then s.sysCnt + dt else s.sysCnt
    pwr := { s.pwr with aoCnt := if s.pwr.aoOn then s.pwr.aoCnt + dt else s.pwr.aoCnt } }

/-- TAI(x) = T0 + (x − S0) × 5 ns × (1 + r), in ns (R179). -/
def taiAt (c : Clk) (x : Nat) : Int :=
  c.taiT0 + (((x : Int) - (c.taiS0 : Int)) * 5 * (1099511627776 + c.taiRate)) / 1099511627776

/-- TAI time now. -/
def taiNow (s : State) : Int := taiAt s.clk s.sysCnt

/-- TAI time now as a report gives it: 0 where it is not valid (R183). -/
def taiReported (s : State) : Nat := if s.clk.taiValid then (taiNow s).toNat else 0

/-- Frames per second at a rate code (R7). -/
def fsHz (f : Fin 3) : Nat := if f = 0 then 48000 else if f = 1 then 96000 else 192000

/-- The rate in force. -/
def fsNow (s : State) : Nat := fsHz s.clk.fs

end Sys2Proof.Machine
end

