-- ==== Sys2Proof/Machine/Egress.lean ====
section
/-! DEFINITION. Frames leaving the network ports (R427, R428): wire rates of the transmit slots (R448), the eight queues of an
egress port in strict priority, and the credit-based shaper of the 1722 classes. -/

namespace Sys2Proof.Machine

/-! ### Wire rates (R443, R448) -/

/-- Bytes per sample of an encoding. -/
def sampleBytes (enc : Nat) : Nat := if enc = 0 then 2 else if enc = 1 then 3 else 4

/-- Samples per second of a RATE code (R437). -/
def rateHz (r : Nat) : Nat :=
  if r = 0 then 48000 else if r = 1 then 96000 else if r = 2 then 192000 else if r = 3 then 44100
  else if r = 4 then 88200 else 176400

/-- Samples of a packet (R443). -/
def packetSamples (rate ptime : Nat) : Nat :=
  let p := (if ptime = 0 then 6 else if ptime = 1 then 12 else if ptime = 2 then 16 else if ptime = 3 then 48 else 192)
    * (if rate % 3 = 0 then 1 else if rate % 3 = 1 then 2 else 4)
  if rate < 3 then p else p * 91875 / 100000

/-- Payload of a transmitted packet. -/
def txPayload (c : TxSlotCfg) : Nat := c.channels * sampleBytes c.encoding * packetSamples c.rate c.ptime

/-- Overhead on the wire (R448). -/
def txOverhead (c : TxSlotCfg) : Nat :=
  if c.transport = 3 then 66 else if c.transport = 4 then 74 else if c.vlan = 0 then 78 else 82

/-- Wire rate of a transmit slot, bit/s. -/
def wireRate (c : TxSlotCfg) : Nat :=
  (txPayload c + txOverhead c) * 8 * rateHz c.rate / max 1 (packetSamples c.rate c.ptime)

/-! ### Names -/

/-- Settings of the network. -/
def netCfg (s : State) : NetCfg := s.cfg.net.net

/-- A port's link. -/
def linkOf (s : State) : LinkPort → LinkRt
  | .neta => s.net.a
  | .netb => s.net.b
  | .hostnet => s.net.host
def setLink (l : LinkPort) (x : LinkRt) (s : State) : State :=
  match l with
  | .neta => { s with net := { s.net with a := x } }
  | .netb => { s with net := { s.net with b := x } }
  | .hostnet => { s with net := { s.net with host := x } }

/-- Index of a switch port: 0 NETA, 1 NETB, 2 HOSTNET (R453). -/
def linkIdx : LinkPort → Nat
  | .neta => 0
  | .netb => 1
  | .hostnet => 2

def linkPortOf : NetPort → LinkPort
  | .a => .neta
  | .b => .netb

/-- Quantities `Config.measure` is asked for here: frames with a bad FCS that came since the frame before, and frames that found their
egress queue full since then. -/
def qFcsErr : Nat := 30
def qQueueDrops : Nat := 31

/-- A frame has come in by a port. -/
def countRx (l : LinkPort) (s : State) : State :=
  let x := linkOf s l
  setLink l { x with rxFrames := sat32 (x.rxFrames + 1)
                     fcsErr := sat32 (x.fcsErr + (Config.measure qFcsErr (linkIdx l) s.sysCnt).toNat) } s

/-- The link carries frames: up, and not in the PHY's loopback (R454). -/
def linkIsUp (s : State) (l : LinkPort) : Bool := (linkOf s l).link != 0 && !(linkOf s l).phyLoop

/-- A transmit slot counts on a port (R449). -/
def countsOn (s : State) (b : Bool) (c : TxSlotCfg) : Bool := (netCfg s).switched || c.paths.getLsbD (bit b)

/-! ### The shaper (R428) -/

/-- Settings of the enabled transmit slots of IEEE 1722 that count on a port; none on HOSTNET. -/
def shapedSlots (s : State) (l : LinkPort) : List TxSlotCfg :=
  if l = .hostnet then []
  else (s.net.tx.filterMap (fun e =>
    let c := tget ({} : TxSlotCfg) s.cfg.net.tx e.1
    if e.2.state != .off && decide (3 ≤ c.transport) && countsOn s (l == .netb) c then some c else none))

/-- What the shaper of a port goes by: whether classes A and B are shaped, and their idleSlopes in bit/s. -/
structure Shaper where
  on : Bool
  slopeA : Nat
  slopeB : Nat
  deriving DecidableEq, Repr

/-- The shaper of a port: each idleSlope is the sum of the wire rates of the class's slots. -/
def shaperOf (s : State) (l : LinkPort) : Shaper :=
  let c := shapedSlots s l
  ⟨!c.isEmpty, ((c.filter (fun x => !x.classB)).map wireRate).sum, ((c.filter (fun x => x.classB)).map wireRate).sum⟩

/-- Queues of SR class A and SR class B. -/
def queueA : Nat := 3
def queueB : Nat := 2

/-- Time of a SYSCNT value, and of one bit at a link's rate, tenths of a nanosecond. -/
def wireTime (cnt : Nat) : Nat := 50 * cnt
def bitTime (x : LinkRt) : Nat := if x.link = 2 then 4 else 10

/-- The credit of a shaped queue at time `t`, units of 10^-10 bit. It rises at the idleSlope and falls at the port's rate while its
frame leaves; with no frame waiting it does not stay above zero. -/
def creditTo (q slope t : Nat) (c : Int) (x : LinkRt) : Int :=
  let busy : Nat := if x.sending = q then min t x.free - min x.creditAt x.free else 0
  let c1 := c + (slope : Int) * ((t - x.creditAt : Nat) : Int) - ((10000000000 / bitTime x * busy : Nat) : Int)
  if x.queue.any (fun e => e.frame.queue == q) || (x.sending == q && decide (t < x.free)) then c1 else min 0 c1

/-- Both credits of a port move to time `t`. -/
def moveCredits (g : Shaper) (t : Nat) (x : LinkRt) : LinkRt :=
  if g.on then { x with creditA := creditTo queueA g.slopeA t x.creditA x, creditB := creditTo queueB g.slopeB t x.creditB x
                        creditAt := t }
  else { x with creditA := 0, creditB := 0, creditAt := t }

/-- Queues that may send, the first served first: strict priority, with the shaped queues that have credit above every unshaped
one but queue 7. -/
def serveOrder (g : Shaper) (x : LinkRt) : List Nat :=
  if g.on then 7 :: (if 0 ≤ x.creditA then [queueA] else []) ++ (if 0 ≤ x.creditB then [queueB] else []) ++ [6, 5, 4, 1, 0]
  else [7, 6, 5, 4, 3, 2, 1, 0]

/-- The oldest frame of the first queue of an order that has one. -/
def firstFrame (l : List Egress) : List Nat → Option Egress
  | [] => none
  | q :: t => match l.find? (fun e => e.frame.queue == q) with
    | some e => some e
    | none => firstFrame l t

/-- The time at which a queue whose credit is below zero has none to make up. -/
def creditDue (q slope t : Nat) (c : Int) (l : List Egress) : List Nat :=
  if l.any (fun e => e.frame.queue == q) && decide (c < 0) && slope != 0 then [t + ceilDiv c.natAbs slope] else []

/-- A port serves its queues up to time `now`: the link after it, and the frames that began to leave. -/
def serveQueues (g : Shaper) (now : Nat) : Nat → LinkRt → List SentFrame → LinkRt × List SentFrame
  | 0, x, out => (x, out)
  | n + 1, x, out =>
    if now < x.free then (moveCredits g now x, out)
    else
      let t := max x.free x.creditAt
      let y := moveCredits g t x
      match firstFrame y.queue (serveOrder g y) with
      | some e => serveQueues g now n
          { y with queue := y.queue.erase e, free := t + 8 * e.len * bitTime y, sending := e.frame.queue
                   txFrames := sat32 (y.txFrames + 1) }
          (out ++ [e.frame])
      | none =>
        match ((creditDue queueA g.slopeA t y.creditA y.queue ++ creditDue queueB g.slopeB t y.creditB y.queue).filter
            (fun d => decide (d ≤ now))).min? with
        | some d => serveQueues g now n (moveCredits g d y) out
        | none => (moveCredits g now { y with sending := 8 }, out)

/-- A port's queues are served up to the present. -/
def serveLink (l : LinkPort) (s : State) : State :=
  let x := linkOf s l
  let r := serveQueues (shaperOf s l) (wireTime s.sysCnt) (2 * x.queue.length + 2) x []
  let s1 := setLink l r.1 s
  { s1 with net := { s1.net with sent := s1.net.sent ++ r.2 } }

/-- Every port's queues are served. -/
def serveLinks (s : State) : State := serveLink .hostnet (serveLink .netb (serveLink .neta s))

/-! ### Frames of the module (R426, R427) -/

/-- VLAN of the module's own traffic on a port: that of the endpoint in SWITCHED mode. -/
def ownVlan (s : State) (l : LinkPort) : Nat :=
  if !(netCfg s).switched && l == .netb then (netCfg s).vlanB else (netCfg s).vlanA

/-- A frame with what the queue rules and the settings give it (R426, R427, R439): queue, VLAN, PCP, DSCP. -/
def headFrame (s : State) (l : LinkPort) (o : NetOut) : SentFrame :=
  let c := netCfg s
  let v := ownVlan s l
  match o with
  | .control _ => ⟨l, c.ctrlPcp, v, c.ctrlPcp, c.ctrlDscp, o⟩
  | .ptp _ _ _ _ _ udp _ => ⟨l, 7, v, c.ptpPcp, if udp then c.ptpDscp else 0, o⟩
  | .ptpDelay _ _ _ udp _ => ⟨l, 7, v, c.ptpPcp, if udp then c.ptpDscp else 0, o⟩
  | .media _ _ h _ _ _ _ => ⟨l, h.pcp, h.vlan, h.pcp, if h.transport ≤ 2 then h.dscp else 0, o⟩
  | .forward _ f q _ => ⟨l, q, if f.tagged then f.vlan.toNat else 0, if f.tagged then f.pcp.toNat else 0, f.dscp.toNat, o⟩
  | .lldp _ _ => ⟨l, 0, 0, 0, 0, o⟩
  | .arpReply .. | .icmpReply .. | .igmp .. => ⟨l, 0, v, 0, 0, o⟩

/-- Bytes on the wire of a frame of the module's own with `n` bytes after its Ethernet header: preamble, header, tag, FCS and gap,
and padding to the least length. -/
def ethLen (s : State) (l : LinkPort) (n : Nat) : Nat := 20 + max 64 (18 + n + if ownVlan s l = 0 then 0 else 4)

/-- The same for `n` bytes in an IPv4 packet. -/
def ipLen (s : State) (l : LinkPort) (n : Nat) : Nat := ethLen s l (20 + n)

/-- A frame of `len` bytes on the wire enters its queue on a port whose link is up, and the port serves its queues. -/
def sendFrame (l : LinkPort) (o : NetOut) (len : Nat) (s : State) : State :=
  if linkIsUp s l then
    let s1 := serveLink l s
    let x := linkOf s1 l
    serveLink l (setLink l { x with
      queue := x.queue ++ [⟨len, headFrame s l o⟩]
      queueDrops := sat32 (x.queueDrops + (Config.measure qQueueDrops (linkIdx l) s.sysCnt).toNat) } s1)
  else s

end Sys2Proof.Machine
end

