-- ==== Sys2Proof/Machine/Ops.lean ====
section
/-! DEFINITION. The operations every command uses: time, little-endian payloads (R13), events and IRQ_N (R163 to
R165), replies and where they go (R130, R137, R152), modes. -/

namespace Sys2Proof.Machine

/-- What a meaning answers. -/
abbrev R := Host.Outcome State Fault Refusal

/-! ### Frames -/

/-- Whole frames in a time in microseconds, rounded up (R12). -/
def usFrames (s : State) (us : Nat) : Nat := ceilDiv (us * fsNow s) 1000000

/-- A fresh index for a free value. -/
def fresh (s : State) : Nat × State := (s.seed, { s with seed := s.seed + 1 })

/-! ### Modes -/

/-- The code of a mode (R89). -/
def modeCode : Mode → Nat
  | .off => 0 | .reset => 1 | .start => 2 | .hold => 3 | .service => 4 | .maintenance => 5 | .recovery => 6

/-- Commands are admitted: HOLD, SERVICE, MAINTENANCE or RECOVERY (R87). -/
def modeUp : Mode → Bool
  | .hold | .service | .maintenance | .recovery => true
  | _ => false

/-- Audio runs as in service (R95). -/
def modeLive : Mode → Bool
  | .service | .maintenance => true
  | _ => false

/-- The block "audio clock" counts as stopped (R46). -/
def clockStopped (s : State) : Bool := s.life.mode == .hold || s.life.mode == .recovery

/-! ### Snapshots -/

/-- The machine as its islands latched it at the latest tick; as it is now before the first (R217, R247, R279, R311, R418, R452,
R475). -/
def latchView (s : State) : State :=
  let l := s.latch
  if l.taken then
    { s with
      sysCnt := l.sysCnt, pads := l.pads, cfg := l.cfg, pwr := l.pwr, flt := l.flt, clk := l.clk, inp := l.inp, filt := l.filt, outp := l.outp
      port := l.port, net := l.net, mix := l.mix, coop := l.coop }
  else s

/-- Every island latches its state (R217, R247, R279, R311, R418, R452, R475). -/
def latchTick (s : State) : State :=
  { s with latch :=
    { taken := true, sysCnt := s.sysCnt, pads := s.pads, cfg := s.cfg, pwr := s.pwr, flt := s.flt, clk := s.clk, inp := s.inp, filt := s.filt
      outp := s.outp, port := s.port, net := s.net, mix := s.mix, coop := s.coop } }

/-! ### Events (R163 to R165) -/

/-- The EVENTS byte (R136): sources 0 to 2 follow what they watch, the others are latched. -/
def eventsNow (s : State) : BitVec 8 :=
  (s.cmd.events &&& 0xF8) ||| (if s.flt.queue.isEmpty then 0 else 1) ||| (if s.cmd.store.isEmpty then 0 else 2)
    ||| (s.cmd.events &&& 4)

/-- IRQ_N is pulled low (R164). -/
def irqLow (s : State) : Bool :=
  modeUp s.life.mode && (eventsNow s &&& (s.cfg.event.irqMask ||| 1)) != 0

/-- The code of an opcode in the packet header (R523 to R529). -/
def opCode : Op → BitVec 16
  | .nop => 0x0000 | .devInfo => 0x0001 | .devState => 0x0002 | .devRun => 0x0003 | .devMode => 0x0004
  | .devReset => 0x0005 | .boardDescribe => 0x0006 | .timeRead => 0x0007 | .eventMask => 0x0008
  | .vintCommit => 0x0100 | .vintStatus => 0x0101 | .vintPolicy => 0x0102 | .vintClear => 0x0103
  | .lifeState => 0x0110 | .lifeAdvance => 0x0111 | .fwBegin => 0x0120 | .fwData => 0x0121 | .fwEnd => 0x0122
  | .fwSelect => 0x0123 | .keyInstall => 0x0130
  | .graphStage => 0x0200 | .graphCommit => 0x0201 | .graphAbort => 0x0202 | .graphQuery => 0x0203
  | .routeSet => 0x0204 | .latencyQuery => 0x0205
  | .gainSet => 0x0300 | .muteSet => 0x0301 | .rampDefaults => 0x0302 | .sinkSet => 0x0303 | .genSet => 0x0304
  | .override => 0x0305 | .overrideConfig => 0x0306 | .meterRead => 0x0307
  | .inputSet => 0x0400 | .inputStatus => 0x0401 | .tasterConfig => 0x0402 | .tasterRun => 0x0403
  | .tasterSubstitute => 0x0404 | .inputExpert => 0x04F0
  | .outputSet => 0x0500 | .outputStatus => 0x0501 | .holdSet => 0x0502 | .holdSafeSet => 0x0503
  | .speakerSet => 0x0504 | .clearConfig => 0x0505 | .outputExpert => 0x05F0
  | .filtConfig => 0x0600 | .filtCoefLoad => 0x0601 | .filtRun => 0x0602 | .filtSync => 0x0603
  | .filtPhase => 0x0604 | .filtStatus => 0x0605 | .filtExpert => 0x06F0
  | .tdmSet => 0x0700 | .aesSet => 0x0701 | .portStart => 0x0702 | .portStop => 0x0703 | .portStatus => 0x0704
  | .portStamp => 0x0705 | .aesCsSet => 0x0706 | .aesCsRead => 0x0707
  | .clockRefs => 0x0800 | .clockStatus => 0x0801 | .ptpSet => 0x0802 | .wclkSet => 0x0803 | .fsSet => 0x0804
  | .decantSet => 0x0805 | .alignGroupSet => 0x0806 | .clockExpert => 0x08F0
  | .netSet => 0x0900 | .streamRxSet => 0x0901 | .streamTxSet => 0x0902 | .streamEnable => 0x0903
  | .streamStatus => 0x0904 | .netStatus => 0x0905 | .netAuthSet => 0x0906
  | .hsSet => 0x0A00 | .hsStatus => 0x0A01 | .hsEvents => 0x0A02 | .hsExpert => 0x0AF0
  | .coopLoad => 0x0B00 | .coopStart => 0x0B01 | .coopStop => 0x0B02 | .coopStatus => 0x0B03 | .coopParam => 0x0B04
  | .coopDebug => 0x0BF0
  | .faultRead => 0x0C00 | .faultAck => 0x0C01 | .powerStatus => 0x0C02 | .powerPolicy => 0x0C03
  | .thermalStatus => 0x0C04
  | .expertOpen => 0x0E00 | .expertClose => 0x0E01 | .regRead => 0x0E02 | .regWrite => 0x0E03
  | .testLoop => 0x0F00 | .testSelf => 0x0F01

/-- Every host opcode, in the order of the index. -/
def allOps : List Op :=
  [.nop, .devInfo, .devState, .devRun, .devMode, .devReset, .boardDescribe, .timeRead, .eventMask, .vintCommit,
   .vintStatus, .vintPolicy, .vintClear, .lifeState, .lifeAdvance, .fwBegin, .fwData, .fwEnd, .fwSelect, .keyInstall,
   .graphStage, .graphCommit, .graphAbort, .graphQuery, .routeSet, .latencyQuery, .gainSet, .muteSet, .rampDefaults,
   .sinkSet, .genSet, .override, .overrideConfig, .meterRead] ++
  [.inputSet, .inputStatus, .tasterConfig, .tasterRun, .tasterSubstitute, .inputExpert, .outputSet, .outputStatus,
   .holdSet, .holdSafeSet, .speakerSet, .clearConfig, .outputExpert, .filtConfig, .filtCoefLoad, .filtRun, .filtSync,
   .filtPhase, .filtStatus, .filtExpert, .tdmSet, .aesSet, .portStart, .portStop, .portStatus, .portStamp, .aesCsSet,
   .aesCsRead, .clockRefs, .clockStatus, .ptpSet, .wclkSet, .fsSet, .decantSet, .alignGroupSet, .clockExpert] ++
  [.netSet, .streamRxSet, .streamTxSet, .streamEnable, .streamStatus, .netStatus, .netAuthSet, .hsSet, .hsStatus,
   .hsEvents, .hsExpert, .coopLoad, .coopStart, .coopStop, .coopStatus, .coopParam, .coopDebug, .faultRead, .faultAck,
   .powerStatus, .powerPolicy, .thermalStatus, .expertOpen, .expertClose, .regRead, .regWrite, .testLoop, .testSelf]

/-- The code of a status (R538). -/
def statusCode : Status → BitVec 16
  | .ok => 0x0000 | .okDeferred => 0x0001 | .okStaged => 0x0002 | .warnHeadroom => 0x1001 | .warnDip => 0x1002
  | .shadowStale => 0x1003 | .busy => 0x2001 | .wrongMode => 0x2002 | .locked => 0x2003 | .badOpcode => 0x3001
  | .badLength => 0x3002 | .badParam => 0x3003 | .outOfRange => 0x3004 | .badHandle => 0x3005 | .badVersion => 0x3006
  | .crcError => 0x4001 | .authFail => 0x4002 | .replay => 0x4003 | .noResource => 0x5001 | .graphTooLarge => 0x5002
  | .queueFull => 0x5003 | .internal => 0x6001

/-- Bits [15:12] of a status (R131). -/
def statusClass (st : Status) : Nat := (statusCode st).toNat / 4096

/-! ### Replies (R130, R137, R138, R142, R152) -/

/-- A payload padded with zeros to a multiple of 4 (R128). -/
def padded (p : Bytes) : Bytes := p ++ zeros ((4 - p.length % 4) % 4)

/-- The bytes of a reply (R130): header with its CRC, then the padded payload. -/
def encodeReply (r : Reply) : Bytes :=
  let h := [0xCD, 0x02] ++ le 2 r.opcode.toNat ++ le 2 r.tag.toNat ++ le 2 (statusCode r.status).toNat
    ++ le 4 r.payload.length
  h ++ le 4 (crc32c (h ++ r.payload)).toNat ++ padded r.payload

/-- Places of the SPI reply store taken by replies of classes 0 to 2. -/
def lowPlaces (l : List Reply) : Nat := (l.filter (fun r => r.cls != 3)).length

/-- A reply takes its place in the SPI reply store, or waits in the holding list, or, at class 3 with no place, is
discarded (R137). Where completions find the 64 entries of the holding list taken the list grows, since a reply of classes 0
to 2 is never discarded (log 85). -/
def spiPut (r : Reply) (c : Cmd) : Cmd :=
  if r.cls = 3 then
    (if c.store.length < 16 then { c with store := c.store ++ [r] } else c)
  else if c.holding.isEmpty && decide (lowPlaces c.store < 15) && decide (c.store.length < 16) then
    { c with store := c.store ++ [r] }
  else { c with holding := c.holding ++ [r] }

/-- Replies of the holding list enter the store in order as places free (R137). -/
def spiPromote : List Reply → Cmd → Cmd
  | [], c => { c with holding := [] }
  | r :: t, c =>
    if lowPlaces c.store < 15 && c.store.length < 16 then
      spiPromote t { c with store := c.store ++ [r] }
    else { c with holding := r :: t }

/-- The trailer of a packet the module sends under a key (R142, R139). -/
def trailerOf (s : State) (key : Fin 16) (msg : Bytes) : Bytes :=
  let n := tget 1 s.cmd.keyOut key
  let m := msg ++ le 8 s.life.nonce.toNat ++ le 1 key ++ le 8 n
  match s.life.netKeys.getD key none with
  | some k => le 1 key ++ le 8 n ++ (hmacSha256 k m).take 16
  | none => []

/-- The key an authenticated packet of the requester is under (R139, R144). -/
def keyOf : Requester → Option (Fin 16)
  | .spi => none
  | .net _ _ k => k

/-- A datagram leaves port 4750 for an address and port, through a network port (R138), with a trailer under a key
(R142). -/
def sendDatagram (l : LinkPort) (ip : BitVec 32) (udp : BitVec 16) (key : Option (Fin 16)) (r : Reply) (s : State) : State :=
  let go (trailer : Bytes) (s : State) : State :=
    let d : SentReply := ⟨ip, udp, l, r, trailer⟩
    let s1 := sendFrame l (.control d) (ipLen s l (8 + (encodeReply r).length + trailer.length)) s
    { s1 with cmd := { s1.cmd with sent := s1.cmd.sent ++ [d] } }
  match key with
  | none => go [] s
  | some k =>
    let s1 := go (trailerOf s k (encodeReply r)) s
    { s1 with cmd := { s1.cmd with keyOut := tset 1 s1.cmd.keyOut k (tget 1 s1.cmd.keyOut k + 1) } }

/-- Place of a requester's session. -/
def sessionAt (c : Cmd) (rq : Requester) : Option (Fin 8) :=
  (firstIdx (fun x : Option Session => match x with | some e => e.rq == rq | none => false) c.sessions).map (Fin.ofNat 8)

/-- The port a requester's latest packet came through. -/
def sessionPort (c : Cmd) (rq : Requester) : LinkPort :=
  match sessionAt c rq with
  | none => .neta
  | some i => match c.sessions.getD i none with | some e => e.port | none => .neta

/-- An event notice to the listener (R165), through the port its latest packet came through. -/
def sendNotice (s : State) : State :=
  match s.cmd.listener with
  | some (.net ip udp key) =>
    let s1 := sendDatagram (sessionPort s.cmd (.net ip udp key)) ip udp key
      ⟨0x0008, 0xFFFF, .ok, le 1 (eventsNow s).toNat ++ zeros 3, 0⟩ s
    { s1 with cmd := { s1.cmd with
      notices := (.net ip udp key, s.sysCnt) ::
        s1.cmd.notices.filter (fun e => e.1 != .net ip udp key && decide (s.sysCnt < e.2 + 10 * msCounts))
      noticeDue := false } }
  | _ => s

/-- The listener had a notice less than 10 ms ago. -/
def noticeSoon (s : State) (rq : Requester) : Bool :=
  s.cmd.notices.any (fun e => e.1 == rq && decide (s.sysCnt < e.2 + 10 * msCounts))

/-- After a change: where a source became pending since `s0`, the listener gets a notice, or is due one when 10 ms
have not passed since its last (R165). -/
def noticed (s0 s1 : State) : State :=
  if (eventsNow s1 &&& ~~~(eventsNow s0)) = 0 then s1
  else match s1.cmd.listener with
    | none => s1
    | some rq => if noticeSoon s1 rq then { s1 with cmd := { s1.cmd with noticeDue := true } } else sendNotice s1

/-- The listener changes (R165): a notice that was due was due to the one before. -/
def setListener (l : Option Requester) (c : Cmd) : Cmd :=
  if c.listener = l then c else { c with listener := l, noticeDue := false }

/-- Makes a latched event source pending (R163): 2 HEADSET, 3 POWER, 4 CLOCK, 5 STREAM, 6 TASTER, 7 MODE. -/
def postEvent (src : Nat) (s : State) : State :=
  noticed s { s with cmd := { s.cmd with events := s.cmd.events ||| BitVec.ofNat 8 (2 ^ src) } }

/-- Clears a latched event source. -/
def clearEvent (src : Nat) (s : State) : State :=
  { s with cmd := { s.cmd with events := s.cmd.events &&& ~~~(BitVec.ofNat 8 (2 ^ src)) } }

/-- Sends a reply to whoever sent the packet (R137, R138), unless NO_REPLY suppresses it (R152). A reply of status
class 2 or above carries no payload (R131). During the power-loss sequence no reply is sent (R80). -/
def reply (code : BitVec 16) (h : Hdr) (st : Status) (pay : Bytes) (s : State) : State :=
  if h.noReply && decide (statusClass st < 2) then s
  else if s.pwr.loss.isSome then s
  else
    let r : Reply := ⟨code, h.tag, st, if statusClass st < 2 then pay else [], h.cls⟩
    match h.rq with
    | .spi => noticed s { s with cmd := spiPut r s.cmd }
    | .net ip udp key => sendDatagram h.port ip udp key r s

/-- The instant of what happens now: at a frame tick the tick's own, 3 counts before its stamp (R29, R182). -/
def momentOf (s : State) : Nat := if s.sysCnt = s.clk.stamp then s.sysCnt - 3 else s.sysCnt

/-- Enters a mode (R90, R92): PREV_MODE, MODE_SINCE and the MODE event. -/
def enterMode (m : Mode) (s : State) : State :=
  postEvent 7 { s with life := { s.life with mode := m, prev := s.life.mode, since := s.sysCnt } }

end Sys2Proof.Machine
end

