-- ==== Sys2Proof/Machine/Faults.lean ====
section
/-! DEFINITION. Recording and releasing faults: the master table's codes and classes (R511), conditions and their
identity (R504), the queue of 32 records with its overflow rules (R505 to R507), and what goes to the log (R510). -/

namespace Sys2Proof.Machine

/-- Class of a fault (R511). -/
def faultClass : FaultCode → FaultClass
  | .authFail | .blendSaturated | .rampDeferred | .tasterSubstituted | .portGlitch | .portUnderrun | .portOverrun
  | .aesCsCrc | .aesValidity | .refSwitched | .streamUnderrun | .streamLate | .pathLost | .coopGuard
  | .faultOverflow => .note
  | .phantomOvercurrent | .convImplausible | .outputShort | .speakerLoad | .hsFault | .coopOverrun => .channel
  | .portClockLost | .ptpUnlocked | .decantUnlocked | .linkDown | .streamLost | .coopTrap => .port
  | .vintSlotBad | .vintCommitFail | .outputThermal | .refLost | .powerBudget | .powerPortLost | .thermalWarn
  | .avsMargin => .device
  | .holdShort | .thermalTrip => .safety

/-- The fault's number (R511). -/
def faultNum : FaultCode → BitVec 16
  | .authFail => 0x0001 | .vintSlotBad => 0x0101 | .vintCommitFail => 0x0102 | .blendSaturated => 0x0301
  | .rampDeferred => 0x0302 | .phantomOvercurrent => 0x0401 | .convImplausible => 0x0402
  | .tasterSubstituted => 0x0403 | .outputShort => 0x0501 | .holdShort => 0x0502 | .speakerLoad => 0x0503
  | .outputThermal => 0x0504 | .portClockLost => 0x0701 | .portGlitch => 0x0702 | .portUnderrun => 0x0703
  | .portOverrun => 0x0704 | .aesCsCrc => 0x0705 | .aesValidity => 0x0706 | .refLost => 0x0801
  | .refSwitched => 0x0802 | .ptpUnlocked => 0x0803 | .decantUnlocked => 0x0804 | .linkDown => 0x0901
  | .streamUnderrun => 0x0902 | .streamLost => 0x0903 | .streamLate => 0x0904 | .pathLost => 0x0905
  | .hsFault => 0x0A01 | .coopOverrun => 0x0B01 | .coopGuard => 0x0B02 | .coopTrap => 0x0B03
  | .powerBudget => 0x0C01 | .powerPortLost => 0x0C02 | .thermalWarn => 0x0C03 | .thermalTrip => 0x0C04
  | .faultOverflow => 0x0C05 | .avsMargin => 0x0C06

/-- Every fault code of the master table. -/
def allFaults : List FaultCode :=
  [.authFail, .vintSlotBad, .vintCommitFail, .blendSaturated, .rampDeferred, .phantomOvercurrent, .convImplausible,
   .tasterSubstituted, .outputShort, .holdShort, .speakerLoad, .outputThermal, .portClockLost, .portGlitch,
   .portUnderrun, .portOverrun, .aesCsCrc, .aesValidity] ++
  [.refLost, .refSwitched, .ptpUnlocked, .decantUnlocked, .linkDown, .streamUnderrun, .streamLost, .streamLate,
   .pathLost, .hsFault, .coopOverrun, .coopGuard, .coopTrap, .powerBudget, .powerPortLost, .thermalWarn, .thermalTrip,
   .faultOverflow, .avsMargin]

/-- Release is not "none" in the master table: the fault is a condition (R504). -/
def isCondition : FaultCode → Bool
  | .phantomOvercurrent | .convImplausible | .outputShort | .holdShort | .speakerLoad | .outputThermal
  | .portClockLost | .refLost | .ptpUnlocked | .decantUnlocked | .linkDown | .streamLost | .pathLost | .hsFault
  | .coopOverrun | .coopTrap | .powerBudget | .powerPortLost | .thermalWarn | .thermalTrip | .avsMargin => true
  | _ => false

/-- Code of a class (R502). -/
def classCode : FaultClass → Nat
  | .note => 0 | .channel => 1 | .port => 2 | .device => 3 | .safety => 4

/-- A condition is in force (R504). -/
def inForce (code : FaultCode) (object : BitVec 16) (index : Nat) (s : State) : Bool :=
  s.flt.active.any (fun c => c.code == code && c.object == object && c.index == index)

/-- Some condition of a code is in force. -/
def anyInForce (code : FaultCode) (s : State) : Bool := s.flt.active.any (fun c => c.code == code)

/-- Removes the oldest record that satisfies `f`. -/
def dropFirst (f : FaultRec → Bool) : List FaultRec → Option (List FaultRec)
  | [] => none
  | r :: t => if f r then some t else (dropFirst f t).map (r :: ·)

/-- Removes one record for a record of class `k` (R505): the oldest NOTE, CHANNEL, PORT or DEVICE record, in this
order, none of a class above `k` and never a FAULT_OVERFLOW record (R507). -/
def makeRoom (k : FaultClass) (q : List FaultRec) : Option (List FaultRec) :=
  let cand (c : FaultClass) (r : FaultRec) : Bool := r.cls == c && r.code != .faultOverflow
  let try1 (c : FaultClass) : Option (List FaultRec) :=
    if classCode c ≤ classCode k then dropFirst (cand c) q else none
  match try1 .note with
  | some q' => some q'
  | none => match try1 .channel with
    | some q' => some q'
    | none => match try1 .port with
      | some q' => some q'
      | none => try1 .device

/-- A place is open to class `k`: 28 places for all classes but SAFETY, 32 in all (R505). -/
def placeOpen (k : FaultClass) (q : List FaultRec) : Bool :=
  decide (q.length < 32) && (k == .safety || decide ((q.filter (fun r => r.cls != .safety)).length < 28))

/-- Puts a record into the queue for class `k`: the queue after, whether the record is in it, and how many records
were lost (R505). -/
def enqueue (k : FaultClass) (r : FaultRec) (q : List FaultRec) : List FaultRec × Bool × Nat :=
  if placeOpen k q then (q ++ [r], true, 0)
  else match makeRoom k q with
    | some q' => if placeOpen k q' then (q' ++ [r], true, 1) else (q, false, 1)
    | none => (q, false, 1)

/-- Adds `n` losses to the queued FAULT_OVERFLOW record (R507). -/
def addLosses (n now : Nat) (q : List FaultRec) : List FaultRec :=
  q.map (fun r => if r.code = .faultOverflow then
    { r with detail := BitVec.ofNat 32 (sat32 (r.detail.toNat + n)), repeats := sat32 (r.repeats + n),
             lastStamp := now }
    else r)

/-- Counts `n` lost records, making or extending the FAULT_OVERFLOW record (R507). -/
def recordLosses (n : Nat) (s : State) : State :=
  if n = 0 then s
  else
    let f := { s.flt with lost := s.flt.lost + n }
    if f.queue.any (fun r => r.code = .faultOverflow) then
      { s with flt := { f with queue := addLosses n s.sysCnt f.queue } }
    else
      let r : FaultRec :=
        { code := .faultOverflow, cls := .note, seq := f.nextSeq, object := 0, stamp := s.sysCnt,
          detail := BitVec.ofNat 32 n, lastStamp := s.sysCnt }
      let (q, inq, m) := enqueue .device r f.queue
      let q' := if inq && decide (0 < m) then addLosses m s.sysCnt q else q
      { s with flt := { f with queue := q', lost := f.lost + m,
                               nextSeq := if inq then f.nextSeq + 1 else f.nextSeq } }

/-- Makes a new record (R502, R505) and, at class DEVICE or SAFETY, its log entry to be written (R510). -/
def newRecord (code : FaultCode) (object : BitVec 16) (index : Nat) (detail : Word) (injected : Bool) (s : State) :
    State :=
  let k := faultClass code
  let r : FaultRec :=
    { code := code, cls := k, injected := injected, seq := s.flt.nextSeq, object := object, stamp := s.sysCnt,
      detail := detail, lastStamp := s.sysCnt, index := index }
  let (q, inq, n) := enqueue k r s.flt.queue
  let logged := decide (3 ≤ classCode k)
  let f := { s.flt with
    queue := q
    nextSeq := if inq then s.flt.nextSeq + 1 else s.flt.nextSeq
    lastDetect := s.sysCnt
    logPending := if logged then s.flt.logPending ++ [r] else s.flt.logPending }
  noticed s (recordLosses n { s with flt := f })

/-- A further detection coalesces into the queued record `r` (R504); at class DEVICE or SAFETY it is logged once a
second (R510). -/
def coalesce (r : FaultRec) (detail : Word) (s : State) : State :=
  let q := s.flt.queue.map (fun x => if x.seq = r.seq ∧ x.code = r.code then
    { x with repeats := sat32 (x.repeats + 1), lastStamp := s.sysCnt } else x)
  let sec := s.sysCnt / secCounts + 1
  let again := decide (3 ≤ classCode r.cls) && decide (tget 0 s.flt.logRepeat r.seq.toNat ≠ sec)
  { s with flt := { s.flt with
    queue := q
    lastDetect := s.sysCnt
    logRepeat := if again then tset 0 s.flt.logRepeat r.seq.toNat sec else s.flt.logRepeat
    logPending := if again then s.flt.logPending ++ [{ r with stamp := s.sysCnt, detail := detail }]
      else s.flt.logPending } }

/-- The queued record with an identity (R504). -/
def queuedRec (code : FaultCode) (object : BitVec 16) (index : Nat) (s : State) : Option FaultRec :=
  s.flt.queue.find? (fun r => r.code == code && r.object == object && r.index == index && !r.injected)

/-- A detection (R504): coalesced or recorded, whatever is in force. -/
def detect (code : FaultCode) (object : BitVec 16) (index : Nat) (detail : Word) (s : State) : State :=
  match queuedRec code object index s with
  | some r =>
    let s1 := coalesce r detail s
    if isCondition code && !inForce code object index s then
      { s1 with flt := { s1.flt with active := s1.flt.active ++ [⟨code, object, index, r.seq, s.sysCnt, detail⟩] } }
    else s1
  | none =>
    let s1 := newRecord code object index detail false s
    if isCondition code && !inForce code object index s then
      { s1 with flt := { s1.flt with
        active := s1.flt.active ++ [⟨code, object, index, s.flt.nextSeq, s.sysCnt, detail⟩] } }
    else s1

/-- Detects a fault. A condition in force is not detected again (R504). -/
def raise (code : FaultCode) (object : BitVec 16) (index : Nat) (detail : Word) (s : State) : State :=
  if isCondition code && inForce code object index s then s else detect code object index detail s

/-- Releases a condition (R504): it leaves force, and its record, if still queued, shows RELEASED. -/
def release (code : FaultCode) (object : BitVec 16) (index : Nat) (s : State) : State :=
  match s.flt.active.find? (fun c => c.code == code && c.object == object && c.index == index) with
  | none => s
  | some c => { s with flt := { s.flt with
      active := s.flt.active.filter (fun x => !(x.code == code && x.object == object && x.index == index))
      queue := s.flt.queue.map (fun r => if r.seq = c.seq ∧ r.code = code then { r with released := true } else r) } }

/-- The SEQ of the latest record of a condition in force. -/
def seqOf (code : FaultCode) (object : BitVec 16) (index : Nat) (s : State) : BitVec 8 :=
  match s.flt.active.find? (fun c => c.code == code && c.object == object && c.index == index) with
  | some c => c.seq
  | none => s.flt.nextSeq - 1

/-- A fault calls for RECOVERY (R512): entry follows at the next tick, from HOLD, SERVICE or MAINTENANCE only. -/
def callRecovery (code : FaultCode) (object : BitVec 16) (index : Nat) (s : State) : State :=
  if (s.life.mode == .hold || modeLive s.life.mode) && s.flt.recoveryDue.isNone then
    { s with flt := { s.flt with recoveryDue := some (seqOf code object index s),
                                 recoveryCause := some (code, object, index) } }
  else s

end Sys2Proof.Machine
end

