-- ==== Sys2Proof/Machine/Protocol.lean ====
section
/-! DEFINITION. Command packets from admission to reply: the index of opcodes (R522 to R529), the admission checks
(R132), the command queue (R146, R147), the execution of one opcode, timed commands (R153 to R159), and the SPI
frames (R133 to R137). -/

namespace Sys2Proof.Machine

/-! ### The command index -/

/-- Highest class the opcode may carry (R522, check 9). -/
def opClass : Op → Nat
  | .gainSet | .muteSet | .override => 3
  | .fwBegin | .fwData | .fwEnd | .filtCoefLoad | .coopLoad | .testSelf => 0
  | .boardDescribe | .eventMask | .vintCommit | .vintPolicy | .vintClear | .lifeAdvance | .fwSelect | .keyInstall
  | .graphStage | .graphAbort | .rampDefaults | .tasterConfig | .tasterRun | .inputExpert | .holdSafeSet
  | .outputExpert | .filtConfig | .filtRun | .filtPhase | .filtExpert | .tdmSet | .aesSet | .aesCsSet | .clockRefs
  | .ptpSet | .wclkSet | .fsSet | .decantSet | .alignGroupSet | .clockExpert | .netSet | .streamRxSet | .streamTxSet
  | .netAuthSet | .hsSet | .hsExpert | .coopDebug | .powerPolicy | .expertOpen | .expertClose | .regRead
  | .regWrite => 1
  | _ => 2

/-- Modes in which the opcode passes check 10 (R522). -/
def opModeOk (m : Mode) : Op → Bool
  | .devRun | .lifeAdvance => m == .hold
  | .vintClear => m == .hold || m == .recovery
  | .keyInstall | .inputExpert | .holdSafeSet | .outputExpert | .filtExpert | .clockExpert | .hsExpert | .coopDebug
  | .expertOpen | .expertClose | .regRead | .regWrite => m == .hold || m == .maintenance || m == .recovery
  | _ => modeUp m

/-- The opcode accepts TIMED (R153). -/
def opTimed : Op → Bool
  | .graphCommit | .routeSet | .gainSet | .muteSet | .sinkSet | .genSet | .override | .overrideConfig | .inputSet
  | .outputSet | .holdSet | .speakerSet | .clearConfig | .filtConfig | .filtSync | .portStart | .portStop | .aesCsSet
  | .streamEnable | .coopStart | .coopStop | .coopParam => true
  | _ => false

/-- The opcode is an expert opcode (R171). -/
def opExpert : Op → Bool
  | .inputExpert | .outputExpert | .filtExpert | .clockExpert | .hsExpert | .coopDebug | .regRead | .regWrite => true
  | _ => false

/-- The opcode is admitted while the module stays in START (R87). -/
def opHeld : Held → Op → Bool
  | .no, _ => false
  | .purge, op => op == .devState
  | .boot, op => op == .devState || op == .fwBegin || op == .fwData || op == .fwEnd || op == .fwSelect

/-- The opcode passes without AUTH (R141). -/
def opUnauth (op : Op) : Bool := op == .nop || op == .devInfo || op == .devState || op == .lifeState

/-- The opcode with a code. -/
def opOfCode (c : BitVec 16) : Option Op := allOps.find? (fun o => opCode o == c)

/-- Commands can be admitted at all (R80, R87): from HOLD on, or held in START, and not during power loss. -/
def accepting (s : State) : Bool :=
  (modeUp s.life.mode || (s.life.mode == .start && s.life.held != .no)) && s.pwr.loss.isNone

/-- Check 10: operating mode and expert session (R132, R171). -/
def check10 (op : Op) (rq : Requester) (s : State) : Status :=
  if modeUp s.life.mode then
    if !opModeOk s.life.mode op then .wrongMode
    else if opExpert op then
      match s.cmd.expert with
      | some e => if e.owner = rq then .ok else .wrongMode
      | none => .wrongMode
    else .ok
  else if rq = .spi ∧ s.life.mode = .start ∧ opHeld s.life.held op then .ok else .wrongMode

/-- Checks 9 and 10. -/
def check9and10 (op : Op) (h : Hdr) (s : State) : Status :=
  if opClass op < h.cls then .badParam else check10 op h.rq s

/-! ### The command queue (R146 to R148) -/

/-- The class a queued command is selected as (R147). -/
def selClass (q : Queued) : Nat := if q.aged && decide (q.hdr.cls.val < 2) then 2 else q.hdr.cls

/-- The command may start: not a class 0 to 2 command from SPI while 15 replies of these classes wait (R137). -/
def mayStart (c : Cmd) (q : Queued) : Bool :=
  !(q.hdr.rq == .spi && q.hdr.cls != 3 && decide (15 ≤ lowPlaces c.store))

/-- Of the queued commands that may start, the one of highest class by `f`, within a class the earliest admitted. -/
def bestQueued (f : Queued → Nat) (c : Cmd) : List Queued → Option Queued
  | [] => none
  | q :: t =>
    match bestQueued f c t with
    | none => if mayStart c q then some q else none
    | some b => if mayStart c q && decide (f b ≤ f q) then some q else some b

/-- A queued command of higher class than `r` may start (R148): ageing does not count here. -/
def higherQueued (c : Cmd) (r : Queued) : Bool := c.queue.any (fun q => decide (r.hdr.cls < q.hdr.cls) && mayStart c q)

/-- When the control core is free it selects a command, or resumes the preempted one when no command of higher class
is queued (R147, R148). -/
def select (c : Cmd) : Cmd :=
  match c.running with
  | some _ => c
  | none =>
    let fromQueue : Cmd := match bestQueued selClass c c.queue with
      | none => c
      | some b => { c with running := some b, queue := c.queue.erase b }
    match c.preempted with
    | [] => fromQueue
    | r :: t => if higherQueued c r then fromQueue else { c with running := some r, preempted := t }

/-- A header without its time. -/
def bareHdr (h : Hdr) : Hdr := { h with dt := 0 }

/-- The queued command is this packet. -/
def sameCmd (op : Op) (h : Hdr) (p : Bytes) (q : Queued) : Bool :=
  q.op == op && bareHdr q.hdr == bareHdr h && q.payload == p

/-- The packet has been admitted and waits or runs. -/
def isQueued (op : Op) (h : Hdr) (p : Bytes) (c : Cmd) : Bool :=
  c.queue.any (sameCmd op h p) || c.preempted.any (sameCmd op h p) ||
    (match c.running with | some q => sameCmd op h p q | none => false)

/-- Removes the first element that satisfies `f`. -/
def dropOne {α : Type} (f : α → Bool) : List α → List α
  | [] => []
  | x :: t => if f x then t else x :: dropOne f t

/-! ### Execution of one opcode -/

/-- What the body of an opcode answers: a reply now, or none yet (R533). -/
inductive Ans where
  | reply (st : Status) (pay : Bytes) (s : State)
  | late (s : State)

/-- A refusal: nothing changes (R17). -/
abbrev refuse (st : Status) (s : State) : Ans := .reply st [] s

/-- OK with an empty payload. -/
abbrev done (s : State) : Ans := .reply .ok [] s

/-- The expert idle timeout restarts (R173). -/
def touchExpert (op : Op) (rq : Requester) (s : State) : State :=
  match s.cmd.expert with
  | some e =>
    if e.owner = rq ∧ (opExpert op ∨ op = .expertOpen) then
      { s with cmd := { s.cmd with expert := some { e with last := s.sysCnt } } }
    else s
  | none => s

/-- A packet that the requester's header describes takes its place in the queue, where checks 9 to 11 pass (R132, R146); the
expert idle timeout restarts (R173). -/
def queueCommand (op : Op) (h : Hdr) (p : Bytes) (s : State) : Status × State :=
  match check9and10 op h s with
  | .ok =>
    if (if h.cls = 3 then 64 else 60) ≤ s.cmd.queue.length then (.queueFull, s)
    else if h.timed.isSome && decide (256 ≤ s.cmd.timed.length) then (.queueFull, s)
    else
      let s1 := touchExpert op h.rq s
      (.ok, { s1 with cmd := select { s1.cmd with
        queue := s1.cmd.queue ++ [⟨op, bareHdr h, p, s.sysCnt, false, s.cmd.arrivals⟩]
        arrivals := s.cmd.arrivals + 1 } })
  | st => (st, s)

/-- Check 6 (R132, R144): the requester has a session, or a free place for one, which the packet renews. A packet of class 3
from the network is counted as handed on with priority (R150, R454). -/
def holdSession (h : Hdr) (s : State) : Option State :=
  match h.rq with
  | .spi => some s
  | rq =>
    let place := match sessionAt s.cmd rq with
      | some i => some i
      | none => (firstIdx (fun x : Option Session => x.isNone) s.cmd.sessions).map (Fin.ofNat 8)
    place.map (fun i => { s with
      net := if h.cls = 3 then { s.net with ctrlPrio := s.net.ctrlPrio + 1 } else s.net
      cmd := { s.cmd with sessions := lset s.cmd.sessions i (some ⟨rq, h.port, s.sysCnt⟩) } })

/-- The key ID names an installed key that NET_AUTH_SET enables (R140, R535). -/
def keyKnown (s : State) (k : Fin 16) : Bool :=
  s.cfg.netAuth.keyEnable.getLsbD k && (s.life.netKeys.getD k none).isSome

/-- What check 5 finds of a packet by its header (R140, R141, R535): 0, or the detail of its refusal. -/
def check5 (op : Op) (rq : Requester) (s : State) : Nat :=
  match rq with
  | .spi => 0
  | .net _ _ none => if opUnauth op && s.cfg.netAuth.unauthRead then 0 else 4
  | .net _ _ (some k) => if keyKnown s k then 0 else 2

/-- Admission of a packet by what its header says (R132): authentication, a session, TIMED only where the opcode accepts it,
then checks 9 to 11 and a place in the queue. -/
def admission (op : Op) (h : Hdr) (p : Bytes) (s : State) : Status × State :=
  let d := check5 op h.rq s
  if d ≠ 0 then (.authFail, raise .authFail 0 0 (BitVec.ofNat 32 d) s)
  else match holdSession h s with
    | none => (.noResource, s)
    | some s1 => if h.timed.isSome && !opTimed op then (.badParam, s1) else queueCommand op h p s1

/-- A refusal at admission (R132). Over the network a source address gets at most 10 a second (R141); the refusal of an
authenticated packet at check 6 or later carries a trailer (R142), one at checks 2 to 5 none. -/
def refuseAt (code : BitVec 16) (h : Hdr) (st : Status) (s : State) : State :=
  match h.rq with
  | .spi => reply code h st [] s
  | .net ip udp key =>
    let recent (r : RefusalRate) : RefusalRate :=
      { r with times := r.times.filter (fun t => decide (s.sysCnt < t + secCounts)) }
    let rates : List RefusalRate := (s.cmd.refusals.map recent).filter (fun r => !r.times.isEmpty)
    let mine : List Nat := match rates.find? (fun r => r.ip == ip) with
      | some r => r.times
      | none => []
    if 10 ≤ mine.length then { s with cmd := { s.cmd with refusals := rates } }
    else
      let early := st == .badVersion || st == .badLength || st == .crcError || st == .authFail || st == .replay
      sendDatagram h.port ip udp (if early then none else key) ⟨code, h.tag, st, [], h.cls⟩
        { s with cmd := { s.cmd with refusals := rates.filter (fun r => r.ip != ip) ++ [⟨ip, s.sysCnt :: mine⟩] } }

/-- The control core is free again and selects (R147). -/
def finish (s : State) : State := { s with cmd := select { s.cmd with running := none } }

/-- Executes the packet where it is the command the control core has selected (R147), else it stays queued: checks 9 and 10
are made again, the body runs and its reply is sent. -/
def serve (op : Op) (h : Hdr) (p : Bytes) (body : State → Ans) (s0 : State) : State :=
  let s := { s0 with cmd := select s0.cmd }
  match s.cmd.running with
  | none => s
  | some q =>
    if sameCmd op h p q then
      (let st := check9and10 op h s
       if st = .ok then
         match body s with
         | .reply st' pay s1 => finish (reply (opCode op) h st' pay s1)
         | .late s1 => finish s1
       else finish (reply (opCode op) h st [] s))
    else s

/-- Runs an opcode: time passes, and the packet, admitted before or by its header now, is executed once the control core
selects it. Where no command is accepted (R80, R87) nothing happens. -/
def opcode (op : Op) (h : Hdr) (p : Bytes) (body : State → Ans) (s0 : State) : R :=
  let s := advance h.dt s0
  if !accepting s then .next s
  else if isQueued op h p s.cmd then .next (serve op h p body s)
  else match admission op h p s with
    | (.ok, s1) => .next (serve op h p body s1)
    | (st, s1) => .next (refuseAt (opCode op) h st s1)

/-- An opcode with a payload of exactly `n` bytes. -/
def opcodeN (op : Op) (n : Nat) (h : Hdr) (p : Bytes) (body : State → Ans) (s : State) : R :=
  opcode op h p (fun s => if p.length = n then body s else refuse .badLength s) s

/-- Sends the reply of a command that waited for a sequence (R533), if one waits. -/
def lateReply (op : Op) (st : Status) (pay : Bytes) (s : State) : State :=
  match s.cmd.late.find? (fun e => e.1 == op) with
  | none => s
  | some (_, h, pre) =>
    reply (opCode op) h st (pre ++ pay)
      { s with cmd := { s.cmd with late := dropOne (fun e => e.1 == op) s.cmd.late } }

/-- Notes that a command's reply comes later. -/
def awaitReply (op : Op) (h : Hdr) (pre : Bytes) (s : State) : State :=
  { s with cmd := { s.cmd with late := s.cmd.late ++ [(op, h, pre)] } }

/-- The place in the order of arrival of the command that runs (R35). -/
def arrivalOf (s : State) : Nat := match s.cmd.running with
  | some q => q.arr
  | none => s.cmd.arrivals

/-- An entry takes its place in the timed queue, which stands in order of arrival (R159). -/
def insertTimed (l : Landing) : List Landing → List Landing
  | [] => [l]
  | x :: t => if l.arr < x.arr then l :: x :: t else x :: insertTimed l t

/-- A timed command is prepared (R155): its apply time at or before the present TAI time makes it due at the next tick, and
then its one answer is the completion reply; else it is answered OK_DEFERRED (R156). -/
def prepareTimed (op : Op) (h : Hdr) (p : Bytes) (t : BitVec 64) (s : State) : Ans :=
  let past := decide ((t.toNat : Int) ≤ taiNow s)
  let s1 := { s with cmd := { s.cmd with timed := insertTimed ⟨op, h, p, true, arrivalOf s, past⟩ s.cmd.timed } }
  if past then .late s1 else .reply .okDeferred [] s1

/-- What refuses a timed command whatever it asks for (R154, R159). -/
def timedStatus (t : BitVec 64) (s : State) : Status :=
  if 256 ≤ s.cmd.timed.length then .queueFull
  else if !s.clk.taiValid then .wrongMode
  else if taiNow s + 86400000000000 < t.toNat then .outOfRange
  else .ok

/-- A command that is not timed waits with its effects for the next tick (R34). -/
def prepare (op : Op) (h : Hdr) (p : Bytes) (s : State) : State :=
  { s with cmd := { s.cmd with landing := s.cmd.landing ++ [⟨op, h, p, false, arrivalOf s, false⟩] } }

/-- A command whose effects land at a tick (R34, R153 to R159). Untimed it is checked and its effects wait for the
next tick; timed it is checked, prepared and waits for its apply time. -/
def landing (op : Op) (h : Hdr) (p : Bytes) (check : State → Status) (s : State) : Ans :=
  match h.timed with
  | none =>
    let st := check s
    if st = .ok then done (prepare op h p s) else refuse st s
  | some t =>
    let st := timedStatus t s
    if st ≠ .ok then refuse st s
    else
      let st := check s
      if st = .ok then prepareTimed op h p t s else refuse st s

/-- A command whose fields are live (R16): checked, it changes what belongs to a stopped block at once (`now`), and its live
fields wait for the next tick. -/
def landLive (op : Op) (h : Hdr) (p : Bytes) (check : State → Status) (now : State → State) (s : State) : Ans :=
  let st := check s
  if st = .ok then done (prepare op h p (now s)) else refuse st s

/-- The bytes that begin a completion reply (R157). -/
def completionPrefix (tai : Int) (frame : Nat) : Bytes := le 8 tai.toNat ++ le 8 frame

/-! ### Admission (R127, R132) -/

/-- A packet's header as received. -/
structure Packet where
  opcode : BitVec 16
  tag : BitVec 16
  flags : Nat
  cls : Nat
  plen : Nat
  hcrc : Nat
  body : Bytes
  deriving DecidableEq, Repr

/-- Reads a header of 16 bytes; `body` is what follows it. -/
def parsePacket (b : Bytes) : Packet :=
  ⟨BitVec.ofNat 16 (u16 b 2), BitVec.ofNat 16 (u16 b 4), u8 b 6, u8 b 7, u32 b 8, u32 b 12, b.drop 16⟩

/-- Bytes of payload and padding (R128). -/
def paddedLen (n : Nat) : Nat := 4 * ceilDiv n 4

/-- The CRC of check 4: bytes 0 to 11 and the payload. -/
def packetCrc (b : Bytes) (plen : Nat) : Nat := (crc32c (b.take 12 ++ (b.drop 16).take plen)).toNat

/-- Check 7: flags, class, TIMED and padding, with the two conditions that need a defined opcode (R132). -/
def check7 (k : Packet) (spi : Bool) (op : Option Op) : Bool :=
  k.flags / 16 == 0 && !(spi && k.flags / 4 % 2 == 1) && decide (k.cls ≤ 3)
    && ((k.body.drop k.plen).take (paddedLen k.plen - k.plen)).all (· == 0)
    && (match op with
        | none => true
        | some o => (k.flags / 8 % 2 == 1) == opExpert o && (!(k.flags % 2 == 1) || opTimed o))

/-- The header a packet is known by from check 6 on. A CLASS above 3 is refused at check 7, its refusal a reply of class 3
(log 86). A TIMED payload's first 8 bytes are the apply time (R128). -/
def hdrOf (k : Packet) (rq : Requester) (l : LinkPort) : Hdr :=
  { dt := 0, rq := rq, port := l, tag := k.tag, cls := Fin.ofNat 4 (min k.cls 3), noReply := k.flags / 2 % 2 == 1,
    timed := if k.flags % 2 == 1 then some (BitVec.ofNat 64 (u64 k.body 0)) else none }

/-- The payload without the apply time. -/
def payloadOf (k : Packet) : Bytes :=
  if k.flags % 2 == 1 then (k.body.take k.plen).drop 8 else k.body.take k.plen

/-- Checks 7 to 11 of a received packet (R132): what it is refused with, or its place in the queue. -/
def admitQueue (k : Packet) (h : Hdr) (s : State) : Status × State :=
  let op := opOfCode k.opcode
  if !check7 k (h.rq == .spi) op then (.badParam, s)
  else match op with
    | none => (.badOpcode, s)
    | some o =>
      if k.flags % 2 == 1 && decide (k.plen < 8) && check9and10 o h s == .ok then (.badLength, s)
      else queueCommand o h (payloadOf k) s

/-- A refusal at admission over SPI. -/
def refuseSpi (k : Packet) (st : Status) (s : State) : State := refuseAt k.opcode (hdrOf k .spi .neta) st s

/-- Admits the packets of a WRITE_CMD frame (R134), at most `n` of them; where the holding list is full the rest
stays in the input buffer (R137). A packet refused at check 2 is stepped over by its PLEN, whatever that says (log 87). -/
def admitFrame : Nat → Bytes → State → State
  | 0, _, s => s
  | n + 1, b, s =>
    if b.isEmpty then s
    else if 64 ≤ s.cmd.holding.length then { s with cmd := { s.cmd with inBuf := s.cmd.inBuf ++ [b] } }
    else if b.length < 16 || u8 b 0 != 0xCE then s
    else
      let k := parsePacket b
      let rest := k.body.drop (paddedLen k.plen)
      if u8 b 1 ≠ 2 then admitFrame n rest (refuseSpi k .badVersion s)
      else if 4096 < k.plen then refuseSpi k .badLength s
      else if k.body.length < paddedLen k.plen then refuseSpi k .badLength s
      else if packetCrc b k.plen ≠ k.hcrc then admitFrame n rest (refuseSpi k .crcError s)
      else match admitQueue k (hdrOf k .spi .neta) s with
        | (.ok, s1) => admitFrame n rest s1
        | (st, s1) => admitFrame n rest (refuseSpi k st s1)

/-- Bytes the input buffer holds. -/
def inBufUsed (c : Cmd) : Nat := (c.inBuf.map List.length).sum

/-- Packets that stayed in the input buffer are admitted as places free (R137). -/
def readmit (s : State) : State :=
  if 64 ≤ s.cmd.holding.length then s
  else (s.cmd.inBuf.foldl (fun a b => admitFrame 600 b a) { s with cmd := { s.cmd with inBuf := [] } })

/-! ### SPI frames (R133 to R137) -/

/-- The SPI port answers at all: the module runs from START on. -/
def spiAlive (s : State) : Bool := modeUp s.life.mode || s.life.mode == .start

/-- What HMISO carries through a frame: 0x5A during the first byte, then `out` and zeros (R133). -/
def shiftOut (n : Nat) (out : Bytes) (s : State) : State :=
  { s with cmd := { s.cmd with miso := 0x5A :: (out ++ zeros n).take n } }

/-- WRITE_CMD: the bytes that fit the free space at the start of the frame enter the input buffer (R134). -/
def writeFrame (b : Bytes) (s : State) : State := admitFrame 600 (b.take (8192 - inBufUsed s.cmd)) (shiftOut b.length [] s)

/-- READ_REPLY, `n` bytes clocked out (R135). -/
def readFrame (n : Nat) (s : State) : State :=
  match s.cmd.store with
  | [] => shiftOut n [] s
  | r :: t =>
    let b := encodeReply r
    let s1 := shiftOut n b s
    if n < b.length then s1
    else
      let s2 := readmit { s1 with cmd := spiPromote s1.cmd.holding { s1.cmd with store := t } }
      { s2 with cmd := select s2.cmd }

/-- The READ_STATUS word (R136); no free space where no command is accepted (R87). -/
def statusWord (s : State) : Bytes :=
  if accepting s then le 1 s.cmd.store.length ++ le 1 (eventsNow s).toNat ++ le 2 (8192 - inBufUsed s.cmd)
  else le 1 0 ++ le 1 (eventsNow s).toNat ++ le 2 0

/-- A chip-select frame as HMOSI carries it (R133): its first byte selects the operation; a frame with any other first byte is
ignored to its end. -/
def spiFrame (frame : Bytes) (s : State) : State :=
  if !spiAlive s then s
  else match frame with
    | [] => s
    | op :: b =>
      if op = 3 then shiftOut b.length (statusWord s) s
      else if !accepting s then shiftOut b.length [] s
      else if op = 1 then writeFrame b s
      else if op = 2 then readFrame b.length s
      else shiftOut b.length [] s

/-- WRITE_CMD (R133, R134): a frame whose first byte is 0x01. -/
def execWriteCmd (dt : Nat) (frame : Bytes) (s : State) : R := .next (spiFrame frame (advance dt s))

/-- READ_REPLY (R133, R135): a frame whose first byte is 0x02, `clocked` bytes clocked out after it. -/
def execReadReply (dt clocked : Nat) (s : State) : R := .next (spiFrame (2 :: zeros clocked) (advance dt s))

/-- READ_STATUS (R133, R136): a frame whose first byte is 0x03, with the four bytes of the status word. -/
def execReadStatus (dt : Nat) (s : State) : R := .next (spiFrame (3 :: zeros 4) (advance dt s))

/-- COMMAND_PREEMPTION (R148): at the end of a step a queued command of higher class takes the core. -/
def execCommandPreemption (dt : Nat) (s0 : State) : R :=
  let s := advance dt s0
  match s.cmd.running with
  | none => .next { s with cmd := select s.cmd }
  | some r =>
    match bestQueued (fun q => q.hdr.cls) s.cmd (s.cmd.queue.filter (fun q => decide (r.hdr.cls < q.hdr.cls))) with
    | none => .next s
    | some b => .next { s with cmd := { s.cmd with
        running := some b, queue := s.cmd.queue.erase b, preempted := r :: s.cmd.preempted } }

/-- COMMAND_AGEING (R147): commands that have waited 2 s are selected as class 2. -/
def execCommandAgeing (dt : Nat) (s0 : State) : R :=
  let s := advance dt s0
  let q := s.cmd.queue.map (fun x => if x.since + 2 * secCounts ≤ s.sysCnt then { x with aged := true } else x)
  .next { s with cmd := select { s.cmd with queue := q } }

/-- EVENT_NOTICE (R165): the 10 ms interval has ended and the latest state is sent. -/
def execEventNotice (dt : Nat) (s0 : State) : R :=
  let s := advance dt s0
  .next (if s.cmd.noticeDue then sendNotice s else s)

end Sys2Proof.Machine
end

