-- ==== Sys2Proof/Machine/Arith.lean ====
section
/-! DEFINITION. Fixed-point arithmetic of Blend (R361 to R365): convergent rounding, saturation, and the factor
10^(g / 20,000), computed to 96 fraction bits (log 12). -/

namespace Sys2Proof.Machine

/-- Drops `f` fraction bits, rounding to nearest and an exact half to even (R364). -/
def convRound (x : Int) (f : Nat) : Int :=
  if f = 0 then x
  else
    let q := x / (2 ^ f : Nat)
    let r := x % (2 ^ f : Nat)
    let h : Int := (2 ^ (f - 1) : Nat)
    if h < r ∨ (r = h ∧ q % 2 = 1) then q + 1 else q

/-- Saturates to a signed word of `w` bits. -/
def satS (w : Nat) (x : Int) : Int := clampI (-((2 ^ (w - 1) : Nat) : Int)) ((2 ^ (w - 1) : Nat) - 1) x

/-- 1.0 in the units of `lin`. -/
def linOne : Nat := 2 ^ 96

/-- 10^(2^i / 20000) for i = 0 to 17, in units of 2^-96. -/
def linInt : List Nat :=
  [79237284518656577803828003420, 79246407573318841846461847679, 79264656833937150414734135844, 79301167963735632143966871942, 79374240684685695953473245017, 79520588189030705635575138767] ++
  [79814093186761899093466383864, 80404357100648362347285024620, 81598013075270313380484495111, 84038749941136498338397319723, 89141427335227248137388507218, 100295069520651282531846992556] ++
  [126963703952382093282983650028, 203460254658889742847524542472, 522491926004307673893273956767, 3445716826899021640032723533984, 149857879753773651798947614411081, 283452037907016048961638762036326883]

/-- 10^(2^-j / 20000) for j = 1 to 40, in units of 2^-96. -/
def linFrac : List Nat :=
  [79232723385184261911195918592, 79230442916906195406861243971, 79229302707380858486022256919, 79228732608771510795076773778, 79228447561005154227977008568, 79228305037506553649781818741] ++
  [79228233775853397585243758696, 79228198145050855583892262636, 79228180329655593587793107036, 79228171421959464840493578628, 79228166968111776029482064442, 79228164741188025514629712063] ++
  [79228163627726173729866117328, 79228163070995253705649869109, 79228162792629795160583120260, 79228162653447066254810088147, 79228162583855701893613657480, 79228162549060019735937963471] ++
  [79228162531662178662830746794, 79228162522963258127709796038, 79228162518613797860507485055, 79228162516439067726995870662, 79228162515351702660262448741, 79228162514808020126901334099] ++
  [79228162514536178860222175857, 79228162514400258226882946506, 79228162514332297910213419273, 79228162514298317751878677518, 79228162514281327672711312105, 79228162514272832633127630765] ++
  [79228162514268585113335790436, 79228162514266461353439870357, 79228162514265399473491910339, 79228162514264868533517930336, 79228162514264603063530940335, 79228162514264470328537445335] ++
  [79228162514264403961040697835, 79228162514264370777292324085, 79228162514264354185418137210, 79228162514264345889481043773]

/-- Multiplies `acc` by the constants whose bits are set in `x`, least significant first. -/
def mulBits : List Nat → Nat → Nat → Nat
  | [], _, acc => acc
  | c :: t, x, acc => mulBits t (x / 2) (if x % 2 = 1 then acc * c / linOne else acc)

/-- A gain of `x` × 2^-40 mdB as an amplitude in units of 2^-96; 0 dB is exactly 1. -/
def linFine (x : Int) : Nat :=
  if x = 0 then linOne
  else
    let y := (x + 200000 * 1099511627776).toNat
    mulBits linFrac.reverse (y % 1099511627776) (mulBits linInt (y / 1099511627776) linOne) / 10000000000

/-- lin(g) of a gain in mdB (R365): 0 at or below −144,000 (R11). -/
def lin (g : Int) : Nat := if g ≤ -144000 then 0 else linFine (g * 1099511627776)

/-- Greedy logarithm: adds the weight of each constant that still fits under `v`. -/
def logBits (v : Nat) : List (Nat × Nat) → Nat → Nat → Nat
  | [], _, y => y
  | (c, w) :: t, p, y =>
    let p' := p * c / linOne
    if p' ≤ v then logBits v t p' (y + w) else logBits v t p y

/-- The constants with their weights, largest first. -/
def logTable : List (Nat × Nat) :=
  (linInt.zipIdx.map (fun e => (e.1, 2 ^ (e.2 + 40)))).reverse ++ linFrac.zipIdx.map (fun e => (e.1, 2 ^ (39 - e.2)))

/-- The gain, in units of 2^-40 mdB rounded down, of an amplitude in units of 2^-96; off as −144,000 mdB. -/
def dbFine (v : Nat) : Int :=
  if v = 0 then -144000 * 1099511627776
  else if v = linOne then 0
  else (logBits (v * 10000000000) logTable linOne 0 : Int) - 200000 * 1099511627776

/-- As `dbFine`, for amplitudes of 16 and more: 20,000·log10(65,536) mdB is added to the level of one 65,536th. -/
def dbWide (v : Nat) : Int := if v < 2 ^ 100 then dbFine v else dbFine (v / 65536) + 105915513773409979

/-- An exact rational rounded to nearest and an exact half to even (R364). -/
def ratRound (num : Int) (den : Nat) : Int :=
  if den ≤ 1 then num
  else
    let q := num / (den : Int)
    let r := 2 * (num % (den : Int))
    if (den : Int) < r ∨ (r = den ∧ q % 2 = 1) then q + 1 else q

/-- A quotient whose rounding the manual does not say: exact where it comes out even, else a free choice of its two neighbours.
`q` names the quantity. -/
def freeDiv (q : Nat) (num : Int) (den : Nat) : Int :=
  if den ≤ 1 then num else num / (den : Int) + (if num % (den : Int) = 0 then 0 else if Config.roundUp q num then 1 else 0)

/-- One thousandth of a decibel in the units of ramps. -/
def mdbFine : Int := 1099511627776

/-- A gain or level in units of 2^-40 mdB as whole mdB. The logarithms are computed to less than 2^-24 mdB: within that of a whole
millidecibel it counts as it, else the manual does not say which neighbour it takes. -/
def wholeMdb (q : Nat) (d : Int) : Int :=
  if (d + 65536) % mdbFine ≤ 131072 then (d + 65536) / mdbFine else freeDiv q d 1099511627776

/-- An amplitude `a` / 2^31 as a level in mdB (R382): −144,000 for zero. The manual does not say how a level between
two millidecibels is rounded (free value). -/
def levelMdb (a : Nat) : Int :=
  if a = 0 then -144000
  else if a = 2147483648 then 0
  else dbWide (a * 2 ^ 65) / mdbFine + (if Config.roundUp 1 a then 1 else 0)

/-! ### Adaptive loops (R47 to R50) -/

/-- A value moves toward another by at most `d`. -/
def toward (d dest v : Int) : Int := clampI (v - d) (v + d) dest

/-- What a loop has added to its factory value `f`, after a step of at most `d` within its range of ±`lim` (R48). -/
def loopStep (lim d f rel step : Int) : Int := clampI (-lim) lim (f + (rel + clampI (-d) d step)) - f

end Sys2Proof.Machine
end

