-- ==== Sys2Proof/Machine/Operands.lean ====
section
/-! DEFINITION. Operand forms of the commands: handles (R15, R40 to R42), field checks in payload order (R17, R532),
lists of handles. -/

namespace Sys2Proof.Machine

/-- The first check that fails decides (R17, R532); `.ok` where none does. -/
def checks : List (Bool × Status) → Status
  | [] => .ok
  | (b, st) :: t => if b then st else checks t

/-- Continues where a status is OK, refuses otherwise. -/
def guardSt (st : Status) (s : State) (k : Ans) : Ans := if st = .ok then k else refuse st s

/-- Class and index of a handle (R15). -/
def hClass (h : Handle) : Nat := h.toNat / 256
def hIndex (h : Handle) : Nat := h.toNat % 256

/-- The handle of a class and index. -/
def mkHandle (c i : Nat) : Handle := BitVec.ofNat 16 (c * 256 + i)

/-- Indices of a class (R40, R42): network channels are halved at 192 kHz. -/
def classCount (fs : Fin 3) (c : Nat) : Nat :=
  match c with
  | 0x01 => 32 | 0x02 => 2 | 0x03 => 128 | 0x04 => 8 | 0x05 => if fs = 2 then 128 else 256 | 0x06 => 4
  | 0x07 => 64 | 0x08 => 256 | 0x09 => 2
  | 0x81 => 32 | 0x82 => 8 | 0x83 => 4 | 0x84 => 2 | 0x85 => 128 | 0x86 => 8
  | 0x87 => if fs = 2 then 128 else 256 | 0x88 => 64 | 0x89 => 256
  | _ => 0

/-- The handle is known (R15). -/
def hKnown (fs : Fin 3) (h : Handle) : Bool := decide (hIndex h < classCount fs (hClass h))

/-- A source handle, TASTER excluded (R15, R40). -/
def isSrc (fs : Fin 3) (h : Handle) : Bool := hKnown fs h && decide (hClass h < 9)

/-- A source handle, TASTER included. -/
def isSrcT (fs : Fin 3) (h : Handle) : Bool := hKnown fs h && decide (hClass h < 0x80)

/-- A sink handle. -/
def isSink (fs : Fin 3) (h : Handle) : Bool := hKnown fs h && decide (0x80 ≤ hClass h)

/-- A port or analogue sink: it has a sink stage (R376). -/
def hasStage (h : Handle) : Bool := decide (0x81 ≤ hClass h) && decide (hClass h ≤ 0x87)

/-- An analogue sink with a Pour chain. -/
def isAnalogue (h : Handle) : Bool := decide (0x81 ≤ hClass h) && decide (hClass h ≤ 0x84)

/-- A handle in a payload. -/
def handleAt (p : Bytes) (i : Nat) : Handle := BitVec.ofNat 16 (u16 p i)

/-- `n` handles from offset `i`. -/
def handlesAt (p : Bytes) (i n : Nat) : List Handle := (List.range n).map (fun k => handleAt p (i + 2 * k))

/-- The zero padding after `n` handles at offset `i` is zero, and nothing follows it. -/
def handlePad (p : Bytes) (i n : Nat) : Bool := zeroAt p (i + 2 * n) 2

/-- Length of a payload of `i` bytes and `n` handles padded to a multiple of 4. -/
def handleLen (i n : Nat) : Nat := i + paddedLen (2 * n)

/-- The fs a check is made against. -/
def fsOf (s : State) : Fin 3 := s.clk.fs

/-- The bits that are set in a map of `n` bits, ascending. -/
def bitsOf (n m : Nat) : List Nat := (List.range n).filter (fun i => m.testBit i)

end Sys2Proof.Machine
end

