-- ==== Sys2Proof/Machine/Clocks.lean ====
section
/-! DEFINITION. Time and clocks (chapter 05): the TAI map and its servo, the reference list and the audio PLL, PTP,
the monitors of clocked inputs, and the commands that set and read them. -/

namespace Sys2Proof.Machine

/-! ### Ticks and TAI time -/

/-- The tick lies on the PTP grid (R182). -/
def onGrid (s : State) : Bool :=
  s.clk.pll.active == some ⟨1, 0⟩ && s.clk.pll.state == .locked

/-- The number whose grid time is nearest to a TAI time (R28). -/
def gridFrame (s : State) (tai : Int) : Nat :=
  ((tai * fsNow s * 2 + 1000000000) / 2000000000).toNat

/-- Grid time of frame n, rounded to the nearest nanosecond (R182). -/
def gridTime (s : State) (n : Nat) : Int := (((n * 1000000000 * 2 + fsNow s) / (2 * fsNow s) : Nat) : Int)

/-- The number the next tick takes (R28, R188, R205). -/
def nextFrame (s : State) : Nat :=
  if s.clk.rebase then gridFrame s (taiNow s) else if s.clk.started then s.clk.frame + 1 else 0

/-- The TAI time a tick now has (R182). -/
def tickTime (s : State) (n : Nat) : Int := if onGrid s then gridTime s n else taiAt s.clk (s.sysCnt - 3)

/-- As grandmaster TAI time advances by exactly t_frame a tick (R195): the map at a tick, from the time of the tick counted
from; the first tick at a rate is that tick. -/
def masterTime (s : State) : Clk :=
  let c := s.clk
  if !c.grandmaster then c
  else
    let base := if c.started then c.gmBase else taiAt c (s.sysCnt - 3)
    let ticks := if c.started then c.gmTicks + 1 else 0
    { c with gmBase := base, gmTicks := ticks, taiT0 := base + ((ticks * 1000000000 / fsNow s : Nat) : Int),
             taiS0 := s.sysCnt - 3, taiRate := 0 }

/-- The frame tick enters BLEND: number, stamp and TAI time (R28, R29, R182, R195). -/
def takeTick (s : State) : State :=
  let n := nextFrame s
  let c := masterTime s
  let s1 := { s with clk := c }
  { s1 with clk := { c with frame := n, started := true, rebase := false, stamp := s.sysCnt, tickTai := tickTime s1 n } }

/-- The module becomes grandmaster (R195, R180): it serves its TAI time where that is valid, else starts an arbitrary
timescale at its SYSCNT time. Ticks are counted from the latest one. -/
def becomeGrandmaster (s : State) : State :=
  let c := s.clk
  let t := if c.taiValid then taiNow s else (s.sysCnt : Int) * 5
  let base := if c.taiValid then c.tickTai else ((c.stamp - 3 : Nat) : Int) * 5
  postEvent 4 { s with clk := { c with
    grandmaster := true, arb := !c.taiValid || c.arb, taiValid := true, taiT0 := t, taiS0 := s.sysCnt, taiRate := 0,
    gmBase := base, gmTicks := 0 } }

/-- The module stops being grandmaster. -/
def resignGrandmaster (s : State) : State :=
  if s.clk.grandmaster then
    postEvent 4 { s with clk := { s.clk with grandmaster := false, lastSync := s.sysCnt } }
  else s

/-! ### Qualification and loss of a reference (R186, R191, R198) -/

/-- Average of the PLL's control over its history (R191); its rounding is not stated. -/
def holdAverage (h : List (Int × Nat)) (now : Int) : Int :=
  let n := (h.map Prod.snd).sum
  if n = 0 then now else freeDiv 40 (h.map (fun e => e.1 * (e.2 : Int))).sum n

/-- Holdover begins (R191): the frequency is frozen at the average of its control. -/
def forceHold (s : State) : State :=
  let p := s.clk.pll
  if p.state = .holdover then s
  else postEvent 4 { s with clk := { s.clk with pll := { p with
    active := none, state := .holdover, freq := holdAverage p.history p.freq, holdFreq := holdAverage p.history p.freq,
    holdSince := some s.sysCnt, good := 0, bad := 0, errs := [] } } }

/-- Holdover with no entry qualified (R191): REF_LOST is recorded at once where an entry has qualified since the restore, or
60 s have passed since it. -/
def holdOver (s : State) : State :=
  let p := s.clk.pll
  if p.anyQualified || decide (p.restoredAt + 60 * secCounts ≤ s.sysCnt) then raise .refLost 0 0 0 (forceHold s)
  else forceHold s

/-- Key of a reference in the qualification table. -/
def refKey (e : RefEntry) : Nat := e.kind * 4 + e.index

/-- A reference is qualified (R186). -/
def refQualified (c : Clk) (e : RefEntry) : Bool := e.kind == 5 || (tget {} c.quals (refKey e)).qualified

/-- A reference qualifies. -/
def qualify (e : RefEntry) (s : State) : State :=
  let q := tget {} s.clk.quals (refKey e)
  if q.qualified then s
  else postEvent 4 { s with clk := { s.clk with
    quals := tset {} s.clk.quals (refKey e) ⟨true, s.sysCnt, q.count + 1⟩ } }

/-- The active reference is lost (R191, R198): holdover begins at once; a reference is selected at the next tick (R187). -/
def loseActive (s : State) : State :=
  if s.cfg.clock.refs.entries.any (refQualified s.clk) then forceHold s else holdOver s

/-- A reference is disqualified (R186). -/
def disqualify (e : RefEntry) (s : State) : State :=
  let q := tget {} s.clk.quals (refKey e)
  if q.qualified then
    let s1 := postEvent 4 { s with clk := { s.clk with
      quals := tset {} s.clk.quals (refKey e) { q with qualified := false } } }
    if s.clk.pll.active = some e then loseActive s1 else s1
  else s

/-! ### PTP ports -/

/-- The PTP slave of a port. -/
def ptpPortOf (c : Clk) : NetPort → PtpPort
  | .a => c.portA
  | .b => c.portB

/-- Changes the PTP slave of a port. -/
def setPtpPort (c : Clk) (x : NetPort) (q : PtpPort) : Clk :=
  match x with
  | .a => { c with portA := q }
  | .b => { c with portB := q }

/-- Index of a port in detail words: 0 NETA, 1 NETB. -/
def portIdx : NetPort → Nat
  | .a => 0
  | .b => 1

/-- PTP runs on a port (R192). -/
def ptpRuns (s : State) (x : NetPort) : Bool :=
  modeUp s.life.mode && s.cfg.clock.ptp.profile != 0 && s.cfg.clock.ptp.ports.getLsbD (portIdx x)

/-- DOMAIN as it resolves: 0xFF selects the profile's default (R192, R193). -/
def ptpDomain (c : PtpCfg) : Nat := if c.domain ≠ 0xFF then c.domain else if c.profile = 2 then 127 else 0

/-- A signed interval field as it resolves: 0x7F selects the default (R192). -/
def logOr (v : BitVec 8) (dflt : Int) : Int := if v = 0x7F then dflt else v.toInt

/-- log2 of the Sync, Announce and delay request intervals, by profile (R193). -/
def ptpLogSync (c : PtpCfg) : Int := logOr c.logSync (-3)
def ptpLogAnnounce (c : PtpCfg) : Int := logOr c.logAnnounce (if c.profile = 1 then 1 else if c.profile = 2 then -2 else 0)
def ptpLogDelay (c : PtpCfg) : Int := logOr c.logDelayReq (if c.profile = 2 then -3 else 0)

/-- PTP messages go over UDP/IPv4, and with profile 3 in Ethernet frames (R193). -/
def ptpOverUdp (c : PtpCfg) : Bool := c.profile != 3

/-- The peer-to-peer delay mechanism is in use; profile 3 forces it (R192). -/
def ptpPeerDelay (c : PtpCfg) : Bool := c.delayMech || c.profile == 3

/-- Counts in 2^log seconds. -/
def logCounts (log : Int) : Nat := if log < 0 then secCounts / 2 ^ log.natAbs else secCounts * 2 ^ log.natAbs

/-- The active PTP port (R194, R219): the forced one while locked, NETA when both are locked, the locked one, else
the one in use. -/
def activePort (c : Clk) : Option NetPort :=
  match c.pll.forcedPort with
  | some x => if (ptpPortOf c x).locked then some x
      else if c.portA.locked then some .a else if c.portB.locked then some .b else c.ptpPort
  | none => if c.portA.locked then some .a else if c.portB.locked then some .b else c.ptpPort

/-- PTP as a reference follows the servo's lock on either port (R186, R194). -/
def updatePtpQual (s : State) : State :=
  let s1 := { s with clk := { s.clk with ptpPort := activePort s.clk } }
  if s.clk.portA.locked || s.clk.portB.locked then qualify ⟨1, 0⟩ s1 else disqualify ⟨1, 0⟩ s1

/-- A port loses PTP (R198, R197): PTP_UNLOCKED with its reason. -/
def ptpLose (x : NetPort) (reason : Nat) (s : State) : State :=
  let q := ptpPortOf s.clk x
  let c := setPtpPort s.clk x { q with locked := false, goodRun := 0, badRun := 0 }
  let c1 := if c.ptpPort = some x then { c with ptpPort := none } else c
  updatePtpQual (raise .ptpUnlocked 0 (portIdx x) (BitVec.ofNat 32 (portIdx x + 256 * reason)) { s with clk := c1 })

/-- The PTP monitor of a port has lost its Syncs (R197). -/
def ptpMonitorLost (x : NetPort) (s : State) : State :=
  let m := tget ({} : Monitor) s.clk.monitors (9 + portIdx x)
  { s with clk := { s.clk with monitors := tset {} s.clk.monitors (9 + portIdx x) { m with lost := true, reason := 1 } } }

/-- Clamps a servo rate to 500 ppm (R181), units of 2^-40. -/
def clampRate (r : Int) : Int := clampI (-549755813) 549755813 r

/-- The servo takes a Sync on its port (R179, R181): it steps above STEP_NS, else it adjusts r, whose law the manual
does not give (free value). A step under PTP as the active reference re-bases the frame number (R28). -/
def servo (off : Int) (m : SyncMsg) (s : State) : State :=
  let (k, s1) := fresh s
  let c := { s1.clk with taiS0 := s.sysCnt, lastSync := s.sysCnt, ptpOffset := off * 65536, arb := false }
  if (s.cfg.clock.ptp.stepNs : Int) < off ∨ off < -(s.cfg.clock.ptp.stepNs : Int) then
    postEvent 4 { s with clk := { c with
      taiT0 := m.taiNs, taiStepped := true, rebase := c.rebase || c.pll.active == some ⟨1, 0⟩ } }
  else if off = 0 then { s with clk := { c with taiT0 := taiNow s } }
  else { s1 with clk := { c with taiT0 := taiNow s, taiRate := clampRate (Config.servoRate k) } }

/-- How the BMCA ranks two data sets (R195): the first that differs decides, the lower value being better. -/
def ranksBelow : List Nat → List Nat → Bool
  | a :: s, b :: t => if a = b then ranksBelow s t else decide (a < b)
  | _, _ => false

/-- An announced master's data set: priority1, clockClass, clockAccuracy, variance, priority2, identity. -/
def masterRank (m : AnnounceMsg) : List Nat :=
  [m.priority1.toNat, m.gmClass.toNat, m.accuracy.toNat, m.variance.toNat, m.priority2.toNat, m.gmId.toNat]

/-- The module's own data set (R195), its identity by log 23. -/
def ownRank (c : PtpCfg) : List Nat := [c.priority1, 248, 0xFE, 0xFFFF, c.priority2, Config.macBase.toNat * 65536]

/-- The module's own data set is better than an announced one. -/
def betterThan (s : State) (m : AnnounceMsg) : Bool := ranksBelow (ownRank s.cfg.clock.ptp) (masterRank m)

/-- In SWITCHED mode the one slave port toward the grandmaster, chosen by the BMCA (R194): of two announced masters the
better, then the fewer steps, then NETA; `none` where no master has announced itself. -/
def slavePort (c : Clk) : Option NetPort :=
  match c.portA.master, c.portB.master with
  | none, none => none
  | some _, none => some .a
  | none, some _ => some .b
  | some a, some b => some (if ranksBelow (masterRank b ++ [b.steps.toNat]) (masterRank a ++ [a.steps.toNat]) then .b else .a)

/-- The port's Syncs reach the servo (R194): in REDUNDANT mode each port runs its own slave. -/
def slaves (s : State) (x : NetPort) : Bool :=
  !s.cfg.net.net.switched || (slavePort s.clk).all (· == x)

/-- PTP_SYNC (R179 to R181, R186, R194): an accepted Sync on a port. -/
def execPtpSync (dt : Nat) (x : NetPort) (m : SyncMsg) (s0 : State) : R :=
  let s := countRx (linkPortOf x) (advance dt s0)
  if !ptpRuns s x || s.clk.grandmaster || !slaves s x then .next s
  else
    let q := ptpPortOf s.clk x
    let off := taiNow s - m.taiNs
    let small := -100 < off && off < 100
    let large := 1000 < off || off < -1000
    let q1 := { q with
      offset := off * 65536, syncs := q.syncs + 1, gmId := m.gmId, gmClass := m.gmClass, steps := m.steps
      goodRun := if small then q.goodRun + 1 else 0
      badRun := if large then q.badRun + 1 else 0 }
    let i := 9 + portIdx x
    let mon := { tget {} s.clk.monitors i with seen := true, lost := false, lastEdge := s.sysCnt }
    let c := { setPtpPort s.clk x q1 with monitors := tset {} s.clk.monitors i mon }
    let used := match activePort c with
      | some y => y == x
      | none => true
    let c1 := if used then { c with ptpPort := some x } else c
    let s1 := { s with clk := c1 }
    let s2 := if used then servo off m s1 else { s1 with clk := { c1 with lastSync := s.sysCnt } }
    if !q1.locked && decide (16 ≤ q1.goodRun) then
      let c2 := setPtpPort s2.clk x { q1 with locked := true, badRun := 0 }
      let s3 := release .ptpUnlocked 0 (portIdx x) { s2 with clk := { c2 with taiValid := true } }
      .next (updatePtpQual (if s2.clk.taiValid then s3 else postEvent 4 s3))
    else if q1.locked && decide (8 ≤ q1.badRun) then .next (ptpLose x 2 s2)
    else .next s2

/-- Runs the BMCA (R195): a master-capable module is grandmaster when no port knows a better master. -/
def runBmca (s : State) : State :=
  let better (o : Option AnnounceMsg) : Bool := match o with
    | some m => betterThan s m
    | none => true
  if s.cfg.clock.ptp.role && s.cfg.clock.ptp.profile != 0 && better s.clk.portA.master && better s.clk.portB.master then
    (if s.clk.grandmaster then s else becomeGrandmaster s)
  else resignGrandmaster s

/-- The one slave of SWITCHED mode moves with the port the BMCA chooses (R194): its lock is no matter of the port, and no loss
condition of R198 has occurred (log 90). -/
def moveSlave (before : Option NetPort) (s : State) : State :=
  match before, slavePort s.clk with
  | some x, some y =>
    if s.cfg.net.net.switched && x != y then
      let old := ptpPortOf s.clk x
      let new := ptpPortOf s.clk y
      let moved := { old with
        master := new.master, announceAt := new.announceAt, gmId := new.gmId, gmClass := new.gmClass, steps := new.steps }
      let c := setPtpPort (setPtpPort s.clk y moved)
        x { new with locked := false, goodRun := 0, badRun := 0, master := old.master, announceAt := old.announceAt }
      { s with clk := { c with ptpPort := if s.clk.ptpPort = some x then some y else s.clk.ptpPort } }
    else s
  | _, _ => s

/-- PTP_ANNOUNCE (R183, R194, R195). -/
def execPtpAnnounce (dt : Nat) (x : NetPort) (m : AnnounceMsg) (s0 : State) : R :=
  let s := countRx (linkPortOf x) (advance dt s0)
  if !ptpRuns s x then .next s
  else
    let q := ptpPortOf s.clk x
    let c := setPtpPort { s.clk with utcOffset := m.utcOffset } x
      { q with master := some m, announceAt := s.sysCnt, gmId := m.gmId, gmClass := m.gmClass, steps := m.steps }
    .next (runBmca (moveSlave (slavePort s.clk) { s with clk := c }))

/-- ANNOUNCE_RECEIPT_TIMEOUT (R192, R197): no Announce has come for ANNOUNCE_TIMEOUT intervals; PTP on the port is lost and the
BMCA runs again. -/
def execAnnounceReceiptTimeout (dt : Nat) (x : NetPort) (s0 : State) : R :=
  let s := advance dt s0
  let c := s.cfg.clock.ptp
  if !ptpRuns s x || s.sysCnt < (ptpPortOf s.clk x).announceAt + c.announceTimeout * logCounts (ptpLogAnnounce c) then .next s
  else
    let seen := (tget {} s.clk.monitors (9 + portIdx x)).seen
    let s1 := { s with clk := setPtpPort s.clk x { ptpPortOf s.clk x with master := none } }
    .next (runBmca (if seen && !s.clk.grandmaster then ptpLose x 1 (ptpMonitorLost x s1) else s1))

/-- PTP_DELAY_RESPONSE (R192, R217): the mean path delay. -/
def execPtpDelayResponse (dt : Nat) (x : NetPort) (pathNs : Int) (s0 : State) : R :=
  let s := countRx (linkPortOf x) (advance dt s0)
  if !ptpRuns s x then .next s
  else .next { s with clk := setPtpPort s.clk x { ptpPortOf s.clk x with pathNs := pathNs } }

/-- TAI_TIMEOUT (R180): 600 s without an accepted Sync while not grandmaster. -/
def execTaiTimeout (dt : Nat) (s0 : State) : R :=
  let s := advance dt s0
  if s.clk.taiValid && !s.clk.grandmaster && decide (s.clk.lastSync + 600 * secCounts ≤ s.sysCnt) then
    .next (postEvent 4 { s with clk := { s.clk with taiValid := false } })
  else .next s

/-! ### Reference selection and the PLL -/

/-- Keeps the newest `room` frames of a history. -/
def trimHist : Nat → List (Int × Nat) → List (Int × Nat)
  | _, [] => []
  | room, (x, n) :: t => if n < room then (x, n) :: trimHist (room - n) t else if room = 0 then [] else [(x, room)]

/-- Notes one frame's value, keeping the newest `room` frames. -/
def noteFrame (room : Nat) (v : Int) (h : List (Int × Nat)) : List (Int × Nat) :=
  match h with
  | (x, n) :: t => trimHist room (if x = v then (x, n + 1) :: t else (v, 1) :: h)
  | [] => [(v, 1)]

/-- Notes one frame's frequency, keeping the last 10 s (R191). -/
def noteFreq (fs : Nat) (v : Int) (h : List (Int × Nat)) : List (Int × Nat) := noteFrame (10 * fs) v h

/-- The PLL switches to an entry (R187, R188): it keeps its frequency, returns to its widest bandwidth and moves the
tick, but for INTERNAL, whose phase is the tick's own (R184). An automatic switch is recorded with the entry that was last
in force, 0xFF before the first (log 91). -/
def switchTo (i : Nat) (e : RefEntry) (record : Bool) (s : State) : State :=
  let p := s.clk.pll
  let p1 := { p with
    active := some e, entry := i, state := if e.kind = 5 then .acquiring else .moving, bw := p.forcedBw.getD 0,
    keep := p.freq, dir := 0, history := [], errs := [], good := 0, bad := 0, holdSince := none, lastSwitch := s.sysCnt,
    anyQualified := true }
  let s1 := { s with clk := { s.clk with pll := p1 } }
  let s2 := if record then raise .refSwitched 0 0 (BitVec.ofNat 32 (p.entry + 256 * i)) s1 else s1
  postEvent 4 (release .refLost 0 0 s2)

/-- Reference selection at a tick (R187). A switch that CLOCK_REFS causes records nothing. -/
def selectReference (s0 : State) : State :=
  let auto := !s0.clk.refsChanged
  let s := { s0 with clk := { s0.clk with refsChanged := false } }
  let es := s.cfg.clock.refs.entries
  if s.clk.pll.forcedHold then forceHold s
  else
    let cand := firstIdx (refQualified s.clk) es
    let cur := match s.clk.pll.active with
      | some e => if refQualified s.clk e then firstIdx (· == e) es else none
      | none => none
    match cur, cand with
    | none, none => holdOver s
    | none, some j => switchTo j (es.getD j ⟨5, 0⟩) auto s
    | some _, none => s
    | some i, some j =>
      let e := es.getD j ⟨5, 0⟩
      let q := tget ({} : Qual) s.clk.quals (refKey e)
      if j < i then
        if q.count ≤ 1 then switchTo j e auto s
        else if s.cfg.clock.refs.revert && decide (q.since + s.cfg.clock.refs.waitS * secCounts ≤ s.sysCnt) then
          switchTo j e auto s
        else s
      else if s.clk.pll.entry = i then s
      else { s with clk := { s.clk with pll := { s.clk.pll with entry := i } } }

/-- 8 τ_k in µs, for k = 0 to 20 (R190). -/
def tau8Us : List Nat :=
  [127324, 160291, 201795, 254045, 319823, 402634, 506886, 638131, 803360, 1011370, 1273240] ++
  [1602914, 2017949, 2540447, 3198233, 4026337, 5068858, 6381314, 8033598, 10113701, 12732395]

/-- Frames in 8 τ_k. -/
def tau8Frames (s : State) (k : Nat) : Nat := usFrames s (tau8Us.getD k 0)

/-- The PLL's pull range, ±150 ppm of nominal (R184), units of 2^-32. -/
def clampPull (f : Int) : Int := clampI (-644245) 644245 f

/-- 20 ppm (R188), units of 2^-32. -/
def movePpm : Int := 85899

/-- A phase error in ps brought within half a frame of zero: the shorter move (R188). -/
def wrapPhase (fs : Nat) (ps : Int) : Int :=
  let t : Int := ((1000000000000 / fs : Nat) : Int)
  let r := ps % t
  if t < 2 * r then r - t else r

/-- One frame of the PLL (R184, R188, R189, R191). Its phase error is measured, positive where the tick comes after the phase
point (log 92); in holdover the frequency is frozen; during a move it is the kept one offset by 20 ppm; else it follows
the reference. A frame whose reference edge glitched is not used (R199). -/
def pllFrame (phasePs freq : Int) (s : State) : State :=
  let p := s.clk.pll
  let p1 :=
    if p.skip then { p with skip := false }
    else match p.state with
      | .holdover => { p with phase := phasePs, freq := p.holdFreq }
      | .moving =>
        let dir := if p.dir ≠ 0 then p.dir else if 0 < wrapPhase (fsNow s) phasePs then 1 else -1
        let f := clampPull (p.keep + dir * movePpm)
        { p with phase := phasePs, dir := dir, freq := f, history := noteFreq (fsNow s) f p.history }
      | _ =>
        let f := clampPull freq
        { p with phase := phasePs, freq := f, history := noteFreq (fsNow s) f p.history
                 errs := noteFrame (tau8Frames s p.bw) (phasePs * phasePs) p.errs
                 good := if -100000 ≤ phasePs && phasePs ≤ 100000 then p.good + 1 else 0
                 bad := if phasePs < -2000000 || 2000000 < phasePs then p.bad + 1 else 0 }
  { s with clk := { s.clk with pll := p1 } }

/-- PLL_LOCK (R189): the phase error has been within 100 ns for 256 frames. -/
def execPllLock (dt : Nat) (s0 : State) : R :=
  let s := advance dt s0
  let p := s.clk.pll
  if p.active.isSome && p.state == .acquiring && decide (256 ≤ p.good) then
    .next (postEvent 4 { s with clk := { s.clk with pll := { p with state := .locked, bad := 0 } } })
  else .next s

/-- PLL_LOCK_LOST (R189, R190): the error has exceeded 2 µs for 16 frames. -/
def execPllLockLost (dt : Nat) (s0 : State) : R :=
  let s := advance dt s0
  let p := s.clk.pll
  if p.state == .locked && decide (16 ≤ p.bad) then
    .next (postEvent 4 { s with clk := { s.clk with pll := { p with
      state := .acquiring, bw := p.forcedBw.getD 0, good := 0, bad := 0, errs := [] } } })
  else .next s

/-- The rms phase error over the last 8 τ_k is below 10 ns (R190). -/
def quietFor8Tau (s : State) : Bool :=
  let e := s.clk.pll.errs
  let n := (e.map Prod.snd).sum
  decide (tau8Frames s s.clk.pll.bw ≤ n) && decide ((e.map (fun x => x.1 * (x.2 : Int))).sum < 100000000 * (n : Int))

/-- PLL_BANDWIDTH_STEP (R190): it narrows after 8 time constants of low error, or widens at once where the phase error exceeds
200 ns; held in holdover, during a phase move, and while forced (R219). -/
def execPllBandwidthStep (dt : Nat) (widen : Bool) (s0 : State) : R :=
  let s := advance dt s0
  let p := s.clk.pll
  let due := if widen then !p.errs.isEmpty && decide (200000 < p.phase.natAbs) else quietFor8Tau s
  if p.forcedBw.isSome || p.state == .holdover || p.state == .moving || !due then .next s
  else .next { s with clk := { s.clk with pll := { p with
    bw := if widen then p.bw - 1 else min 20 (p.bw + 1), errs := [] } } }

/-- PHASE_MOVE_COMPLETE (R188): the move that began at a tick ends and the PLL acquires; with PTP the frame number is re-based
at the next tick. -/
def execPhaseMoveComplete (dt : Nat) (s0 : State) : R :=
  let s := advance dt s0
  let p := s.clk.pll
  if p.state == .moving && p.dir != 0 then
    .next (postEvent 4 { s with clk := { s.clk with
      pll := { p with state := .acquiring, dir := 0, good := 0, bad := 0, errs := [] }
      rebase := s.clk.rebase || p.active == some ⟨1, 0⟩ } })
  else .next s

/-- REF_LOST_GRACE_END (R191): 60 s after the restore no entry has qualified. -/
def execRefLostGraceEnd (dt : Nat) (s0 : State) : R :=
  let s := advance dt s0
  if modeUp s.life.mode && !s.clk.pll.anyQualified && decide (s.clk.pll.restoredAt + 60 * secCounts ≤ s.sysCnt)
  then .next (raise .refLost 0 0 0 s) else .next s

/-! ### Monitors of clocked inputs (R197 to R201) -/

/-- What one frame edge shows. -/
structure EdgeVerdict where
  glitch : Bool
  /-- mean rate of the whole second that ends with this edge, mHz; 0 where none ends -/
  mean : Nat
  /-- reason for which the clock is now lost: 0 none, 2 glitches, 3 rate change -/
  lost : Nat
  deriving DecidableEq, Repr

/-- The reference a monitor belongs to. -/
def monitorRef (i : Nat) : RefEntry :=
  if i = 8 then ⟨2, 0⟩ else if i < 4 then ⟨4, i⟩ else if i < 8 then ⟨3, i - 4⟩ else ⟨1, 0⟩

/-- A frame edge at monitor `i`, `period` counts after the last, where the expected or locked rate is `rate` mHz: glitches
(R199), a rate change over 16 frames (R201), the mean rate of a reference over 1 s (R186), which a glitch begins anew while
the reference is not qualified. -/
def monitorEdge (i rate period : Nat) (bad : Bool) (s : State) : EdgeVerdict × State :=
  let m := tget {} s.clk.monitors i
  let d := (period * rate : Int) - 200000000000
  let glitch := m.seen && (bad || decide (200000000000 < 8 * d.natAbs))
  let n := m.edges + 1
  let gl := if glitch then n :: m.glitches.filter (fun e => decide (n < e + 16)) else m.glitches
  let ps := if glitch then [] else (period :: m.periods).take 16
  let change := decide (ps.length = 16) &&
    decide (3200000000000 < ((ps.sum * rate : Int) - 3200000000000).natAbs * 1000)
  let e := monitorRef i
  let anew := !m.seen || (glitch && !refQualified s.clk e)
  let ss := if anew then 0 else m.secSum + period
  let sc := if anew then 0 else m.secCount + 1
  let full := decide (secCounts ≤ ss)
  let off := full && decide (sc * 200000000000 < ((ss * rate : Int) - (sc : Int) * 200000000000).natAbs * 10000)
  let m1 := { m with
    seen := true, edges := n, glitches := gl, good := if glitch then 0 else m.good + 1, periods := ps,
    lastEdge := s.sysCnt, secSum := if full then 0 else ss, secCount := if full then 0 else sc
    meanOk := if full then !off else m.meanOk && !anew
    cleanSince := if glitch || !m.seen then s.sysCnt else m.cleanSince }
  let s1 := { s with clk := { s.clk with
    monitors := tset {} s.clk.monitors i m1
    glitchTotal := if glitch then s.clk.glitchTotal + 1 else s.clk.glitchTotal
    pll := { s.clk.pll with skip := s.clk.pll.skip || (glitch && s.clk.pll.active == some e) } } }
  let s2 := if off then disqualify e s1 else s1
  (⟨glitch, if full then (freeDiv 69 ((sc * 200000000000 : Nat) : Int) ss).toNat else 0, if m.lost then 0 else if glitch && decide (3 ≤ gl.length) then 2 else if change then 3 else 0⟩, s2)

/-- The monitor's clock is lost (R198): the reference it gives is disqualified, and where it was active holdover begins. -/
def monitorLose (i reason : Nat) (s : State) : State :=
  let m := tget {} s.clk.monitors i
  disqualify (monitorRef i) { s with clk := { s.clk with
    monitors := tset {} s.clk.monitors i { m with
      lost := true, reason := reason, good := 0, periods := [], glitches := [], secSum := 0, secCount := 0, meanOk := false,
      cleanSince := s.sysCnt } } }

/-- Takes a block time stamp every 8 frames (R210); after a loss the stamps begin anew. -/
def stampEdge (edge : Nat) (b : BlockStamp) : BlockStamp :=
  if b.edges % 8 = 0 then
    { b with valid := true, block := b.edges, prev := if b.valid then b.stamp else 0, stamp := edge, edges := b.edges + 1 }
  else { b with edges := b.edges + 1 }

/-- Detail word of a fault of WCLK_IN (R218, R419): target 7. -/
def wclkDetail (reason : Nat) : Word := BitVec.ofNat 32 (7 * 256 + reason * 65536)

/-- WCLK_IN_EDGE (R197, R199, R210): a returned clock is resumed by an edge run of 64 frames (R200). -/
def execWclkInEdge (dt period : Nat) (s0 : State) : R :=
  let s := advance dt s0
  if !modeUp s.life.mode || !s.cfg.board.miscWired.getLsbD 0 then .next s
  else
    let (v, s1) := monitorEdge 8 (fsNow s * 1000 / s.cfg.clock.wclk.inDiv) period false s
    let s2 := { s1 with clk := { s1.clk with wclkStamp := stampEdge s.sysCnt s1.clk.wclkStamp } }
    let s3 := if v.glitch then raise .portGlitch 0 0 (wclkDetail 0) s2 else s2
    let m := tget {} s3.clk.monitors 8
    if v.lost ≠ 0 then
      .next (raise .portClockLost 0 0 (wclkDetail v.lost) (monitorLose 8 v.lost s3))
    else if m.lost && decide (64 ≤ m.good) then
      .next (release .portClockLost 0 0 { s3 with clk := { s3.clk with
        monitors := tset {} s3.clk.monitors 8 { m with lost := false, reason := 0 } } })
    else .next s3

/-! ### Opcodes -/

/-- TIME_READ (R183). -/
def execTimeRead (h : Hdr) (p : Bytes) (s : State) : R :=
  opcodeN .timeRead 0 h p (fun s =>
    let c := s.clk
    let f := flag 0 c.taiValid + flag 1 (c.portA.locked || c.portB.locked) + flag 2 (c.pll.state == .holdover)
      + flag 3 c.arb
    .reply .ok (le 8 s.sysCnt ++ le 8 (taiReported s) ++ le 8 c.frame ++ le 8 c.stamp ++ le 1 f ++ le 1 c.fs
      ++ le 2 c.utcOffset.toNat ++ leI 4 (clampI (-2147483648) 2147483647 (freeDiv 41 c.ptpOffset 65536))) s) s

/-- Signed interval fields of PTP_SET (R192): 0x7F is the profile's default, else the range of R193. -/
def logOk (v : BitVec 8) (lo hi : Int) : Bool := v == 0x7F || (decide (lo ≤ v.toInt) && decide (v.toInt ≤ hi))

/-- Ranges of DOMAIN and of the interval fields by profile (R193); with PTP off any value is accepted. -/
def domainOk (prof domain : Nat) : Bool :=
  if prof = 0 then true else if prof = 3 then domain == 0xFF || domain == 0 else domain == 0xFF || decide (domain ≤ 127)
def logSyncOk (prof : Nat) (v : BitVec 8) : Bool :=
  if prof = 1 then logOk v (-4) 1 else if prof = 2 then logOk v (-7) (-1) else if prof = 3 then logOk v (-3) (-3) else true
def logAnnounceOk (prof : Nat) (v : BitVec 8) : Bool :=
  if prof = 1 then logOk v 0 4 else if prof = 2 then logOk v (-3) 1 else if prof = 3 then logOk v 0 0 else true
def logDelayOk (prof : Nat) (v : BitVec 8) : Bool :=
  if prof = 1 then logOk v (-3) 5 else if prof = 2 then logOk v (-7) (-1) else if prof = 3 then logOk v 0 0 else true

/-- The fields of a PTP_SET payload. -/
def ptpOf (p : Bytes) : PtpCfg :=
  { profile := u8 p 0, domain := u8 p 1, ports := BitVec.ofNat 2 (u8 p 2), role := u8 p 3 == 1, priority1 := u8 p 4,
    priority2 := u8 p 5, logSync := p.getD 6 0, logAnnounce := p.getD 7 0, announceTimeout := u8 p 8,
    delayMech := u8 p 9 == 1 || u8 p 0 == 3, logDelayReq := p.getD 10 0, stepNs := u32 p 12 }

/-- Checks of PTP_SET, field by field (R17, R532); an X field with the value in force counts as unchanged. -/
def checkPtpSet (p : Bytes) (s : State) : Status :=
  let o := s.cfg.clock.ptp
  let n := ptpOf p
  let runs := !clockStopped s
  checks
    [ (decide (3 < u8 p 0), .badParam),
      (runs && n.profile != o.profile, .busy),
      (!domainOk n.profile n.domain, .outOfRange),
      (runs && n.domain != o.domain, .busy),
      (decide (3 < u8 p 2), .badParam),
      (runs && n.ports != o.ports, .busy),
      (decide (1 < u8 p 3), .badParam),
      (!logSyncOk n.profile n.logSync, .outOfRange),
      (!logAnnounceOk n.profile n.logAnnounce, .outOfRange),
      (decide (n.announceTimeout < 2) || decide (10 < n.announceTimeout), .outOfRange),
      (decide (1 < u8 p 9), .badParam),
      (runs && n.delayMech != o.delayMech, .busy),
      (!logDelayOk n.profile n.logDelayReq, .outOfRange),
      (u8 p 11 != 0, .badParam),
      (decide (n.stepNs < 1000) || decide (1000000000 < n.stepNs), .outOfRange) ]

/-- PTP no longer runs on a port, or starts anew there: its slave and monitor are as before the first Sync. -/
def dropSlave (s : State) (x : NetPort) : State :=
  let c := setPtpPort s.clk x {}
  { s with clk := { c with
    monitors := tset {} c.monitors (9 + portIdx x) {}, ptpPort := if c.ptpPort = some x then none else c.ptpPort } }

/-- A change of profile or domain (R180): TAI time is not valid, the slaves start anew. -/
def restartPtp (s : State) : State :=
  let s1 := dropSlave (dropSlave s .a) .b
  let s2 := updatePtpQual { s1 with clk := { s1.clk with taiValid := false, grandmaster := false } }
  if s.clk.taiValid then postEvent 4 s2 else s2

/-- The fields of class X of PTP_SET, which change while the audio clock is stopped (R46, R192): PTP ends on a port that PORTS
no longer names. -/
def ptpStopped (p : Bytes) (s : State) : State :=
  let o := s.cfg.clock.ptp
  let n := ptpOf p
  let s1 := { s with cfg := { s.cfg with clock := { s.cfg.clock with
    ptp := { o with profile := n.profile, domain := n.domain, ports := n.ports, delayMech := n.delayMech } } } }
  if n.profile != o.profile || n.domain != o.domain then runBmca (restartPtp s1)
  else if n.ports != o.ports then
    runBmca (updatePtpQual ([NetPort.a, NetPort.b].foldl
      (fun a x => if n.ports.getLsbD (portIdx x) then a else dropSlave a x) s1))
  else s1

/-- The live fields of PTP_SET at their tick. -/
def landPtpSet (p : Bytes) (s : State) : State :=
  let o := s.cfg.clock.ptp
  runBmca { s with cfg := { s.cfg with clock := { s.cfg.clock with
    ptp := { ptpOf p with profile := o.profile, domain := o.domain, ports := o.ports, delayMech := o.delayMech } } } }

/-- PTP_SET (R192, R193, R180). -/
def execPtpSet (h : Hdr) (p : Bytes) (s : State) : R :=
  opcodeN .ptpSet 16 h p (landLive .ptpSet h p (checkPtpSet p) (ptpStopped p)) s

/-- The fields of a WCLK_SET payload. -/
def wclkOf (p : Bytes) : WclkCfg := { inDiv := u8 p 0, inEdge := u8 p 1 == 1, wclkOut := u8 p 2, mclkOut := u8 p 3 }

/-- Checks of WCLK_SET (R202, R61). -/
def checkWclkSet (p : Bytes) (s : State) : Status :=
  let n := wclkOf p
  let o := s.cfg.clock.wclk
  let runs := !clockStopped s
  checks
    [ (!(n.inDiv == 1 || n.inDiv == 2 || n.inDiv == 4), .badParam),
      (runs && n.inDiv != o.inDiv, .busy),
      (decide (1 < u8 p 1), .badParam),
      (runs && n.inEdge != o.inEdge, .busy),
      (decide (3 < n.wclkOut), .badParam),
      (n.wclkOut != 0 && !s.cfg.board.miscWired.getLsbD 1, .badParam),
      (decide (3 < n.mclkOut), .badParam),
      (n.mclkOut != 0 && !s.cfg.board.miscWired.getLsbD 2, .badParam) ]

/-- The fields of WCLK_IN, which change while the audio clock is stopped (R46). -/
def wclkStopped (p : Bytes) (s : State) : State :=
  let n := wclkOf p
  { s with cfg := { s.cfg with clock := { s.cfg.clock with
    wclk := { s.cfg.clock.wclk with inDiv := n.inDiv, inEdge := n.inEdge } } } }

/-- The live fields of WCLK_SET at their tick. -/
def landWclkSet (p : Bytes) (s : State) : State :=
  let n := wclkOf p
  { s with cfg := { s.cfg with clock := { s.cfg.clock with
    wclk := { s.cfg.clock.wclk with wclkOut := n.wclkOut, mclkOut := n.mclkOut } } } }

/-- WCLK_SET (R202, R61). -/
def execWclkSet (h : Hdr) (p : Bytes) (s : State) : R :=
  opcodeN .wclkSet 4 h p (landLive .wclkSet h p (checkWclkSet p) (wclkStopped p)) s

/-- The division of a WCLK_OUT code: fs_int over 1, 2 or 4 (R202). -/
def wclkDiv (code : Nat) : Nat := if code = 3 then 4 else if code = 2 then 2 else 1

/-- WCLK_OUT over one frame (R203). A period begins with a rising edge at each number that the division divides and is high for
half of it, the half of one frame lying within the frame. A change is taken where a period ends; until its first
period begins an output that starts is low. -/
def stepWclk (s : State) : State :=
  let n := s.clk.frame
  let want := s.cfg.clock.wclk.wclkOut
  let run := s.clk.wclkRun
  let run1 := if run = 0 || n % wclkDiv run = 0 then want else run
  let d := wclkDiv run1
  let high := if n % d = 0 then true else run != 0 && s.pads.wclkOut == some true && decide (2 * (n % d) < d)
  { s with
    clk := { s.clk with wclkRun := run1 }
    pads := { s.pads with wclkOut := if run1 = 0 then none else some high } }

/-- MCLK_OUT over one frame, which holds whole periods of it (R203): its cycles a frame. -/
def stepMclk (s : State) : State :=
  let c := s.cfg.clock.wclk.mclkOut
  { s with pads := { s.pads with
    mclkOut := if c = 0 then none else some (12288000 * 2 ^ (c - 1) / fsNow s) } }

/-- The clock outputs stop with the ticks while fs_int changes, and resume at the first tick at the new rate (R205). -/
def stopClockOuts (s : State) : State :=
  { s with clk := { s.clk with wclkRun := 0 }, pads := { s.pads with wclkOut := none, mclkOut := none } }

/-- Entry `i` of a CLOCK_REFS payload. -/
def refOf (p : Bytes) (i : Nat) : RefEntry := ⟨u8 p (4 + 4 * i), u8 p (5 + 4 * i)⟩

/-- KIND and INDEX are within R184. -/
def refInRange (e : RefEntry) : Bool :=
  (e.kind == 1 || e.kind == 2 || e.kind == 5) && e.index == 0 || (e.kind == 3 || e.kind == 4) && decide (e.index < 4)

/-- The interface of an entry is declared (R184, R61). -/
def refDeclared (b : BoardCfg) (e : RefEntry) : Bool :=
  if e.kind = 2 then b.miscWired.getLsbD 0
  else if e.kind = 3 then b.aesWired.getLsbD e.index
  else if e.kind = 4 then b.tdmWired.getLsbD e.index
  else true

/-- The entry names a Decant-assigned port (R185). -/
def refDecant (d : DecantCfg) (e : RefEntry) : Bool :=
  if e.kind = 3 then d.aesIn.getLsbD e.index
  else if e.kind = 4 then d.tdmIn.getLsbD e.index || d.tdmOut.getLsbD e.index
  else false

/-- Some element occurs twice. -/
def hasRepeat {α : Type} [BEq α] : List α → Bool
  | [] => false
  | x :: t => t.contains x || hasRepeat t

/-- The entries a CLOCK_REFS payload puts in use. -/
def refsOf (p : Bytes) : List RefEntry := (List.range (min (u8 p 0) 8)).map (refOf p)

/-- Checks of CLOCK_REFS. -/
def checkClockRefs (p : Bytes) (s : State) : Status :=
  let n := u8 p 0
  let es := refsOf p
  let reserved := (List.range 8).any (fun i => u16 p (6 + 4 * i) != 0 || (decide (n ≤ i) && u32 p (4 + 4 * i) != 0))
  checks
    [ (decide (n < 1) || decide (8 < n), .outOfRange),
      (decide (1 < u8 p 1), .badParam),
      (decide (u16 p 2 < 10) || decide (3600 < u16 p 2), .outOfRange),
      (reserved || es.any (fun e => !refInRange e), .badParam),
      (hasRepeat es || es.any (fun e => !refDeclared s.cfg.board e || refDecant s.cfg.clock.decant e), .badParam) ]

/-- A new list at its tick, at which it is evaluated (R185). -/
def landClockRefs (p : Bytes) (s : State) : State :=
  { s with
    cfg := { s.cfg with clock := { s.cfg.clock with refs := ⟨u8 p 1 == 1, u16 p 2, refsOf p⟩ } }
    clk := { s.clk with refsChanged := true } }

/-- CLOCK_REFS (R185). -/
def execClockRefs (h : Hdr) (p : Bytes) (s : State) : R :=
  opcodeN .clockRefs 36 h p (landLive .clockRefs h p (checkClockRefs p) id) s

/-- Ends the forced clock settings (R219, R173). -/
def releaseForcedClock (s : State) : State :=
  let p := s.clk.pll
  let s1 := { s with clk := { s.clk with pll := { p with forcedBw := none, forcedHold := false, forcedPort := none } } }
  { s1 with clk := { s1.clk with ptpPort := activePort s1.clk } }

/-- CLOCK_EXPERT (R219). -/
def execClockExpert (h : Hdr) (p : Bytes) (s : State) : R :=
  opcodeN .clockExpert 4 h p (fun s =>
    let a := u8 p 0
    let g := u8 p 1
    let pl := s.clk.pll
    if 3 < a || u16 p 2 != 0 then refuse .badParam s
    else if a = 0 then done (releaseForcedClock s)
    else if a = 1 then
      if 20 < g then refuse .outOfRange s
      else done { s with clk := { s.clk with pll := { pl with forcedBw := some g, bw := g } } }
    else if a = 2 then done (forceHold { s with clk := { s.clk with pll := { pl with forcedHold := true } } })
    else if 1 < g then refuse .badParam s
    else
      let x := if g = 0 then NetPort.a else NetPort.b
      if !(ptpPortOf s.clk x).locked then refuse .badParam s
      else
        let c := { s.clk with pll := { pl with forcedPort := some x } }
        done { s with clk := { c with ptpPort := activePort c } }) s

end Sys2Proof.Machine
end

