-- ==== Sys2Proof/Machine/Mix.lean ====
section
/-! DEFINITION. Gains, ramps, mutes, sink settings, generators, the override's settings and the meters' reading
(R365 to R392): what the mixing commands check and what lands at their tick. -/

namespace Sys2Proof.Machine

/-- Writes the mixing settings. -/
def withMix (m : MixCfg) (s : State) : State := { s with cfg := { s.cfg with mix := m } }

/-- The edge of the program in force between two handles. -/
def findEdge (s : State) (src sink : Handle) : Option Edge :=
  s.cfg.graph.edges.find? (fun e => e.src == src && e.sink == sink)

/-- Writes the gain of a crosspoint in force. -/
def setEdgeGain (src sink : Handle) (g : Int) (l : List Edge) : List Edge :=
  l.map (fun e => if e.src = src ∧ e.sink = sink then { e with gain := g } else e)

/-! ### Ramps (R367 to R371) -/

/-- Frames of a ramp of `us` microseconds. -/
def rampFrames (s : State) (us : Nat) : Nat := usFrames s us

/-- The gain an object moves to or holds, mdB. -/
def gainTarget (s : State) : RampObj → Int
  | .source h => tget 0 s.cfg.mix.srcGain h.toNat
  | .sink h => tget 0 s.cfg.mix.sinkGain h.toNat
  | .xpoint a b => match findEdge s a b with
    | some e => e.gain
    | none => -144000
  | .trim c => (tget {} s.cfg.input.ch c).trim
  | .micTrim n => tget 0 s.cfg.micTrim n

/-- Amplitude of a ramp in its present frame (R367). -/
def rampLin (r : Ramp) : Nat :=
  if r.k = r.m then lin r.dest
  else if r.log then
    let t := max r.dest (-144000) * 1099511627776
    linFine (r.fromDb + (t - r.fromDb) * (r.k : Int) / (r.m : Int))
  else
    ((r.fromLin : Int) + ((lin r.dest : Int) - (r.fromLin : Int)) * (r.k : Int) / (r.m : Int)).toNat

/-- The ramp that runs on an object. -/
def rampOf (s : State) (o : RampObj) : Option Ramp := s.mix.ramps.find? (fun r => r.obj == o)

/-- An object's amplitude in force. -/
def gainLin (s : State) (o : RampObj) : Nat :=
  match rampOf s o with
  | some r => rampLin r
  | none => lin (gainTarget s o)

/-- An object's gain in force, 2^-40 mdB. -/
def gainDb (s : State) (o : RampObj) : Int :=
  match rampOf s o with
  | some r => dbFine (rampLin r)
  | none => max (gainTarget s o) (-144000) * 1099511627776

/-- Starts a ramp from the value in force to `g` over `m` frames; frame 1 is the tick at which it lands (R367, R44). -/
def startRamp (o : RampObj) (g : Int) (log : Bool) (m : Nat) (s : State) : State :=
  let r : Ramp := ⟨o, gainDb s o, gainLin s o, g, log, 0, max m 1⟩
  let l := s.mix.ramps.filter (fun x => x.obj != o) ++ [r]
  { s with mix := { s.mix with ramps := l, rampPeak := max s.mix.rampPeak l.length } }

/-- All ramps advance by one frame; those that have reached their last frame end at the next tick. -/
def stepRamps (s : State) : State :=
  { s with mix := { s.mix with
    ramps := (s.mix.ramps.filter (fun r => r.k < r.m)).map (fun r => { r with k := r.k + 1 }) } }

/-- Ramp shape code of an entry: 0 default, 1 LIN, 2 LOG. -/
def shapeLogOf (s : State) (code : Nat) : Bool := if code = 0 then s.cfg.mix.shapeLog else code == 2

/-- Ramp time of an entry: 0 default. -/
def rampUsOf (s : State) (us : Nat) : Nat := if us = 0 then s.cfg.mix.rampUs else us

/-- The ramp objects a command requests slots for (R369, R371). -/
def rampObjs (op : Op) (p : Bytes) : List RampObj :=
  match op with
  | .gainSet => (List.range (u8 p 0)).map (fun i =>
      let b := 4 + 16 * i
      if u8 p b = 0 then .source (handleAt p (b + 2))
      else if u8 p b = 1 then .xpoint (handleAt p (b + 2)) (handleAt p (b + 4))
      else .sink (handleAt p (b + 4)))
  | .inputSet => if (u8 p 4).testBit 0 then (bitsOf 32 (u32 p 0)).map (fun c => .trim (Fin.ofNat 32 c)) else []
  | .hsSet => if (u8 p 1).testBit 2 then [.micTrim (Fin.ofNat 2 (u8 p 0))] else []
  | _ => []

/-- Slots a list of objects still needs: those without a ramp of their own. -/
def slotsNeeded (s : State) (l : List RampObj) : Nat := (l.eraseDups.filter (fun o => (rampOf s o).isNone)).length

/-- The handle RAMP_DEFERRED names for an object (R391). -/
def rampHandle : RampObj → Handle
  | .source h => h
  | .sink h => h
  | .xpoint a _ => a
  | .trim c => mkHandle 1 c
  | .micTrim n => mkHandle 2 n

/-- Objects named by the commands that wait deferred. -/
def deferredObjs (s : State) : List RampObj := s.mix.deferred.flatMap (fun l => rampObjs l.op l.payload)

/-- Slots requested by commands that wait for the next tick. -/
def landingSlots (s : State) : Nat := slotsNeeded s (s.cmd.landing.flatMap (fun l => rampObjs l.op l.payload))

/-- Whether a command with ramps must be deferred (R371): 0 no, 1 for lack of slots, 2 behind a deferred command. -/
def deferReason (op : Op) (p : Bytes) (s : State) : Nat :=
  let objs := rampObjs op p
  if objs.isEmpty then 0
  else if objs.any (fun o => (deferredObjs s).contains o) then 2
  else if 8192 < s.mix.ramps.length + landingSlots s + slotsNeeded s objs then 1
  else 0

/-- Defers a command whole and records RAMP_DEFERRED (R371, R391). -/
def deferCommand (why : Nat) (l : Landing) (s : State) : State :=
  let objs := rampObjs l.op l.payload
  let d := BitVec.ofNat 32 (objs.length + if why = 2 then 65536 else 0)
  raise .rampDeferred (match objs with | o :: _ => rampHandle o | [] => 0) 0 d
    { s with mix := { s.mix with deferred := s.mix.deferred ++ [l] } }

/-- A landing command that may be deferred for ramp slots (R371). -/
def landingRamped (op : Op) (h : Hdr) (p : Bytes) (check : State → Status) (s : State) : Ans :=
  if h.timed.isSome then landing op h p check s
  else
    let st := check s
    if st ≠ .ok then refuse st s
    else
      let why := deferReason op p s
      if why = 0 then landing op h p check s
      else if 64 ≤ s.mix.deferred.length then refuse .noResource s
      else .reply .okDeferred [] (deferCommand why ⟨op, h, p, false, arrivalOf s, false⟩ s)

/-! ### GAIN_SET, RAMP_DEFAULTS, MUTE_SET -/

/-- KIND, SRC and SINK of a GAIN_SET or MUTE_SET entry at offset `b`: handles of the right direction, zero where the
kind has none. -/
def entryHandles (s : State) (p : Bytes) (b : Nat) : Status :=
  let k := u8 p b
  checks
    [ (k == 1 && !isSrc (fsOf s) (handleAt p (b + 2)), .badHandle),
      (k == 0 && !isSrc (fsOf s) (handleAt p (b + 2)), .badHandle),
      (k == 2 && handleAt p (b + 2) != 0, .badParam),
      (k != 0 && !isSink (fsOf s) (handleAt p (b + 4)), .badHandle),
      (k == 0 && handleAt p (b + 4) != 0, .badParam),
      (u16 p (b + 6) != 0, .badParam) ]

/-- One entry of GAIN_SET (R366). -/
def checkGainEntry (s : State) (p : Bytes) (b : Nat) : Status :=
  let k := u8 p b
  let g := i32 p (b + 8)
  match checks [(decide (2 < k), .badParam), (decide (2 < u8 p (b + 1)), .badParam)] with
  | .ok => match entryHandles s p b with
    | .ok =>
      let us := u32 p (b + 12)
      let r : Status := if us != 0 && (decide (us < 100) || decide (10000000 < us)) then .outOfRange else .ok
      if k = 1 then
        match findEdge s (handleAt p (b + 2)) (handleAt p (b + 4)) with
        | none => if r = .ok then .badParam else r
        | some e => if e.limit < g ∧ -144000 < g then .outOfRange else r
      else if 0 < g then .outOfRange else r
    | st => st
  | st => st

/-- The first entry that is refused. -/
def firstEntry (f : Nat → Status) : Nat → Nat → Status
  | 0, _ => .ok
  | n + 1, i => match f i with
    | .ok => firstEntry f n (i + 1)
    | st => st

/-- Checks of GAIN_SET (R366). -/
def checkGainSet (p : Bytes) (s : State) : Status :=
  checks
    [ (decide (p.length < 4), .badLength),
      (decide (u8 p 0 < 1) || decide (64 < u8 p 0), .outOfRange),
      (!zeroAt p 1 3, .badParam),
      (p.length != 4 + 16 * u8 p 0, .badLength) ]
  |> fun st => if st = .ok then firstEntry (fun i => checkGainEntry s p (4 + 16 * i)) (u8 p 0) 0 else st

/-- One entry of GAIN_SET lands. -/
def landGainEntry (p : Bytes) (s : State) (i : Nat) : State :=
  let b := 4 + 16 * i
  let g := i32 p (b + 8)
  let sh := shapeLogOf s (u8 p (b + 1))
  let m := rampFrames s (rampUsOf s (u32 p (b + 12)))
  let a := handleAt p (b + 2)
  let z := handleAt p (b + 4)
  let c := s.cfg.mix
  if u8 p b = 0 then
    withMix { c with srcGain := tset 0 c.srcGain a.toNat g } (startRamp (.source a) g sh m s)
  else if u8 p b = 1 then
    let s1 := startRamp (.xpoint a z) g sh m s
    { s1 with cfg := { s1.cfg with graph := { s1.cfg.graph with edges := setEdgeGain a z g s1.cfg.graph.edges } } }
  else withMix { c with sinkGain := tset 0 c.sinkGain z.toNat g } (startRamp (.sink z) g sh m s)

/-- GAIN_SET lands: every entry on one tick. -/
def landGainSet (p : Bytes) (s : State) : State := (List.range (u8 p 0)).foldl (landGainEntry p) s

/-- GAIN_SET (R366). -/
def execGainSet (h : Hdr) (p : Bytes) (s : State) : R :=
  opcode .gainSet h p (landingRamped .gainSet h p (checkGainSet p)) s

/-- Checks of RAMP_DEFAULTS. -/
def checkRampDefaults (p : Bytes) (_ : State) : Status :=
  checks
    [ (decide (u32 p 0 < 100) || decide (10000000 < u32 p 0), .outOfRange),
      (u8 p 4 != 1 && u8 p 4 != 2, .badParam),
      (!zeroAt p 5 3, .badParam),
      (decide (u32 p 8 < 1000) || decide (100000 < u32 p 8), .outOfRange) ]

/-- RAMP_DEFAULTS lands: changes that land after it use it. -/
def landRampDefaults (p : Bytes) (s : State) : State :=
  withMix { s.cfg.mix with rampUs := u32 p 0, shapeLog := u8 p 4 == 2, corkUs := u32 p 8 } s

/-- RAMP_DEFAULTS (R368). -/
def execRampDefaults (h : Hdr) (p : Bytes) (s : State) : R :=
  opcodeN .rampDefaults 12 h p (landLive .rampDefaults h p (checkRampDefaults p) id) s

/-- One entry of form 0 of MUTE_SET (R373). -/
def checkMuteEntry (s : State) (p : Bytes) (b : Nat) : Status :=
  match checks [(decide (2 < u8 p b), .badParam), (decide (1 < u8 p (b + 1)), .badParam)] with
  | .ok => match entryHandles s p b with
    | .ok =>
      if u8 p b = 1 && (findEdge s (handleAt p (b + 2)) (handleAt p (b + 4))).isNone then .badParam else .ok
    | st => st
  | st => st

/-- Declared role of a GPIO (R59): input, output. -/
def gpioIsIn (s : State) (g : Nat) : Bool := s.cfg.board.gpioMode.getD g 0 == 1
def gpioIsOut (s : State) (g : Nat) : Bool := decide (2 ≤ s.cfg.board.gpioMode.getD g 0)

/-- Checks of form 1 of MUTE_SET (R374). -/
def checkGpioForm (h : Hdr) (p : Bytes) (s : State) : Status :=
  let n := u8 p 8
  let f := u8 p 2
  let g := u8 p 1
  checks
    [ (decide (p.length < 12), .badLength),
      (h.timed.isSome || decide (1 < h.cls.val), .badParam),
      (decide (15 < g), .outOfRange),
      (decide (6 < f), .badParam),
      (decide (1 < u8 p 3), .badParam),
      (decide (i32 p 4 < -144000) || decide (0 < i32 p 4), .outOfRange),
      (decide (16 < n), .outOfRange),
      (!zeroAt p 9 3, .badParam),
      (p.length != handleLen 12 n, .badLength),
      ((handlesAt p 12 n).any (fun x => !(isSrc (fsOf s) x || isSink (fsOf s) x)), .badHandle),
      (!handlePad p 12 n, .badParam),
      ((f == 1 && !gpioIsIn s g) || (decide (2 ≤ f) && !gpioIsOut s g), .badParam) ]

/-- Checks of MUTE_SET (R373, R374). -/
def checkMuteSet (h : Hdr) (p : Bytes) (s : State) : Status :=
  if p.length < 4 then .badLength
  else if 1 < u8 p 0 then .badParam
  else if u8 p 0 = 1 then checkGpioForm h p s
  else match checks
    [ (decide (u8 p 1 < 1) || decide (64 < u8 p 1), .outOfRange),
      (!zeroAt p 2 2, .badParam),
      (p.length != 4 + 8 * u8 p 1, .badLength) ] with
    | .ok => firstEntry (fun i => checkMuteEntry s p (4 + 8 * i)) (u8 p 1) 0
    | st => st

/-- Adds or removes an element. -/
def toggle {α : Type} [DecidableEq α] (on : Bool) (x : α) (l : List α) : List α :=
  if on then (if x ∈ l then l else l ++ [x]) else l.filter (fun y => y ≠ x)

/-- One entry of MUTE_SET lands. -/
def landMuteEntry (p : Bytes) (s : State) (i : Nat) : State :=
  let b := 4 + 8 * i
  let on := u8 p (b + 1) == 1
  let a := handleAt p (b + 2)
  let z := handleAt p (b + 4)
  let c := s.cfg.mix
  if u8 p b = 0 then withMix { c with srcMute := toggle on a c.srcMute } s
  else if u8 p b = 1 then withMix { c with xMute := toggle on ⟨a, z⟩ c.xMute } s
  else withMix { c with sinkMute := toggle on z c.sinkMute } s

/-- MUTE_SET lands. -/
def landMuteSet (p : Bytes) (s : State) : State :=
  if u8 p 0 = 1 then
    let f : GpioFn := ⟨u8 p 2, u8 p 3 == 1, i32 p 4, handlesAt p 12 (u8 p 8)⟩
    withMix { s.cfg.mix with gpio := tset {} s.cfg.mix.gpio (u8 p 1) f } s
  else (List.range (u8 p 1)).foldl (landMuteEntry p) s

/-- MUTE_SET (R373, R374). -/
def execMuteSet (h : Hdr) (p : Bytes) (s : State) : R :=
  opcode .muteSet h p (landing .muteSet h p (checkMuteSet h p)) s

/-! ### SINK_SET, GEN_SET -/

/-- Frames of a delay in microseconds (R376). -/
def delayFrames (fs : Fin 3) (us : Nat) : Nat := ceilDiv (us * fsHz fs) 1000000

/-- The delay limit in frames (R376). -/
def delayLimit : Nat := 96000

/-- A sink's equalising pad. -/
def padOf (s : State) (h : Handle) : Nat := tget 0 s.cfg.graph.pads h.toNat

/-- Checks of SINK_SET (R380). -/
def checkSinkSet (p : Bytes) (s : State) : Status :=
  let f := u8 p 0
  let n := u8 p 15
  let la := u8 p 2
  let hs := handlesAt p 16 n
  let firstHandle (l : List Handle) : Status := match l.find? (fun h => !isSink (fsOf s) h || !hasStage h) with
    | some h => if isSink (fsOf s) h then .badParam else .badHandle
    | none => .ok
  let st := checks
    [ (decide (p.length < 16), .badLength),
      (f == 0 || decide (31 < f), .badParam),
      (f.testBit 1 && decide (2 < u8 p 1), .badParam),
      (f.testBit 2 && !(la == 0 || la == 16 || la == 32 || la == 64), .outOfRange),
      (f.testBit 3 && decide (1 < u8 p 3), .badParam),
      (f.testBit 0 && decide (delayLimit < delayFrames (fsOf s) (u32 p 4)), .outOfRange),
      (f.testBit 1 && (decide (i32 p 8 < -20000) || decide (0 < i32 p 8)), .outOfRange),
      (f.testBit 1 && (decide (u16 p 12 < 1) || decide (1000 < u16 p 12)), .outOfRange),
      (f.testBit 4 && decide (2 < u8 p 14), .badParam),
      (decide (n < 1) || decide (64 < n), .outOfRange),
      (p.length != handleLen 16 n, .badLength),
      (hs.any (fun h => !isSink (fsOf s) h || !hasStage h), firstHandle hs),
      (!handlePad p 16 n, .badParam) ]
  if st ≠ .ok then st
  else
    let mode (h : Handle) : Nat := if f.testBit 1 then u8 p 1 else (tget {} s.cfg.mix.sinks h.toNat).limMode
    let look (h : Handle) : Nat := if f.testBit 2 then la else (tget {} s.cfg.mix.sinks h.toNat).lookahead
    checks
      [ (hs.any (fun h => mode h == 2 && look h == 0), .badParam),
        (f.testBit 0 && hs.any (fun h => decide (delayLimit < delayFrames (fsOf s) (u32 p 4) + padOf s h)), .outOfRange) ]

/-- SINK_SET lands on one sink. -/
def landSink (p : Bytes) (s : State) (h : Handle) : State :=
  let f := u8 p 0
  let o := tget {} s.cfg.mix.sinks h.toNat
  let a := if f.testBit 0 then { o with delayUs := u32 p 4 } else o
  let b := if f.testBit 1 then { a with limMode := u8 p 1, limThresh := i32 p 8, releaseMs := u16 p 12 } else a
  let c := if f.testBit 2 then { b with lookahead := u8 p 2 } else b
  let d := if f.testBit 3 then { c with invert := u8 p 3 == 1 } else c
  let e := if f.testBit 4 then { d with narrow := u8 p 14 } else d
  withMix { s.cfg.mix with sinks := tset {} s.cfg.mix.sinks h.toNat e } s

/-- SINK_SET lands. -/
def landSinkSet (p : Bytes) (s : State) : State := (handlesAt p 16 (u8 p 15)).foldl (landSink p) s

/-- SINK_SET (R380). -/
def execSinkSet (h : Hdr) (p : Bytes) (s : State) : R :=
  opcode .sinkSet h p (landing .sinkSet h p (checkSinkSet p)) s

/-- The highest generator frequency, mHz (R383). -/
def genMaxMhz (s : State) : Nat := fsNow s * 450

/-- Pink or white noise. -/
def isNoise (t : Nat) : Bool := t == 2 || t == 3

/-- Checks of GEN_SET (R383). -/
def checkGenSet (p : Bytes) (s : State) : Status :=
  let t := u8 p 1
  let noise := isNoise t
  checks
    [ (p.length != 28, .badLength),
      (decide (3 < u8 p 0), .outOfRange),
      (decide (4 < t), .badParam),
      (decide (1 < u8 p 2), .badParam),
      (u8 p 3 != 0, .badParam),
      (decide (i32 p 4 < -144000) || decide ((if noise then -13000 else 0) < i32 p 4), .outOfRange),
      (decide (u32 p 8 < 1000) || decide (genMaxMhz s < u32 p 8), .outOfRange),
      (decide (u32 p 12 < 1000) || decide (genMaxMhz s < u32 p 12), .outOfRange),
      (decide (u32 p 16 < 100) || decide (100000 < u32 p 16), .outOfRange),
      (u32 p 24 != 0, .badParam) ]

/-- Amplitude of a generator's level in its present frame, under its ramp's shape (R367, R384). -/
def genAmp (r : Gen) (level : Int) : Nat :=
  let dest := if r.stopping then -144000 else level
  if r.k < r.m then
    if r.log then linFine (r.fromDb + (max dest (-144000) * 1099511627776 - r.fromDb) * (r.k : Int) / (r.m : Int))
    else ((r.fromLin : Int) + ((lin dest : Int) - (r.fromLin : Int)) * (r.k : Int) / (r.m : Int)).toNat
  else lin dest

/-- A generator's level in force, 2^-40 mdB. -/
def genDb (r : Gen) (level : Int) : Int :=
  if r.k < r.m then dbFine (genAmp r level)
  else (if r.stopping then -144000 else max level (-144000)) * 1099511627776

/-- A generator's level ramps over `m` frames from the value in force, with the default shape (R44, R384). -/
def rampGen (s : State) (r : Gen) (level : Int) (m : Nat) : Gen :=
  { r with fromDb := genDb r level, fromLin := genAmp r level, log := s.cfg.mix.shapeLog, k := 0, m := m }

/-- GEN_SET lands (R384): a sine or a sweep starts at phase zero without a ramp; noise starts, stops and changes level
by the default ramp; a sweep restarts. -/
def landGenSet (p : Bytes) (s : State) : State :=
  let g := u8 p 0
  let o := tget {} s.cfg.mix.gens g
  let n : GenCfg := ⟨u8 p 1, u8 p 2 == 1, i32 p 4, u32 p 8, u32 p 12, u32 p 16, BitVec.ofNat 32 (u32 p 20)⟩
  let r := tget {} s.mix.gens g
  let m := rampFrames s s.cfg.mix.rampUs
  let (fk, s1) := fresh s
  let seed := if n.seed = 0 then Config.genSeed fk else n.seed
  let r1 : Gen :=
    if n.type = 0 then
      (if isNoise r.kind && r.running then { rampGen s r o.level m with stopping := true } else {})
    else if !r.running || n.type != r.kind || n.type == 4 then
      { running := true, kind := n.type, seed := seed, m := if isNoise n.type then m else 0, log := s.cfg.mix.shapeLog,
        fromDb := if isNoise n.type then -144000 * 1099511627776 else max n.level (-144000) * 1099511627776 }
    else if n.level ≠ o.level || r.stopping then { rampGen s r o.level m with stopping := false }
    else r
  let s2 := if n.seed = 0 && r1.t = 0 && r1.running then s1 else s
  withMix { s2.cfg.mix with gens := tset {} s2.cfg.mix.gens g n }
    { s2 with mix := { s2.mix with gens := tset {} s2.mix.gens g r1 } }

/-- GEN_SET (R383). -/
def execGenSet (h : Hdr) (p : Bytes) (s : State) : R :=
  opcode .genSet h p (landing .genSet h p (checkGenSet p)) s

/-- SWEEP_END (R384): a single sweep has run its time and crosses zero; the generator is off. -/
def execSweepEnd (dt : Nat) (g : Fin 4) (s0 : State) : R :=
  let s := advance dt s0
  let c := tget {} s.cfg.mix.gens g
  if c.type = 4 && !c.rpt && decide (c.durMs * fsNow s ≤ 1000 * (tget ({} : Gen) s.mix.gens g).t) then
    .next (withMix { s.cfg.mix with gens := tset {} s.cfg.mix.gens g { c with type := 0 } }
      { s with mix := { s.mix with gens := tset {} s.mix.gens g {} } })
  else .next s

/-! ### The override's commands (R387 to R389) -/

/-- Checks of OVERRIDE. -/
def checkOverride (p : Bytes) (_ : State) : Status :=
  checks [(p.length != 4, .badLength), (decide (1 < u8 p 0), .badParam), (!zeroAt p 1 3, .badParam)]

/-- OVERRIDE lands. -/
def landOverride (p : Bytes) (s : State) : State :=
  { s with mix := { s.mix with ovr := { s.mix.ovr with
    command := u8 p 0 == 1, arrive := if u8 p 0 = 1 then s.sysCnt else s.mix.ovr.arrive } } }

/-- OVERRIDE (R388). -/
def execOverride (h : Hdr) (p : Bytes) (s : State) : R :=
  opcode .override h p (landing .override h p (checkOverride p)) s

/-- The fields of an OVERRIDE_CONFIG payload. -/
def ovrOf (p : Bytes) : OvrCfg :=
  { source := handleAt p 0, pinEnable := u8 p 2 == 1, gain := i32 p 4, lout := BitVec.ofNat 32 (u32 p 8),
    hsout := BitVec.ofNat 4 (u8 p 12), spk := BitVec.ofNat 2 (u8 p 13), aesout := BitVec.ofNat 8 (u8 p 14),
    tdmout := BitVec.ofNat 128 (u64 p 16 + u64 p 24 * 2 ^ 64),
    nettx := BitVec.ofNat 256 (u64 p 32 + u64 p 40 * 2 ^ 64 + u64 p 48 * 2 ^ 128 + u64 p 56 * 2 ^ 192) }

/-- A mask bit of an undeclared output is set (R389, R61). -/
def ovrUndeclared (b : BoardCfg) (o : OvrCfg) : Bool :=
  (o.lout &&& ~~~b.loutWired) != 0
    || (List.range 4).any (fun i => o.hsout.getLsbD i && !b.hsWired.getLsbD (i / 2))
    || (o.spk &&& ~~~b.spkWired) != 0
    || (List.range 8).any (fun i => o.aesout.getLsbD i && !b.aesWired.getLsbD (4 + i / 2))
    || (List.range 128).any (fun i => o.tdmout.getLsbD i && !b.tdmWired.getLsbD (i / 32))
    || (o.nettx != 0 && !b.miscWired.getLsbD 3 && !b.miscWired.getLsbD 4)

/-- Checks of OVERRIDE_CONFIG (R389). -/
def checkOverrideConfig (p : Bytes) (s : State) : Status :=
  checks
    [ (p.length != 64, .badLength),
      (!isSrc (fsOf s) (handleAt p 0), .badHandle),
      (decide (1 < u8 p 2), .badParam),
      (u8 p 3 != 0, .badParam),
      (decide (i32 p 4 < -40000) || decide (24082 < i32 p 4), .outOfRange),
      (decide (15 < u8 p 12), .badParam),
      (decide (3 < u8 p 13), .badParam),
      (u8 p 15 != 0, .badParam),
      (fsOf s == 2 && (u64 p 48 != 0 || u64 p 56 != 0), .badHandle),
      (ovrUndeclared s.cfg.board (ovrOf p), .badParam) ]

/-- OVERRIDE_CONFIG lands: a change of SOURCE or GAIN while engaged crossfades over 8 frames (R389). -/
def landOverrideConfig (p : Bytes) (s : State) : State :=
  let o := s.cfg.mix.ovr
  let n := ovrOf p
  let r := s.mix.ovr
  let r1 := if r.inForce && (o.source != n.source || o.gain != n.gain) then
      { r with old := r.old.map (fun e => (e.1, e.2.1, e.2.2 * (8 - r.swap) / 8))
                 ++ [(o.source, o.gain, 2 ^ 60 * r.swap / 8)], swap := 0 }
    else r
  withMix { s.cfg.mix with ovr := n } { s with mix := { s.mix with ovr := r1 } }

/-- OVERRIDE_CONFIG (R389). -/
def execOverrideConfig (h : Hdr) (p : Bytes) (s : State) : R :=
  opcode .overrideConfig h p (landing .overrideConfig h p (checkOverrideConfig p)) s

/-- OVR_N_LOW and OVR_N_HIGH (R387): the pad is sampled at the start of step 2 of each tick. -/
def execOvrNLow (dt : Nat) (s0 : State) : R :=
  let s := advance dt s0
  let r := s.mix.ovr
  .next { s with
    pads := { s.pads with ovrN := false }
    mix := { s.mix with ovr := { r with arrive := if s.cfg.mix.ovr.pinEnable then s.sysCnt else r.arrive } } }

def execOvrNHigh (dt : Nat) (s0 : State) : R :=
  let s := advance dt s0
  .next { s with pads := { s.pads with ovrN := true } }

/-- GPIO_MUTE_INPUT (R375): the pad's level; the mute it makes is sampled at each tick. -/
def execGpioMuteInput (dt : Nat) (g : Fin 16) (level : Bool) (s0 : State) : R :=
  let s := advance dt s0
  let b := BitVec.ofNat 16 (2 ^ g.val)
  .next { s with pads := { s.pads with gpioIn := if level then s.pads.gpioIn ||| b else s.pads.gpioIn &&& ~~~b } }

end Sys2Proof.Machine
end

