-- ==== Sys2Proof/Machine/Graph.lean ====
section
/-! DEFINITION. The graph compiler (R335 to R343): the checks of an edge list, levels and cycles, packing into rows, the
headroom bound, and what a commit changes (R349, R352). -/

namespace Sys2Proof.Machine

/-! ### Records -/

/-- An edge record at offset `b` (R335). -/
def edgeAt (p : Bytes) (b : Nat) : Edge :=
  let f := u8 p (b + 10)
  { src := handleAt p b, sink := handleAt p (b + 2), gain := i32 p (b + 4), limit := signed 16 (u16 p (b + 8)),
    invert := f.testBit 0, setGain := f.testBit 1, remove := f.testBit 2,
    reserved := decide (8 ≤ f) || u8 p (b + 11) != 0 }

/-- The bytes of an edge record. -/
def edgeBytes (e : Edge) : Bytes :=
  le 2 e.src.toNat ++ le 2 e.sink.toNat ++ leI 4 e.gain ++ leI 2 e.limit
    ++ le 1 (flag 0 e.invert + flag 1 e.setGain + flag 2 e.remove) ++ zeros 1

/-- Index of a bus. -/
def busOfSrc (h : Handle) : Option Nat := if hClass h = 7 then some (hIndex h) else none
def busOfSink (h : Handle) : Option Nat := if hClass h = 0x88 then some (hIndex h) else none

/-! ### Checks 1 to 5 (R336) -/

/-- Sort key of an edge: sink, then source (R341). -/
def edgeKey (e : Edge) : Nat := e.sink.toNat * 65536 + e.src.toNat

/-- The index of the first edge that satisfies `f`. -/
def edgeIndex (f : Edge → Bool) (l : List Edge) : Option Nat := firstIdx f l

/-- Check 1: handles. -/
def edgeHandlesBad (fs : Fin 3) (e : Edge) : Bool := !isSrc fs e.src || !isSink fs e.sink

/-- The edges by sort key; the first of two with the same key is kept. -/
def edgeTab (l : List Edge) : Tab (Option Edge) :=
  l.foldl (fun t e => if (tget none t (edgeKey e)).isSome then t else tset none t (edgeKey e) (some e)) []

/-- Check 2: the index of the first edge that repeats an earlier one, or has reserved bits, or REMOVE. -/
def edgeDupIndex : List Edge → Nat → Tab Bool → Bool → Option Nat
  | [], _, _, _ => none
  | e :: t, i, seen, allowRemove =>
    if tget false seen (edgeKey e) || e.reserved || (e.remove && !allowRemove) then some i
    else edgeDupIndex t (i + 1) (tset false seen (edgeKey e) true) allowRemove

/-- Check 3: LIMIT and GAIN. -/
def edgeRangeBad (e : Edge) : Bool := decide (e.limit < -30000) || decide (24082 < e.limit) ||
  (decide (e.limit < e.gain) && decide (-144000 < e.gain))

/-- Node of a source or sink in the cycle check (R337): buses 0 to 63, Cooper cores 64 to 67. -/
def srcNode (h : Handle) : Option Nat :=
  if hClass h = 7 then some (hIndex h) else if hClass h = 8 then some (64 + hIndex h / 64) else none
def sinkNode (h : Handle) : Option Nat :=
  if hClass h = 0x88 then some (hIndex h) else if hClass h = 0x89 then some (64 + hIndex h / 64) else none

/-- Arcs between nodes. -/
def arcsOf (l : List Edge) : List (Nat × Nat) :=
  (l.filterMap (fun e => match srcNode e.src, sinkNode e.sink with
    | some a, some b => some (a, b)
    | _, _ => none)).eraseDups

/-- Nodes left when those without an arc from, or to, a remaining node are removed, `n` times. -/
def pruneNodes (arcs : List (Nat × Nat)) : Nat → List Nat → List Nat
  | 0, l => l
  | n + 1, l =>
    let l' := l.filter (fun x => arcs.any (fun a => a.2 == x && l.contains a.1)
      && arcs.any (fun a => a.1 == x && l.contains a.2))
    if l'.length = l.length then l else pruneNodes arcs n l'

/-- Check 4: the first edge that lies between nodes of a cycle. -/
def cycleIndex (l : List Edge) : Option Nat :=
  let arcs := arcsOf l
  let nodes := pruneNodes arcs 68 ((arcs.map Prod.fst ++ arcs.map Prod.snd).eraseDups)
  if nodes.isEmpty then none
  else edgeIndex (fun e => match srcNode e.src, sinkNode e.sink with
    | some a, some b => nodes.contains a && nodes.contains b
    | _, _ => false) l

/-! ### Levels, packing, headroom -/

/-- A BUSIN has edges. -/
def busFed (l : List Edge) (b : Nat) : Bool := l.any (fun e => busOfSink e.sink == some b)

/-- One round of level relaxation over the buses (R338). -/
def levelRound (l : List Edge) (lv : Tab Nat) : Tab Nat :=
  l.foldl (fun t e => match busOfSrc e.src, busOfSink e.sink with
    | some a, some b => if tget 0 t (100 + a) = 1 then tset 0 t b (max (tget 0 t b) (tget 0 t a + 1)) else t
    | _, _ => t) lv

/-- Repeats a step. -/
def iter {α : Type} (f : α → α) : Nat → α → α
  | 0, x => x
  | n + 1, x => iter f n (f x)

/-- Levels of the BUSIN sinks (R338), by bus; key 100 + b is 1 where BUSIN b has edges. -/
def busLevels (l : List Edge) : Tab Nat :=
  let fed := (List.range 64).foldl (fun t b => if busFed l b then tset 0 t (100 + b) 1 else t) []
  iter (levelRound (l.filter (fun e => (busOfSrc e.src).isSome && (busOfSink e.sink).isSome))) 64 fed

/-- Level of a sink from the levels of the buses it reads. -/
def sinkLevel (lv : Tab Nat) (es : List Edge) : Nat :=
  es.foldl (fun m e => match busOfSrc e.src with
    | some a => if tget 0 lv (100 + a) = 1 then max m (tget 0 lv a + 1) else m
    | none => m) 0

/-- Splits edges sorted by sink into the program's sinks. -/
def groupEdges : List Edge → List (Handle × List Edge)
  | [] => []
  | e :: t =>
    match groupEdges t with
    | (h, es) :: r => if h = e.sink then (h, e :: es) :: r else (e.sink, [e]) :: (h, es) :: r
    | [] => [(e.sink, [e])]

/-- Inserts a sink by level, then handle. -/
def insertSink (x : ProgSink) : List ProgSink → List ProgSink
  | [] => [x]
  | y :: t => if y.level ≤ x.level then y :: insertSink x t else x :: y :: t

/-- The program of an edge list: sinks by level then handle, each with its edges in source order (R341). -/
def programOf (l : List Edge) : List ProgSink :=
  let lv := busLevels l
  let sorted := (edgeTab l).filterMap Prod.snd
  (groupEdges sorted).foldl (fun a g => insertSink ⟨sinkLevel lv g.2, g.1, g.2⟩ a) []

/-- Segments of a sink (R341). -/
def segments (x : ProgSink) : Nat := ceilDiv x.edges.length 8

/-- Levels of a program: depth + 1. -/
def progLevels (p : List ProgSink) : Nat := p.foldl (fun m x => max m x.level) 0 + 1

/-- Rows of a program (R341). -/
def progRows (p : List ProgSink) : Nat :=
  let n := progLevels p
  ((List.range n).map (fun k => ceilDiv ((p.filter (fun x => x.level == k)).map segments).sum 8)).sum + 6 * (n - 1)

/-- Usable rows (R33). -/
def usableRows (fs : Fin 3) : Nat := min 4096 (200000000 / fsHz fs - 40)

/-- Bounds of the sinks (R343) in units of 2^-60, in program order; bus bounds are kept by bus. -/
def bounds (p : List ProgSink) : List (Handle × Nat) × Tab Nat :=
  p.foldl (fun (a : List (Handle × Nat) × Tab Nat) x =>
    let b := (x.edges.map (fun e =>
      let g := lin e.limit / 2 ^ 36
      match busOfSrc e.src with
      | some k => g * tget 0 a.2 k / 2 ^ 60
      | none => g)).sum
    (a.1 ++ [(x.sink, b)], match busOfSink x.sink with | some k => tset 0 a.2 k b | none => a.2)) ([], [])

/-- The highest bound and its sink, the lowest handle where several share it. -/
def topBound (l : List (Handle × Nat)) : Nat × Handle :=
  l.foldl (fun (a : Nat × Handle) x =>
    if a.1 < x.2 || (a.1 == x.2 && decide (x.1.toNat < a.2.toNat) && x.2 != 0) then (x.2, x.1) else a) (0, 0)

/-- 20 log10 of a bound, mdB (R340); −144,000 for a graph without edges. -/
def boundMdb (b : Nat) : Int :=
  if b = 0 then -144000
  else if b = 2 ^ 60 then 0
  else wholeMdb 2 (dbWide (b * 2 ^ 36))

/-- Compiles an edge list. -/
def compileEdges (l : List Edge) : Compiled :=
  let p := programOf l
  let (m, h) := topBound (bounds p).1
  { prog := p, rows := progRows p, levels := progLevels p, headroom := m, headroomSink := h,
    warn := decide (65536 * 2 ^ 60 ≤ m) }

/-- Check 5: sizes; the index of the edge it names (0xFFFF_FFFF where no single edge is at fault). -/
def sizeCheck (fs : Fin 3) (c : Compiled) (l : List Edge) : Option Nat :=
  match c.prog.find? (fun x => decide (1024 < x.edges.length)) with
  | some x => edgeIndex (fun e => e.sink == x.sink) l
  | none =>
    if 65536 < l.length then some 65536
    else if 16 < c.levels ∨ usableRows fs < c.rows then some 0xFFFFFFFF
    else none

/-- Checks 1 to 5 in table order: the status, the index named, and the compiled program. -/
def compileChecks (fs : Fin 3) (allowRemove : Bool) (l : List Edge) : Status × Nat × Compiled :=
  match edgeIndex (edgeHandlesBad fs) l with
  | some i => (.badHandle, i, {})
  | none => match edgeDupIndex l 0 [] allowRemove with
    | some i => (.badParam, i, {})
    | none => match edgeIndex edgeRangeBad l with
      | some i => (.outOfRange, i, {})
      | none => match cycleIndex l with
        | some i => (.badParam, i, {})
        | none =>
          let c := compileEdges l
          match sizeCheck fs c l with
          | some i => (.graphTooLarge, i, c)
          | none => (.ok, 0xFFFFFFFF, c)

/-- What refuses a group's members: the class of one (R336), or its index (R15, R42). -/
def membersBad (fs : Fin 3) : List Handle → Status
  | [] => .ok
  | h :: t => if !hasStage h then .badParam else if !hKnown fs h then .badHandle else membersBad fs t

/-- Check 6: groups (R336), in group order: the status of the first that is refused, and its number. -/
def groupsBad (fs : Fin 3) (n : Nat) (gs : List EqGroup) : Option (Status × Nat) :=
  let st (g : EqGroup) : Status :=
    if n ≤ g.num || g.members.isEmpty || decide (128 < g.members.length) then .badParam
    else match membersBad fs g.members with
      | .ok =>
        if gs.any (fun g' => g'.num != g.num && g'.members.any (fun h => g.members.contains h))
          || hasRepeat g.members || decide (1 < (gs.filter (fun g' => g'.num == g.num)).length) then .badParam else .ok
      | e => e
  (gs.find? (fun g => st g != .ok)).map (fun g => (st g, g.num))

/-! ### What a commit changes (R349, R352) -/

/-- The edges of a sink in a program. -/
def sinkEdges (p : List ProgSink) (h : Handle) : List Edge :=
  match p.find? (fun x => x.sink == h) with
  | some x => x.edges
  | none => []

/-- Two gains are the same: every gain of −144,000 mdB or below is off (R11). -/
def sameGain (a b : Int) : Bool := a == b || (decide (a ≤ -144000) && decide (b ≤ -144000))

/-- A sink's sources and polarities differ, or a SET_GAIN changes a gain in force. -/
def sinkDiffers (old new : List Edge) : Bool :=
  (old.map (fun e => (e.src, e.invert)) != new.map (fun e => (e.src, e.invert)))
    || new.any (fun e => e.setGain && old.any (fun o => o.src == e.src && !sameGain o.gain e.gain))

/-- Every sink of two programs. -/
def allSinks (a b : List ProgSink) : List Handle := (b.map (·.sink) ++ a.map (·.sink)).eraseDups

/-- Adds the sinks that read a changed BUSIN. -/
def spreadChanged (a b : List ProgSink) (l : List Handle) : List Handle :=
  let reads (h : Handle) : Bool :=
    (sinkEdges a h ++ sinkEdges b h).any (fun e => match busOfSrc e.src with
      | some k => l.contains (mkHandle 0x88 k)
      | none => false)
  l ++ (allSinks a b).filter (fun h => !l.contains h && reads h)

/-- The changed sinks of a commit, changed BUSINs included (R349). -/
def changedSinks (a b : List ProgSink) (padA padB : Tab Nat) : List Handle :=
  let direct := (allSinks a b).filter (fun h =>
    sinkDiffers (sinkEdges a h) (sinkEdges b h) || tget 0 padA h.toNat != tget 0 padB h.toNat)
  iter (spreadChanged a b) 17 direct

/-- The crossfaded ones: every changed sink but a BUSIN. -/
def crossfaded (l : List Handle) : List Handle := l.filter (fun h => hClass h != 0x88)

/-- Rows of a program that hold a segment of one of the sinks: level and row within the level. -/
def touchedRows (p : List ProgSink) (l : List Handle) : List (Nat × Nat) :=
  ((p.foldl (fun (a : List (Nat × Nat) × Tab Nat) x =>
    let at0 := tget 0 a.2 x.level
    let n := segments x
    let rows := if l.contains x.sink then
        (List.range ((at0 + n - 1) / 8 + 1 - at0 / 8)).map (fun i => (x.level, at0 / 8 + i))
      else []
    (a.1 ++ rows, tset 0 a.2 x.level (at0 + n))) ([], [])).1).eraseDups

/-- RACK_ROWS (R352). -/
def rackRowsOf (a b : Compiled) (changed : List Handle) : Nat :=
  let t := touchedRows a.prog changed
  let lv := t.map Prod.fst
  let span := match lv with
    | [] => 0
    | x :: r => r.foldl max x - r.foldl min x
  b.rows + t.length + 6 * span

end Sys2Proof.Machine
end

