-- ==== Sys2Proof/Machine/Pool.lean ====
section
/-! DEFINITION. The bulk pool of the Vintage store (R104): which records it holds, what may be freed, and the writer's
place for a new one. -/

namespace Sys2Proof.Machine

/-- Lines of 64 bytes the pool holds: 3720 KiB. -/
def poolLines : Nat := 59520

/-- A record is still needed: its object is in force, or a slot or a running commit refers to it. -/
def bulkKept (v : Vint) (r : BulkRec) : Bool :=
  let k := (r.id, r.version)
  v.bulkNow.contains k || v.slotA.refs.contains k || v.slotB.refs.contains k
    || (match v.running with | some c => c.refs.contains k | none => false)

/-- Lines taken by the records that have space. -/
def poolUsed (l : List BulkRec) : Nat := ((l.filter (·.placed)).map (·.lines)).sum

/-- Places waiting records, oldest first, while they fit. -/
def poolPlace : List BulkRec → Nat → List BulkRec
  | [], _ => []
  | r :: t, used =>
    if r.placed then r :: poolPlace t used
    else if used + r.lines ≤ poolLines then { r with placed := true } :: poolPlace t (used + r.lines)
    else r :: poolPlace t used

/-- Frees what is not needed and places what waits. -/
def poolTidy (v : Vint) : Vint :=
  let l := v.pool.filter (bulkKept v)
  { v with pool := poolPlace l (poolUsed l) }

/-- An object of `size` bytes has come into force: its record is to be stored. -/
def poolPut (id : BulkId) (size : Nat) (s : State) : State :=
  let v := s.vint
  let k := v.nextVersion
  { s with vint := poolTidy { v with
    nextVersion := k + 1
    bulkNow := v.bulkNow.filter (fun e => e.1 != id) ++ [(id, k)]
    pool := v.pool ++ [⟨id, k, ceilDiv size 64, false, false⟩] } }

/-- An object is no longer in force. -/
def poolDrop (id : BulkId) (s : State) : State :=
  { s with vint := poolTidy { s.vint with bulkNow := s.vint.bulkNow.filter (fun e => e.1 != id) } }

/-- Every record of a list is in the pool, written whole. -/
def bulkComplete (v : Vint) (refs : List (BulkId × Nat)) : Bool :=
  refs.all (fun k => v.pool.any (fun r => r.id == k.1 && r.version == k.2 && r.complete))

/-- Every record of a list has its space. -/
def bulkPlaced (v : Vint) (refs : List (BulkId × Nat)) : Bool :=
  refs.all (fun k => v.pool.any (fun r => r.id == k.1 && r.version == k.2 && r.placed))

/-- Marks the first unfinished record of an object as stored. -/
def storeFirst (id : BulkId) : List BulkRec → List BulkRec
  | [] => []
  | r :: t => if r.id = id ∧ r.placed ∧ ¬ r.complete then { r with complete := true } :: t else r :: storeFirst id t

/-- BULK_RECORD_STORED (R104): the pool writer has finished a record. -/
def execBulkRecordStored (dt : Nat) (id : BulkId) (s0 : State) : R :=
  let s := advance dt s0
  .next { s with vint := { s.vint with pool := storeFirst id s.vint.pool } }

end Sys2Proof.Machine
end

