-- ==== Sys2Proof/Machine/Filters.lean ====
section
/-! DEFINITION. Press and Pour filter chains (chapter 07): responses and their terms, running and stopping, the reload
sequence, settling, synchronising resets, phase delay, custom coefficient sets, status and the expert command. -/

namespace Sys2Proof.Machine

/-! ### Custom sets (R276) -/

/-- π in units of 2^-120. -/
def piFix : Int := 4175892906503776358826876457663557747

/-- 1.0 in the units of the sine and cosine. -/
def trigOne : Int := 2 ^ 120

/-- Terms of the exponential series of an angle `x`: `n` terms from term `k` with value `t`, real and imaginary sums of
exp(−ix). -/
def expTerms (x : Int) : Nat → Nat → Int → Int × Int → Int × Int
  | 0, _, _, a => a
  | n + 1, k, t, (c, s) =>
    let a := if k % 4 = 0 then (c + t, s) else if k % 4 = 1 then (c, s + t) else if k % 4 = 2 then (c - t, s)
      else (c, s - t)
    expTerms x n (k + 1) (t * x / trigOne / ((k + 1 : Nat) : Int)) a

/-- Sums over the taps at the angle whose cosine and sine are `c1`, `s1`: Σ k h cos, Σ k h sin, Σ h cos, Σ h sin. -/
def tapSums (c1 s1 : Int) : List Int → Int → Int → Int → Int × Int × Int × Int → Int × Int × Int × Int
  | [], _, _, _, a => a
  | h :: t, k, c, s, (kc, ks, hc, hs) =>
    tapSums c1 s1 t (k + 1) ((c * c1 - s * s1) / trigOne) ((s * c1 + c * s1) / trigOne)
      (kc + k * h * c, ks + k * h * s, hc + h * c, hs + h * s)

/-- All N taps of a set: h[N−1−k] = h[k] for a symmetric one. -/
def tapsOf (c : CoefSet) : List Int :=
  let w := c.words.map BitVec.toInt
  if c.symmetric then w ++ (w.take (c.taps / 2)).reverse else w

/-- Group delay of a custom set, 1/128 frame (R276). Stage 4 and stage 1 of Pour run at 2·fs_int. -/
def setDelayQ7 (fs : Fin 3) (c : CoefSet) : Int :=
  if c.symmetric then 512 + 32 * ((c.taps : Int) - 1)
  else
    let x := piFix * 1000 / (fsHz fs : Int)
    let (c1, s1) := expTerms x 24 0 trigOne (0, 0)
    let (kc, ks, hc, hs) := tapSums c1 s1 (tapsOf c) 0 trigOne 0 (0, 0, 0, 0)
    let den := hc * hc + hs * hs
    if den = 0 then Config.delayQ7 (tapsOf c).length
    else 512 + (128 * (kc * hc + ks * hs) + den) / (2 * den)

/-- Settle count of a set of N taps (R264): ceil(12 + (N − 1)/2). -/
def setSettle (taps : Nat) : Nat := 12 + taps / 2

/-- DC gain of a set in mdB (R276): of Σh for Press, of Σh / 2 for Pour. -/
def setDcGain (pour : Bool) (c : CoefSet) : Int :=
  let sum := (tapsOf c).sum
  if sum ≤ 0 then Config.dcGain sum
  else
    let v := sum.toNat * 2 ^ (if pour then 65 else 66)
    wholeMdb 3 (dbFine v)

/-- A direction's sets. -/
def setsOf (s : State) (pour : Bool) : Tab (Option CoefSet) := if pour then s.cfg.filt.pourSets else s.cfg.filt.pressSets

/-- A set's contents, where it is valid. -/
def coefSet (s : State) (pour : Bool) (k : Nat) : Option CoefSet := tget none (setsOf s pour) k

/-- The set is being loaded. -/
def setLoading (s : State) (pour : Bool) (k : Nat) : Bool := (tget none s.filt.loads (bit pour * 8 + k)).isSome

/-! ### Chains (R251 to R259) -/

/-- Number of chains of a direction. -/
def chainCount (pour : Bool) : Nat := if pour then 46 else 36

/-- A chain's settings as stored. -/
def chainStored (s : State) (pour : Bool) (c : Nat) : FiltChainCfg :=
  tget {} (if pour then s.cfg.filt.pour else s.cfg.filt.press) c

/-- The Taster a Press chain belongs to. -/
def tasterOfChain (s : State) (c : Nat) : Taster := if c = 32 then s.inp.t0 else s.inp.t1

/-- A chain's settings: a Taster's chain takes those of the channel it is on (R252). -/
def chainCfg (s : State) (pour : Bool) (c : Nat) : FiltChainCfg :=
  if !pour && (c == 32 || c == 33) then
    match (tasterOfChain s c).channel with
    | some ch => chainStored s false ch
    | none => {}
  else chainStored s pour c

/-- A chain as it runs. -/
def chainOf (s : State) (pour : Bool) (c : Nat) : FChain := tget {} (if pour then s.filt.pour else s.filt.press) c

/-- Writes a chain. -/
def setChain (pour : Bool) (c : Nat) (x : FChain) (s : State) : State :=
  { s with filt := if pour then { s.filt with pour := tset {} s.filt.pour c x }
    else { s.filt with press := tset {} s.filt.press c x } }

/-- Writes a chain's settings. -/
def storeChain (pour : Bool) (c : Nat) (x : FiltChainCfg) (s : State) : State :=
  { s with cfg := { s.cfg with filt := if pour then { s.cfg.filt with pour := tset {} s.cfg.filt.pour c x }
    else { s.cfg.filt with press := tset {} s.cfg.filt.press c x } } }

/-- A chain is running in the sense of its X fields (R46): not stopped. -/
def chainRuns (s : State) (pour : Bool) (c : Nat) : Bool := (chainOf s pour c).state != .stopped

/-- Group delay of a response, 1/128 frame (R257, R276). -/
def respDelayQ7 (s : State) (pour : Bool) (resp set : Nat) : Int :=
  match resp with
  | 0 => if pour then 4608 else 4864
  | 1 => if pour then 1280 else 1536
  | 2 => 384
  | _ => match coefSet s pour set with
    | some c => setDelayQ7 s.clk.fs c
    | none => 512

/-- Settle count of a response (R264). -/
def respSettle (s : State) (pour : Bool) (resp set : Nat) : Nat :=
  match resp with
  | 0 => if pour then 76 else 80
  | 1 => if pour then 24 else 28
  | 2 => if pour then 60 else 64
  | _ => match coefSet s pour set with
    | some c => setSettle c.taps
    | none => 12

/-- A chain's latency term (R259), 1/128 frame. -/
def termQ7 (s : State) (pour : Bool) (c : Nat) : Int :=
  let x := chainOf s pour c
  let g := chainCfg s pour c
  respDelayQ7 s pour x.resp x.set + 128 * (g.coarse : Int) + (g.fine : Int)

/-- The response in force becomes the one set. -/
def adoptResp (s : State) (pour : Bool) (c : Nat) (x : FChain) : FChain :=
  let g := chainCfg s pour c
  { x with resp := g.resp, set := g.set, reload := false }

/-- A chain is cleared (R265): its stages and coarse delay are zeroed, its DC blocker and HPF are not, and its settle count
starts. A stopped chain is left alone; one that fades before its stop or its reload goes on fading. -/
def clearChain (pour : Bool) (c : Nat) (s : State) : State :=
  let x := chainOf s pour c
  let y := { x with line := [], stages := {}, stampDue := true, w := 0, back := false }
  match x.state with
  | .stopped => s
  | .fadingStop => setChain pour c y s
  | .fadingReload =>
    if x.reload then setChain pour c y s
    else setChain pour c { y with state := .settling, left := respSettle s pour x.resp x.set } s
  | _ => setChain pour c { y with state := .settling, left := respSettle s pour x.resp x.set } s

/-- A Taster whose channel's chain is cleared, or changes its response while it is stopped, is cleared with it, with the
response in force on the channel, and a visit starts again (R252, R272). -/
def clearTaster (ch : Nat) (t : Fin 2) (s : State) : State :=
  let x := if t = 0 then s.inp.t0 else s.inp.t1
  let f := chainOf s false ch
  match x.channel with
  | some k =>
    if k.val = ch then
      let s1 := clearChain false (32 + t) (setChain false (32 + t) { chainOf s false (32 + t) with resp := f.resp, set := f.set } s)
      let y := if x.phase = .none then x else { x with phase := .settling }
      { s1 with inp := if t = 0 then { s1.inp with t0 := y } else { s1.inp with t1 := y } }
    else s
  | none => s

/-- Clears a chain, and with a channel's Press chain the Taster on it. -/
def clearAt (pour : Bool) (c : Nat) (s : State) : State :=
  let s1 := clearChain pour c s
  if !pour && decide (c < 32) && chainRuns s false c then clearTaster c 1 (clearTaster c 0 s1) else s1

/-- Clears the chains of two masks. -/
def clearMasks (press pour : Nat) (s : State) : State :=
  (bitsOf 46 pour).foldl (fun a c => clearAt true c a) ((bitsOf 36 press).foldl (fun a c => clearAt false c a) s)

/-- A start (R261): cleared with the DC blocker and the HPF zeroed, the response set in force. -/
def startChain (pour : Bool) (c : Nat) (s : State) : State :=
  let g := chainCfg s pour c
  let x := chainOf s pour c
  let y : FChain :=
    { x with state := .settling, left := respSettle s pour g.resp g.set, resp := g.resp, set := g.set, w := 0,
             back := false, reload := false, stampDue := true, line := [], stages := {}, dc := 0,
             hpf := ⟨g.corner, g.slope, 0, 0⟩, hpfOld := [], hpfK := 0, hpfN := 0 }
  setChain pour c y s

/-- Taster `t` arrives at channel `ch` (R237, R252, R265): its chain takes the response in force there and is cleared. Its DC
blocker keeps its state; a wind HPF of another setting begins from zero (log 93). -/
def arriveChain (t : Fin 2) (ch : Nat) (s : State) : State :=
  let f := chainOf s false ch
  let g := chainStored s false ch
  let x := chainOf s false (32 + t)
  let same := x.hpf.corner == g.corner && x.hpf.slope == g.slope
  setChain false (32 + t)
    { x with state := .settling, left := respSettle s false f.resp f.set, resp := f.resp, set := f.set, w := 0, back := false,
             reload := false, stampDue := true, line := [], stages := {},
             hpf := if same then x.hpf else ⟨g.corner, g.slope, 0, 0⟩, hpfOld := [], hpfK := 0, hpfN := 0 } s

/-- The comparison window of a Taster on the channel begins again (R237). -/
def restartWindow (ch : Nat) (s : State) : State :=
  let n := usFrames s (1000 * s.cfg.input.taster.windowMs) + 1
  let go (x : Taster) : Taster :=
    if x.channel.map Fin.val == some ch && (x.phase == .window || x.phase == .second) then { x with winLeft := n } else x
  { s with inp := { s.inp with t0 := go s.inp.t0, t1 := go s.inp.t1 } }

/-! ### FILT_RUN (R261) -/

/-- A chain mask is refused: zero, above the highest chain, or a Taster's chain (R251, R252). -/
def maskBad (pour : Bool) (m : Nat) : Bool :=
  decide (2 ^ chainCount pour ≤ m) || (!pour && (m.testBit 32 || m.testBit 33))

/-- Checks of FILT_RUN. -/
def checkFiltRun (p : Bytes) (s : State) : Status :=
  let pour := u8 p 0 == 1
  let m := u64 p 4
  let start (c : Nat) : Bool := u8 p 1 == 1 && !chainRuns s pour c && (chainStored s pour c).resp == 3
  checks
    [ (p.length != 12, .badLength),
      (decide (1 < u8 p 0), .badParam),
      (decide (1 < u8 p 1), .badParam),
      (u16 p 2 != 0, .badParam),
      (m == 0 || maskBad pour m, .badParam),
      ((bitsOf 46 m).any (fun c => start c && !setLoading s pour (chainStored s pour c).set
        && (coefSet s pour (chainStored s pour c).set).isNone), .badParam),
      ((bitsOf 46 m).any (fun c => start c && setLoading s pour (chainStored s pour c).set), .busy) ]

/-- A start or a stop lands on one chain. -/
def landRun (pour start : Bool) (s0 : State) (c : Nat) : State :=
  let g := chainStored s0 pour c
  let s := storeChain pour c { g with run := start } s0
  let x := chainOf s pour c
  if start then
    match x.state with
    | .stopped => startChain pour c s
    | .fadingStop =>
      setChain pour c (if x.reload then { x with state := .fadingReload, back := true }
        else { x with state := .running, left := 0, back := true }) s
    | _ => s
  else
    match x.state with
    | .stopped | .fadingStop => s
    | .settling => setChain pour c { x with state := .stopped, left := 0, w := 0 } s
    | _ => setChain pour c { x with state := .fadingStop, left := if x.reload then x.left else 32, back := false } s

/-- FILT_RUN lands. -/
def landFiltRun (p : Bytes) (s : State) : State :=
  (bitsOf 46 (u64 p 4)).foldl (landRun (u8 p 0 == 1) (u8 p 1 == 1)) s

/-- FILT_RUN (R261). -/
def execFiltRun (h : Hdr) (p : Bytes) (s : State) : R :=
  opcode .filtRun h p (landing .filtRun h p (checkFiltRun p)) s

/-- Direction and number of a chain. -/
def chainPour : Chain → Bool
  | .press _ => false
  | .pour _ => true
def chainNum : Chain → Nat
  | .press c => c
  | .pour c => c

/-- FILT_STOP_COMPLETE (R261), 32 frames after the stop: a response that waited comes into force for the next start (R263). -/
def execFiltStopComplete (dt : Nat) (ch : Chain) (s0 : State) : R :=
  let s := advance dt s0
  let x := chainOf s (chainPour ch) (chainNum ch)
  if x.state = .fadingStop ∧ x.left = 0 then
    let y := if x.reload then adoptResp s (chainPour ch) (chainNum ch) x else x
    .next (setChain (chainPour ch) (chainNum ch) { y with state := .stopped, left := 0, w := 0, back := false } s)
  else .next s

/-! ### FILT_CONFIG (R262, R263, R275) -/

/-- Checks of FILT_CONFIG. -/
def checkFiltConfig (p : Bytes) (s : State) : Status :=
  let pour := u8 p 0 == 1
  let f := u8 p 1
  let m := u64 p 8
  let custom := f.testBit 0 && u8 p 2 == 3
  checks
    [ (p.length != 16, .badLength),
      (decide (1 < u8 p 0), .badParam),
      (f == 0 || decide (3 < f) || (f.testBit 1 && pour), .badParam),
      (f.testBit 0 && decide (3 < u8 p 2), .badParam),
      (f.testBit 0 && decide ((if u8 p 2 = 3 then 7 else 0) < u8 p 3), .outOfRange),
      (f.testBit 1 && decide (8 < u8 p 4), .badParam),
      (f.testBit 1 && decide (1 < u8 p 5), .badParam),
      (u16 p 6 != 0, .badParam),
      (m == 0 || maskBad pour m, .badParam),
      (custom && !setLoading s pour (u8 p 3) && (coefSet s pour (u8 p 3)).isNone, .badParam),
      (custom && setLoading s pour (u8 p 3), .busy) ]

/-- A new response lands on a chain that has it not yet: in force at once where it is stopped, by the reload sequence
where it runs. Step 2 of a reload that fades stays where it is (R263). -/
def landResp (pour : Bool) (c : Nat) (s : State) : State :=
  let x := chainOf s pour c
  match x.state with
  | .stopped => setChain pour c (adoptResp s pour c x) s
  | .fadingStop => setChain pour c { x with reload := true } s
  | .fadingReload => setChain pour c { x with reload := true, left := if x.reload then x.left else 32 } s
  | _ => setChain pour c { x with state := .fadingReload, left := 32, back := false, reload := true } s

/-- Frames of the 10 ms crossfade of the HPF. -/
def hpfFrames (s : State) : Nat := usFrames s 10000

/-- A new HPF setting starts in a branch of its own; the mixture in force is what it leaves (R275, R44). -/
def landHpf (c : Nat) (corner slope : Nat) (s : State) : State :=
  let x := chainOf s false c
  let one : Nat := 2 ^ 60
  let k := if x.hpfN = 0 then one else one * x.hpfK / x.hpfN
  let old := { x.hpf with w := k } :: (x.hpfOld.map (fun b => { b with w := b.w * (one - k) / one }))
  if x.state = .stopped then setChain false c { x with hpf := ⟨corner, slope, 0, 0⟩, hpfOld := [], hpfK := 0, hpfN := 0 } s
  else setChain false c { x with hpf := ⟨corner, slope, 0, 0⟩, hpfOld := old, hpfK := 0, hpfN := hpfFrames s } s

/-- FILT_CONFIG lands on one chain; a Taster's chain follows the channel it is on (R237, R252): a new response when it comes into
force there, a new HPF at once. -/
def landConfigChain (p : Bytes) (s0 : State) (c : Nat) : State :=
  let pour := u8 p 0 == 1
  let f := u8 p 1
  let g := chainStored s0 pour c
  let newResp := f.testBit 0 && (u8 p 2 != g.resp || u8 p 3 != g.set)
  let newHpf := f.testBit 1 && (u8 p 4 != g.corner || u8 p 5 != g.slope)
  let g1 := if newResp then { g with resp := u8 p 2, set := u8 p 3 } else g
  let g2 := if newHpf then { g1 with corner := u8 p 4, slope := u8 p 5 } else g1
  let s := storeChain pour c g2 s0
  let on (t : Nat) : Bool := !pour && (tasterOfChain s (32 + t)).channel.map Fin.val == some c
  let s1 := if !newResp then s
    else if !pour && !chainRuns s false c && decide (c < 32) then clearTaster c 1 (clearTaster c 0 (landResp pour c s))
    else landResp pour c s
  if !newHpf then s1
  else
    let chains := [c] ++ (if on 0 then [32] else []) ++ (if on 1 then [33] else [])
    restartWindow c (chains.foldl (fun a k => landHpf k (u8 p 4) (u8 p 5) a) s1)

/-- FILT_CONFIG lands. -/
def landFiltConfig (p : Bytes) (s : State) : State := (bitsOf 46 (u64 p 8)).foldl (landConfigChain p) s

/-- FILT_CONFIG (R262). -/
def execFiltConfig (h : Hdr) (p : Bytes) (s : State) : R :=
  opcode .filtConfig h p (landing .filtConfig h p (checkFiltConfig p)) s

/-- FILT_RELOAD_CLEAR (R263, step 2), 32 frames after the commit. -/
def execFiltReloadClear (dt : Nat) (ch : Chain) (s0 : State) : R :=
  let s := advance dt s0
  let pour := chainPour ch
  let c := chainNum ch
  let x := chainOf s pour c
  if x.state = .fadingReload ∧ x.reload = true ∧ x.left = 0 then
    .next (clearAt pour c (setChain pour c (adoptResp s pour c x) s))
  else .next s

/-- A pre-fade of FILT_SYNC mode 1 covers the chain. -/
def inSync (s : State) (pour : Bool) (c : Nat) : Bool :=
  s.filt.syncs.any (fun r => if pour then r.pour.getLsbD c else r.press.getLsbD c)

/-- SETTLING falls on a chain whose settle count ends at the coming tick, and its fade-in begins (R264, R266, R267). A pre-fade of
FILT_SYNC that runs keeps it silent. -/
def settleEnd (pour : Bool) (c : Nat) (s : State) : State :=
  let x := chainOf s pour c
  if x.state = .settling ∧ x.left ≤ 1 then
    setChain pour c { x with state := if inSync s pour c then .fadingReload else .running, left := 0, w := 0,
                             back := false } s
  else s

/-- SETTLING_END (R266, R267). -/
def execSettlingEnd (dt : Nat) (ch : Chain) (s0 : State) : R :=
  .next (settleEnd (chainPour ch) (chainNum ch) (advance dt s0))

/-! ### Synchronising resets (R270, R271) -/

/-- SYNC_IN_EDGE (R270): counted and stamped; the tick that qualifies clears the selection. -/
def execSyncInEdge (dt : Nat) (s0 : State) : R :=
  let s := advance dt s0
  if modeUp s.life.mode then
    .next { s with filt := { s.filt with
      syncInCount := (s.filt.syncInCount + 1) % 4294967296, syncInStamp := s.sysCnt, syncEdge := some s.sysCnt } }
  else .next s

/-- The tick clears the SYNC_IN selection where an edge was recognised 81.4 ns (16.28 counts) before it. The tick's
stamp is 3 counts after the tick (R29). -/
def syncInTick (s : State) : State :=
  match s.filt.syncEdge with
  | none => s
  | some e =>
    if e + 20 ≤ s.sysCnt then
      clearMasks s.cfg.filt.selPress.toNat s.cfg.filt.selPour.toNat { s with filt := { s.filt with syncEdge := none } }
    else s

/-- Checks of FILT_SYNC (R271). -/
def checkFiltSync (h : Hdr) (p : Bytes) (_ : State) : Status :=
  checks
    [ (p.length != 20, .badLength),
      (maskBad false (u64 p 0), .badParam),
      (maskBad true (u64 p 8), .badParam),
      (decide (2 < u8 p 16) || (u8 p 16 == 2 && h.timed.isSome), .badParam),
      (!zeroAt p 17 3, .badParam),
      (u8 p 16 != 2 && u64 p 0 == 0 && u64 p 8 == 0, .badParam) ]

/-- A running chain fades before its clear (R260, state 4). -/
def preFade (pour : Bool) (s : State) (c : Nat) : State :=
  let x := chainOf s pour c
  if x.state = .running then setChain pour c { x with state := .fadingReload, left := 0, back := false } s else s

/-- The reply of FILT_SYNC at its clearing tick, whose number is `n`. -/
def syncReply (h : Hdr) (pre : Bytes) (n : Nat) (s : State) : State :=
  reply (opCode .filtSync) h .ok (pre ++ le 8 n) s

/-- FILT_SYNC lands at the tick of number `n`; `pre` is what precedes its reply's payload. -/
def landFiltSync (h : Hdr) (p pre : Bytes) (n : Nat) (s : State) : State :=
  let a := u64 p 0
  let b := u64 p 8
  if u8 p 16 = 0 then syncReply h pre n (clearMasks a b s)
  else if u8 p 16 = 1 then
    let s1 := (bitsOf 46 b).foldl (preFade true) ((bitsOf 36 a).foldl (preFade false) s)
    { s1 with filt := { s1.filt with syncs := s1.filt.syncs ++ [⟨BitVec.ofNat 36 a, BitVec.ofNat 46 b, h, pre, 32⟩] } }
  else { s with cfg := { s.cfg with filt := { s.cfg.filt with
    selPress := BitVec.ofNat 36 a, selPour := BitVec.ofNat 46 b } } }

/-- FILT_SYNC (R271): modes 0 and 1 reply at the clearing tick. -/
def execFiltSync (h : Hdr) (p : Bytes) (s : State) : R :=
  opcode .filtSync h p (fun s =>
    if h.timed.isNone && u8 p 16 != 2 then
      let st := checkFiltSync h p s
      if st = .ok then .late (prepare .filtSync h p s) else refuse st s
    else landing .filtSync h p (checkFiltSync h p) s) s

/-- FILT_SYNC_CLEAR (R271): 32 frames after a mode 1 FILT_SYNC its chains are cleared and it is answered. -/
def execFiltSyncClear (dt : Nat) (s0 : State) : R :=
  let s := advance dt s0
  match s.filt.syncs with
  | [] => .next s
  | r :: t =>
    if r.left ≠ 0 then .next s
    else
      let s1 := clearMasks r.press.toNat r.pour.toNat { s with filt := { s.filt with syncs := t } }
      .next (syncReply r.hdr r.pre (nextFrame s1) s1)

/-! ### FILT_PHASE (R273) -/

/-- FILT_PHASE: an X field of the chain. -/
def execFiltPhase (h : Hdr) (p : Bytes) (s : State) : R :=
  opcodeN .filtPhase 12 h p (fun s =>
    let pour := u8 p 0 == 1
    let m := u64 p 4
    guardSt (checks
      [ (decide (1 < u8 p 0), .badParam),
        (decide (127 < u8 p 2), .outOfRange),
        (u8 p 3 != 0, .badParam),
        (m == 0 || maskBad pour m, .badParam),
        ((bitsOf 46 m).any (chainRuns s pour), .busy) ]) s
      (done ((bitsOf 46 m).foldl (fun a c =>
        storeChain pour c { chainStored a pour c with coarse := u8 p 1, fine := u8 p 2 } a) s))) s

/-! ### Coefficient loads (R277, R278) -/

/-- Stored words of a set of N taps. -/
def storedWords (sym : Bool) (taps : Nat) : Nat := if sym then ceilDiv taps 2 else taps

/-- Chains that select a set: by their settings, or still by the response in force; a Taster's chain while it is on a channel. -/
def setUsers (s : State) (pour : Bool) (k : Nat) : List Nat :=
  (List.range (chainCount pour)).filter (fun c =>
    let g := chainCfg s pour c
    let x := chainOf s pour c
    let idle := !pour && (c == 32 || c == 33) && (tasterOfChain s c).channel.isNone
    !idle && ((g.resp == 3 && g.set == k) || (x.resp == 3 && x.set == k)))

/-- Writes a set. -/
def storeSet (pour : Bool) (k : Nat) (c : Option CoefSet) (s : State) : State :=
  { s with cfg := { s.cfg with filt := if pour then { s.cfg.filt with pourSets := tset none s.cfg.filt.pourSets k c }
    else { s.cfg.filt with pressSets := tset none s.cfg.filt.pressSets k c } } }

/-- Notes or ends a load. -/
def noteLoad (pour : Bool) (k : Nat) (l : Option CoefLoad) (s : State) : State :=
  { s with filt := { s.filt with loads := tset none s.filt.loads (bit pour * 8 + k) l } }

/-- Single-field checks of FILT_COEF_LOAD (R277). -/
def checkCoefLoad (p : Bytes) : Status :=
  let taps := u16 p 4
  let n := u16 p 8
  checks
    [ (decide (p.length < 16), .badLength),
      (decide (1 < u8 p 0), .badParam),
      (decide (7 < u8 p 1), .outOfRange),
      (decide (3 < u8 p 2), .badParam),
      (u8 p 3 != 0, .badParam),
      (decide (512 < taps), .outOfRange),
      (if taps = 0 then n != 0 else decide (n < 1) || decide (320 < n), .outOfRange),
      (u16 p 10 != 0, .badParam),
      (p.length != 16 + 4 * n, .badLength) ]

/-- Words of a part. -/
def coefWords (p : Bytes) (n : Nat) : List Word := (List.range n).map (fun i => BitVec.ofNat 32 (u32 p (16 + 4 * i)))

/-- A part of a load (R278): `old` holds the words received before it. -/
def coefPart (pour : Bool) (k : Nat) (p : Bytes) (old : List Word) (s : State) : Ans :=
  let sym := u8 p 2 % 2 == 1
  let taps := u16 p 4
  let ws := old ++ coefWords p (u16 p 8)
  let need := storedWords sym taps
  if u8 p 2 / 2 = 1 then
    if ws.length ≠ need then refuse .badParam s
    else if (crc32c (ws.flatMap (fun w => le 4 w.toNat))).toNat ≠ u32 p 12 then
      .reply .crcError [] (poolDrop (.coefSet pour (Fin.ofNat 8 k)) (noteLoad pour k none (storeSet pour k none s)))
    else
      let c : CoefSet := ⟨sym, taps, ws⟩
      let id : BulkId := .coefSet pour (Fin.ofNat 8 k)
      let s1 := noteLoad pour k none (storeSet pour k (some c) s)
      .reply .ok (le 2 (setSettle taps) ++ le 2 taps ++ leI 4 (setDelayQ7 s.clk.fs c)) (poolPut id (64 + 4 * ws.length) s1)
  else if need < ws.length then refuse .badParam s
  else done (poolDrop (.coefSet pour (Fin.ofNat 8 k)) (noteLoad pour k (some ⟨sym, taps, ws⟩) (storeSet pour k none s)))

/-- FILT_COEF_LOAD (R277, R278). -/
def execFiltCoefLoad (h : Hdr) (p : Bytes) (s : State) : R :=
  opcode .filtCoefLoad h p (fun s =>
    guardSt (checkCoefLoad p) s
      (let pour := u8 p 0 == 1
       let k := u8 p 1
       let users := setUsers s pour k
       if u16 p 4 = 0 then
         if !users.isEmpty then refuse .badParam s
         else done (poolDrop (.coefSet pour (Fin.ofNat 8 k)) (noteLoad pour k none (storeSet pour k none s)))
       else if u16 p 6 = 0 then
         if users.any (chainRuns s pour) then refuse .busy s else coefPart pour k p [] s
       else match tget none s.filt.loads (bit pour * 8 + k) with
         | none => refuse .badParam s
         | some l =>
           if l.taps ≠ u16 p 4 ∨ l.symmetric ≠ (u8 p 2 % 2 == 1) ∨ l.words.length ≠ u16 p 6 then refuse .badParam s
           else coefPart pour k p l.words s)) s

/-! ### Status and the expert command (R279, R280) -/

/-- STATE code (R260). -/
def fstateCode : FState → Nat
  | .stopped => 0 | .settling => 1 | .running => 2 | .fadingStop => 3 | .fadingReload => 4

/-- SETTLE_LEFT (R279, R281): 0 when the chain is not settling. -/
def settleLeft (x : FChain) : Nat := if x.state = .settling then x.left else 0

/-- The 12-byte entry of a chain. -/
def filtEntry (s : State) (pour : Bool) (c : Nat) : Bytes :=
  let x := chainOf s pour c
  let g := chainCfg s pour c
  let hpf := if pour then 0 else g.corner + flag 4 (g.slope == 1) + flag 5 (!x.hpfOld.isEmpty)
  le 1 (fstateCode x.state) ++ le 1 x.resp ++ le 1 (if x.resp = 3 then x.set else 0xFF) ++ le 1 hpf ++ le 2 (settleLeft x)
    ++ le 2 (g.coarse * 128 + g.fine) ++ leI 4 (termQ7 s pour c)

/-- The 16-byte entry of a set. -/
def setEntry (s : State) (pour : Bool) (k : Nat) : Bytes :=
  let users := (setUsers s pour k).length
  match coefSet s pour k, tget none s.filt.loads (bit pour * 8 + k) with
  | some c, _ => le 1 2 ++ le 1 (bit c.symmetric) ++ le 2 c.taps ++ le 2 (setSettle c.taps) ++ le 1 users ++ zeros 1
      ++ leI 4 (setDelayQ7 s.clk.fs c) ++ leI 4 (setDcGain pour c)
  | none, some l => le 1 1 ++ le 1 (bit l.symmetric) ++ le 2 l.taps ++ le 2 (setSettle l.taps) ++ le 1 users ++ zeros 9
  | none, none => zeros 6 ++ le 1 users ++ zeros 9

/-- The snapshot of FILT_STATUS. -/
def filtSnapshot (s : State) : Bytes :=
  le 8 s.clk.stamp ++ le 4 s.filt.syncInCount ++ zeros 4
    ++ (List.range 36).flatMap (filtEntry s false) ++ (List.range 46).flatMap (filtEntry s true)
    ++ (List.range 8).flatMap (setEntry s false) ++ (List.range 8).flatMap (setEntry s true)

/-- FILT_STATUS (R279): as the latest tick latched it. -/
def execFiltStatus (h : Hdr) (p : Bytes) (s : State) : R :=
  opcodeN .filtStatus 0 h p (fun s => .reply .ok (filtSnapshot (latchView s)) s) s

/-- Closes every forced gate (R280). -/
def closeGates (s : State) : State :=
  let shut (t : Tab FChain) : Tab FChain := (List.range 46).foldl (fun a c =>
    if (tget ({} : FChain) a c).gateOpen then tset {} a c { tget {} a c with gateOpen := false } else a) t
  { s with filt := { s.filt with press := shut s.filt.press, pour := shut s.filt.pour } }

/-- FILT_EXPERT (R280). -/
def execFiltExpert (h : Hdr) (p : Bytes) (s : State) : R :=
  opcodeN .filtExpert 4 h p (fun s =>
    let pour := u8 p 1 == 1
    let c := u8 p 2
    guardSt (checks
      [ (decide (2 < u8 p 0), .badParam),
        (u8 p 0 != 0 && decide (1 < u8 p 1), .badParam),
        (u8 p 0 != 0 && decide (chainCount pour ≤ c), .outOfRange),
        (u8 p 3 != 0, .badParam),
        (u8 p 0 == 1 && s.life.mode == .maintenance, .wrongMode),
        (u8 p 0 == 2 && s.filt.capture == 1, .busy) ]) s
      (if u8 p 0 = 0 then
         let s1 := closeGates s
         done { s1 with filt := { s1.filt with capture := if s1.filt.capture = 1 then 0 else s1.filt.capture } }
       else if u8 p 0 = 1 then done (setChain pour c { chainOf s pour c with gateOpen := true } s)
       else done { s with filt := { s.filt with capture := 1, captureChain := c, captureDir := pour, captureGot := [] } })) s

/-- Outputs of a chain's programmable FIR, oldest first, join a capture that runs on it (R280). -/
def captureFir (pour : Bool) (c : Nat) (v : List Int) (f : Filt) : Filt :=
  if f.capture = 1 ∧ f.captureChain = c ∧ f.captureDir = pour then { f with captureGot := (f.captureGot ++ v).take 512 } else f

/-- CAPTURE_COMPLETE (R280, R281): 512 outputs stand in the buffer, rounded to Q1.31 and saturated. The outputs
are those the chain gave, not the ones the sender names. -/
def execCaptureComplete (dt : Nat) (_samples : List Word) (s0 : State) : R :=
  let s := advance dt s0
  if s.filt.capture = 1 ∧ s.filt.captureGot.length = 512 then
    .next { s with filt := { s.filt with
      capture := 2, captureGot := []
      captureBuf := s.filt.captureGot.map (fun v => BitVec.ofInt 32 (satS 32 (freeDiv 63 v 64))) } }
  else .next s

/-! ### One frame of the chains (R263, R266, R275) -/

/-- The tick that clears a chain is noted. -/
def stampChain (stamp : Nat) (x : FChain) : FChain := if x.stampDue then { x with stampDue := false, clearStamp := stamp } else x

/-- The crossfade of an HPF setting moves by one frame (R275). -/
def stepHpf (x : FChain) : FChain :=
  if x.hpfOld.isEmpty then x
  else if x.hpfN ≤ x.hpfK + 1 then { x with hpfOld := [], hpfK := 0, hpfN := 0 }
  else { x with hpfK := x.hpfK + 1 }

/-- A chain's weight and count move by one frame: the tick that clears it is the first of its settle count, and the first frame
of a fade takes the first step (R263 to R266). -/
def fadeChain (cleared : Bool) (x : FChain) : FChain :=
  match x.state with
  | .settling => if cleared then x else { x with left := x.left - 1 }
  | .running =>
    let w := min 64 (x.w + if x.back then 2 else 1)
    { x with w := w, back := x.back && decide (w < 64) }
  | .fadingStop | .fadingReload => { x with w := x.w - 2, left := x.left - 1 }
  | .stopped => x

/-- A chain moves by one frame. -/
def stepChain (stamp : Nat) (x : FChain) : FChain := fadeChain x.stampDue (stepHpf (stampChain stamp x))

/-- Every chain moves by one frame. -/
def stepChains (s : State) : State :=
  let go (t : Tab FChain) : Tab FChain := t.foldl (fun a e => tset {} a e.1 (stepChain s.clk.stamp e.2)) []
  { s with filt := { s.filt with
    press := go s.filt.press, pour := go s.filt.pour, syncs := s.filt.syncs.map (fun r => { r with left := r.left - 1 }) } }

/-- One sample through a branch of the HPF; zeros leave it at rest. -/
def hpfBranch (fs : Nat) (b : HpfBranch) (x : Int) : HpfBranch × Int :=
  if b.corner = 0 ∨ (b.st = 0 ∧ x = 0) then (b, x)
  else
    let r := Config.hpf fs b.corner b.slope b.st x
    ({ b with st := r.1 }, r.2)

/-- The mixture of a chain's HPF branches (R275): the old ones by their weights, the new one by the crossfade. -/
def hpfMix (fs : Nat) (x : FChain) (v : Int) : FChain × Int :=
  let (n, y) := hpfBranch fs x.hpf v
  let olds := x.hpfOld.map (fun b => hpfBranch fs b v)
  let o := (olds.map (fun e => e.2 * (e.1.w : Int))).sum
  let mixed := if x.hpfOld.isEmpty then y
    else freeDiv 22 (y * (x.hpfK : Int) * 2 ^ 60 + o * ((x.hpfN : Int) - (x.hpfK : Int))) (2 ^ 60 * x.hpfN)
  ({ x with hpf := n, hpfOld := olds.map Prod.fst }, satS 32 mixed)

end Sys2Proof.Machine
end

