-- ==== Sys2Proof/Machine/Outputs.lean ====
section
/-! DEFINITION. Line, headphone, speaker and hold outputs (chapter 08): their settings, clear codes and CLEAR_N, the hold
outputs' movements, ranges and safe values, load checks, stage temperatures, status and the expert command. -/

namespace Sys2Proof.Machine

/-! ### Moves -/

/-- 1.0 of a crossfade weight. -/
def wOne : Int := 2 ^ 60

/-- Value of a move in its present frame; the manual does not say how it rounds on the way. -/
def moveVal (v : Glide) : Int := if v.k < v.m then v.start + freeDiv 18 ((v.dest - v.start) * (v.k : Int)) v.m else v.dest

/-- The move has arrived. -/
def moveDone (v : Glide) : Bool := decide (v.m ≤ v.k)

/-- A new move from the value in force (R44). -/
def moveTo (v : Glide) (dest : Int) (m : Nat) : Glide := ⟨moveVal v, dest, 0, m⟩

/-- One frame of a move. -/
def stepMove (v : Glide) : Glide := if v.k < v.m then { v with k := v.k + 1 } else v

/-! ### Names of the outputs -/

/-- Handles of the audio outputs: LOUT, HSOUT, SPK. -/
def audioOuts : List Handle :=
  (List.range 32).map (mkHandle 0x81) ++ (List.range 4).map (mkHandle 0x83) ++ (List.range 2).map (mkHandle 0x84)

/-- The output is declared (R59, R61). -/
def outDeclared (s : State) (h : Handle) : Bool :=
  let i := hIndex h
  let b := s.cfg.board
  match hClass h with
  | 0x81 => b.loutWired.getLsbD i
  | 0x82 => (s.outp.safe.getD i {}).declared
  | 0x83 => b.hsWired.getLsbD (i / 2)
  | 0x84 => b.spkWired.getLsbD i
  | _ => false

/-- Settings of a line or headphone output. -/
def outCfg (s : State) (h : Handle) : OutCfg :=
  if hClass h = 0x81 then tget {} s.cfg.outp.lout (hIndex h) else tget {} s.cfg.outp.hs (hIndex h)

/-- The output is enabled. -/
def outEnabled (s : State) (h : Handle) : Bool :=
  if hClass h = 0x84 then (tget {} s.cfg.outp.spk (hIndex h)).enable else (outCfg s h).enable

/-- An output at its driver. -/
def outRt (s : State) (h : Handle) : OutRt := tget {} s.outp.out h.toNat

/-- Writes it. -/
def setOutRt (h : Handle) (x : OutRt) (s : State) : State :=
  { s with outp := { s.outp with out := tset {} s.outp.out h.toNat x } }

/-- Writes the output settings. -/
def withOut (c : OutputCfg) (s : State) : State := { s with cfg := { s.cfg with outp := c } }

/-- CLEAR_N acts on the output (R288). -/
def inClearSel (c : ClearCfg) (h : Handle) : Bool :=
  let i := hIndex h
  match hClass h with
  | 0x81 => c.lout.getLsbD i
  | 0x82 => c.hout.getLsbD i
  | 0x83 => c.hsout.getLsbD i
  | 0x84 => c.spk.getLsbD i
  | _ => false

/-- Stage of an output in OUTPUT_THERMAL: 0 SPK0, 1 SPK1, 2 HS0, 3 HS1 (R312). -/
def stageOf (h : Handle) : Option Nat :=
  if hClass h = 0x84 then some (hIndex h) else if hClass h = 0x83 then some (2 + hIndex h / 2) else none

/-- A stage's temperature. -/
def stageTherm (s : State) (k : Nat) : StageTherm := tget {} s.outp.stage k

/-- Above 135 °C the stage's sinks are muted until its condition releases (R304). -/
def stageMuted (s : State) (k : Nat) : Bool :=
  inForce .outputThermal 0 k s && decide (135000 < (stageTherm s k).temp)

/-- A speaker bridge. -/
def spkRt (s : State) (n : Nat) : SpkRt := tget {} s.outp.spk n
def setSpkRt (n : Nat) (x : SpkRt) (s : State) : State :=
  { s with outp := { s.outp with spk := tset {} s.outp.spk n x } }

/-! ### What an audio output presents (R284, R285) -/

/-- Why the output must stand at its clear code, highest first. -/
def clearWhy (s : State) (h : Handle) : ClearWhy :=
  if s.life.mode == .recovery || anyInForce .thermalTrip s then .mode
  else if s.outp.clearOn && inClearSel s.cfg.outp.clear h then .clearPad
  else if !modeLive s.life.mode then .mode
  else if inForce .outputShort h 0 s then .short
  else .none

/-- Frames of the return from the clear code (R98, R287, R290). -/
def returnFrames (s : State) (why : ClearWhy) : Nat :=
  match why with
  | .clearPad => usFrames s s.cfg.outp.clear.releaseUs
  | .short => 32
  | .mode => max s.mix.fadeN 1
  | .none => usFrames s 2000

/-- Frames of the move to the clear code (R94, R285, R290): 2 ms, or the mute ramp's 32 frames into HOLD and for OUTPUT_SHORT. -/
def leaveFrames (s : State) (why : ClearWhy) : Nat :=
  match why with
  | .short => 32
  | .mode => if s.life.mode == .hold && !anyInForce .thermalTrip s then 32 else usFrames s 2000
  | .clearPad | .none => usFrames s 2000

/-- The move between sink value and clear code at a tick; back by what held the output last. -/
def clearMove (s : State) (h : Handle) (x : OutRt) : OutRt :=
  let why := clearWhy s h
  let x1 := { x with w := stepMove x.w, code := stepMove x.code }
  if why = .none then
    (if x1.w.dest = 0 then x1 else { x1 with w := stepMove (moveTo x.w 0 (returnFrames s x.why)) })
  else if x1.w.dest = wOne then { x1 with why := why }
  else { x1 with why := why, w := stepMove (moveTo x.w wOne (leaveFrames s why)) }

/-- The value that enters the override multiplexer: the sink value and the clear code by their weights (R285). -/
def clearMix (x : OutRt) (v : Int) : Int :=
  let w := moveVal x.w
  if w = 0 then v
  else if w = wOne then moveVal x.code
  else freeDiv 19 (v * (wOne - w) + moveVal x.code * w) (2 ^ 60)

/-! ### OUTPUT_SET and CLEAR_CONFIG -/

/-- Checks of OUTPUT_SET (R289). -/
def checkOutputSet (p : Bytes) (_ : State) : Status :=
  let c := u8 p 0
  let f := u8 p 1
  checks
    [ (p.length != 16, .badLength),
      (c != 0x81 && c != 0x83, .badParam),
      (f == 0 || decide (7 < f) || (f.testBit 2 && c == 0x83), .badParam),
      (f.testBit 0 && decide (1 < u8 p 2), .badParam),
      (f.testBit 2 && decide (1 < u8 p 3), .badParam),
      (u32 p 4 == 0 || (c == 0x83 && decide (15 < u32 p 4)), .badParam),
      (f.testBit 1 && c == 0x83 && u32 p 8 != 0, .outOfRange),
      (u32 p 12 != 0, .badParam) ]

/-- OUTPUT_SET lands on one output. -/
def landOutput (p : Bytes) (s0 : State) (i : Nat) : State :=
  let c := u8 p 0
  let f := u8 p 1
  let h := mkHandle c i
  let o := outCfg s0 h
  let a := if f.testBit 0 then { o with enable := u8 p 2 == 1 } else o
  let b := if f.testBit 1 then { a with clear := i32 p 8 } else a
  let d := if f.testBit 2 then { b with servoHeld := u8 p 3 == 1 } else b
  let k := s0.cfg.outp
  let s := withOut (if c = 0x81 then { k with lout := tset {} k.lout i d } else { k with hs := tset {} k.hs i d }) s0
  if d.clear = o.clear then s
  else
    let x := outRt s h
    setOutRt h { x with code := moveTo x.code d.clear (usFrames s 2000) } s

/-- OUTPUT_SET lands. -/
def landOutputSet (p : Bytes) (s : State) : State := (bitsOf 32 (u32 p 4)).foldl (landOutput p) s

/-- OUTPUT_SET (R289). -/
def execOutputSet (h : Hdr) (p : Bytes) (s : State) : R :=
  opcode .outputSet h p (landing .outputSet h p (checkOutputSet p)) s

/-- Checks of CLEAR_CONFIG (R288). -/
def checkClearConfig (p : Bytes) (_ : State) : Status :=
  checks
    [ (p.length != 12, .badLength),
      (decide (15 < u8 p 5), .badParam),
      (decide (3 < u8 p 6), .badParam),
      (u8 p 7 != 0, .badParam),
      (decide (u32 p 8 < 2000) || decide (10000000 < u32 p 8), .outOfRange) ]

/-- CLEAR_CONFIG lands. -/
def landClearConfig (p : Bytes) (s : State) : State :=
  withOut { s.cfg.outp with clear :=
    { lout := BitVec.ofNat 32 (u32 p 0), hout := BitVec.ofNat 8 (u8 p 4), hsout := BitVec.ofNat 4 (u8 p 5),
      spk := BitVec.ofNat 2 (u8 p 6), releaseUs := u32 p 8 } } s

/-- CLEAR_CONFIG (R288). -/
def execClearConfig (h : Hdr) (p : Bytes) (s : State) : R :=
  opcode .clearConfig h p (landing .clearConfig h p (checkClearConfig p)) s

/-- CLEAR_N_LOW and CLEAR_N_HIGH (R286, R287): the pad; outputs begin their moves at the next tick. -/
def execClearNLow (dt : Nat) (s0 : State) : R :=
  let s := advance dt s0
  .next { s with pads := { s.pads with clearN := false } }

def execClearNHigh (dt : Nat) (s0 : State) : R :=
  let s := advance dt s0
  .next { s with pads := { s.pads with clearN := true } }

/-! ### Hold outputs (R292 to R298) -/

/-- V_mid and half the span of a range, µV (R292). -/
def rangeMid (g : Nat) : Int := if g = 1 then 5000000 else 0
def rangeHalf (g : Nat) : Int := if g = 0 then 10000000 else 5000000

/-- A value lies in a range. -/
def inRange (g : Nat) (v : Int) : Bool := decide (rangeMid g - rangeHalf g ≤ v) && decide (v ≤ rangeMid g + rangeHalf g)

/-- A movement after `us` microseconds at `slew` mV/s. -/
def slewTo (start dest : Int) (slew us : Nat) : Int :=
  let d : Int := ((slew * us / 1000 : Nat) : Int)
  if start ≤ dest then min dest (start + d) else max dest (start - d)

/-- A hold output's controller. -/
def holdRt (s : State) (n : Nat) : HoldRt := tget {} s.outp.hold n

/-- Writes it. -/
def setHoldRt (n : Nat) (x : HoldRt) (s : State) : State :=
  { s with outp := { s.outp with hold := tset {} s.outp.hold n x } }

/-- HOLD_VALUE at a time. -/
def holdValue (r : HoldRt) (now : Nat) : Int :=
  if r.audio then r.audioVal else slewTo r.start r.dest r.slew ((now - r.t0) / 200)

/-- Microseconds since a range change's output reached 0 V, `none` before (R297). -/
def rcUs (r : HoldRt) (now : Nat) : Option Nat :=
  if holdValue r now ≠ 0 then none else some ((now - r.t0) / 200 - ceilDiv (r.start.natAbs * 1000) (max r.slew 1))

/-- Step of the range change a hold output is in (R297), 0 for none. -/
def rcStep (r : HoldRt) (now : Nat) : Nat :=
  if r.rc.isNone then
    (if r.step5 && (if r.audio then decide (r.audioK < r.audioN) else holdValue r now != r.dest) then 5 else 0)
  else if holdValue r now ≠ 0 then 1
  else
    let us := (rcUs r now).getD 0
    if us < 1000 then 2 else if us < 3000 then 3 else 4

/-- The entry of the safe record in use. -/
def safeOf (s : State) (n : Nat) : SafeEntry := s.outp.safe.getD n {}

/-- The safe value is demanded (R295). -/
def safeDemand (s : State) (n : Nat) : Bool :=
  !modeLive s.life.mode || anyInForce .thermalTrip s || (s.outp.clearOn && s.cfg.outp.clear.hout.getLsbD n)

/-- The output must go to 0 V and be clamped: undeclared, no safe record (R111), or under CLAMP_TEST (R314). -/
def holdToZero (s : State) (n : Nat) : Bool :=
  !(safeOf s n).declared || s.outp.safeBad || (holdRt s n).clampTest

/-- A new movement from the present value. -/
def holdMove (now : Nat) (dest : Int) (slew : Nat) (r : HoldRt) : HoldRt :=
  { r with start := holdValue r now, t0 := now, dest := dest, slew := slew, audio := false }

/-- Takes up the value the output is to have: 0 V, the safe value, the DIRECT target, or the sink value in AUDIO mode
over `m` frames. A range change that the operating values need begins when no safe value is demanded (R99). -/
def holdRefresh (m n : Nat) (s : State) : State :=
  let r := holdRt s n
  let c := tget ({} : HoldCfg) s.cfg.outp.hold n
  let e := safeOf s n
  let now := s.sysCnt
  let move (dest : Int) (slew : Nat) : State :=
    if !r.audio && r.dest == dest && r.slew == slew then s else setHoldRt n (holdMove now dest slew r) s
  match r.rc with
  | some g =>
    if safeDemand s n || holdToZero s n || g == c.range || rcStep r now != 1 then s
    else if c.range = r.range then setHoldRt n { r with rc := none, step5 := true } s
    else setHoldRt n { r with rc := some c.range } s
  | none =>
    if holdToZero s n then move 0 e.slew
    else if safeDemand s n then move e.value e.slew
    else if c.range ≠ r.range then setHoldRt n { holdMove now 0 c.slew r with rc := some c.range, step5 := false } s
    else if c.audio then
      if r.audio then s
      else setHoldRt n { r with audio := true, audioFrom := holdValue r now, audioVal := holdValue r now, audioK := 0,
                                audioN := max m 1 } s
    else move c.target c.slew

/-- All hold outputs take up their values. -/
def holdRefreshAll (m : Nat) (s : State) : State := (List.range 8).foldl (fun a n => holdRefresh m n a) s

/-- One frame of a hold output in AUDIO mode (R292, R293, R268): it follows its Pour chain, by the crossfade that runs; from a
clear until 64 frames after SETTLING falls it keeps the value it last drove, then crossfades over 64 frames. -/
def stepHold (s : State) (n : Nat) : State :=
  let r := holdRt s n
  if !r.audio then s
  else
    let x := chainOf s true (32 + n)
    if x.state = .settling || (x.state = .running && !x.back && decide (x.w < 64)) then
      setHoldRt n { r with audioFrom := r.audioVal, audioK := 0, audioN := 64 } s
    else
      let v := rangeMid r.range + freeDiv 67 (x.out * rangeHalf r.range) (2 ^ 37)
      let k := min r.audioN (r.audioK + 1)
      setHoldRt n { r with audioK := k, audioVal := r.audioFrom + freeDiv 68 ((v - r.audioFrom) * (k : Int)) r.audioN } s

/-- Checks of HOLD_SET (R294). -/
def checkHoldSet (p : Bytes) (s : State) : Status :=
  let n := u8 p 0
  let f := u8 p 1
  let c := tget ({} : HoldCfg) s.cfg.outp.hold n
  let g := if f.testBit 1 then u8 p 3 else c.range
  let t := if f.testBit 2 then i32 p 4 else c.target
  checks
    [ (p.length != 16, .badLength),
      (decide (7 < n), .outOfRange),
      (f == 0 || decide (15 < f), .badParam),
      (f.testBit 0 && decide (1 < u8 p 2), .badParam),
      (f.testBit 1 && decide (2 < u8 p 3), .badParam),
      (f.testBit 3 && (decide (u32 p 8 < 1) || decide (10000000 < u32 p 8)), .outOfRange),
      (u32 p 12 != 0, .badParam),
      (!(safeOf s n).declared, .badParam),
      (!inRange g t, .outOfRange),
      (f.testBit 1 && !inRange g (safeOf s n).value, .outOfRange) ]

/-- HOLD_SET lands. -/
def landHoldSet (p : Bytes) (s : State) : State :=
  let n := u8 p 0
  let f := u8 p 1
  let o := tget ({} : HoldCfg) s.cfg.outp.hold n
  let a := if f.testBit 0 then { o with audio := u8 p 2 == 1 } else o
  let b := if f.testBit 1 then { a with range := u8 p 3 } else a
  let c := if f.testBit 2 then { b with target := i32 p 4 } else b
  let d := if f.testBit 3 then { c with slew := u32 p 8 } else c
  holdRefresh 64 n (withOut { s.cfg.outp with hold := tset {} s.cfg.outp.hold n d } s)

/-- HOLD_SET (R294). -/
def execHoldSet (h : Hdr) (p : Bytes) (s : State) : R :=
  opcode .holdSet h p (landing .holdSet h p (checkHoldSet p)) s

/-- Writes the safe record, copy A then copy B (R111), from the values AO holds. -/
def writeSafe (s : State) : State :=
  let k := max s.vint.safeA.seq s.vint.safeB.seq + 1
  { s with vint := { s.vint with safeA := ⟨true, k, s.outp.safe⟩, safeB := ⟨true, k, s.outp.safe⟩ } }

/-- Changes one entry of the safe record. -/
def setSafe (n : Nat) (e : SafeEntry) (s : State) : State :=
  writeSafe { s with outp := { s.outp with safe := lset s.outp.safe n e } }

/-- Checks of HOLD_SAFE_SET (R296). -/
def checkHoldSafeSet (p : Bytes) (s : State) : Status :=
  let n := u8 p 0
  let e := safeOf s n
  let r := holdRt s n
  let v := i32 p 4
  checks
    [ (decide (7 < n), .outOfRange),
      (!zeroAt p 1 3, .badParam),
      (decide (u32 p 8 < 1) || decide (10000000 < u32 p 8), .outOfRange),
      (!e.declared, .badParam),
      (!inRange r.range v || (match r.rc with | some g => !inRange g v | none => false), .outOfRange) ]

/-- HOLD_SAFE_SET lands: the safe record is written, and then the command is answered (R296). -/
def landHoldSafeSet (h : Hdr) (p : Bytes) (s : State) : State :=
  let n := u8 p 0
  let s1 := setSafe n { safeOf s n with value := i32 p 4, slew := u32 p 8 } s
  reply (opCode .holdSafeSet) h .ok [] (holdRefresh 64 n s1)

/-- HOLD_SAFE_SET (R296): it replies when both copies are written. -/
def execHoldSafeSet (h : Hdr) (p : Bytes) (s : State) : R :=
  opcodeN .holdSafeSet 12 h p (fun s =>
    let st := checkHoldSafeSet p s
    if st = .ok then .late (prepare .holdSafeSet h p s) else refuse st s) s

/-- RANGE_CHANGE_COMPLETE (R297), 4 ms after the output has reached 0 V: the safe record takes the new range; a further range asked for meanwhile begins at
step 2, else the output moves to its value. -/
def execRangeChangeComplete (dt : Nat) (n : Fin 8) (s0 : State) : R :=
  let s := advance dt s0
  let r := holdRt s n
  match r.rc with
  | none => .next s
  | some g =>
    if (rcUs r s.sysCnt).getD 0 < 4000 then .next s
    else
      let c := tget ({} : HoldCfg) s.cfg.outp.hold n
      let z : HoldRt :=
        { r with range := g, rc := none, step5 := true, audio := false, start := 0, dest := 0, t0 := s.sysCnt, slew := c.slew }
      let s1 := setSafe n { safeOf s n with range := g } (setHoldRt n z s)
      .next (holdRefresh 64 n s1)

/-- HOLD_SHORT and its release (R298, R312). -/
def execHoldShort (dt : Nat) (n : Fin 8) (s0 : State) : R :=
  let s := advance dt s0
  if (safeOf s n).declared then
    .next (raise .holdShort (mkHandle 0x82 n) 0 0 (setHoldRt n { holdRt s n with ilimit := true } s))
  else .next s

def execHoldShortRelease (dt : Nat) (n : Fin 8) (s0 : State) : R :=
  let s := advance dt s0
  .next (release .holdShort (mkHandle 0x82 n) 0 (setHoldRt n { holdRt s n with ilimit := false } s))

/-! ### Line outputs: shorts and the servo (R290, R291) -/

/-- OUTPUT_SHORT (R290). -/
def execOutputShort (dt : Nat) (n : Fin 32) (legP legM : Bool) (s0 : State) : R :=
  let s := advance dt s0
  let h := mkHandle 0x81 n
  let x := outRt s h
  if x.clamped || !(legP || legM) then .next s
  else .next (raise .outputShort h 0 (BitVec.ofNat 32 (flag 0 legP + flag 1 legM))
    (setOutRt h { x with ilimLive := true, ilimSticky := true, probeAt := s.sysCnt } s))

/-- OUTPUT_SHORT_PROBE (R290), once a second: below 0.2 mA per leg the short is gone. -/
def execOutputShortProbe (dt : Nat) (n : Fin 32) (legMicroamp : Nat) (s0 : State) : R :=
  let s := advance dt s0
  let h := mkHandle 0x81 n
  let x := outRt s h
  if !inForce .outputShort h 0 s || s.sysCnt < x.probeAt + secCounts then .next s
  else if legMicroamp < 200 then .next (release .outputShort h 0 (setOutRt h { x with ilimLive := false } s))
  else .next (setOutRt h { x with probeAt := s.sysCnt } s)

/-- Factory calibration of a leg's servo: leg 0 P, leg 1 M. -/
def servoFactory (n leg : Nat) : Int := clampI (-50000) 50000 (Config.servoFactory n leg)

/-- Correction of a leg in force, µV (R291): within ±50 mV. -/
def servoValue (n leg : Nat) (x : OutRt) : Int := clampI (-50000) 50000 (servoFactory n leg + if leg = 0 then x.servoP else x.servoM)

/-- A correction stands at its limit. -/
def servoAtLimit (n : Nat) (x : OutRt) : Bool :=
  decide (50000 ≤ (servoValue n 0 x).natAbs) || decide (50000 ≤ (servoValue n 1 x).natAbs)

/-- One frame of a line output's servo (R48, R49, R291, R313): a return to the factory value by 1 µV, or a step of at most
1 µV; it holds while the output is clamped, SERVO is 1, or the power-loss ramp runs (R307). -/
def stepServo (s : State) (n : Nat) (x : OutRt) : OutRt :=
  if x.servoReturn then
    let y := { x with servoP := toward 1 0 x.servoP, servoM := toward 1 0 x.servoM }
    { y with servoReturn := y.servoP != 0 || y.servoM != 0 }
  else if x.clamped || (outCfg s (mkHandle 0x81 n)).servoHeld || s.pwr.loss.isSome then x
  else
    let d (leg : Nat) : Int := Config.servoStep n leg x.servoTc.toNat s.sysCnt
    let y := { x with
      servoP := loopStep 50000 1 (servoFactory n 0) x.servoP (d 0), servoM := loopStep 50000 1 (servoFactory n 1) x.servoM (d 1) }
    { y with servoPinned := if servoAtLimit n y then x.servoPinned + 1 else 0 }

/-- SERVO_LIMIT (R291): a correction has stood at its limit for 10 s; no fault, the flag only. -/
def execServoLimit (dt : Nat) (n : Fin 32) (s0 : State) : R :=
  let s := advance dt s0
  let h := mkHandle 0x81 n
  let x := outRt s h
  if x.servoPinned < 10 * fsNow s || !servoAtLimit n x then .next s
  else .next (setOutRt h { x with servoLimit := true } s)

/-! ### Speakers (R301 to R306) -/

/-- Checks of SPEAKER_SET (R303). -/
def checkSpeakerSet (p : Bytes) (s : State) : Status :=
  let m := u8 p 0
  let f := u8 p 1
  checks
    [ (p.length != 12, .badLength),
      (m == 0 || decide (3 < m), .badParam),
      (f == 0 || decide (3 < f), .badParam),
      (f.testBit 0 && decide (1 < u8 p 2), .badParam),
      (u8 p 3 != 0, .badParam),
      (f.testBit 1 && (decide (u32 p 4 < 100) || decide (15000 < u32 p 4)), .outOfRange),
      (u32 p 8 != 0, .badParam),
      ((bitsOf 2 m).any (fun i => !s.cfg.board.spkWired.getLsbD i), .badParam) ]

/-- A load check begins (R305). -/
def startCheck (n : Nat) (s : State) : State := setSpkRt n { spkRt s n with checking := true, checkAt := s.sysCnt } s

/-- The load check of an enable runs from the frame tick of the enable (R305). -/
def checkFromTick (n : Nat) (s : State) : State := setSpkRt n { spkRt s n with checking := true, checkAt := momentOf s } s

/-- A speaker that becomes enabled has its load checked; one that is disabled ends a check (R305). -/
def spkEnable (on was : Bool) (n : Nat) (s : State) : State :=
  let r := spkRt s n
  if on && !was then checkFromTick n s
  else if on then s
  else setSpkRt n { r with checking := false, loadClamp := false } s

/-- SPEAKER_SET lands on one speaker. -/
def landSpk (p : Bytes) (s0 : State) (n : Nat) : State :=
  let f := u8 p 1
  let o := tget ({} : SpkCfg) s0.cfg.outp.spk n
  let a := if f.testBit 0 then { o with enable := u8 p 2 == 1 } else o
  let b := if f.testBit 1 then { a with powerMw := u32 p 4 } else a
  spkEnable b.enable o.enable n (withOut { s0.cfg.outp with spk := tset {} s0.cfg.outp.spk n b } s0)

/-- SPEAKER_SET lands. -/
def landSpeakerSet (p : Bytes) (s : State) : State := (bitsOf 2 (u8 p 0)).foldl (landSpk p) s

/-- SPEAKER_SET (R303). -/
def execSpeakerSet (h : Hdr) (p : Bytes) (s : State) : R :=
  opcode .speakerSet h p (landing .speakerSet h p (checkSpeakerSet p)) s

/-- Declared load of a speaker, mΩ (R59). -/
def spkLoad (s : State) (n : Nat) : Nat := 100 * if n = 0 then s.cfg.board.spk0Load else s.cfg.board.spk1Load

/-- Verdict of a load check (R305): the first row that applies. -/
def loadVerdict (z r : Nat) : Nat :=
  if r < 2000 then 2 else if 50000 < r then 5 else if 2 * r < z then 3 else if 12 * z < 10 * r then 4 else 1

/-- A measured resistance in units of 0.1 Ω, 16 bits; the manual does not say how it is rounded. -/
def tenthOhm (mohm : Nat) : Nat :=
  min 65535 (freeDiv 7 mohm 100).toNat

/-- DETAIL of SPEAKER_LOAD (R312). -/
def loadDetail (result mohm : Nat) : Word := BitVec.ofNat 32 (result + 256 * tenthOhm mohm)

/-- LOAD_CHECK_VERDICT (R305), 61 ms after the check has begun. -/
def execLoadCheckVerdict (dt : Nat) (n : Fin 2) (mohm : Nat) (s0 : State) : R :=
  let s := advance dt s0
  let r := spkRt s n
  if !r.checking || s.sysCnt < r.checkAt + 61 * msCounts then .next s
  else
    let v := loadVerdict (spkLoad s n) mohm
    let bad := v == 2 || v == 3
    let s1 := setSpkRt n { r with checking := false, result := v, mohm := mohm, loadClamp := bad, faultAt := s.sysCnt } s
    let h := mkHandle 0x84 n
    .next (if v = 1 then release .speakerLoad h 0 s1 else raise .speakerLoad h 0 (loadDetail v mohm) s1)

/-- LOAD_CHECK_REPEAT (R305, R306): a speaker that a load fault clamps is checked again every 2 s. -/
def execLoadCheckRepeat (dt : Nat) (n : Fin 2) (s0 : State) : R :=
  let s := advance dt s0
  let r := spkRt s n
  if r.loadClamp && !r.checking && (tget ({} : SpkCfg) s.cfg.outp.spk n).enable && s.cfg.board.spkWired.getLsbD n
      && modeUp s.life.mode && decide (r.faultAt + 2 * secCounts ≤ s.sysCnt) then
    .next (startCheck n s)
  else .next s

/-- The speaker carries signal, or may: enabled and running. -/
def spkCarries (s : State) (n : Nat) : Bool :=
  (tget ({} : SpkCfg) s.cfg.outp.spk n).enable && modeLive s.life.mode && !(spkRt s n).loadClamp && !(spkRt s n).checking
    && s.cfg.board.spkWired.getLsbD n

/-- A sink's gate closes at once. -/
def shutGate (h : Handle) (s : State) : State :=
  { s with mix := { s.mix with sinks := tset {} s.mix.sinks h.toNat { tget {} s.mix.sinks h.toNat with gate := 0 } } }

/-- SPEAKER_SHORT_IN_OPERATION (R306): the bridge stops and clamps at once. -/
def execSpeakerShortInOperation (dt : Nat) (n : Fin 2) (s0 : State) : R :=
  let s := advance dt s0
  if !spkCarries s n then .next s
  else
    let r := spkRt s n
    let h := mkHandle 0x84 n
    let s1 := setSpkRt n
      { r with loadClamp := true, result := 6, limitCount := (r.limitCount + 1) % 4294967296, faultAt := s.sysCnt } s
    let s2 := setOutRt h { outRt s1 h with clamped := true } (shutGate h s1)
    .next (raise .speakerLoad h 0 (loadDetail 6 r.mohm) s2)

/-- Ten times the logarithm of P / 15 W, units of 2^-40 mdB (R301). -/
def powerDb (mw : Nat) : Int := if mw = 15000 then 0 else dbFine (mw * linOne / 15000) / 2

/-- Rated ceiling in force, mW (R302): 15 W with both ports counting, 5 W with one or on a CLM-256X above +85 °C. -/
def ratedMw (s : State) : Nat :=
  if s.pwr.portA.counting && s.pwr.portB.counting && s.pwr.caseCeil = 0 then 15000 else 5000

/-- The ceilings of a speaker that are relative to the rated one, the smallest, mdB. -/
def spkRel (s : State) (n : Nat) : Int :=
  min (min s.pwr.spkCeil s.flt.th.warnCeiling) (stageTherm s n).ceil

/-- Threshold a sink's ceiling puts on its limiter (R300, R302), units of 2^-40 mdB; 0 for none. -/
def sinkCeiling (s : State) (h : Handle) : Int :=
  let n := hIndex h
  if hClass h = 0x84 then
    let user := (tget ({} : SpkCfg) s.cfg.outp.spk n).powerMw
    min (powerDb user) (powerDb (ratedMw s) + spkRel s n * mdbFine)
  else if hClass h = 0x83 then min s.pwr.hsLevel (stageTherm s (2 + n / 2)).ceil * mdbFine
  else 0

/-- The ceiling relative to the rated one, mdB (R311, R314). -/
def ceilingRel (s : State) (h : Handle) : Int :=
  if hClass h = 0x84 then
    let user := wholeMdb 6 (powerDb (tget ({} : SpkCfg) s.cfg.outp.spk (hIndex h)).powerMw - powerDb (ratedMw s))
    min (min user 0) (spkRel s (hIndex h))
  else min s.pwr.hsLevel (stageTherm s (2 + hIndex h / 2)).ceil

/-- Writes a stage's temperature. -/
def setStage (k : Nat) (x : StageTherm) (s : State) : State :=
  { s with outp := { s.outp with stage := tset {} s.outp.stage k x } }

/-- OUTPUT_THERMAL (R304): a stage's sensor reads above 120 °C, or above 135 °C. -/
def execOutputThermal (dt : Nat) (stage : Fin 4) (tempMc : Int) (s0 : State) : R :=
  let s := advance dt s0
  let x := { stageTherm s stage with
    cool := if tempMc < 110000 then some ((stageTherm s stage).cool.getD s.sysCnt) else none }
  if 120000 < tempMc then
    .next (raise .outputThermal 0 stage (BitVec.ofNat 32 stage)
      (setStage stage { x with temp := tempMc, at_ := if inForce .outputThermal 0 stage s then x.at_ else s.sysCnt } s))
  else .next (setStage stage { x with temp := tempMc } s)

/-- OUTPUT_THERMAL_RELEASE (R304): the stage has read below 110 °C for 10 s. -/
def execOutputThermalRelease (dt : Nat) (stage : Fin 4) (s0 : State) : R :=
  let s := advance dt s0
  let x := stageTherm s stage
  match x.cool with
  | some t =>
    if inForce .outputThermal 0 stage s && decide (t + 10 * secCounts ≤ s.sysCnt) then
      .next (release .outputThermal 0 stage (setStage stage { x with at_ := s.sysCnt } s))
    else .next s
  | none => .next s

/-- A stage's ceiling moves (R304): 1 dB down every 100 ms above 120 °C, to −20 dB; 1 dB up every 2 s once released. -/
def stepStage (s : State) (k : Nat) : State :=
  let x := stageTherm s k
  if inForce .outputThermal 0 k s then
    if 120000 < x.temp ∧ x.at_ + 100 * msCounts ≤ s.sysCnt then
      setStage k { x with ceil := max (-20000) (x.ceil - 1000), at_ := s.sysCnt } s
    else s
  else if x.ceil < 0 ∧ x.at_ + 2 * secCounts ≤ s.sysCnt then
    setStage k { x with ceil := min 0 (x.ceil + 1000), at_ := s.sysCnt } s
  else s

/-! ### Status (R311) -/

/-- Quantities `Config.measure` is asked for. -/
def qLineDc : Nat := 1
def qHoldMeas : Nat := 4
def qHoldCurrent : Nat := 5
def qPeakMa : Nat := 6
def qDcErrP : Nat := 7
def qDcErrM : Nat := 8
def qHsSide : Nat := 9
def qCalGain : Nat := 10
def qCalOffset : Nat := 11

/-- Step 3 of the power-loss sequence is over (R80, R283). -/
def lossClamped (s : State) : Bool := match s.pwr.loss with
  | some t => decide (t + 2 * msCounts ≤ s.sysCnt)
  | none => false

/-- The hold output's clamp is engaged (R283, R297). -/
def holdClamped (s : State) (n : Nat) : Bool :=
  let r := holdRt s n
  let st := rcStep r s.sysCnt
  s.life.mode == .off || lossClamped s || (2 ≤ st && st ≤ 4) || (holdToZero s n && holdValue r s.sysCnt == 0)

/-- The hold output stands at its safe value because it is demanded. -/
def holdAtSafe (s : State) (n : Nat) : Bool :=
  (safeOf s n).declared && safeDemand s n && holdValue (holdRt s n) s.sysCnt == (safeOf s n).value

/-- Some condition acts on the output. -/
def outFault (s : State) (h : Handle) : Bool :=
  s.flt.active.any (fun c => c.object == h
    || (c.code == .outputThermal && (match stageOf h with | some k => k == c.index | none => false)))

/-- FLAGS of an output. -/
def outFlags (s : State) (h : Handle) : Nat :=
  let n := hIndex h
  let c := hClass h
  let x := outRt s h
  let r := holdRt s n
  let hold := c == 0x82
  let clamped := if hold then holdClamped s n else x.clamped
  let th := match stageOf h with | some k => (stageTherm s k).ceil | none => 0
  flag 0 (outDeclared s h) + flag 1 (!clamped) + flag 2 clamped
    + flag 3 (!hold && x.w.dest == wOne && moveDone x.w)
    + flag 4 (if hold then r.ilimit else x.ilimLive) + flag 5 x.ilimSticky + flag 6 (outFault s h)
    + flag 7 x.servoLimit + flag 8 (c == 0x81 && (x.clamped || (outCfg s h).servoHeld || x.servoReturn || s.pwr.loss.isSome))
    + flag 9 (hold && rcStep r s.sysCnt != 0) + flag 10 (hold && holdAtSafe s n)
    + flag 11 (hold && !r.audio && holdValue r s.sysCnt != r.dest)
    + flag 12 ((c == 0x84 && decide (s.pwr.spkCeil < 0)) || (c == 0x83 && decide (s.pwr.hsLevel < 0)))
    + flag 13 (decide (th < 0) || (c == 0x84 && decide (s.flt.th.warnCeiling < 0)))
    + flag 14 (c == 0x84 && (spkRt s n).checking)

/-- The larger of two signed corrections, by magnitude. -/
def largerMag (a b : Int) : Int := if a.natAbs < b.natAbs then b else a

/-- The 16-byte entry of an output. -/
def outEntry (s : State) (h : Handle) : Bytes :=
  let n := hIndex h
  let c := hClass h
  let r := holdRt s n
  let t := s.sysCnt
  let value : Int := if c = 0x81 then Config.measure qLineDc n t else if c = 0x82 then Config.measure qHoldMeas n t
    else if c = 0x84 then ((spkRt s n).mohm : Int) else 0
  let value2 : Int := if c = 0x81 then largerMag (servoValue n 0 (outRt s h)) (servoValue n 1 (outRt s h))
    else if c = 0x82 then (tget ({} : HoldCfg) s.cfg.outp.hold n).target else ceilingRel s h
  let st := if c = 0x82 then r.range + flag 2 r.audio + 8 * rcStep r t else if c = 0x84 then (spkRt s n).result else 0
  le 2 h.toNat ++ le 2 (outFlags s h) ++ leI 4 value ++ leI 4 value2 ++ le 1 st ++ zeros 1
    ++ le 2 (tget 0 s.outp.peaks h.toNat)

/-- Every output in the order of OUTPUT_STATUS. -/
def allOuts : List Handle :=
  (List.range 32).map (mkHandle 0x81) ++ (List.range 8).map (mkHandle 0x82) ++ (List.range 4).map (mkHandle 0x83)
    ++ (List.range 2).map (mkHandle 0x84)

/-- An output of the selection is in its release fade (R311). -/
def releaseRuns (s : State) : Bool :=
  !s.outp.clearOn && allOuts.any (fun h => inClearSel s.cfg.outp.clear h &&
    (if hClass h = 0x82 then
       let r := holdRt s (hIndex h)
       r.releasing && (if r.audio then decide (r.audioK < r.audioN) else holdValue r s.sysCnt != r.dest)
     else (outRt s h).why == .clearPad && (outRt s h).w.dest == 0 && !moveDone (outRt s h).w))

/-- The current of an output that is driven adds to its peak (R311), mA. -/
def stepPeak (s : State) (h : Handle) : State :=
  let clamped := if hClass h = 0x82 then holdClamped s (hIndex h) else (outRt s h).clamped
  if clamped then s
  else
    let a := (clampI 0 65535 (Config.measure qPeakMa h.toNat s.sysCnt)).toNat
    { s with outp := { s.outp with peaks := tset 0 s.outp.peaks h.toNat (max a (tget 0 s.outp.peaks h.toNat)) } }

/-- CLEAR (R170, R311): sticky flags and peak currents that a snapshot has shown begin anew; what has come since its tick stays. -/
def clearOutFlags (shown live : Outp) : Outp :=
  { live with
    out := live.out.foldl (fun a e =>
      tset {} a e.1 { e.2 with ilimSticky := e.2.ilimSticky && !(tget {} shown.out e.1).ilimSticky }) live.out
    peaks := live.peaks.filter (fun e => e.2 != tget 0 shown.peaks e.1) }

/-- The snapshot of OUTPUT_STATUS. -/
def outputSnapshot (s : State) : Bytes :=
  le 8 s.clk.stamp ++ le 1 (flag 0 (!s.pads.clearN) + flag 1 s.outp.clearOn + flag 2 (releaseRuns s)) ++ zeros 7
    ++ allOuts.flatMap (outEntry s)

/-- OUTPUT_STATUS (R311): as the latest tick latched it. -/
def execOutputStatus (h : Hdr) (p : Bytes) (s : State) : R :=
  opcodeN .outputStatus 4 h p (fun s =>
    if 1 < u8 p 0 || !zeroAt p 1 3 then refuse .badParam s
    else
      let v := latchView s
      .reply .ok (outputSnapshot v)
        (if u8 p 0 = 1 then
           { s with outp := clearOutFlags v.outp s.outp, latch := { s.latch with outp := clearOutFlags v.outp s.latch.outp } }
         else s)) s

/-- OUTPUT_EXPERT (R313). -/
def execOutputExpert (h : Hdr) (p : Bytes) (s : State) : R :=
  opcodeN .outputExpert 4 h p (fun s =>
    let a := u8 p 0
    let n := u8 p 1
    let free := !(tget ({} : SpkCfg) s.cfg.outp.spk n).enable || clockStopped s || (spkRt s n).loadClamp
    guardSt (checks
      [ (decide (2 < a), .badParam),
        ((a == 1 && decide (1 < n)) || (a == 2 && decide (31 < n)), .outOfRange),
        (u16 p 2 != 0, .badParam),
        (a == 1 && !s.cfg.board.spkWired.getLsbD n, .badParam),
        (a == 1 && !free, .busy) ]) s
      (if a = 0 then done { s with outp := { s.outp with
           out := s.outp.out.foldl (fun t e => tset {} t e.1 { e.2 with servoTc := 0 }) []
           hold := s.outp.hold.foldl (fun t e => tset {} t e.1 { e.2 with clampTest := false }) [] } }
       else if a = 1 then done (startCheck n s)
       else
         let x := outRt s (mkHandle 0x81 n)
         done (setOutRt (mkHandle 0x81 n) { x with servoReturn := true, servoLimit := false, servoPinned := 0 } s))) s

end Sys2Proof.Machine
end

