-- ==== Sys2Proof/Machine/Ports.lean ====
section
/-! DEFINITION. TDM and AES3 ports (chapter 12): settings, start and stop, received frames and their presentation, channel
status, transmitted frames, stamps and status. -/

namespace Sys2Proof.Machine

/-! ### Names -/

/-- Key of a port in the state, and of its input monitor: TDM p, AES3 receiver 4 + x; transmitters are 8 + x. -/
def portKey : PortId → Nat
  | .tdm p => p
  | .aesIn x => 4 + x
  | .aesOut x => 8 + x

/-- A port as it runs. -/
def portRt (s : State) (k : Nat) : PortRt := tget {} s.port k
def setPort (k : Nat) (x : PortRt) (s : State) : State := { s with port := tset {} s.port k x }

/-- Settings of the ports. -/
def tdmCfg (s : State) (p : Nat) : TdmCfg := tget {} s.cfg.port.tdm p
def rxCfg (s : State) (x : Nat) : AesRxCfg := tget {} s.cfg.port.rx x
def txCfg (s : State) (x : Nat) : AesTxCfg := tget {} s.cfg.port.tx x
def withPorts (c : PortCfg) (s : State) : State := { s with cfg := { s.cfg with port := c } }

/-- The port runs in the sense of its X fields (R46). -/
def portRuns (s : State) (k : Nat) : Bool := (portRt s k).state != .stopped

/-- Key of a Decant target: kind of R207 × 64 + index. -/
def decantKey : DecantTarget → Nat
  | .tdmIn p => 64 + p
  | .tdmOut p => 128 + p
  | .aesIn x => 192 + x
  | .aesOut x => 256 + x
  | .streamRx i => 320 + i
  | .streamTx i => 384 + i

/-- A Decant target is assigned (R207). -/
def isDecant (c : DecantCfg) (key : Nat) : Bool :=
  let i := key % 64
  match key / 64 with
  | 1 => c.tdmIn.getLsbD i
  | 2 => c.tdmOut.getLsbD i
  | 3 => c.aesIn.getLsbD i
  | 4 => c.aesOut.getLsbD i
  | 5 => c.streamRx.getLsbD i
  | 6 => c.streamTx.getLsbD i
  | _ => false

/-- Decant's lock on a target. -/
def decantLocked (s : State) (key : Nat) : Bool := (tget {} s.clk.decant key).locked

/-- Decant key of a port's receive direction, and of its transmit direction. -/
def rxDecant (k : Nat) : Nat := if k < 4 then 64 + k else 192 + (k - 4)
def txDecant (k : Nat) : Nat := if k < 4 then 128 + k else 256 + (k - 8)

/-- First source and first sink of a port. -/
def portSrc0 (k : Nat) : Handle := if k < 4 then mkHandle 0x03 (32 * k) else mkHandle 0x04 (2 * (k - 4))
def portSink0 (k : Nat) : Handle := if k < 4 then mkHandle 0x85 (32 * k) else mkHandle 0x86 (2 * (k - 8))

/-- TARGET of PORT_STAMP for a port's receive and transmit directions. -/
def rxTarget (k : Nat) : Nat := if k < 4 then 1 else 3
def txTarget (k : Nat) : Nat := if k < 4 then 2 else 4

/-- Index of a port within its kind. -/
def portIdxOf (k : Nat) : Nat := k % 4

/-- DETAIL of a port fault (R419). -/
def portDetail (target k reason : Nat) : Word := BitVec.ofNat 32 (portIdxOf k + 256 * target + 65536 * reason)

/-- The port follows its own audio master clock: a master, or a transmitter with TX_CLOCK 0. -/
def portMaster (s : State) (k : Nat) : Bool :=
  if k < 4 then (tdmCfg s k).master else if k < 8 then false else (txCfg s (k - 8)).txClock == 0

/-! ### Block stamps and measured rates (R210, R417) -/

/-- Rate over the last block, mHz: 8 frames over the time between two stamps, rounded in a way the manual leaves open
where it is not below one half. -/
def stampRate (b : BlockStamp) : Nat :=
  let d := b.stamp - b.prev
  if b.prev = 0 || d = 0 then 0
  else 1600000000000 / d + (if 2 * (1600000000000 % d) < d then 0 else bit (Config.roundUp 13 d))

/-! ### TDM_SET (R396, R399) -/

/-- The fields of a TDM_SET payload over the run state `run`. -/
def tdmOf (p : Bytes) (run : Bool) : TdmCfg :=
  let f := u8 p 3
  { format := u8 p 1, master := u8 p 2 == 1, bclkPol := f.testBit 0, lrckPol := f.testBit 1, unusedHiz := f.testBit 2,
    slots := u8 p 4, width := u8 p 5, word := u8 p 6, offset := u8 p 7, frameBclks := u16 p 8, group := u8 p 10,
    rx := BitVec.ofNat 32 (u32 p 12), tx := BitVec.ofNat 32 (u32 p 16), run := run }

/-- The configuration breaks R396 at a rate; `decant` for a slave whose rate is whatever arrives. -/
def tdmBad (c : TdmCfg) (fs : Nat) (decant : Bool) : Bool :=
  let two := decide (c.format ≤ 1)
  (two && c.slots != 2)
    || decide (c.width < c.word)
    || (!two && decide (c.frameBclks < c.slots * c.width))
    || (two && (c.frameBclks % 2 != 0 || decide (c.frameBclks / 2 < c.width + c.offset)))
    || decide (c.width * c.slots ≤ c.offset) || decide (c.frameBclks ≤ c.offset)
    || (c.master && !(c.frameBclks == 32 || c.frameBclks == 64 || c.frameBclks == 128 || c.frameBclks == 256
        || c.frameBclks == 512 || c.frameBclks == 1024))
    || (c.master && decide (49152000 < c.frameBclks * fs))
    || (!c.master && (decide (c.frameBclks < 32) || decide (2048 < c.frameBclks)))
    || (!c.master && !decant && decide (50000000 < c.frameBclks * fs))

/-- Number of bits set in a word. -/
def popCount (w : Word) : Nat := (bitsOf 32 w.toNat).length

/-- Channels a Decant target is charged (R207). -/
def decantCharge (s : State) (key : Nat) : Nat :=
  let i := key % 64
  match key / 64 with
  | 1 => popCount (tdmCfg s i).rx
  | 2 => popCount (tdmCfg s i).tx
  | 3 | 4 => 2
  | 5 => (tget {} s.cfg.net.rx i).channels
  | 6 => (tget {} s.cfg.net.tx i).channels
  | _ => 0

/-- Every Decant target's key. -/
def decantKeys : List Nat :=
  (List.range 4).map (64 + ·) ++ (List.range 4).map (128 + ·) ++ (List.range 4).map (192 + ·)
    ++ (List.range 4).map (256 + ·) ++ (List.range 64).map (320 + ·) ++ (List.range 64).map (384 + ·)

/-- Decant channels in use. -/
def decantUsed (s : State) : Nat :=
  ((decantKeys.filter (isDecant s.cfg.clock.decant)).map (decantCharge s)).sum

/-- Receive keys of the members of a port group but one: TDM inputs and AES3 receivers. -/
def portGroupOthers (s : State) (g self : Nat) : List Nat :=
  (List.range 8).filter (fun k => k != self && g != 0xFF
    && (if k < 4 then (tdmCfg s k).group else (rxCfg s (k - 4)).group) == g)

/-- R212 refuses membership of a port in group `g`: the group's kind, or another member's Decant assignment. -/
def portGroupBad (s : State) (g self : Nat) : Bool :=
  g != 0xFF && ((tget {} s.cfg.clock.align g).kind != 2
    || (portGroupOthers s g self).any (fun k =>
        isDecant s.cfg.clock.decant (rxDecant k) != isDecant s.cfg.clock.decant (rxDecant self)))

/-- An ALIGN_GROUP field is out of range. -/
def groupRange (g : Nat) : Bool := decide (15 < g) && g != 0xFF

/-- Checks of TDM_SET. -/
def checkTdmSet (p : Bytes) (s : State) : Status :=
  let k := u8 p 0
  let c := tdmOf p false
  let d := s.cfg.clock.decant
  let limit := 2 ^ min c.slots 32
  let after : State := withPorts { s.cfg.port with tdm := tset {} s.cfg.port.tdm k c } s
  checks
    [ (decide (3 < k), .outOfRange),
      (decide (3 < u8 p 1), .badParam),
      (portRuns s k, .busy),
      (decide (1 < u8 p 2), .badParam),
      (decide (7 < u8 p 3), .badParam),
      (decide (c.slots < 1) || decide (32 < c.slots), .outOfRange),
      (decide (c.width < 16) || decide (32 < c.width), .outOfRange),
      (!(c.word == 16 || c.word == 20 || c.word == 24 || c.word == 32), .outOfRange),
      (decide (63 < c.offset), .outOfRange),
      (groupRange c.group, .outOfRange),
      (u8 p 11 != 0, .badParam),
      (u32 p 20 != 0, .badParam),
      (!s.cfg.board.tdmWired.getLsbD k || tdmBad c (fsNow s) (d.tdmIn.getLsbD k || d.tdmOut.getLsbD k)
        || (c.master && (d.tdmIn.getLsbD k || d.tdmOut.getLsbD k
          || s.cfg.clock.refs.entries.any (fun e => e.kind == 4 && e.index == k)))
        || decide (limit ≤ c.rx.toNat) || decide (limit ≤ c.tx.toNat) || portGroupBad s c.group k, .badParam),
      (decide (320 < decantUsed after) && decide (decantUsed s < decantUsed after), .noResource) ]

/-- TDM_SET (R399). -/
def execTdmSet (h : Hdr) (p : Bytes) (s : State) : R :=
  opcodeN .tdmSet 24 h p (fun s =>
    guardSt (checkTdmSet p s) s
      (done (withPorts { s.cfg.port with
        tdm := tset {} s.cfg.port.tdm (u8 p 0) (tdmOf p (tdmCfg s (u8 p 0)).run) } s))) s

/-! ### AES_SET, AES_CS_SET (R407, R408) -/

/-- Rates of the synthesiser. -/
def synthRateOk (r : Nat) : Bool :=
  r == 32000 || r == 44100 || r == 48000 || r == 88200 || r == 96000 || r == 176400 || r == 192000

/-- Checks of AES_SET. -/
def checkAesSet (p : Bytes) (s : State) : Status :=
  let tx := u8 p 0 == 1
  let x := u8 p 1
  let k := if tx then 8 + x else 4 + x
  let wired := if tx then s.cfg.board.aesWired.getLsbD (4 + x) else s.cfg.board.aesWired.getLsbD x
  let rate := u32 p 8
  let o := rxCfg s x
  let t := txCfg s x
  let runs := portRuns s k
  checks
    [ (decide (1 < u8 p 0), .badParam),
      (decide (3 < x), .outOfRange),
      (if tx then u8 p 2 != 0 else decide (2 < u8 p 2), .badParam),
      (decide ((if tx then 1 else 2) < u8 p 3), .badParam),
      (runs && u8 p 3 != (if tx then t.word else o.word), .busy),
      (if tx then decide (5 < u8 p 4) else u8 p 4 != 0, .badParam),
      (runs && tx && u8 p 4 != t.txClock, .busy),
      (if tx then u8 p 5 != 0xFF else false, .badParam),
      (!tx && groupRange (u8 p 5), .outOfRange),
      (runs && !tx && u8 p 5 != o.group, .busy),
      (u16 p 6 != 0, .badParam),
      (!tx && rate != 0, .badParam),
      (tx && !synthRateOk rate, .outOfRange),
      (runs && tx && rate != t.synthRate, .busy),
      (u32 p 12 != 0, .badParam),
      (!wired || (!tx && portGroupBad s (u8 p 5) (4 + x))
        || (tx && u8 p 4 == 0 && s.cfg.clock.decant.aesOut.getLsbD x), .badParam) ]

/-- The fields of an AES_SET that a stopped block takes at once: all but VALIDITY. -/
def aesStopped (p : Bytes) (s : State) : State :=
  let x := u8 p 1
  let c := s.cfg.port
  if u8 p 0 = 0 then
    withPorts { c with rx := tset {} c.rx x { rxCfg s x with word := u8 p 3, group := u8 p 5 } } s
  else
    withPorts { c with tx := tset {} c.tx x { txCfg s x with word := u8 p 3, txClock := u8 p 4, synthRate := u32 p 8 } } s

/-- VALIDITY of an AES_SET lands. -/
def landAesSet (p : Bytes) (s : State) : State :=
  let x := u8 p 1
  if u8 p 0 = 0 then
    withPorts { s.cfg.port with rx := tset {} s.cfg.port.rx x { rxCfg s x with validity := u8 p 2 } } s
  else s

/-- AES_SET (R407). -/
def execAesSet (h : Hdr) (p : Bytes) (s : State) : R :=
  opcodeN .aesSet 16 h p (landLive .aesSet h p (checkAesSet p) (aesStopped p)) s

/-- Checks of AES_CS_SET (R408). -/
def checkAesCsSet (p : Bytes) (s : State) : Status :=
  checks
    [ (p.length != 28, .badLength),
      (decide (3 < u8 p 0), .outOfRange),
      (u8 p 1 == 0 || decide (3 < u8 p 1), .badParam),
      (u16 p 2 != 0, .badParam),
      (!s.cfg.board.aesWired.getLsbD (4 + u8 p 0), .badParam) ]

/-- AES_CS_SET lands: the table waits for the next block start. -/
def landAesCsSet (p : Bytes) (s : State) : State :=
  let x := u8 p 0
  let t := (p.drop 4).take 24
  let c := txCfg s x
  let a := if (u8 p 1).testBit 0 then { c with csA := t } else c
  let b := if (u8 p 1).testBit 1 then { a with csB := t } else a
  withPorts { s.cfg.port with tx := tset {} s.cfg.port.tx x b } s

/-- AES_CS_SET (R408). -/
def execAesCsSet (h : Hdr) (p : Bytes) (s : State) : R :=
  opcode .aesCsSet h p (landing .aesCsSet h p (checkAesCsSet p)) s

/-! ### The CRCC (R403) -/

/-- One bit of the CRCC. -/
def crccBit (crc : Nat) (b : Bool) : Nat :=
  let fb := (crc % 2 == 1) != b
  if fb then (crc / 2) ^^^ 0xB8 else crc / 2

/-- CRCC over bytes, least significant bits first. -/
def crcc (l : Bytes) : Nat :=
  l.foldl (fun c x => (List.range 8).foldl (fun a i => crccBit a (x.getLsbD i)) c) 0xFF

/-- A table as it is sent (R406): byte 23 is the CRCC in professional format. -/
def csSent (t : Bytes) : Bytes :=
  if (t.getD 0 0).getLsbD 0 then t.take 23 ++ [BitVec.ofNat 8 (crcc (t.take 23))] else t

/-! ### PORT_START and PORT_STOP (R410 to R412) -/

/-- Ports a payload addresses, as keys. -/
def portMask (p : Bytes) : List Nat :=
  bitsOf 4 (u8 p 0) ++ (bitsOf 4 (u8 p 1)).map (4 + ·) ++ (bitsOf 4 (u8 p 2)).map (8 + ·)

/-- The port is declared. -/
def portDeclared (s : State) (k : Nat) : Bool :=
  if k < 4 then s.cfg.board.tdmWired.getLsbD k else s.cfg.board.aesWired.getLsbD (k - 4)

/-- PORT_START refuses a port that is stopped: R396 at the rate in force, or the transmitter conditions of R405. -/
def startBad (s : State) (starting : List Nat) (k : Nat) : Bool :=
  let d := s.cfg.clock.decant
  if k < 4 then tdmBad (tdmCfg s k) (fsNow s) (d.tdmIn.getLsbD k || d.tdmOut.getLsbD k)
  else if k < 8 then false
  else
    let c := (txCfg s (k - 8)).txClock
    (c == 5 && !d.aesOut.getLsbD (k - 8))
      || (decide (1 ≤ c) && decide (c ≤ 4) && !portRuns s (3 + c) && !starting.contains (3 + c))

/-- Checks of PORT_START and PORT_STOP. -/
def checkPorts (start : Bool) (p : Bytes) (s : State) : Status :=
  let l := portMask p
  checks
    [ (p.length != 4, .badLength),
      (decide (15 < u8 p 0), .badParam),
      (decide (15 < u8 p 1), .badParam),
      (decide (15 < u8 p 2), .badParam),
      (u8 p 3 != 0, .badParam),
      (l.any (fun k => !portDeclared s k), .badParam),
      (start && l.any (fun k => !portRuns s k && startBad s l k), .badParam) ]

/-- Records the run state of a port. -/
def storeRun (k : Nat) (on : Bool) (s : State) : State :=
  let c := s.cfg.port
  if k < 4 then withPorts { c with tdm := tset {} c.tdm k { tdmCfg s k with run := on } } s
  else if k < 8 then withPorts { c with rx := tset {} c.rx (k - 4) { rxCfg s (k - 4) with run := on } } s
  else withPorts { c with tx := tset {} c.tx (k - 8) { txCfg s (k - 8) with run := on } } s

/-- The monitor of a port's input clock starts (R197). -/
def startMonitor (k : Nat) (s : State) : State :=
  if k < 8 then { s with clk := { s.clk with monitors := tset {} s.clk.monitors k {} } } else s

/-- Step 1 of a start (R411). -/
def beginPort (k : Nat) (s : State) : State :=
  let x := portRt s k
  let tc := txCfg s (k - 8)
  let y : PortRt :=
    { state := .starting, csA := tc.csA, csB := tc.csB, rxUnder := x.rxUnder, rxOver := x.rxOver,
      txUnder := x.txUnder, txOver := x.txOver, glitches := x.glitches, parityCount := x.parityCount,
      csCrcCount := x.csCrcCount, biphase := x.biphase, vSent := x.vSent, loopback := x.loopback }
  startMonitor k (setPort k y s)

/-- A start lands on a port. -/
def landStart (s0 : State) (k : Nat) : State :=
  let s := storeRun k true s0
  let x := portRt s k
  match x.state with
  | .stopped => beginPort k s
  | .stopping => setPort k { x with state := if x.presented then .running else .starting, silentAt := none } s
  | _ => s

/-- A stop lands on a port; the active reference is lost with it, without a fault. -/
def landStop (s0 : State) (k : Nat) : State :=
  let s := storeRun k false s0
  let x := portRt s k
  match x.state with
  | .stopped | .stopping => s
  | _ =>
    let s1 := setPort k { x with state := .stopping, silentAt := none } s
    if k < 8 then disqualify (monitorRef k) s1 else s1

/-- PORT_START and PORT_STOP land. -/
def landPortStart (p : Bytes) (s : State) : State := (portMask p).foldl landStart s
def landPortStop (p : Bytes) (s : State) : State := (portMask p).foldl landStop s

/-- PORT_START (R410). -/
def execPortStart (h : Hdr) (p : Bytes) (s : State) : R :=
  opcode .portStart h p (landing .portStart h p (checkPorts true p)) s

/-- PORT_STOP (R410). -/
def execPortStop (h : Hdr) (p : Bytes) (s : State) : R :=
  opcode .portStop h p (landing .portStop h p (checkPorts false p)) s

/-- `n` whole frames of fs_int have passed since SYSCNT `t`. -/
def framesSince (s : State) (n t : Nat) : Bool := decide (n * 200000000 ≤ fsNow s * (s.sysCnt - t))

/-- Step 3 of a start is reached (R411): a master's first frame is complete; the clock of a synchronous port has given 64 frames
without a glitch; Decant has locked each direction it is assigned to. A transmitter takes the clock of its receiver. -/
def startDone (s : State) (k : Nat) : Bool :=
  let clean (i : Nat) : Bool := let m := tget ({} : Monitor) s.clk.monitors i; !m.lost && decide (64 ≤ m.good)
  let dec (key : Nat) : Bool := isDecant s.cfg.clock.decant key
  let x := portRt s k
  if 8 ≤ k then
    if dec (txDecant k) then decantLocked s (txDecant k)
    else if portMaster s k then decide (2 ≤ x.frames) || (x.frames == 1 && framesSince s 1 x.lastEdge)
    else clean (3 + (txCfg s (k - 8)).txClock)
  else if portMaster s k then decide (1 ≤ x.frames)
  else (if dec (rxDecant k) then decantLocked s (rxDecant k) else clean k)
    && (decide (4 ≤ k) || !dec (txDecant k) || decantLocked s (txDecant k))

/-- PORT_START_COMPLETE (R411, step 3). -/
def execPortStartComplete (dt : Nat) (p : PortId) (s0 : State) : R :=
  let s := advance dt s0
  let k := portKey p
  let x := portRt s k
  if x.state = .starting && startDone s k then .next (setPort k { x with state := .running, presented := true } s)
  else .next s

/-- The clock of a port is absent (R412). -/
def portAbsent (s : State) (k : Nat) : Bool :=
  let m := tget ({} : Monitor) s.clk.monitors k
  decide (k < 8) && !portMaster s k && (!m.seen || m.lost)

/-- Step 3 of a stop is over (R412): two frames after every channel was silent, or with its clock absent. -/
def stopDone (s : State) (k : Nat) : Bool :=
  portAbsent s k || (match (portRt s k).silentAt with
    | some t => framesSince s 2 t
    | none => false)

/-- PORT_STOP_COMPLETE (R412, step 3). -/
def execPortStopComplete (dt : Nat) (p : PortId) (s0 : State) : R :=
  let s := advance dt s0
  let k := portKey p
  let x := portRt s k
  if x.state = .stopping && stopDone s k then
    .next (startMonitor k (setPort k { x with
      state := .stopped, presented := false, frames := 0, queue := [], cur := [], curFade := [], w := [], reps := 0,
      rxW := 32, txq := [], sent := [], sdo := [], vOut := false, txReps := 0, txW := 32, blockPos := 0, started := false,
      fallback := false, rxStamp := {}, txStamp := {}, missed := 0, silentAt := none } s))
  else .next s

/-! ### Received frames (R413, R415) -/

/-- A received word of WORD bits in the top of Q1.31 (R395). -/
def slotValue (word : Nat) (w : Word) : Int := signed 32 (w.toNat / 2 ^ (32 - word) * 2 ^ (32 - word))

/-- Time of the latest tick without the fixed 15 ns of its stamp (R29). -/
def tickAt (s : State) : Nat := s.clk.stamp - 3

/-- `n`/8 frames after `a` is at or before `b`. -/
def eighths (fs n a b : Nat) : Bool := decide (8 * fs * a + n * 200000000 ≤ 8 * fs * b)

/-- A received frame takes its place, or is discarded: late (R215), or more than 20 ms early (R216). Decant takes every frame. -/
def placeFrame (k : Nat) (f : RxFrame) (s : State) : State :=
  let x := portRt s k
  if isDecant s.cfg.clock.decant (rxDecant k) then setPort k { x with queue := x.queue ++ [f] } s
  else if s.clk.started && eighths (fsNow s) 15 f.capture (tickAt s) then
    raise .portUnderrun (portSrc0 k) 0 (portDetail (rxTarget k) k 2)
      (setPort k { x with rxUnder := sat32 (x.rxUnder + 1) } s)
  else if s.sysCnt + 20 * msCounts < f.capture then
    raise .portOverrun (portSrc0 k) 0 (portDetail (rxTarget k) k 2)
      (setPort k { x with rxOver := sat32 (x.rxOver + 1) } s)
  else setPort k { x with queue := x.queue ++ [f] } s

/-- A frame of a port whose edge was `edge`: it is counted, and stamped where it begins a block (R210). -/
def portEdge (k edge : Nat) (s : State) : State :=
  let x := portRt s k
  setPort k { x with
    frames := x.frames + 1, lastEdge := s.sysCnt, rxStamp := stampEdge edge x.rxStamp
    txStamp := if k < 4 then stampEdge edge x.txStamp else x.txStamp } s

/-- The capture time of the frame counted last (R210): on the line through the two latest block stamps, at its own edge before
there are two. -/
def captureTime (b : BlockStamp) (edge : Nat) : Nat :=
  if !b.valid || b.prev = 0 then edge
  else (b.stamp + freeDiv 24 ((b.edges - 1 - b.block : Nat) * (b.stamp - b.prev : Int)) 8).toNat

/-- A Decant target loses its lock. -/
def unlock (key : Nat) (s : State) : State :=
  let d := tget ({} : DecantState) s.clk.decant key
  { s with clk := { s.clk with decant := tset {} s.clk.decant key { d with locked := false } } }

/-- A Decant target whose rate changes loses its lock (R201). -/
def decantLose (key : Nat) (obj : Handle) (detail : Word) (s : State) : State := raise .decantUnlocked obj 0 detail (unlock key s)

/-- The Decant targets of a clocked input: a TDM slave's directions, an AES3 receiver. -/
def portDecKeys (s : State) (k : Nat) : List Nat :=
  (if k < 4 then [64 + k, 128 + k] else [rxDecant k]).filter (isDecant s.cfg.clock.decant)

/-- The clock of a port is lost (R198, R218): Decant relocks when it returns (R200). -/
def portLose (k reason : Nat) (s : State) : State :=
  let x := portRt s k
  raise .portClockLost (portSrc0 k) 0 (portDetail (rxTarget k) k reason)
    (monitorLose k reason (setPort k { x with rxStamp := { x.rxStamp with valid := false, lost := true },
                                              txStamp := { x.txStamp with valid := false, lost := true } }
      ((portDecKeys s k).foldl (fun a key => unlock key a) s)))

/-- Object and DETAIL of a clock fault of a port's Decant target. -/
def decObject (k key : Nat) : Handle := if key = 128 + k then portSink0 k else portSrc0 k
def decDetail (k key reason : Nat) : Word := portDetail (if key = 128 + k then txTarget k else rxTarget k) k reason

/-- Expected or locked rate of a port's input, mHz; one whose Decant targets are not locked has none. -/
def portRate (s : State) (k : Nat) : Option Nat :=
  match portDecKeys s k with
  | [] => some (fsNow s * 1000)
  | l => (l.find? (decantLocked s)).map (fun key => (tget ({} : DecantState) s.clk.decant key).rateMhz)

/-- A rate change on a port: a loss for a synchronous port, an unlock for its Decant targets, which measure anew (R201). -/
def rateChange (k : Nat) (s : State) : State :=
  match portDecKeys s k with
  | [] => portLose k 3 s
  | l =>
    let m := tget ({} : Monitor) s.clk.monitors k
    let anew := { m with good := 0, periods := [], glitches := [], secSum := 0, secCount := 0 }
    l.foldl (fun a key => decantLose key (decObject k key) (decDetail k key 3) a)
      { s with clk := { s.clk with monitors := tset {} s.clk.monitors k anew } }

/-- The mean rate of a second, mHz, is more than 100 ppm from that of the second before (R208, R209). -/
def ratioFast (before mean : Nat) : Bool := decide (before < 10000 * ((mean : Int) - (before : Int)).natAbs)

/-- Decant follows the rate of a port over a second (R208); a ratio that changes faster than it follows unlocks it (R209). -/
def trackRate (k mean : Nat) (s : State) : State :=
  let l := (portDecKeys s k).filter (decantLocked s)
  if mean = 0 then s
  else if l.any (fun key => ratioFast (tget ({} : DecantState) s.clk.decant key).rateMhz mean) then rateChange k s
  else l.foldl (fun a key => { a with clk := { a.clk with
    decant := tset {} a.clk.decant key { tget ({} : DecantState) a.clk.decant key with rateMhz := mean } } }) s

/-- A frame of a port is discarded as a glitch (R199): for Decant it is an underrun of one frame. -/
def portGlitch (k : Nat) (s : State) : State :=
  let x := portRt s k
  raise .portGlitch (portSrc0 k) 0 (portDetail (rxTarget k) k 0)
    (setPort k { x with
      glitches := sat32 (x.glitches + 1), missed := if isDecant s.cfg.clock.decant (rxDecant k) then x.missed + 1 else 0 } s)

/-- An input frame of `period` counts whose edge is `bad` for a reason of its own: whether its samples are to be used. A port
whose Decant targets are unlocked counts its frames to measure their rate. -/
def inputEdge (k period : Nat) (bad : Bool) (s : State) : Bool × State :=
  if portMaster s k then (true, s)
  else match portRate s k with
    | none =>
      let m := tget ({} : Monitor) s.clk.monitors k
      (true, { s with clk := { s.clk with
        monitors := tset {} s.clk.monitors k { m with seen := true, lastEdge := s.sysCnt, good := m.good + 1 } } })
    | some rate =>
      let (v, s1) := monitorEdge k rate period bad s
      let s2 := if v.glitch then portGlitch k s1 else s1
      let s3 := if v.lost = 3 then rateChange k s2
        else if v.lost ≠ 0 then portLose k v.lost s2
        else trackRate k v.mean s2
      (!v.glitch && !(tget ({} : Monitor) s3.clk.monitors k).lost, s3)

/-! ### Transmitted frames (R414, R415) -/

/-- Sink values that a port frame whose edge is now may carry, and those handed on too late for it. -/
def dueTx (fs now : Nat) (l : List TxFrame) : List TxFrame × List TxFrame :=
  (l.filter (fun f => eighths fs 7 f.time now), l.filter (fun f => !eighths fs 7 f.time now))

/-- Repeat limit of a target (R212, R214). -/
def repeatLimit (s : State) (g : Nat) : Nat := if g = 0xFF then 8 else (tget {} s.cfg.clock.align g).repeatLimit

/-- `n` frames of fs_int, SYSCNT counts. -/
def frameCounts (s : State) (n : Nat) : Nat := n * 200000000 / fsNow s

/-- Samples of channel `i` that Decant may use at an instant (R208): those less than `w`, 24 frames of fs_int, from it. -/
def decantSamples (w : Nat) (t : Int) (i : Nat) (l : List (Int × List Int)) : List (Int × Int) :=
  (l.filter (fun f => decide ((f.1 - t).natAbs < w))).map (fun f => (f.1, f.2.getD i 0))

/-- The value Decant computes for a target's channel at an instant (R209). -/
def decantValue (key w i : Nat) (t : Int) (l : List (Int × List Int)) : Int :=
  satS 32 (Config.decantOut key i t (decantSamples w t i l))

/-- Decant's transmit direction at a port frame (R209): computed from the sink values of 24 frames before; unlocked, the last
values are repeated over the mute ramp (R201, R218). -/
def takeDecant (k n : Nat) (s : State) : State :=
  let x := portRt s k
  let key := txDecant k
  if decantLocked s key then
    let t : Int := (s.sysCnt : Int) - (frameCounts s 24 : Int)
    let q := x.txq.filter (fun f => decide (t < (f.time : Int) + (frameCounts s 24 : Int)))
    let l := q.map (fun f => ((f.time : Int), f.vals))
    setPort k { x with
      sent := (List.range n).map (fun i => decantValue key (frameCounts s 24) i t l), txq := q, txReps := 0, txW := min 32 (x.txW + 1)
      vOut := false } s
  else setPort k { x with txq := [], txReps := x.txReps + 1, txW := x.txW - 1, vOut := true } s

/-- A transmitted frame takes its sink values: none due repeats the last ones, two drop the older (R415). -/
def takeTx (k : Nat) (s : State) : State :=
  let x := portRt s k
  if isDecant s.cfg.clock.decant (txDecant k) then takeDecant k (if k < 4 then 32 else 2) s
  else
    let (due, rest) := dueTx (fsNow s) s.sysCnt x.txq
    match due.getLast? with
    | none =>
      let reps := x.txReps + 1
      let w := if repeatLimit s 0xFF < reps then x.txW - 1 else x.txW
      let s1 := setPort k { x with txReps := reps, txW := w, vOut := true, txUnder := sat32 (x.txUnder + 1) } s
      if x.state = .running || x.state = .stopping then
        raise .portUnderrun (portSink0 k) 0 (portDetail (txTarget k) k 1) s1
      else setPort k { x with vOut := false } s
    | some f =>
      let w := if x.txW < 32 then x.txW + 1 else 32
      let y := { x with sent := f.vals, txq := rest, txReps := 0, txW := w, vOut := false }
      if due.length ≤ 1 then setPort k y s
      else raise .portOverrun (portSink0 k) 0 (portDetail (txTarget k) k 1)
        (setPort k { y with txOver := sat32 (x.txOver + (due.length - 1)) } s)

/-- A value under the mute ramp of 32 frames; the manual does not say how it rounds. -/
def rampW (w : Nat) (v : Int) : Int := if w = 32 then v else freeDiv 23 (v * (w : Int)) 32

/-- SDO slot words: the enabled slots' values with zeros after the word; zeros or high impedance elsewhere (R395). -/
def sdoOf (c : TdmCfg) (x : PortRt) : List (Option Word) :=
  (List.range c.slots).map (fun i =>
    if c.tx.getLsbD i then
      let v := (rampW x.txW (x.sent.getD i 0) % 4294967296).toNat
      some (BitVec.ofNat 32 (v / 2 ^ (32 - c.word) * 2 ^ (32 - c.word)))
    else if c.unusedHiz then none else some 0)

/-- What SDI reads from SDO in loopback (R420), where a slot at high impedance gives a value the manual leaves open. -/
def qHiz : Nat := 38
def loopSlots (p : Nat) (s : State) (l : List (Option Word)) : List Word :=
  l.zipIdx.map (fun e => e.1.getD (BitVec.ofInt 32 (Config.measure qHiz (32 * p + e.2) s.sysCnt)))

/-- TDM_FRAME_RECEIVED (R395, R398, R413): a frame is complete, and the next one begins. Its own frame edge was one period
ago. -/
def execTdmFrameReceived (dt : Nat) (p : Fin 4) (f : TdmFrame) (s0 : State) : R :=
  let s := advance dt s0
  let x := portRt s p
  if x.state = .stopped then .next s
  else
    let c := tdmCfg s p
    let bad := decide (f.bclks ≠ c.frameBclks) || decide (50500000 < f.bclkHz)
    let (ok, s1) := inputEdge p f.period (bad && !c.master) s
    let y := portRt s1 p
    let slots := if y.loopback then loopSlots p s y.sdo else f.slots
    let vals := (List.range 32).map (fun i =>
      if c.rx.getLsbD i && decide (i < c.slots) then slotValue c.word (slots.getD i 0) else 0)
    let s2 := portEdge p (s.sysCnt - f.period) (setPort p { y with bclksLast := f.bclks, bclkHz := f.bclkHz } s1)
    let s3 := if ok then placeFrame p ⟨captureTime (portRt s2 p).rxStamp (s.sysCnt - f.period), vals, []⟩ s2 else s2
    let s4 := takeTx p s3
    let z := portRt s4 p
    .next (setPort p { z with sdo := sdoOf c z } s4)

/-! ### AES3 receivers (R400 to R404) -/

/-- Word length of a subframe: 20 or 24 bits (R400). Professional channel status signals 24 bits by 4 in byte 2 bits 0
to 2. -/
def aesWord (c : AesRxCfg) (cs : Bytes) : Nat :=
  if c.word = 0 then 24 else if c.word = 1 then 20
  else if (cs.getD 0 0).getLsbD 0 && (cs.getD 2 0) &&& 7 != 4 then 20 else 24

/-- Channel status marks the subframe non-audio. -/
def nonAudio (cs : Bytes) : Bool := (cs.getD 0 0).getLsbD 1

/-- Handles parity and validity of a subframe (R400, R401): the subframe's state, the value it gives, whether a run of
V = 1 begins, whether parity failed. -/
def subframe (c : AesRxCfg) (limit : Nat) (u : SubRt) (f : Subframe) : SubRt × Int × Bool × Bool :=
  let word := aesWord c u.cs
  let v := signed 32 ((f.audio.toNat * 256) / 2 ^ (32 - word) * 2 ^ (32 - word))
  if !f.parityOk then (u, u.lastGood, false, true)
  else if f.v then
    let policy := if nonAudio u.cs then 1 else c.validity
    let reps := u.reps + 1
    let fade := if policy = 0 then decide (limit < reps) else policy == 2
    ({ u with inRun := true, reps := reps, fade := fade, vSeen := true },
      if policy = 1 then v else u.lastGood, !u.inRun, false)
  else ({ u with inRun := false, reps := 0, fade := false, lastGood := v }, v, false, false)

/-- Biphase coding violations of a frame (R420), which the manual does not tie to the samples. -/
def qBiphase : Nat := 37

/-- AES3_FRAME_RECEIVED (R400, R401, R413). -/
def execAes3FrameReceived (dt : Nat) (x : Fin 4) (f : AesFrame) (s0 : State) : R :=
  let s := advance dt s0
  let k := 4 + x.val
  let r := portRt s k
  if r.state = .stopped then .next s
  else
    let c := rxCfg s x
    let (ok, s1) := inputEdge k f.period false s
    let y := portRt s1 k
    let limit := repeatLimit s c.group
    let (a, va, ra, pa) := subframe c limit y.subA f.subA
    let (b, vb, rb, pb) := subframe c limit y.subB f.subB
    let policy (cs : Bytes) : Nat := if nonAudio cs then 1 else c.validity
    let s2 := portEdge k (s.sysCnt - f.period) (setPort k { y with
      subA := a, subB := b, parityCount := y.parityCount + bit pa + bit pb
      biphase := sat32 (y.biphase + (Config.measure qBiphase x s.sysCnt).toNat) } s1)
    let s3 := if ra then raise .aesValidity (mkHandle 0x04 (2 * x)) 0 (portDetail 3 k (policy y.subA.cs)) s2 else s2
    let s4 := if rb then raise .aesValidity (mkHandle 0x04 (2 * x + 1)) 0 (portDetail 3 k (policy y.subB.cs)) s3 else s3
    .next (if ok then
        placeFrame k ⟨captureTime (portRt s4 k).rxStamp (s.sysCnt - f.period), [va, vb], [a.fade, b.fade]⟩ s4
      else s4)

/-- A completed channel-status block of a subframe (R402): its state, whether it counts as a CRCC failure, and whether
AES_CS_CRC is recorded. -/
def csBlock (u0 : SubRt) (cs user : Bytes) (frames : Nat) : SubRt × Bool × Bool :=
  let u := { u0 with user := if frames = 192 then (user ++ zeros 24).take 24 else u0.user, age := sat32 (u0.age + 1),
                     vLast := u0.vSeen, vSeen := false }
  let b := (cs ++ zeros 24).take 24
  if frames ≠ 192 then ({ u with rejected := true, passed := false }, true, false)
  else if (b.getD 0 0).getLsbD 0 then
    if crcc (b.take 23) = u8 b 23 then ({ u with cs := b, passed := true, rejected := false, await := none, age := 0 }, false, false)
    else ({ u with passed := false, rejected := true, await := none }, true, true)
  else if u.await = some b then ({ u with cs := b, passed := false, rejected := false, age := 0 }, false, false)
  else ({ u with await := some b, passed := false }, false, false)

/-- AES_CS_BLOCK_COMPLETE (R402, R404). -/
def execAesCsBlockComplete (dt : Nat) (x : Fin 4) (sub : Fin 2) (cs user : Bytes) (frames : Nat) (s0 : State) : R :=
  let s := advance dt s0
  let k := 4 + x.val
  let r := portRt s k
  if r.state = .stopped then .next s
  else
    let (u, counted, fault) := csBlock (if sub = 0 then r.subA else r.subB) cs user frames
    let r1 := if sub = 0 then { r with subA := u } else { r with subB := u }
    let s1 := setPort k { r1 with csCrcCount := r.csCrcCount + bit counted } s
    .next (if fault then raise .aesCsCrc (mkHandle 0x04 (2 * x + sub)) 0 (portDetail 3 k 0) s1 else s1)

/-! ### AES3 transmitters (R405, R406) -/

/-- The receiver that clocks a transmitter is lost or stopped. -/
def txReceiverDown (s : State) (x : Nat) : Bool :=
  let c := (txCfg s x).txClock
  decide (1 ≤ c) && decide (c ≤ 4) &&
    (!portRuns s (3 + c) || (portRt s (3 + c)).state == .stopping || (tget ({} : Monitor) s.clk.monitors (3 + c)).lost)

/-- The 24-bit word a transmitter sends. -/
def aesOutWord (c : AesTxCfg) (v : Int) : Word :=
  let w := if c.word = 1 then 20 else 24
  BitVec.ofNat 32 ((v % 4294967296).toNat / 2 ^ (32 - w) * 2 ^ (24 - w))

/-- AES3_TRANSMIT_FRAME (R405, R406, R414): a transmitter's frame begins. A TX_CLOCK 0 transmitter waits for the sink
frame whose number is divisible by 192. -/
def execAes3TransmitFrame (dt : Nat) (x : Fin 4) (s0 : State) : R :=
  let s := advance dt s0
  let k := 8 + x.val
  let r := portRt s k
  if r.state = .stopped then .next s
  else
    let c := txCfg s x
    let ready := r.started || c.txClock ≠ 0 || ((dueTx (fsNow s) s.sysCnt r.txq).1.any (fun f => f.frame % 192 == 0))
    if !ready then .next s
    else
      let q := if r.started || c.txClock ≠ 0 then r.txq
        else r.txq.dropWhile (fun f => f.frame % 192 != 0)
      let down := txReceiverDown s x
      let start := !r.started || r.blockPos = 0
      let fb := if down then true else r.fallback && !start
      let back := r.fallback && !fb
      let r1 := { r with
        started := true, txq := q, fallback := fb, txW := if back then 0 else r.txW,
        csA := if start then c.csA else r.csA, csB := if start then c.csB else r.csB,
        blockPos := (r.blockPos + 1) % 192, frames := r.frames + 1, lastEdge := s.sysCnt,
        txStamp := stampEdge s.sysCnt r.txStamp }
      let s1 := takeTx k (setPort k r1 s)
      let y := portRt s1 k
      let v := fb || y.vOut
      let word (i : Nat) : Word := if fb then 0 else aesOutWord c (rampW y.txW (y.sent.getD i 0))
      .next (setPort k { y with sdo := [some (word 0), some (word 1)], vOut := v, vSent := (y.vSent + bit v) % 4294967296 } s1)

/-! ### Presentation at a tick (R413 to R415) -/

/-- The muted or fading weight of one channel moves by a frame. -/
def stepFade (fade : Bool) (w : Nat) : Nat := if fade then w - 1 else min 32 (w + 1)

/-- A synchronous port's frames due at the tick: one is presented; none repeats the last; of several the earlier ones
are discarded. -/
def presentSync (k : Nat) (s : State) : State :=
  let x := portRt s k
  let m := tget ({} : Monitor) s.clk.monitors k
  let due := x.queue.filter (fun f => eighths (fsNow s) 15 f.capture (tickAt s))
  let rest := x.queue.filter (fun f => !eighths (fsNow s) 15 f.capture (tickAt s))
  let lim := repeatLimit s (if k < 4 then (tdmCfg s k).group else (rxCfg s (k - 4)).group)
  match due.getLast? with
  | some f =>
    let ws := f.fade.zipIdx.map (fun e => stepFade e.1 (x.w.getD e.2 32))
    let y := { x with
      queue := rest, cur := f.vals, curFade := f.fade, w := ws, reps := 0
      rxW := if x.presented then min 32 (x.rxW + 1) else x.rxW }
    if due.length ≤ 1 then setPort k y s
    else raise .portOverrun (portSrc0 k) 0 (portDetail (rxTarget k) k 1)
      (setPort k { y with rxOver := sat32 (x.rxOver + (due.length - 1)) } s)
  | none =>
    if !x.presented then s
    else
      let reps := x.reps + 1
      let y := { x with
        reps := reps, rxW := if lim < reps then x.rxW - 1 else x.rxW
        w := x.curFade.zipIdx.map (fun e => stepFade e.1 (x.w.getD e.2 32)) }
      if m.lost then setPort k y s
      else raise .portUnderrun (portSrc0 k) 0 (portDetail (rxTarget k) k 1)
        (setPort k { y with rxUnder := sat32 (x.rxUnder + 1) } s)

/-- A Decant-assigned port at the tick: it computes the sample for the instant 24 frames before (R209). A frame of its clock
that was discarded is an underrun of one frame (R199); without its clock it repeats for its group's limit and fades
(R198, R214); unlocked by a change of rate it fades at once (R201). -/
def presentDecant (k : Nat) (s : State) : State :=
  let x := portRt s k
  let n := if k < 4 then 32 else 2
  let key := rxDecant k
  let t : Int := (tickAt s : Int) - (frameCounts s 24 : Int)
  let q := x.queue.filter (fun f => decide (t < (f.capture : Int) + (frameCounts s 24 : Int)))
  let lost := (tget ({} : Monitor) s.clk.monitors k).lost
  let lim := repeatLimit s (if k < 4 then (tdmCfg s k).group else (rxCfg s (k - 4)).group)
  let move (v : List Int) (x : PortRt) : PortRt :=
    { x with cur := v, reps := 0, rxW := if x.presented then min 32 (x.rxW + 1) else x.rxW
             w := x.curFade.zipIdx.map (fun e => stepFade e.1 (x.w.getD e.2 32)) }
  let again (y : PortRt) : PortRt :=
    let reps := y.reps + 1
    { y with reps := reps, rxW := if lim < reps then y.rxW - 1 else y.rxW }
  if lost then setPort k (again { x with queue := q, missed := 0 }) s
  else if !decantLocked s key then
    setPort k { x with queue := q, missed := 0, reps := x.reps + 1, rxW := x.rxW - 1 } s
  else if x.missed ≠ 0 then
    raise .portUnderrun (portSrc0 k) 0 (portDetail (rxTarget k) k 1)
      (setPort k (again { x with queue := q, missed := x.missed - 1, rxUnder := sat32 (x.rxUnder + 1) }) s)
  else
    let l := q.map (fun f => ((f.capture : Int), f.vals))
    let fade := match q.getLast? with | some f => f.fade | none => x.curFade
    setPort k (move ((List.range n).map (fun i =>
      if k < 4 && !(tdmCfg s k).rx.getLsbD i then 0 else decantValue key (frameCounts s 24) i t l)) { x with queue := q, curFade := fade }) s

/-- Every receiving port at the tick. -/
def presentPorts (s : State) : State :=
  (List.range 8).foldl (fun a k =>
    if (portRt a k).state = .stopped then a
    else if isDecant a.cfg.clock.decant (rxDecant k) then presentDecant k a
    else presentSync k a) s

/-- Value of a TDMIN or AESIN source: exact zeros until its port presents (R411). -/
def portSource (s : State) (h : Handle) : Int :=
  let i := hIndex h
  let (k, c) := if hClass h = 3 then (i / 32, i % 32) else (4 + i / 2, i % 2)
  let x := portRt s k
  if x.state = .stopped || !x.presented then 0
  else rampW x.rxW (rampW (x.w.getD c 32) (x.cur.getD c 0))

/-- Hands a tick's sink values to the ports that send them (R414). -/
def feedPort (k frame : Nat) (vals : List Int) (s : State) : State :=
  let x := portRt s k
  if x.state = .stopped then s else setPort k { x with txq := x.txq ++ [⟨tickAt s, frame, vals⟩] } s

/-! ### Status (R409, R417, R418) -/

/-- AES_CS_READ (R409). -/
def execAesCsRead (h : Hdr) (p : Bytes) (s : State) : R :=
  opcodeN .aesCsRead 4 h p (fun s =>
    guardSt (checks
      [ (decide (1 < u8 p 0), .badParam), (decide (3 < u8 p 1), .outOfRange), (decide (1 < u8 p 2), .badParam),
        (u8 p 3 != 0, .badParam) ]) s
      (let x := u8 p 1
       if u8 p 0 = 0 then
         let r := portRt s (4 + x)
         let u := if u8 p 2 = 0 then r.subA else r.subB
         let f := flag 0 ((u.cs.getD 0 0).getLsbD 0) + flag 1 u.passed + flag 2 u.rejected + flag 3 (nonAudio u.cs)
           + flag 4 u.await.isSome
         .reply .ok (u.cs ++ u.user ++ le 1 f ++ zeros 3 ++ le 4 u.age) s
       else
         let r := portRt s (8 + x)
         let running := r.state != .stopped
         let t := if u8 p 2 = 0 then (if running then r.csA else (txCfg s x).csA)
           else (if running then r.csB else (txCfg s x).csB)
         .reply .ok (csSent t ++ zeros 24 ++ le 1 (flag 0 ((t.getD 0 0).getLsbD 0) + flag 3 (nonAudio t)) ++ zeros 7) s)) s

/-- The stamp a PORT_STAMP target has, its Decant key, and whether it can reply. -/
def stampOf (s : State) (target i : Nat) : BlockStamp × Nat :=
  match target with
  | 1 => ((portRt s i).rxStamp, rxDecant i)
  | 2 => ((portRt s i).txStamp, txDecant i)
  | 3 => ((portRt s (4 + i)).rxStamp, rxDecant (4 + i))
  | 4 => ((portRt s (8 + i)).txStamp, txDecant (8 + i))
  | _ => (s.clk.wclkStamp, 0)

/-- Notes that a target's PORT_STAMP has been read: its clock's losses count anew. -/
def stampRead (s : State) (target i : Nat) : State :=
  let clr (b : BlockStamp) : BlockStamp := { b with lost := false }
  match target with
  | 1 => setPort i { portRt s i with rxStamp := clr (portRt s i).rxStamp } s
  | 2 => setPort i { portRt s i with txStamp := clr (portRt s i).txStamp } s
  | 3 => setPort (4 + i) { portRt s (4 + i) with rxStamp := clr (portRt s (4 + i)).rxStamp } s
  | 4 => setPort (8 + i) { portRt s (8 + i) with txStamp := clr (portRt s (8 + i)).txStamp } s
  | _ => { s with clk := { s.clk with wclkStamp := clr s.clk.wclkStamp } }

/-- PORT_STAMP (R417). -/
def execPortStamp (h : Hdr) (p : Bytes) (s : State) : R :=
  opcodeN .portStamp 4 h p (fun s =>
    let t := u8 p 0
    let i := u8 p 1
    guardSt (checks
      [ (!(t == 1 || t == 2 || t == 3 || t == 4 || t == 7), .badParam),
        (decide ((if t = 7 then 0 else 3) < i), .outOfRange),
        (u16 p 2 != 0, .badParam) ]) s
      (let (b, key) := stampOf s t i
       if !b.valid then .reply .ok (zeros 40) s
       else
         let tai := if s.clk.taiValid then (taiAt s.clk b.stamp).toNat else 0
         let f := 1 + flag 1 b.lost + flag 2 (isDecant s.cfg.clock.decant key)
         .reply .ok (le 8 b.block ++ le 8 b.stamp ++ le 8 tai ++ le 4 (stampRate b) ++ le 4 f ++ le 8 b.prev)
           (stampRead s t i))) s

/-- STATE code of a port. -/
def pstateCode : PortState → Nat
  | .stopped => 0 | .starting => 1 | .running => 2 | .stopping => 3

/-- CLOCK of a port (R418). -/
def portClock (s : State) (k : Nat) (rx : Bool) : Nat :=
  let key := if rx then rxDecant k else txDecant k
  let m := tget ({} : Monitor) s.clk.monitors k
  if (portRt s k).state = .stopped then 0
  else if 8 ≤ k || portMaster s k then (if isDecant s.cfg.clock.decant key && !decantLocked s key then 3 else 1)
  else if !m.seen then 0
  else if m.lost then 2
  else if isDecant s.cfg.clock.decant key && !decantLocked s key then 3
  else 1

/-- Frames, in units of 2e8 × fs, from the last tick to the port's latest frame edge, modulo one frame. -/
def edgePhase (s : State) (k : Nat) : Nat :=
  ((((portRt s k).lastEdge : Int) - (tickAt s : Int)) * (fsNow s : Int) % 200000000).toNat

/-- Receive or packer term (R413, R414), 1/128 frame. -/
def portTerm (s : State) (k : Nat) (rx : Bool) : Nat :=
  let key := if rx then rxDecant k else txDecant k
  if isDecant s.cfg.clock.decant key || (portRt s k).state = .stopped then 0
  else if portMaster s k then (if rx then 256 else 128)
  else
    let ph := edgePhase s k
    let q := (freeDiv 49 (ph * 128 : Nat) 200000000).toNat
    if rx then (if 8 * ph ≤ 200000000 then 256 - q else 384 - q)
    else if 1400000000 ≤ 8 * ph then q else 128 + q

/-- The 32-byte entry of a port in one direction. -/
def portEntry (s : State) (k : Nat) (rx : Bool) : Bytes :=
  let x := portRt s k
  let dec := isDecant s.cfg.clock.decant (if rx then rxDecant k else txDecant k)
  let grp := rx && (if k < 4 then (tdmCfg s k).group else (rxCfg s (k - 4)).group) != 0xFF
  let act := decide (k < 8) && s.clk.pll.active == some (monitorRef k)
  let cs := if 8 ≤ k then x.csA else x.subA.cs
  let aesRx := decide (4 ≤ k) && decide (k < 8)
  let f := flag 0 dec + flag 1 (portMaster s k) + flag 2 act + flag 3 grp
    + flag 4 (if rx then x.reps != 0 else x.txReps != 0)
    + flag 5 (if rx then decide (x.rxW = 0) else decide (x.txW = 0))
    + flag 6 (decide (4 ≤ k) && (cs.getD 0 0).getLsbD 0) + flag 7 (decide (4 ≤ k) && nonAudio cs)
    + flag 8 (aesRx && (x.subA.vLast || x.subB.vLast)) + flag 9 x.fallback
  let b := if rx then x.rxStamp else x.txStamp
  le 1 (pstateCode x.state) ++ le 1 (portClock s k rx) ++ le 2 f
    ++ le 4 (stampRate b)
    ++ le 4 (if rx then x.rxUnder else x.txUnder) ++ le 4 (if rx then x.rxOver else x.txOver) ++ le 4 x.glitches
    ++ le 4 (freeDiv 48 (edgePhase s k * 5 : Nat) (fsNow s)).toNat ++ le 4 (portTerm s k rx)
    ++ (if aesRx then le 2 (min 65535 x.parityCount) ++ le 2 (min 65535 x.csCrcCount) else zeros 4)

/-- The counters of PORT_STATUS that a snapshot has shown are cleared (R170); what came since its tick stays. -/
def clearPortCounts (shown live : Tab PortRt) : Tab PortRt :=
  live.foldl (fun a e =>
    let o := tget {} shown e.1
    let x := e.2
    tset {} a e.1 { x with
      rxUnder := x.rxUnder - o.rxUnder, rxOver := x.rxOver - o.rxOver, txUnder := x.txUnder - o.txUnder
      txOver := x.txOver - o.txOver, glitches := x.glitches - o.glitches, parityCount := x.parityCount - o.parityCount
      csCrcCount := x.csCrcCount - o.csCrcCount }) live

/-- The snapshot PORT_STATUS gives. -/
def portSnapshot (s : State) : Bytes :=
  le 8 s.clk.stamp ++ zeros 8
    ++ (List.range 4).flatMap (fun k => portEntry s k true) ++ (List.range 4).flatMap (fun k => portEntry s k false)
    ++ (List.range 4).flatMap (fun k => portEntry s (4 + k) true)
    ++ (List.range 4).flatMap (fun k => portEntry s (8 + k) false)

/-- PORT_STATUS (R418): as the latest tick latched it. -/
def execPortStatus (h : Hdr) (p : Bytes) (s : State) : R :=
  opcodeN .portStatus 4 h p (fun s =>
    if 1 < u8 p 0 || !zeroAt p 1 3 then refuse .badParam s
    else
      let v := latchView s
      .reply .ok (portSnapshot v)
        (if u8 p 0 = 1 then
          { s with port := clearPortCounts v.port s.port
                   latch := { s.latch with port := clearPortCounts v.port s.latch.port } }
        else s)) s

end Sys2Proof.Machine
end

