-- ==== Sys2Proof/Machine/Network.lean ====
section
/-! DEFINITION. The network ports and the switch (chapter 13, R421 to R435, R448, R449): settings, links, queues,
forwarding, ARP, ICMP, IGMP, and the wire rates of the stream slots. -/

namespace Sys2Proof.Machine

/-! ### Names -/

/-- Writes the settings of the network. -/
def withNet (c : NetworkCfg) (s : State) : State := { s with cfg := { s.cfg with net := c } }

/-- The port is declared (R61, R422). -/
def linkDeclared (s : State) : LinkPort → Bool
  | .neta => s.cfg.board.miscWired.getLsbD 3
  | .netb => s.cfg.board.miscWired.getLsbD 4
  | .hostnet => s.cfg.board.hostnetMode != 0

/-- A slot as it runs, and its settings. -/
def rxSlot (s : State) (i : Nat) : RxSlot := tget {} s.net.rx i
def setRxSlot (i : Nat) (x : RxSlot) (s : State) : State := { s with net := { s.net with rx := tset {} s.net.rx i x } }
def txSlot (s : State) (i : Nat) : TxSlot := tget {} s.net.tx i
def setTxSlot (i : Nat) (x : TxSlot) (s : State) : State := { s with net := { s.net with tx := tset {} s.net.tx i x } }
def rxSlotCfg (s : State) (i : Nat) : RxSlotCfg := tget {} s.cfg.net.rx i
def txSlotCfg (s : State) (i : Nat) : TxSlotCfg := tget {} s.cfg.net.tx i

/-- Every stream slot is disabled. -/
def allSlotsOff (s : State) : Bool :=
  s.net.rx.all (fun e => e.2.state == .off) && s.net.tx.all (fun e => e.2.state == .off)

/-- Bytes a frame of the module takes on the wire; of protocols that are named standards as those lay them out. -/
def wireLen (s : State) (l : LinkPort) : NetOut → Nat
  | .arpReply .. => ethLen s l 28
  | .icmpReply _ _ d => ipLen s l (8 + d.length)
  | .igmp .. => ipLen s l 24
  | .ptp _ k _ _ _ udp _ =>
    let n := if k = .announce then 64 else 44
    if udp then ipLen s l (8 + n) else ethLen s l n
  | .ptpDelay _ _ _ udp peer =>
    let n := if peer then 54 else 44
    if udp then ipLen s l (8 + n) else ethLen s l n
  | .media _ _ h _ _ _ d => d.length + txOverhead h
  | .forward _ f _ _ => f.len + 20
  | .control r => ipLen s l (8 + (encodeReply r.reply).length + r.trailer.length)
  | .lldp .. => ethLen s l 46

/-- Sends a frame from the module on a port whose link is up. -/
def sendOut (l : LinkPort) (o : NetOut) (s : State) : State := sendFrame l o (wireLen s l o) s

/-! ### Addresses (R424 to R426) -/

/-- An address of 4 bytes, first octet first, as a number with the first octet highest. -/
def ipAt (p : Bytes) (i : Nat) : Word := BitVec.ofNat 32 (((u8 p i * 256 + u8 p (i + 1)) * 256 + u8 p (i + 2)) * 256 + u8 p (i + 3))

/-- First octet of an address. -/
def ipTop (a : Word) : Nat := a.toNat / 16777216

/-- Multicast group. -/
def ipMulti (a : Word) : Bool := ipTop a / 16 == 14

/-- Neither multicast, broadcast, loopback nor in 0.0.0.0/8. -/
def ipUnicast (a : Word) : Bool := !ipMulti a && a != 0xFFFFFFFF && ipTop a != 127 && ipTop a != 0

/-- An address field that may be 0.0.0.0. -/
def ipOrNone (a : Word) : Bool := a == 0 || ipUnicast a

/-- Two addresses share a prefix of `n` bits. -/
def samePrefix (n : Nat) (a b : Word) : Bool := a.toNat / 2 ^ (32 - n) == b.toNat / 2 ^ (32 - n)

/-- The module's address on a path, with its prefix length and gateway; path B has none in SWITCHED mode. -/
def pathAddr (c : NetCfg) (b : Bool) : Word × Nat × Word :=
  if b then (if c.switched then (0, 24, 0) else (c.addrB, c.prefixB, c.gwB)) else (c.addrA, c.prefixA, c.gwA)

/-- The module's address reachable through a port, and its MAC (R424). -/
def ownAddr (s : State) (l : LinkPort) : Word × BitVec 48 :=
  let c := netCfg s
  if c.switched then (c.addrA, Config.macBase + 2)
  else match l with
    | .neta => (c.addrA, Config.macBase)
    | .netb => (c.addrB, Config.macBase + 1)
    | .hostnet => (0, 0)

/-! ### Stream faults (R453) -/

/-- Object of a stream fault. -/
def rxObject (s : State) (i : Nat) : Handle := mkHandle 0x05 (rxSlotCfg s i).first
def txObject (s : State) (i : Nat) : Handle := mkHandle 0x87 (txSlotCfg s i).first

/-- DETAIL of a stream fault. -/
def streamDetail (slot path reason : Nat) : Word := BitVec.ofNat 32 (slot + 256 * path + 65536 * reason)

/-! ### NET_SET (R426) -/

/-- The fields of a NET_SET payload. -/
def netOf (p : Bytes) : NetCfg :=
  { switched := u8 p 0 == 1, speedA := u8 p 1, speedB := u8 p 2, bridge := u8 p 3, addrA := ipAt p 4, gwA := ipAt p 8,
    prefixA := u8 p 12, prefixB := u8 p 13, ctrlPcp := u8 p 14, ctrlDscp := u8 p 15, addrB := ipAt p 16,
    gwB := ipAt p 20, vlanA := u16 p 24, vlanB := u16 p 26, ptpDscp := u8 p 28, ptpPcp := u8 p 29, stormMbps := u8 p 30,
    igmpV2 := u8 p 31 == 1 }

/-- The X fields are closed to change (R426). -/
def netRuns (s : State) : Bool := !(s.life.mode == .hold || s.life.mode == .recovery) || !allSlotsOff s

/-- A gateway is none, or within the prefix of its address. -/
def gwOk (addr gw : Word) (n : Nat) : Bool := gw == 0 || samePrefix n addr gw

/-- Checks of NET_SET. -/
def checkNetSet (p : Bytes) (s : State) : Status :=
  let c := netOf p
  let o := netCfg s
  let x := netRuns s
  checks
    [ (decide (1 < u8 p 0), .badParam),
      (x && c.switched != o.switched, .busy),
      (decide (2 < u8 p 1), .badParam),
      (x && c.speedA != o.speedA, .busy),
      (decide (2 < u8 p 2), .badParam),
      (x && c.speedB != o.speedB, .busy),
      (!c.switched && decide (2 < u8 p 3), .badParam),
      (x && c.bridge != o.bridge, .busy),
      (!ipOrNone c.addrA, .badParam),
      (x && c.addrA != o.addrA, .busy),
      (!ipOrNone c.gwA, .badParam),
      (x && c.gwA != o.gwA, .busy),
      (decide (c.prefixA < 1) || decide (30 < c.prefixA), .outOfRange),
      (x && c.prefixA != o.prefixA, .busy),
      (!c.switched && (decide (c.prefixB < 1) || decide (30 < c.prefixB)), .outOfRange),
      (x && c.prefixB != o.prefixB, .busy),
      (decide (7 < c.ctrlPcp), .outOfRange),
      (decide (63 < c.ctrlDscp), .outOfRange),
      (!ipOrNone c.addrB, .badParam),
      (x && c.addrB != o.addrB, .busy),
      (!ipOrNone c.gwB, .badParam),
      (x && c.gwB != o.gwB, .busy),
      (decide (4094 < c.vlanA), .outOfRange),
      (x && c.vlanA != o.vlanA, .busy),
      (decide (4094 < c.vlanB), .outOfRange),
      (x && c.vlanB != o.vlanB, .busy),
      (decide (63 < c.ptpDscp), .outOfRange),
      (decide (7 < c.ptpPcp), .outOfRange),
      (decide (c.stormMbps < 1) || decide (100 < c.stormMbps), .outOfRange),
      (decide (1 < u8 p 31), .badParam),
      (u32 p 32 != 0, .badParam),
      ((c.switched && (c.addrB != 0 || c.gwB != 0 || c.vlanB != 0)) || !gwOk c.addrA c.gwA c.prefixA
        || (!c.switched && !gwOk c.addrB c.gwB c.prefixB), .badParam) ]

/-- A receive slot that merges two paths loses one with its link (R446). -/
def linkPathLost (b : Bool) (s : State) : State :=
  (List.range 64).foldl (fun a i =>
    let st := (rxSlot a i).state
    if (rxSlotCfg a i).paths = 3 && st != .off && st != .stopping then
      raise .pathLost (rxObject a i) 0 (streamDetail i (bit b) 2) a
    else a) s

/-- A link is down (R423, R446, R453): what waited to leave is lost with it, PTP on the port is lost, and a merging slot has lost
a path. -/
def linkFall (l : LinkPort) (noCommon : Bool) (s0 : State) : State :=
  let s := setLink l { linkOf s0 l with
    link := 0, noCommon := noCommon, queue := [], free := 0, sending := 8, creditA := 0, creditB := 0 } s0
  let s1 := postEvent 5 (raise .linkDown 0 (linkIdx l) (streamDetail (linkIdx l) 0 2) s)
  match l with
  | .hostnet => s1
  | .neta => linkPathLost false (if s1.clk.portA.locked then ptpLose .a 1 s1 else s1)
  | .netb => linkPathLost true (if s1.clk.portB.locked then ptpLose .b 1 s1 else s1)

/-- A link restarts (R426): one that was up is down until it comes up again. -/
def restartLink (l : LinkPort) (s : State) : State :=
  if (linkOf s l).link = 0 then setLink l { linkOf s l with noCommon := false } s else linkFall l false s

/-- The fields of a NET_SET that a stopped network takes at once, with the restarts they bring. -/
def netStopped (p : Bytes) (s : State) : State :=
  let o := netCfg s
  let c := { netOf p with
    ctrlPcp := o.ctrlPcp, ctrlDscp := o.ctrlDscp, ptpDscp := o.ptpDscp, ptpPcp := o.ptpPcp, stormMbps := o.stormMbps
    igmpV2 := o.igmpV2 }
  let s1 := withNet { s.cfg.net with net := c } s
  let s2 := if o.switched != c.switched || o.speedA != c.speedA then restartLink .neta s1 else s1
  let s3 := if o.switched != c.switched || o.speedB != c.speedB then restartLink .netb s2 else s2
  if o.switched != c.switched then
    let s4 := restartLink .hostnet s3
    { s4 with net := { s4.net with fdb := [], hostGroups := [] } }
  else s3

/-- The live fields of a NET_SET land. -/
def landNetSet (p : Bytes) (s : State) : State :=
  let n := netOf p
  let c := { netCfg s with
    ctrlPcp := n.ctrlPcp, ctrlDscp := n.ctrlDscp, ptpDscp := n.ptpDscp, ptpPcp := n.ptpPcp, stormMbps := n.stormMbps
    igmpV2 := n.igmpV2 }
  withNet { s.cfg.net with net := c } s

/-- NET_SET (R426). -/
def execNetSet (h : Hdr) (p : Bytes) (s : State) : R :=
  opcodeN .netSet 36 h p (landLive .netSet h p (checkNetSet p) (netStopped p)) s

/-! ### Wire load (R449) -/

/-- Enabled transmit slots, ascending. -/
def txEnabled (s : State) : List Nat := (List.range 64).filter (fun i => (txSlot s i).state != .off)

/-- Sum of the wire rates of slots on a port. -/
def txLoad (s : State) (b : Bool) (l : List Nat) : Nat :=
  ((l.filter (fun i => countsOn s b (txSlotCfg s i))).map (fun i => wireRate (txSlotCfg s i))).sum

/-- Limit of a port's stream load (R449). -/
def loadLimit (s : State) (l : LinkPort) : Nat := if (linkOf s l).link = 2 then 2250000000 else 900000000

/-- Slots left when the highest-numbered are taken away until the rest fits; `l` is descending. -/
def fitSlots (s : State) (b : Bool) (limit : Nat) : List Nat → List Nat
  | [] => []
  | i :: t => if txLoad s b (i :: t) ≤ limit then i :: t else fitSlots s b limit t

/-- Path code of a PATHS field: 0 NETA or the endpoint, 1 NETB, 2 both. -/
def pathsCode (b : BitVec 2) : Nat := if b = 3 then 2 else if b = 2 then 1 else 0

/-- Suspends and resumes a port's transmit slots for its present rate (R449). -/
def resuspend (b : Bool) (s : State) : State :=
  let l := linkPortOf (if b then .b else .a)
  let on := txEnabled s
  let kept := fitSlots s b (loadLimit s l) on.reverse
  on.foldl (fun a i =>
    let x := txSlot a i
    let sus := countsOn a b (txSlotCfg a i) && !kept.contains i
    let was := if b then x.susB else x.susA
    let a1 := setTxSlot i (if b then { x with susB := sus } else { x with susA := sus }) a
    if sus && !was then
      postEvent 5 (raise .streamLost (txObject a i) 0 (streamDetail i (bit b) 3) a1)
    else if was && !sus && !(txEnabled a1).any (fun j => txObject a1 j == txObject a1 i
        && ((txSlot a1 j).susA || (txSlot a1 j).susB)) then
      postEvent 5 (release .streamLost (txObject a i) 0 a1)
    else a1) s

/-! ### Links (R421 to R423, R449) -/

/-- A port can link at a rate: HOSTNET at that of its interface (R422), NETA and NETB at a speed they advertise (R426). -/
def speedOk (s : State) (l : LinkPort) (fast : Bool) : Bool :=
  match l with
  | .neta => (netCfg s).speedA != (if fast then 1 else 2)
  | .netb => (netCfg s).speedB != (if fast then 1 else 2)
  | .hostnet => fast == (s.cfg.board.hostnetMode == 2)

/-- LINK_UP (R423): `fast` is 2.5 Gbit/s. -/
def execLinkUp (dt : Nat) (l : LinkPort) (fast : Bool) (s0 : State) : R :=
  let s := advance dt s0
  if !spiAlive s || !linkDeclared s l || !speedOk s l fast then .next s
  else
    let x := linkOf s l
    let s1 := setLink l { x with link := if fast then 2 else 1, noCommon := false, ups := min 65535 (x.ups + 1),
                                  lastUp := s.sysCnt } s
    let s2 := postEvent 5 (release .linkDown 0 (linkIdx l) s1)
    .next (match l with
      | .neta => resuspend false s2
      | .netb => resuspend true s2
      | .hostnet => s2)

/-- LINK_DOWN (R423, R446, R453). -/
def execLinkDown (dt : Nat) (l : LinkPort) (noCommonSpeed : Bool) (s0 : State) : R :=
  let s := advance dt s0
  if !spiAlive s || !linkDeclared s l then .next s else .next (linkFall l noCommonSpeed s)

/-! ### ARP, ICMP (R425) -/

/-- The module takes frames from a port for an address of its own. -/
def ownOn (s : State) (l : LinkPort) (ip : Word) : Bool :=
  modeUp s.life.mode && linkIsUp s l && (ownAddr s l).1 != 0 && (ownAddr s l).1 == ip

/-- ARP_REQUEST (R425). -/
def execArpRequest (dt : Nat) (l : LinkPort) (targetIp senderIp : BitVec 32) (senderMac : BitVec 48) (s0 : State) : R :=
  let s := advance dt s0
  if ownOn s l targetIp then
    .next (sendOut l (.arpReply l targetIp (ownAddr s l).2 senderIp senderMac) (countRx l s))
  else .next s

/-- ICMP_ECHO (R425). -/
def execIcmpEcho (dt : Nat) (l : LinkPort) (targetIp senderIp : BitVec 32) (data : Bytes) (s0 : State) : R :=
  let s := advance dt s0
  if ownOn s l targetIp then .next (sendOut l (.icmpReply l senderIp data) (countRx l s)) else .next s

/-! ### IGMP (R434) -/

/-- A receive slot's multicast group and source filter on a path, where it has one. -/
def slotGroup (s : State) (i : Nat) (b : Bool) : Option (Word × Word) :=
  let c := rxSlotCfg s i
  let g := if b then c.destB else c.destA
  if (c.transport == 1 || c.transport == 2) && c.paths.getLsbD (bit b) && ipMulti g then
    some (g, if b then c.srcB else c.srcA)
  else none

/-- An IGMPv2 querier is heard on a port: for 260 s after its latest query, as RFC 3376 sets out. -/
def v2On (s : State) (x : LinkRt) : Bool := x.v2Heard && decide (s.sysCnt < x.v2At + 260 * secCounts)

/-- Membership goes by IGMPv2 on a path. -/
def igmpV2On (s : State) (b : Bool) : Bool :=
  (netCfg s).igmpV2 || (if (netCfg s).switched then v2On s s.net.a || v2On s s.net.b
    else if b then v2On s s.net.b else v2On s s.net.a)

/-- Network ports a path of a slot leads to: in SWITCHED mode the endpoint reaches both. -/
def pathLinks (s : State) (b : Bool) : List LinkPort :=
  if (netCfg s).switched then [.neta, .netb] else [if b then .netb else .neta]

/-- Sends a report or a leave for a slot's group on a path. -/
def igmpSend (i : Nat) (leave : Bool) (s : State) (b : Bool) : State :=
  match slotGroup s i b with
  | none => s
  | some (g, src) => (pathLinks s b).foldl (fun a l => sendOut l (.igmp l g src (igmpV2On s b) leave) a) s

/-- Reports on every path of a slot. -/
def igmpReports (i : Nat) (s : State) : State := [false, true].foldl (igmpSend i false) s

/-- A receive slot that is enabled. -/
def rxActive (s : State) (i : Nat) : Bool := (rxSlot s i).state != .off

/-- Leaves when no other enabled slot uses the group on the path. -/
def igmpLeaves (i : Nat) (s : State) : State :=
  [false, true].foldl (fun a b =>
    let others := (List.range 64).any (fun j => j != i && rxActive a j
      && (slotGroup a j b).map Prod.fst == (slotGroup a i b).map Prod.fst)
    if others then a else igmpSend i true a b) s

/-- IGMP_QUERY (R434). -/
def execIgmpQuery (dt : Nat) (l : LinkPort) (v2 : Bool) (group : BitVec 32) (s0 : State) : R :=
  let s := advance dt s0
  if !modeUp s.life.mode || !linkIsUp s l || l = .hostnet then .next s
  else
    let s1 := countRx l s
    let s2 := if v2 then setLink l { linkOf s1 l with v2Heard := true, v2At := s1.sysCnt } s1 else s1
    let b := !(netCfg s).switched && l == .netb
    .next ((List.range 64).foldl (fun a i =>
      match slotGroup a i b with
      | some (g, _) => if rxActive a i && (group == 0 || group == g) then igmpSend i false a b else a
      | none => a) s2)

/-! ### The switch (R427, R430 to R433) -/

/-- The group bit of a MAC address. -/
def macMulti (m : BitVec 48) : Bool := m.getLsbD 40
def macBroadcast : BitVec 48 := 0xFFFFFFFFFFFF

/-- Egress queue of a forwarded frame (R427). -/
def fwdQueue (l : LinkPort) (f : EthFrame) : Nat :=
  let cap (q : Nat) : Nat := if l = .hostnet then min 5 q else q
  if f.ptp then 7
  else if f.tagged then cap f.pcp.toNat
  else if f.isIp then
    let d := f.dscp.toNat
    if d = 46 then cap 6 else if 32 ≤ d && d ≤ 39 then 4 else if 24 ≤ d && d ≤ 31 then 3 else 0
  else 0

/-- VLAN under which an address is learned; 0 for untagged frames. -/
def frameVlan (f : EthFrame) : BitVec 12 := if f.tagged then f.vlan else 0

/-- Learns a source address, up to 1024 (R430). -/
def learn (l : LinkPort) (f : EthFrame) (now : Nat) (t : List FdbEntry) : List FdbEntry :=
  if macMulti f.src then t
  else
    let v := frameVlan f
    let rest := t.filter (fun e => !(e.mac == f.src && e.vlan == v))
    if rest.length < 1024 then rest ++ [⟨f.src, v, l, now⟩] else rest

/-- The module's own groups: those of its enabled receive slots. -/
def ownGroup (s : State) (g : Word) : Bool :=
  (List.range 64).any (fun i => rxActive s i && [false, true].any (fun b => (slotGroup s i b).map Prod.fst == some g))

/-- Ports a frame leaves by in SWITCHED mode (R430, R431, R433). -/
def fwdPorts (s : State) (l : LinkPort) (f : EthFrame) : List LinkPort :=
  let others := [LinkPort.neta, .netb, .hostnet].filter (fun x => x != l)
  if f.dst = (ownAddr s l).2 then []
  else if f.bpdu then others.filter (fun x => x != .hostnet && l != .hostnet)
  else if f.dst = macBroadcast then others
  else if macMulti f.dst then others.filter (fun x => x != .hostnet || s.net.hostGroups.contains f.group)
  else match s.net.fdb.find? (fun e => e.mac == f.dst && e.vlan == frameVlan f) with
    | some e => if e.port = l then [] else [e.port]
    | none => others

/-- The storm limiter applies to a frame (R432): broadcast, or multicast of a group nobody behind the switch joined. -/
def stormFrame (s : State) (f : EthFrame) : Bool :=
  f.dst == macBroadcast || (macMulti f.dst && !f.ptp && !f.bpdu && !s.net.hostGroups.contains f.group && !ownGroup s f.group)

/-- Residence time corrected in a PTP event message (R430). -/
def corrected (s : State) (f : EthFrame) : Nat :=
  if f.ptpEvent && s.cfg.clock.ptp.profile != 0 then f.residenceNs else 0

/-- A port forwards a frame. -/
def forwardTo (l : LinkPort) (f : EthFrame) (s : State) (x : LinkPort) : State :=
  let c := corrected s f
  let s1 := sendOut x (.forward x f (fwdQueue l f) c) s
  if linkIsUp s x then { s1 with net := { s1.net with tcMaxNs := max s1.net.tcMaxNs c } } else s1

/-- The storm limiter's verdict: the port after it, and whether the frame passes. -/
def stormCheck (s : State) (x : LinkRt) (f : EthFrame) : LinkRt × Bool :=
  let w := x.storm.filter (fun e => decide (s.sysCnt < e.1 + secCounts))
  let used := (w.map Prod.snd).sum
  if (netCfg s).stormMbps * 1000000 < used + 8 * f.len then
    ({ x with storm := w, stormDrops := sat32 (x.stormDrops + 1), stormActed := true }, false)
  else ({ x with storm := w ++ [(s.sysCnt, 8 * f.len)] }, true)

/-- IGMP snooping of what the host sends (R433). -/
def snoop (l : LinkPort) (f : EthFrame) (g : List Word) : List Word :=
  if l ≠ .hostnet then g
  else if f.igmpReport then (if g.contains f.group then g else g ++ [f.group])
  else if f.igmpLeave then g.filter (· != f.group)
  else g

/-- A frame is longer than the 1522 bytes the switch passes. -/
def tooLong (f : EthFrame) : Bool := decide (1522 < f.len)

/-- What becomes of a frame that a port has counted: dropped when it is too long or over the storm limit. -/
def enterCounted (l : LinkPort) (f : EthFrame) (s : State) : State × Bool :=
  if tooLong f then (setLink l { linkOf s l with longDrops := sat32 ((linkOf s l).longDrops + 1) } s, false)
  else if stormFrame s f then (setLink l (stormCheck s (linkOf s l) f).1 s, (stormCheck s (linkOf s l) f).2)
  else (s, true)

/-- A frame enters a port: counted, and dropped when it is longer than 1522 bytes or over the storm limit. -/
def enterFrame (l : LinkPort) (f : EthFrame) (s : State) : State × Bool := enterCounted l f (countRx l s)

/-- SWITCH_FORWARD (R430 to R433): a frame from the network or the host in SWITCHED mode. -/
def execSwitchForward (dt : Nat) (l : LinkPort) (f : EthFrame) (s0 : State) : R :=
  let s := advance dt s0
  if !modeUp s.life.mode || !(netCfg s).switched || !linkIsUp s l then .next s
  else
    let (s1, ok) := enterFrame l f s
    if !ok then .next s1
    else
      let s2 := { s1 with net := { s1.net with fdb := learn l f s1.sysCnt s1.net.fdb,
                                                hostGroups := snoop l f s1.net.hostGroups } }
      .next ((fwdPorts s2 l f).foldl (forwardTo l f) s2)

/-- HOSTNET_BRIDGE_FRAME (R424, R425): in REDUNDANT mode HOSTNET is bridged to one port; frames from the host to the
module's own addresses are dropped. -/
def execHostnetBridgeFrame (dt : Nat) (fromHost toModule : Bool) (f : EthFrame) (s0 : State) : R :=
  let s := advance dt s0
  let c := netCfg s
  let net : LinkPort := if c.bridge = 1 then .neta else .netb
  let (l, x) := if fromHost then (LinkPort.hostnet, net) else (net, LinkPort.hostnet)
  if !modeUp s.life.mode || c.switched || c.bridge = 0 || !linkIsUp s l then .next s
  else
    let (s1, ok) := enterFrame l f s
    if !ok || toModule then .next s1 else .next (forwardTo l f s1 x)

/-- FDB_AGE_OUT (R430): an address has aged for 300 s. -/
def execFdbAgeOut (dt : Nat) (mac : BitVec 48) (vlan : BitVec 12) (s0 : State) : R :=
  let s := advance dt s0
  let old (e : FdbEntry) : Bool := e.mac == mac && e.vlan == vlan && decide (e.at_ + 300 * secCounts ≤ s.sysCnt)
  .next { s with net := { s.net with fdb := s.net.fdb.filter (fun e => !old e) } }

/-! ### PTP messages the module sends (R195, R193) -/

/-- An interval of 2^log seconds has passed since a message was sent. -/
def sendDue (s : State) (sent : Option Nat) (log : Int) : Bool := match sent with
  | some t => decide (t + logCounts log ≤ s.sysCnt)
  | none => true

/-- The data set a master announces: priority1, clockClass, clockAccuracy, offsetScaledLogVariance, priority2, timeSource
(R195). -/
def ownSet (c : PtpCfg) : List Nat := [c.priority1, 248, 0xFE, 0xFFFF, c.priority2, 0xA0]

/-- A PTP master's message leaves a port. -/
def sendPtp (x : NetPort) (k : PtpKind) (s : State) : State :=
  let c := s.cfg.clock.ptp
  let q := ptpPortOf s.clk x
  let log := if k = .announce then ptpLogAnnounce c else ptpLogSync c
  let q1 := if k = .announce then { q with sentAnnounce := some s.sysCnt } else { q with sentSync := some s.sysCnt }
  sendOut (linkPortOf x) (.ptp x k (taiNow s) (ptpDomain c) log (ptpOverUdp c) (ownSet c))
    { s with clk := setPtpPort s.clk x q1 }

/-- PTP_MASTER_TRANSMIT (R195): Announce and Sync, at their intervals, while the module is grandmaster. -/
def execPtpMasterTransmit (dt : Nat) (port : NetPort) (k : PtpKind) (s0 : State) : R :=
  let s := advance dt s0
  let c := s.cfg.clock.ptp
  let q := ptpPortOf s.clk port
  let due := if k = .announce then sendDue s q.sentAnnounce (ptpLogAnnounce c) else sendDue s q.sentSync (ptpLogSync c)
  if s.clk.grandmaster && ptpRuns s port && due then .next (sendPtp port k s) else .next s

/-- PTP_DELAY_REQUEST: a slave port with a master measures its path delay, at its interval. -/
def execPtpDelayRequest (dt : Nat) (port : NetPort) (s0 : State) : R :=
  let s := advance dt s0
  let c := s.cfg.clock.ptp
  let q := ptpPortOf s.clk port
  if !s.clk.grandmaster && ptpRuns s port && slaves s port && q.master.isSome && sendDue s q.sentDelay (ptpLogDelay c) then
    .next (sendOut (linkPortOf port) (.ptpDelay port (ptpDomain c) (ptpLogDelay c) (ptpOverUdp c) (ptpPeerDelay c))
      { s with clk := setPtpPort s.clk port { q with sentDelay := some s.sysCnt } })
  else .next s

/-! ### NET_STATUS (R451) -/

/-- Stream wire rate counted on a port, kbit/s. -/
def txKbps (s : State) : LinkPort → Nat
  | .neta => (freeDiv 46 (txLoad s false (txEnabled s) : Nat) 1000).toNat
  | .netb => (freeDiv 46 (txLoad s true (txEnabled s) : Nat) 1000).toNat
  | .hostnet => 0

/-- LINK of R451. -/
def linkCode (s : State) (l : LinkPort) : Nat :=
  let x := linkOf s l
  if !linkDeclared s l then 4 else if linkIsUp s l then x.link else if x.noCommon then 3 else 0

/-- One port's entry. -/
def linkEntry (s : State) (l : LinkPort) : Bytes :=
  let x := linkOf s l
  let ptp := match l, s.clk.ptpPort with
    | .neta, some .a => true
    | .netb, some .b => true
    | _, _ => false
  let sus := (txEnabled s).any (fun i => match l with
    | .neta => (txSlot s i).susA
    | .netb => (txSlot s i).susB
    | .hostnet => false)
  le 1 (linkCode s l) ++ le 1 (flag 0 x.stormActed + flag 1 ptp + flag 2 sus + flag 3 (v2On s x)) ++ le 2 x.ups
    ++ le 4 (txKbps s l) ++ le 4 x.rxFrames ++ le 4 (sat32 (x.longDrops + x.stormDrops + x.fcsErr + x.queueDrops))

/-- The storm flags start anew. -/
def clearStorm (s : State) : State :=
  { s with net := { s.net with a := { s.net.a with stormActed := false }, b := { s.net.b with stormActed := false },
                               host := { s.net.host with stormActed := false } } }

/-- NET_STATUS (R451). -/
def execNetStatus (h : Hdr) (p : Bytes) (s : State) : R :=
  opcodeN .netStatus 0 h p (fun s =>
    let rx := ((List.range 64).filter (rxActive s)).length
    .reply .ok (le 8 s.sysCnt ++ le 1 (bit (netCfg s).switched) ++ le 1 rx ++ le 1 (txEnabled s).length ++ zeros 5
      ++ linkEntry s .neta ++ linkEntry s .netb ++ linkEntry s .hostnet) (clearStorm (clearEvent 5 s))) s

end Sys2Proof.Machine
end

