-- ==== Sys2Proof/Machine/Streams.lean ====
section
/-! DEFINITION. Media streams (chapter 13, R437 to R449, R452): slot settings, enabling, received packets and their
presentation, the packer, AM824 transparency, and stream status. -/

namespace Sys2Proof.Machine

/-! ### Slot settings (R437, R439) -/

/-- 8 or 6 bytes as a number, first transmitted octet highest. -/
def beAt (p : Bytes) (i n : Nat) : Nat := ((p.drop i).take n).foldl (fun a b => a * 256 + b.toNat) 0

/-- The fields of a STREAM_RX_SET payload. -/
def rxOf (p : Bytes) : RxSlotCfg :=
  { transport := u8 p 1, encoding := u8 p 2, paths := BitVec.ofNat 2 (u8 p 3), rate := u8 p 4, ptime := u8 p 5,
    streamCh := u8 p 6, chFirst := u8 p 7, channels := u8 p 8, first := u8 p 9, group := u8 p 10, pt := u8 p 11,
    linkUs := u32 p 12, destA := ipAt p 16, destB := ipAt p 20, srcA := ipAt p 24, srcB := ipAt p 28, portA := u16 p 32,
    portB := u16 p 34, vlan := u16 p 36, streamId := BitVec.ofNat 64 (beAt p 40 8),
    destMac := BitVec.ofNat 48 (beAt p 48 6), ssrc := BitVec.ofNat 32 (u32 p 56), timeOffset := u32 p 60 }

/-- The fields of a STREAM_TX_SET payload. -/
def txOf (p : Bytes) : TxSlotCfg :=
  { transport := u8 p 1, encoding := u8 p 2, paths := BitVec.ofNat 2 (u8 p 3), rate := u8 p 4, ptime := u8 p 5,
    channels := u8 p 6, first := u8 p 7, pcp := u8 p 8, dscp := u8 p 9, ttl := u8 p 10, pt := u8 p 11,
    ssrc := BitVec.ofNat 32 (u32 p 12), destA := ipAt p 16, destB := ipAt p 20, portA := u16 p 24, portB := u16 p 26,
    vlan := u16 p 28, classB := u8 p 30 == 1, streamId := BitVec.ofNat 64 (beAt p 32 8),
    destMac := BitVec.ofNat 48 (beAt p 40 6), timeOffset := u32 p 48 }

/-- The transport carries RTP. -/
def isRtp (transport : Nat) : Bool := transport == 1 || transport == 2

/-- The encoding does not match the transport. -/
def encodingBad (transport enc : Nat) : Bool :=
  if transport == 1 || transport == 3 then decide (1 < enc) else enc != 2

/-- A UDP port field is out of range. -/
def udpBad (n : Nat) : Bool := n == 0 || n == 4750

/-- Nominal packet time, µs, rounded up. -/
def ptimeUs (code : Nat) : Nat :=
  if code = 0 then 125 else if code = 1 then 250 else if code = 2 then 333 else if code = 3 then 1000 else 4000

/-- Slots of a stream group. -/
def rxGroupOthers (s : State) (g self : Nat) : List Nat :=
  (List.range 64).filter (fun j => j != self && (rxSlotCfg s j).transport != 0 && (rxSlotCfg s j).group == g)

/-- R212 refuses membership of a receive slot in group `g`. -/
def streamGroupBad (s : State) (g self : Nat) : Bool :=
  g != 0xFF && ((tget {} s.cfg.clock.align g).kind != 1
    || (rxGroupOthers s g self).any (fun j =>
        s.cfg.clock.decant.streamRx.getLsbD j != s.cfg.clock.decant.streamRx.getLsbD self))

/-- PATHS does not fit the mode or the transport. -/
def pathsBad (s : State) (transport : Nat) (paths : BitVec 2) : Bool :=
  (paths == 3 && ((netCfg s).switched || !isRtp transport)) || ((netCfg s).switched && paths != 1)

/-- Writes a slot's settings. -/
def putRx (i : Nat) (c : RxSlotCfg) (s : State) : State := withNet { s.cfg.net with rx := tset {} s.cfg.net.rx i c } s
def putTx (i : Nat) (c : TxSlotCfg) (s : State) : State := withNet { s.cfg.net with tx := tset {} s.cfg.net.tx i c } s

/-- The Decant charge would go above 320 (R207). -/
def chargeBad (before after : State) : Bool :=
  decide (320 < decantUsed after) && decide (decantUsed before < decantUsed after)

/-- Checks of STREAM_RX_SET. With TRANSPORT 0 the other fields are not examined. -/
def checkRxSet (p : Bytes) (s : State) : Status :=
  let i := u8 p 0
  let c := rxOf p
  let rtp := isRtp c.transport
  if 63 < i then .outOfRange
  else if 4 < c.transport then .badParam
  else if (rxSlot s i).state ≠ .off then .busy
  else if c.transport = 0 then .ok
  else checks
    [ (decide (2 < c.encoding), .badParam),
      (u8 p 3 == 0 || decide (3 < u8 p 3), .badParam),
      (decide (5 < c.rate), .badParam),
      (decide (4 < c.ptime), .badParam),
      (decide (c.streamCh < 1) || decide (64 < c.streamCh), .outOfRange),
      (decide (c.streamCh ≤ c.chFirst), .outOfRange),
      (decide (c.channels < 1) || decide (64 < c.channels), .outOfRange),
      (groupRange c.group, .outOfRange),
      (c.pt != 0 && (!rtp || decide (c.pt < 96) || decide (127 < c.pt)), .outOfRange),
      (decide (c.linkUs < 250) || decide (20000 < c.linkUs), .outOfRange),
      (c.destA != 0 && !ipMulti c.destA, .badParam),
      (c.destB != 0 && !ipMulti c.destB, .badParam),
      (!ipOrNone c.srcA, .badParam),
      (!ipOrNone c.srcB, .badParam),
      (udpBad c.portA, .outOfRange),
      (udpBad c.portB, .outOfRange),
      (decide (4094 < c.vlan), .outOfRange),
      (u16 p 38 != 0, .badParam),
      (rtp && c.streamId != 0, .badParam),
      (rtp && c.destMac != 0, .badParam),
      (u16 p 54 != 0, .badParam),
      (!rtp && decide (20000000 < c.timeOffset), .outOfRange),
      (encodingBad c.transport c.encoding || decide (c.streamCh < c.chFirst + c.channels)
        || decide (256 < c.first + c.channels) || pathsBad s c.transport c.paths || streamGroupBad s c.group i, .badParam),
      (decide (c.linkUs < ptimeUs c.ptime + 125), .outOfRange),
      (chargeBad s (putRx i c s), .noResource) ]

/-- STREAM_RX_SET (R437). -/
def execStreamRxSet (h : Hdr) (p : Bytes) (s : State) : R :=
  opcodeN .streamRxSet 64 h p (fun s =>
    guardSt (checkRxSet p s) s
      (let i := u8 p 0
       let id : BulkId := .streamRx (Fin.ofNat 64 i)
       if u8 p 1 = 0 then done (poolDrop id (putRx i {} s))
       else done (poolPut id 128 (putRx i (rxOf p) s)))) s

/-- A destination the slot sends to on a path lies outside the prefix of a port that has no gateway (R439). -/
def noRoute (s : State) (b : Bool) (dest : Word) : Bool :=
  let (addr, n, gw) := pathAddr (netCfg s) b
  !ipMulti dest && !samePrefix n addr dest && gw == 0

/-- A transmit slot's destination on a path. -/
def txDest (c : TxSlotCfg) (b : Bool) : Word := if b then c.destB else c.destA

/-- Some path that the slot uses has a destination that fails `f`. -/
def anyDest (c : TxSlotCfg) (f : Bool → Word → Bool) : Bool :=
  [false, true].any (fun b => c.paths.getLsbD (bit b) && f b (txDest c b))

/-- Checks of STREAM_TX_SET. -/
def checkTxSet (p : Bytes) (s : State) : Status :=
  let i := u8 p 0
  let c := txOf p
  let rtp := isRtp c.transport
  if 63 < i then .outOfRange
  else if 4 < c.transport then .badParam
  else if (txSlot s i).state ≠ .off then .busy
  else if c.transport = 0 then .ok
  else checks
    [ (decide (2 < c.encoding), .badParam),
      (u8 p 3 == 0 || decide (3 < u8 p 3), .badParam),
      (decide (5 < c.rate), .badParam),
      (decide (4 < c.ptime), .badParam),
      (decide (c.channels < 1) || decide (64 < c.channels), .outOfRange),
      (decide (7 < c.pcp), .outOfRange),
      (decide (63 < c.dscp), .outOfRange),
      (c.ttl == 0, .outOfRange),
      (if rtp then decide (c.pt < 96) || decide (127 < c.pt) else c.pt != 0, .outOfRange),
      (c.destA != 0 && !ipMulti c.destA && !ipUnicast c.destA, .badParam),
      (c.destB != 0 && !ipMulti c.destB && !ipUnicast c.destB, .badParam),
      (udpBad c.portA, .outOfRange),
      (udpBad c.portB, .outOfRange),
      (decide (4094 < c.vlan) || (!rtp && c.vlan == 0), .outOfRange),
      (decide (1 < u8 p 30) || (rtp && u8 p 30 != 0), .badParam),
      (u8 p 31 != 0, .badParam),
      (rtp && c.streamId != 0, .badParam),
      (rtp && c.destMac != 0, .badParam),
      (u16 p 46 != 0, .badParam),
      (!rtp && decide (20000000 < c.timeOffset), .outOfRange),
      (!zeroAt p 52 12, .badParam),
      (encodingBad c.transport c.encoding || decide (256 < c.first + c.channels) || pathsBad s c.transport c.paths
        || (!rtp && (if c.classB then decide (1 < c.ptime) else c.ptime != 0))
        || (rtp && anyDest c (fun _ d => d == 0)) || (rtp && anyDest c (noRoute s)), .badParam),
      (decide (1440 < txPayload c), .outOfRange),
      (chargeBad s (putTx i c s), .noResource) ]

/-- STREAM_TX_SET (R439). -/
def execStreamTxSet (h : Hdr) (p : Bytes) (s : State) : R :=
  opcodeN .streamTxSet 64 h p (fun s =>
    guardSt (checkTxSet p s) s
      (let i := u8 p 0
       let id : BulkId := .streamTx (Fin.ofNat 64 i)
       if u8 p 1 = 0 then done (poolDrop id (putTx i {} s))
       else done (poolPut id 128 (putTx i (txOf p) s)))) s

/-! ### STREAM_ENABLE (R440, R441) -/

/-- Key of a slot in Decant. -/
def rxKey (i : Nat) : Nat := 320 + i
def txKey (i : Nat) : Nat := 384 + i
def rxDec (s : State) (i : Nat) : Bool := s.cfg.clock.decant.streamRx.getLsbD i
def txDec (s : State) (i : Nat) : Bool := s.cfg.clock.decant.streamTx.getLsbD i

/-- A path lies on an undeclared port; in SWITCHED mode the endpoint needs either port. -/
def pathUndeclared (s : State) (paths : BitVec 2) : Bool :=
  if (netCfg s).switched then !linkDeclared s .neta && !linkDeclared s .netb
  else (paths.getLsbD 0 && !linkDeclared s .neta) || (paths.getLsbD 1 && !linkDeclared s .netb)

/-- A path of an RTP slot has no address. -/
def pathNoAddr (s : State) (paths : BitVec 2) : Bool :=
  (paths.getLsbD 0 && (netCfg s).addrA == 0) || (paths.getLsbD 1 && (pathAddr (netCfg s) true).1 == 0)

/-- Refusals of R440 that both directions share. -/
def enableBad (s : State) (transport rate : Nat) (paths : BitVec 2) (dec : Bool) : Bool :=
  transport == 0 || pathUndeclared s paths || (isRtp transport && pathNoAddr s paths)
    || (!isRtp transport && s.cfg.clock.ptp.profile != 3) || (rateHz rate != fsNow s && !dec)

/-- The slot is not yet enabled: off, or on its way off. -/
def rxIdle (s : State) (i : Nat) : Bool := (rxSlot s i).state == .off || (rxSlot s i).state == .stopping
def txIdle (s : State) (i : Nat) : Bool := (txSlot s i).state == .off || (txSlot s i).state == .stopping

/-- Two receive slots' source ranges overlap. -/
def rxOverlap (a b : RxSlotCfg) : Bool := decide (a.first < b.first + b.channels) && decide (b.first < a.first + a.channels)

/-- Some slot to be enabled overlaps another that is or will be. -/
def overlapBad (s : State) (l : List Nat) : Bool :=
  l.any (fun i => (List.range 64).any (fun j => j != i && (l.contains j || rxActive s j)
    && rxOverlap (rxSlotCfg s i) (rxSlotCfg s j)))

/-- Checks of STREAM_ENABLE. -/
def checkStreamEnable (p : Bytes) (s : State) : Status :=
  let on := u8 p 16 == 1
  let rx := (bitsOf 64 (u64 p 0)).filter (rxIdle s)
  let tx := (bitsOf 64 (u64 p 8)).filter (txIdle s)
  let all := txEnabled s ++ tx.filter (fun i => (txSlot s i).state == .off)
  checks
    [ (p.length != 20, .badLength),
      (decide (1 < u8 p 16), .badParam),
      (!zeroAt p 17 3, .badParam),
      (on && (rx.any (fun i => let c := rxSlotCfg s i; enableBad s c.transport c.rate c.paths (rxDec s i))
        || tx.any (fun i => let c := txSlotCfg s i; enableBad s c.transport c.rate c.paths (txDec s i))
        || overlapBad s rx), .badParam),
      (on && fsOf s == 2 && (rx.any (fun i => decide (128 < (rxSlotCfg s i).first + (rxSlotCfg s i).channels))
        || tx.any (fun i => decide (128 < (txSlotCfg s i).first + (txSlotCfg s i).channels))), .badHandle),
      (on && (decide (loadLimit s .neta < txLoad s false all) || decide (loadLimit s .netb < txLoad s true all)),
        .noResource) ]

/-- Decant on a slot starts anew. -/
def decantAnew (key : Nat) (s : State) : State :=
  { s with clk := { s.clk with decant := tset {} s.clk.decant key {} } }

/-- A receive slot is switched on (R441). -/
def rxOn (s0 : State) (i : Nat) : State :=
  let s := putRx i { rxSlotCfg s0 i with run := true } s0
  let x := rxSlot s i
  match x.state with
  | .off => igmpReports i (decantAnew (rxKey i) (setRxSlot i
      { state := .starting, packetsA := x.packetsA, packetsB := x.packetsB, under := x.under, late := x.late,
        discards := x.discards, since := momentOf s } s))
  | .stopping => setRxSlot i { x with state := if x.cur.isEmpty then .starting else .running } s
  | _ => s

/-- A receive slot is switched off. -/
def rxOff (s0 : State) (i : Nat) : State :=
  let s := putRx i { rxSlotCfg s0 i with run := false } s0
  let x := rxSlot s i
  match x.state with
  | .off | .stopping => s
  | _ => setRxSlot i { x with state := .stopping } s

/-- A transmit slot is switched on: its sequence number starts at a random value, and its SSRC is drawn when it is 0. -/
def txOn (s0 : State) (i : Nat) : State :=
  let s := putTx i { txSlotCfg s0 i with run := true } s0
  let x := txSlot s i
  match x.state with
  | .off =>
    let (k, s1) := fresh s
    let c := txSlotCfg s i
    decantAnew (txKey i) (setTxSlot i
      { state := .starting, seq := Config.rtpSeq k, ssrc := if c.ssrc = 0 then Config.rtpSsrc k else c.ssrc,
        packetsA := x.packetsA, packetsB := x.packetsB } s1)
  | .stopping => setTxSlot i { x with state := .running, silentAt := none } s
  | _ => s

/-- A transmit slot is switched off. -/
def txOff (s0 : State) (i : Nat) : State :=
  let s := putTx i { txSlotCfg s0 i with run := false } s0
  let x := txSlot s i
  match x.state with
  | .off | .stopping => s
  | _ => setTxSlot i { x with state := .stopping, silentAt := none } s

/-- STREAM_ENABLE lands: every addressed slot begins its sequence. -/
def landStreamEnable (p : Bytes) (s : State) : State :=
  let rx := bitsOf 64 (u64 p 0)
  let tx := bitsOf 64 (u64 p 8)
  let s1 := if u8 p 16 = 1 then tx.foldl txOn (rx.foldl rxOn s) else tx.foldl txOff (rx.foldl rxOff s)
  postEvent 5 s1

/-- STREAM_ENABLE (R440). -/
def execStreamEnable (h : Hdr) (p : Bytes) (s : State) : R :=
  opcode .streamEnable h p (landing .streamEnable h p (checkStreamEnable p)) s

/-! ### Media time (R442) -/

/-- Media time, in frames, of the latest tick. -/
def mediaTick (s : State) : Int :=
  if onGrid s then (s.clk.frame : Int) else s.clk.tickTai * (fsNow s : Int) / 1000000000

/-- Link offset in force, in frames: the group's or the slot's own (R212, R213). -/
def linkFrames (s : State) (c : RxSlotCfg) : Nat :=
  usFrames s (if c.group = 0xFF then c.linkUs else (tget {} s.cfg.clock.align c.group).linkUs)

/-- The instant, on a Decant-assigned stream's timeline, of the sample Decant computes for the latest tick, and a time of that
timeline, in units of 1/(RATE × fs_int) s (R209, R442). -/
def decantInstant (s : State) (c : RxSlotCfg) : Int :=
  (mediaTick s - (linkFrames s c : Int) - 24) * (rateHz c.rate : Int)
def decantWindow (c : RxSlotCfg) : Nat := 24 * rateHz c.rate

/-- Media time, in samples at RATE, due at the latest tick. -/
def mediaDue (s : State) (c : RxSlotCfg) (dec : Bool) : Int :=
  let m := mediaTick s - (linkFrames s c : Int)
  if dec then m * (rateHz c.rate : Int) / (fsNow s : Int) else m

/-- PTP time at which a sample is presented, ns. -/
def presentNs (s : State) (c : RxSlotCfg) (m : Nat) : Int :=
  ((m * 1000000000 / rateHz c.rate + linkFrames s c * 1000000000 / fsNow s : Nat) : Int)

/-- The value congruent to `t` modulo 2^32 nearest to `now`. -/
def nearest32 (t : Nat) (now : Int) : Int :=
  let d := ((t : Int) - now) % 4294967296
  if d < 2147483648 then now + d else now + d - 4294967296

/-- Media time of a received packet's first sample. -/
def packetMedia (s : State) (c : RxSlotCfg) (timestamp : Word) : Int :=
  let t := (timestamp - BitVec.ofNat 32 c.timeOffset).toNat
  let r : Int := rateHz c.rate
  if isRtp c.transport then nearest32 t (taiNow s * r / 1000000000)
  else (nearest32 t (taiNow s) * r * 2 + 1000000000) / 2000000000

/-! ### Received packets (R438, R444, R445) -/

/-- Path of a packet: in SWITCHED mode the endpoint whatever port it came by. -/
def packetPath (s : State) (m : MediaPacket) : Bool := !(netCfg s).switched && m.port == .b

/-- The packet is addressed to the slot: its destination and UDP port, or its stream ID. -/
def addressed (s : State) (c : RxSlotCfg) (m : MediaPacket) : Bool :=
  let b := packetPath s m
  c.paths.getLsbD (bit b) && m.rtp == isRtp c.transport &&
    (if m.rtp then
      let d := if b then c.destB else c.destA
      m.destIp == (if d = 0 then (pathAddr (netCfg s) b).1 else d)
        && m.udpPort.toNat == (if b then c.portB else c.portA)
    else m.streamId == c.streamId)

/-- The rest of R438. -/
def packetValid (s : State) (c : RxSlotCfg) (m : MediaPacket) : Bool :=
  let src := if packetPath s m then c.srcB else c.srcA
  m.vlan.toNat == c.vlan && decide (m.payload.length ≤ 1440)
    && m.payload.length % (c.streamCh * sampleBytes c.encoding) == 0
    && (if m.rtp then (src == 0 || src == m.srcIp) && (c.pt == 0 || c.pt == m.pt.toNat) && (c.ssrc == 0 || c.ssrc == m.ssrc)
        else m.destMac == c.destMac)

/-- One channel's sample at offset `o` of a payload: its value, Q1.31, and with AM824 its V, U, C and block-start bits. -/
def sampleAt (enc : Nat) (p : Bytes) (o : Nat) : Int × Nat :=
  if enc = 0 then (signed 32 (beAt p o 2 * 65536), 0)
  else if enc = 1 then (signed 32 (beAt p o 3 * 256), 0)
  else
    let l := u8 p o
    (signed 32 (beAt p (o + 1) 3 * 256), l % 8 + 8 * (l / 32 % 2))

/-- The frame at index `f` of a payload, as the slot takes it. -/
def frameAt (c : RxSlotCfg) (p : Bytes) (f : Nat) : StreamSample :=
  let n := sampleBytes c.encoding
  let v := (List.range c.channels).map (fun k => sampleAt c.encoding p ((f * c.streamCh + c.chFirst + k) * n))
  { vals := v.map Prod.fst, aux := if c.encoding = 2 then v.map Prod.snd else [] }

/-- A sample goes to its place, or is discarded: late (R444), or more than 20 ms beyond its presentation (R216). -/
def placeSample (i : Nat) (c : RxSlotCfg) (dec : Bool) (due : Int) (m : Int) (v : StreamSample) (s : State) : State :=
  let x := rxSlot s i
  if m ≤ due || taiNow s + (linkFrames s c * 1000000000 / fsNow s : Nat) + 20000000 < presentNs s c m.toNat then
    raise .streamLate (rxObject s i) 0 (streamDetail i (pathsCode c.paths) 0)
      (setRxSlot i { x with late := sat32 (x.late + 1) } s)
  else if dec && decide (m < 0) then s
  else setRxSlot i { x with buf := tset none x.buf m.toNat (some v) } s

/-- Extends a sequence number to the value nearest the newest one (R445). -/
def extendSeq (l : List (Nat × NetPort × Nat)) (q : BitVec 16) : Nat :=
  match l with
  | [] => 65536 + q.toNat
  | (n, _, _) :: _ =>
    let d := ((q.toNat : Int) - (n : Int)) % 65536
    (if d < 32768 then (n : Int) + d else (n : Int) + d - 65536).toNat

/-- Drops what is older than 1 s. -/
def lastSecond {α : Type} (now : Nat) (l : List (Nat × α)) : List (Nat × α) := l.filter (fun e => decide (now < e.1 + secCounts))

/-- Notes a sequence number on a path: the slot after it, and whether the packet is to be used. -/
def mergeSeq (b : Bool) (q : BitVec 16) (now : Nat) (x : RxSlot) : RxSlot × Bool :=
  let l := x.seqs.filter (fun e => decide (now < e.2.2 + secCounts))
  let n := extendSeq l q
  let p : NetPort := if b then .b else .a
  match l.find? (fun e => e.1 == n) with
  | none => ({ x with seqs := (n, p, now) :: l }, true)
  | some (_, p0, t0) =>
    if p0 = p then ({ x with seqs := l }, false)
    else
      let d : Int := if b then (t0 : Int) - (now : Int) else (now : Int) - (t0 : Int)
      ({ x with seqs := l, skews := lastSecond now x.skews ++ [(now, d)] }, false)

/-- PATH_LOST leaves force when its path delivers again. -/
def pathBack (i : Nat) (b : Bool) (s : State) : State :=
  match s.flt.active.find? (fun c => c.code == .pathLost && c.object == rxObject s i && c.index == 0) with
  | none => s
  | some c => if c.detail.toNat / 256 % 256 = bit b then postEvent 5 (release .pathLost (rxObject s i) 0 s) else s

/-- A valid packet for a slot. -/
def takePacket (i : Nat) (m : MediaPacket) (s : State) : State :=
  let c := rxSlotCfg s i
  let x := rxSlot s i
  let b := packetPath s m
  let dec := rxDec s i
  let x1 := if b then { x with packetsB := sat32 (x.packetsB + 1), lastB := some s.sysCnt }
    else { x with packetsA := sat32 (x.packetsA + 1), lastA := some s.sysCnt }
  let s1 := setRxSlot i x1 s
  let s2 := if inForce .streamLost (rxObject s i) 0 s1 then postEvent 5 (release .streamLost (rxObject s i) 0 s1) else s1
  let s3 := pathBack i b s2
  let (x2, use) := if c.paths = 3 then mergeSeq b m.seq s.sysCnt x1 else (x1, true)
  let s4 := setRxSlot i x2 s3
  if !use then s4
  else
    let m0 := packetMedia s c m.timestamp
    let n := m.payload.length / (c.streamCh * sampleBytes c.encoding)
    let due := mediaDue s c dec
    let margin := presentNs s c m0.toNat - taiNow s
    let s5 := setRxSlot i { x2 with margins := lastSecond s.sysCnt x2.margins ++ [(s.sysCnt, margin)] } s4
    (List.range n).foldl (fun a (k : Nat) => placeSample i c dec due (m0 + (k : Int)) (frameAt c m.payload k) a) s5

/-- MEDIA_PACKET_RECEIVED (R438, R442, R444, R445). Every enabled slot it is addressed to takes it. -/
def execMediaPacketReceived (dt : Nat) (m : MediaPacket) (s0 : State) : R :=
  let s := advance dt s0
  let l := linkPortOf m.port
  if !modeUp s.life.mode || !linkIsUp s l then .next s
  else .next ((List.range 64).foldl (fun a i =>
    if rxActive a i && addressed a (rxSlotCfg a i) m then
      if packetValid a (rxSlotCfg a i) m then takePacket i m a
      else setRxSlot i { rxSlot a i with discards := sat32 ((rxSlot a i).discards + 1) } a
    else a) (countRx l s))

/-! ### Presentation at a tick (R441, R444, R447) -/

/-- Follows a channel's status block: frames since its start and the non-audio bit (R401). -/
def csTrack (aux : Nat) (pos : Nat) (non : Bool) : Nat × Bool :=
  let p := if 8 ≤ aux then 0 else pos + 1
  (p, if p = 1 then aux / 4 % 2 == 1 else non)

/-- The V rule of VALIDITY 0 on one channel: the value used, the last good value, the run of V, and whether a run
begins. -/
def validityOf (v : Int) (aux : Nat) (non : Bool) (last : Int) (reps : Nat) : Int × Int × Nat × Bool :=
  if aux % 2 = 1 && !non then (last, last, reps + 1, reps == 0)
  else (v, v, 0, aux % 2 == 1 && reps == 0)

/-- Applies the V rule to a presented frame of an AM824 slot: the slot, its values and the channels whose run begins. -/
def am824Frame (x : RxSlot) (v : StreamSample) : RxSlot × List Int × List Nat :=
  let n := v.vals.length
  let track := (List.range n).map (fun k => csTrack (v.aux.getD k 0) (x.csPos.getD k 191) (x.nonAudio.getD k false))
  let res := (List.range n).map (fun k => validityOf (v.vals.getD k 0) (v.aux.getD k 0) ((track.getD k (0, false)).2)
    (x.vLast.getD k 0) (x.vReps.getD k 0))
  ({ x with csPos := track.map Prod.fst, nonAudio := track.map Prod.snd, vLast := res.map (·.2.1),
            vReps := res.map (·.2.2.1), aux := (v.aux :: x.aux).take 96002 },
    res.map Prod.fst, (List.range n).filter (fun k => (res.getD k (0, 0, 0, false)).2.2.2))

/-- Values a Decant-assigned slot presents: computed from its samples around the instant (R209). -/
def rxDecantVals (s : State) (i : Nat) : List Int :=
  let c := rxSlotCfg s i
  let l := (rxSlot s i).buf.filterMap (fun e => e.2.map (fun v => (((e.1 * fsNow s : Nat) : Int), v.vals)))
  (List.range c.channels).map (fun k => decantValue (rxKey i) (decantWindow c) k (decantInstant s c) l)

/-- What a slot keeps of its buffer once media time `due` has been presented: the samples after it, and for Decant those it may
still use. -/
def keepBuf (s : State) (i : Nat) (due : Int) (b : Tab (Option StreamSample)) : Tab (Option StreamSample) :=
  let c := rxSlotCfg s i
  if rxDec s i then
    b.filter (fun e => decide (decantInstant s c - (decantWindow c : Int) < ((e.1 * fsNow s : Nat) : Int)))
  else b.filter (fun e => decide (due < (e.1 : Int)))

/-- A slot stops: leave sent, buffer released. -/
def rxEnd (i : Nat) (s : State) : State :=
  let x := rxSlot s i
  let s1 := igmpLeaves i s
  let s2 := setRxSlot i { packetsA := x.packetsA, packetsB := x.packetsB, under := x.under, late := x.late,
                           discards := x.discards } s1
  let s3 := release .streamLost (rxObject s i) 0 (release .pathLost (rxObject s i) 0 s2)
  postEvent 5 (decantAnew (rxKey i) s3)

/-- A frame is present for the tick. -/
def rxPresent (i : Nat) (v : StreamSample) (due : Nat) (s : State) : State :=
  let c := rxSlotCfg s i
  let x := rxSlot s i
  let am := c.encoding = 2
  let (x1, vals, runs) := if am then am824Frame x v else (x, v.vals, [])
  let vals1 := if rxDec s i then rxDecantVals s i else vals
  let stop := x.state == .stopping
  let y := { x1 with
    cur := vals1, reps := 0, w := if stop then x.w - 1 else min 32 (x.w + 1), shown := some due
    buf := keepBuf s i due x1.buf, state := if stop then .stopping else .running }
  let s1 := setRxSlot i y s
  let s2 := runs.foldl (fun a k =>
    raise .aesValidity (mkHandle 0x05 (c.first + k)) 0 (BitVec.ofNat 32 (i + 5 * 256)) a) s1
  if x.state = .starting || x.state = .faded || x.state = .repeating then postEvent 5 s2 else s2

/-- No frame is present for the tick: an underrun once the slot has begun to run. -/
def rxMissing (i : Nat) (due : Int) (s : State) : State :=
  let c := rxSlotCfg s i
  let x := rxSlot s i
  match x.state with
  | .off | .starting => setRxSlot i { x with buf := keepBuf s i due x.buf } s
  | .stopping => setRxSlot i { x with w := x.w - 1 } s
  | _ =>
    let reps := x.reps + 1
    let lim := repeatLimit s c.group
    let fade := decide (lim < reps)
    let y := { x with
      reps := reps, under := sat32 (x.under + 1), w := if fade then x.w - 1 else x.w
      state := if fade then .faded else .repeating }
    let s1 := raise .streamUnderrun (rxObject s i) 0 (streamDetail i (pathsCode c.paths) 1) (setRxSlot i y s)
    if y.state = x.state then s1 else postEvent 5 s1

/-- A receive slot at the tick. -/
def presentStream (i : Nat) (s : State) : State :=
  let x := rxSlot s i
  if x.state = .off then s
  else
    let dec := rxDec s i
    let due := mediaDue s (rxSlotCfg s i) dec
    let v : Option StreamSample := if due < 0 then none else tget none x.buf due.toNat
    let again := !dec && x.shown == some due.toNat
    let s1 := match v with
      | some f => if again || (dec && !decantLocked s (rxKey i)) then rxMissing i due s else rxPresent i f due.toNat s
      | none => rxMissing i due s
    if x.state = .stopping && (rxSlot s1 i).w = 0 then rxEnd i s1 else s1

/-- Every receive slot at the tick. -/
def presentStreams (s : State) : State := s.net.rx.foldl (fun a e => presentStream e.1 a) s

/-- Value of a NETRX source: its slot's channel under the slot's fade and the V fade of AM824, exact zeros where no slot
presents it. -/
def streamSource (s : State) (h : Handle) : Int :=
  let k := hIndex h
  match s.net.rx.find? (fun e => e.2.state != .off && decide ((rxSlotCfg s e.1).first ≤ k)
      && decide (k < (rxSlotCfg s e.1).first + (rxSlotCfg s e.1).channels)) with
  | none => 0
  | some (i, x) =>
    let c := rxSlotCfg s i
    let j := k - c.first
    let lim := repeatLimit s c.group
    let vw := 32 - min 32 (x.vReps.getD j 0 - lim)
    rampW vw (rampW x.w (x.cur.getD j 0))

/-! ### The packer (R441, R443, R447) -/

/-- A transmit slot carries a NETTX index and is not on its way off. -/
def txCarries (s : State) (k : Nat) : Bool :=
  s.net.tx.any (fun e => e.2.state != .off && e.2.state != .stopping && decide ((txSlotCfg s e.1).first ≤ k)
    && decide (k < (txSlotCfg s e.1).first + (txSlotCfg s e.1).channels))

/-- The one received AM824 channel that feeds a NETTX sink as R447 asks: its slot and channel. -/
def transparentFrom (s : State) (k : Nat) : Option (Nat × Nat) :=
  let h := mkHandle 0x87 k
  let sk := tget ({} : SinkCfg) s.cfg.mix.sinks h.toNat
  match s.cfg.graph.edges.filter (fun e => e.sink == h) with
  | [e] =>
    if hClass e.src == 5 && e.gain == 0 && !e.invert && sk.narrow == 0 && sk.limMode == 0 then
      match s.net.rx.find? (fun r => r.2.state != .off && (rxSlotCfg s r.1).encoding == 2 && !rxDec s r.1
          && decide ((rxSlotCfg s r.1).first ≤ hIndex e.src)
          && decide (hIndex e.src < (rxSlotCfg s r.1).first + (rxSlotCfg s r.1).channels)) with
      | some r => some (r.1, hIndex e.src - (rxSlotCfg s r.1).first)
      | none => none
    else none
  | _ => none

/-- Delay of a sink stage, frames. -/
def sinkDelay (s : State) (k : Nat) : Nat :=
  let h := mkHandle 0x87 k
  delayFrames s.clk.fs (tget ({} : SinkCfg) s.cfg.mix.sinks h.toNat).delayUs + padOf s h

/-- An AM824 channel pair of a transmit slot passes C and U unchanged: the slot and channel they come from. -/
def pairFrom (s : State) (i pair : Nat) : Option (Nat × Nat) :=
  let k := (txSlotCfg s i).first + 2 * pair
  match transparentFrom s k, transparentFrom s (k + 1) with
  | some (r, a), some (r', b) =>
    if r = r' && a % 2 == 0 && b == a + 1 && !txDec s i && sinkDelay s k == sinkDelay s (k + 1) then some (r, a) else none
  | _, _ => none

/-- Bits an AM824 channel carries with a frame: those that came with it, or the default professional block (R447). -/
def auxOut (s : State) (i ch : Nat) (media : Nat) : Nat :=
  match pairFrom s i (ch / 2) with
  | some (r, a) =>
    let d := sinkDelay s ((txSlotCfg s i).first + ch) + 1
    let b := ((rxSlot s r).aux.getD d []).getD (a + ch % 2) 0
    b / 2 % 8 * 2
  | none =>
    let pos := media % 192
    let byte := (csSent csDefault).getD (pos / 8) 0
    4 * bit (byte.getLsbD (pos % 8)) + 8 * bit (pos == 0)

/-- Every sink of a slot that no other running slot carries is silent. -/
def slotSilent (s : State) (i : Nat) : Bool :=
  let c := txSlotCfg s i
  (List.range c.channels).all (fun k =>
    txCarries s (c.first + k) ||
      match s.mix.mutes.find? (fun e => e.1 == .sink (mkHandle 0x87 (c.first + k))) with
      | some e => e.2.w == 0
      | none => false)

/-- Hands a tick's sink values to a transmit slot (R443). `get` gives a NETTX sink's value. -/
def feedStream (get : Nat → Int) (s : State) (i : Nat) : State :=
  let x := txSlot s i
  let c := txSlotCfg s i
  if x.state = .off then s
  else
    let m := (mediaTick s).toNat
    let v : StreamSample :=
      { vals := (List.range c.channels).map (fun k => get (c.first + k))
        aux := if c.encoding = 2 then (List.range c.channels).map (fun k => auxOut s i k m) else [] }
    let p := packetSamples c.rate c.ptime
    let buf := ((m, v) :: x.buf).take (if txDec s i then 50 + ceilDiv (2 * p * fsNow s) (rateHz c.rate) else 2 * p)
    let quiet := if x.state = .stopping && x.silentAt.isNone && slotSilent s i then some m else x.silentAt
    setTxSlot i { x with buf := buf, silentAt := quiet } s

/-- Every transmit slot takes its sinks' values. -/
def feedStreams (get : Nat → Int) (s : State) : State := s.net.tx.foldl (fun a e => feedStream get a e.1) s

/-- `n` bytes, most significant first. -/
def be (n v : Nat) : Bytes := (le n v).reverse

/-- A sample as it is sent (R435, R439). -/
def sampleOut (enc : Nat) (v : Int) (aux : Nat) : Bytes :=
  let w := (v % 4294967296).toNat
  if enc = 0 then be 2 (w / 65536) else if enc = 1 then be 3 (w / 256)
  else be 1 (aux % 8 + 32 * (aux / 8 % 2)) ++ be 3 (w / 256)

/-- A frame as it is sent. -/
def frameOut (c : TxSlotCfg) (v : StreamSample) : Bytes :=
  (List.range c.channels).flatMap (fun k => sampleOut c.encoding (v.vals.getD k 0) (v.aux.getD k 0))

/-- The packet that can leave: the earliest run of P buffered media times that begins at a multiple of P. -/
def readyPacket (p : Nat) (buf : List (Nat × StreamSample)) : Option (Nat × List StreamSample) :=
  let starts := (buf.map Prod.fst).filter (fun m => m % p == 0)
  let whole := starts.filter (fun m => (List.range p).all (fun k => buf.any (fun e => e.1 == m + k)))
  match whole.getLast? with
  | none => none
  | some m => some (m, (List.range p).map (fun k =>
      match buf.find? (fun e => e.1 == m + k) with
      | some e => e.2
      | none => ⟨[], []⟩))

/-- The MAC address a packet goes to where that is one port's. -/
def unicastMac (s : State) (c : TxSlotCfg) (b : Bool) : Option (BitVec 48) :=
  if isRtp c.transport then (if ipMulti (txDest c b) then none else some (Config.arpMac (txDest c b).toNat s.sysCnt))
  else if macMulti c.destMac then none else some c.destMac

/-- Ports a packet of a path leads to (R424, R430, R433): in SWITCHED mode the bridge floods a group, and sends another packet where its
address was learned. -/
def mediaLinks (s : State) (c : TxSlotCfg) (b : Bool) : List LinkPort :=
  if !(netCfg s).switched then [if b then .netb else .neta]
  else
    let host := if isRtp c.transport && s.net.hostGroups.contains (txDest c b) then [LinkPort.hostnet] else []
    match unicastMac s c b with
    | none => [.neta, .netb] ++ host
    | some mac => match s.net.fdb.find? (fun e => e.mac == mac && e.vlan.toNat == c.vlan) with
      | some e => [e.port]
      | none => [.neta, .netb, .hostnet]

/-- Ports a slot sends a path's packets on: configured, the link up, not suspended, the destination resolved (R423, R425,
R449). -/
def txLinks (s : State) (i : Nat) (b : Bool) : List LinkPort :=
  let c := txSlotCfg s i
  let x := txSlot s i
  let d := txDest c b
  let sus (l : LinkPort) : Bool := match l with | .neta => x.susA | .netb => x.susB | .hostnet => false
  if c.paths.getLsbD (bit b) && (!isRtp c.transport || ipMulti d || Config.arpResolved d.toNat s.sysCnt) then
    (mediaLinks s c b).filter (fun l => linkIsUp s l && !sus l)
  else []

/-- The slot sends on a path. -/
def txSends (s : State) (i : Nat) (b : Bool) : Bool := !(txLinks s i b).isEmpty

/-- The timestamp of a packet (R443). -/
def txTimestamp (c : TxSlotCfg) (m : Nat) : Word :=
  if isRtp c.transport then BitVec.ofNat 32 (m + c.timeOffset)
  else BitVec.ofNat 32 (m * 1000000000 / rateHz c.rate + c.timeOffset)

/-- Sends a packet on a path. -/
def sendMedia (i m : Nat) (payload : Bytes) (s : State) (b : Bool) : State :=
  let c := txSlotCfg s i
  let x := txSlot s i
  match txLinks s i b with
  | [] => s
  | l =>
    let y := if b then { x with packetsB := sat32 (x.packetsB + 1) } else { x with packetsA := sat32 (x.packetsA + 1) }
    l.foldl (fun a p => sendOut p (.media p (Fin.ofNat 64 i) c x.seq x.ssrc (txTimestamp c m) payload) a) (setTxSlot i y s)

/-- One frame of a Decant-assigned slot at media time `m`: computed from the sink values of 24 frames before (R209); unlocked, the
last frame is repeated over the mute ramp (R201). The weight of the fade, the frame before it, and the frame sent. -/
def decantFrame (s : State) (i m : Nat) (a : Nat × List Int × List StreamSample) : Nat × List Int × List StreamSample :=
  let c := txSlotCfg s i
  let lock := decantLocked s (txKey i)
  let t : Int := ((m * fsNow s : Nat) : Int) - (decantWindow { rate := c.rate } : Int)
  let l := (txSlot s i).buf.map (fun e => (((e.1 * rateHz c.rate : Nat) : Int), e.2.vals))
  let v := if lock then (List.range c.channels).map (fun ch =>
    decantValue (txKey i) (decantWindow { rate := c.rate }) ch t l) else a.2.1
  let w := if lock then min 32 (a.1 + 1) else a.1 - 1
  let aux := if c.encoding = 2 then (List.range c.channels).map (fun ch => auxOut s i ch m + bit !lock) else []
  (w, v, a.2.2 ++ [⟨v.map (rampW w), aux⟩])

/-- The packet of a Decant-assigned slot, on its own media clock: its media time, and the fade, the last frame and the frames
after it. -/
def decantPacket (s : State) (i : Nat) : Nat × Nat × List Int × List StreamSample :=
  let c := txSlotCfg s i
  let x := txSlot s i
  let p := max 1 (packetSamples c.rate c.ptime)
  let m := ((taiNow s * (rateHz c.rate : Int) / 1000000000).toNat + 1) / p * p - p
  (m, (List.range p).foldl (fun a k => decantFrame s i (m + k) a) (x.w, x.last, []))

/-- The packet of a slot that is complete: its media time, its frames, and Decant's fade and last frame after it. -/
def nextPacket (s : State) (i : Nat) : Option (Nat × List StreamSample × Nat × List Int) :=
  let c := txSlotCfg s i
  let x := txSlot s i
  if txDec s i then
    let (m, w, v, l) := decantPacket s i
    some (m, l, w, v)
  else (readyPacket (max 1 (packetSamples c.rate c.ptime)) x.buf).map (fun e => (e.1, e.2, x.w, x.last))

/-- A transmit slot has stopped. -/
def txEnd (i : Nat) (s : State) : State :=
  let x := txSlot s i
  let s1 := setTxSlot i { packetsA := x.packetsA, packetsB := x.packetsB } s
  let s2 := if inForce .streamLost (txObject s i) 0 s1 && !(txEnabled s1).any (fun j => txObject s1 j == txObject s i
      && ((txSlot s1 j).susA || (txSlot s1 j).susB)) then release .streamLost (txObject s i) 0 s1 else s1
  postEvent 5 (decantAnew (txKey i) s2)

/-- STREAM_PACKET_SEND (R441, R443): a packet is complete and leaves; with PATHS 0x03 the same packet on both ports. -/
def execStreamPacketSend (dt : Nat) (slot : Fin 64) (s0 : State) : R :=
  let s := advance dt s0
  let i := slot.val
  let c := txSlotCfg s i
  let x := txSlot s i
  let p := max 1 (packetSamples c.rate c.ptime)
  if x.state = .off || !modeUp s.life.mode then .next s
  else
    match nextPacket s i with
    | none => .next s
    | some (m, l, w, v) =>
      let payload := l.flatMap (frameOut c)
      let s1 := [false, true].foldl (sendMedia i m payload) s
      let y := txSlot s1 i
      let last := match y.silentAt with
        | some q => decide (q < m + p)
        | none => false
      let s2 := setTxSlot i { y with
        seq := y.seq + 1, w := w, last := v
        buf := if txDec s i then y.buf else y.buf.filter (fun e => decide (m + p ≤ e.1))
        state := if y.state = .starting then .running else y.state } s1
      .next (if y.state = .stopping && last then txEnd i s2
        else if y.state = .starting then postEvent 5 s2 else s2)

/-! ### Losses (R444, R446, R453) -/

/-- A path has delivered in the last 100 ms. -/
def delivering (s : State) (t : Option Nat) : Bool :=
  match t with
  | some a => decide (s.sysCnt < a + 100 * msCounts)
  | none => false

/-- STREAM_LOST (R444): no valid packet on any path for 100 ms; a slot that has never received records nothing (R441). -/
def execStreamLost (dt : Nat) (slot : Fin 64) (s0 : State) : R :=
  let s := advance dt s0
  let i := slot.val
  let c := rxSlotCfg s i
  let x := rxSlot s i
  let idle := (x.lastA.isNone && x.lastB.isNone) || delivering s x.lastA || delivering s x.lastB
  if x.state = .off || x.state = .stopping || idle || inForce .streamLost (rxObject s i) 0 s then .next s
  else
    let down := [false, true].all (fun b => !c.paths.getLsbD (bit b) || !linkIsUp s (linkPortOf (if b then .b else .a)))
    .next (postEvent 5 (raise .streamLost (rxObject s i) 0 (streamDetail i (pathsCode c.paths) (if down then 2 else 1))
      (setRxSlot i { x with reportAt := s.sysCnt } s)))

/-- STREAM_REPORT_REPEAT (R453): while a receive slot is lost its reports are repeated once a second. -/
def execStreamReportRepeat (dt : Nat) (slot : Fin 64) (s0 : State) : R :=
  let s := advance dt s0
  let x := rxSlot s slot
  if rxActive s slot && inForce .streamLost (rxObject s slot) 0 s && decide (x.reportAt + secCounts ≤ s.sysCnt) then
    .next (igmpReports slot (setRxSlot slot { x with reportAt := s.sysCnt } s))
  else .next s

/-- A path of a merging slot is lost (R446): its link is down, or it has delivered nothing for 100 ms while the other delivers. -/
def pathGone (s : State) (x : RxSlot) (path : NetPort) : Bool :=
  let (own, other) := match path with | .a => (x.lastA, x.lastB) | .b => (x.lastB, x.lastA)
  !linkIsUp s (linkPortOf path)
    || (!delivering s own && decide (x.since + 100 * msCounts ≤ s.sysCnt) && delivering s other)

/-- PATH_LOST (R446). -/
def execPathLost (dt : Nat) (slot : Fin 64) (path : NetPort) (s0 : State) : R :=
  let s := advance dt s0
  let i := slot.val
  let x := rxSlot s i
  if x.state = .off || x.state = .stopping || (rxSlotCfg s i).paths ≠ 3 || !pathGone s x path
      || inForce .pathLost (rxObject s i) 0 s then
    .next s
  else
    let down := !linkIsUp s (linkPortOf path)
    .next (postEvent 5 (raise .pathLost (rxObject s i) 0 (streamDetail i (portIdx path) (if down then 2 else 1)) s))

/-! ### STREAM_STATUS (R452) -/

/-- STATE of a slot. -/
def slotCodeOf (configured suspended : Bool) (st : SlotState) : Nat :=
  if !configured then 0
  else match st with
    | .off => 1
    | .starting => if suspended then 7 else 2
    | .running => if suspended then 7 else 3
    | .repeating => 4
    | .faded => 5
    | .stopping => 6

/-- Quantities of stream status that are measured: the rate of a receive slot, of a transmit slot (mHz). -/
def qRxRate : Nat := 16
def qTxRate : Nat := 17

/-- Smallest of a list, 0 for none. -/
def minOf : List Int → Int
  | [] => 0
  | [a] => a
  | a :: t => min a (minOf t)

/-- Mean of a list of SYSCNT counts in µs; 0 for none. -/
def meanUs (l : List Int) : Int := if l.isEmpty then 0 else freeDiv 55 (l.foldl (· + ·) 0) (200 * l.length)

/-- The 40-byte entry of a receive slot. -/
def rxEntry (s : State) (i : Nat) : Bytes :=
  let c := rxSlotCfg s i
  let x := rxSlot s i
  let dec := rxDec s i
  let on := x.state != .off
  let lost := inForce .streamLost (rxObject s i) 0 s
  let st := slotCodeOf (c.transport != 0) false x.state
  let joined := on && [false, true].any (fun b => (slotGroup s i b).isSome)
  let transp := s.net.tx.any (fun e => e.2.state != .off && (txSlotCfg s e.1).encoding == 2
    && (List.range ((txSlotCfg s e.1).channels / 2)).any (fun k => (pairFrom s e.1 k).map Prod.fst == some i))
  let rate : Nat := if !on then 0 else if dec then (tget ({} : DecantState) s.clk.decant (rxKey i)).rateMhz
    else (Config.measure qRxRate i s.sysCnt).toNat
  le 1 (if on && lost && st != 6 then 5 else st)
    ++ le 1 (flag 0 (on && delivering s x.lastA) + flag 1 (on && delivering s x.lastB))
    ++ le 2 (flag 0 dec + flag 1 (dec && decantLocked s (rxKey i)) + flag 2 (c.group != 0xFF) + flag 3 joined
        + flag 4 transp)
    ++ le 4 rate ++ le 4 x.packetsA ++ le 4 x.packetsB ++ le 4 x.under ++ le 4 x.late ++ le 4 x.discards
    ++ leI 4 (freeDiv 54 (minOf ((lastSecond s.sysCnt x.margins).map Prod.snd)) 1000)
    ++ le 4 (if c.transport = 0 then 0 else 128 * linkFrames s c)
    ++ leI 4 (if c.paths = 3 then meanUs ((lastSecond s.sysCnt x.skews).map Prod.snd) else 0)

/-- Packer term of a slot, 1/128 frame: P − 1 samples at RATE and 20 µs, rounded up. -/
def packerTerm (s : State) (c : TxSlotCfg) : Nat :=
  ceilDiv ((packetSamples c.rate c.ptime - 1) * 128 * fsNow s) (rateHz c.rate) + ceilDiv (128 * 20 * fsNow s) 1000000

/-- The 40-byte entry of a transmit slot. -/
def txEntry (s : State) (i : Nat) : Bytes :=
  let c := txSlotCfg s i
  let x := txSlot s i
  let dec := txDec s i
  let on := x.state != .off
  let rate : Nat := if !on then 0 else if dec then (tget ({} : DecantState) s.clk.decant (txKey i)).rateMhz
    else (Config.measure qTxRate i s.sysCnt).toNat
  let transp := on && c.encoding == 2 && (List.range (c.channels / 2)).any (fun k => (pairFrom s i k).isSome)
  le 1 (slotCodeOf (c.transport != 0) (x.susA || x.susB) x.state)
    ++ le 1 (flag 0 (on && txSends s i false) + flag 1 (on && txSends s i true))
    ++ le 2 (flag 0 dec + flag 1 (dec && decantLocked s (txKey i)) + flag 4 transp)
    ++ le 4 rate ++ le 4 x.packetsA ++ le 4 x.packetsB ++ zeros 16
    ++ le 4 (if c.transport = 0 then 0 else packerTerm s c) ++ zeros 4

/-- The counters of the listed slots that a snapshot has shown are cleared (R170, R452); what came since its tick stays. -/
def clearRx (l : List Nat) (shown live : Tab RxSlot) : Tab RxSlot :=
  live.foldl (fun a e =>
    let o := tget {} shown e.1
    let x := e.2
    tset {} a e.1 (if l.contains e.1 then { x with
      packetsA := x.packetsA - o.packetsA, packetsB := x.packetsB - o.packetsB, under := x.under - o.under
      late := x.late - o.late, discards := x.discards - o.discards } else x)) live
def clearTx (l : List Nat) (shown live : Tab TxSlot) : Tab TxSlot :=
  live.foldl (fun a e =>
    let o := tget {} shown e.1
    let x := e.2
    tset {} a e.1 (if l.contains e.1 then { x with
      packetsA := x.packetsA - o.packetsA, packetsB := x.packetsB - o.packetsB } else x)) live

/-- The counters STREAM_STATUS clears, in a network. -/
def clearStreams (tx : Bool) (l : List Nat) (shown live : Net) : Net :=
  if tx then { live with tx := clearTx l shown.tx live.tx } else { live with rx := clearRx l shown.rx live.rx }

/-- STREAM_STATUS (R452): as the latest tick latched it. -/
def execStreamStatus (h : Hdr) (p : Bytes) (s : State) : R :=
  opcodeN .streamStatus 4 h p (fun s =>
    let first := u8 p 1
    let n := u8 p 2
    let l := (List.range n).map (first + ·)
    guardSt (checks
      [ (decide (1 < u8 p 0), .badParam), (decide (63 < first), .outOfRange), (n == 0 || decide (32 < n), .outOfRange),
        (decide (1 < u8 p 3), .badParam), (decide (64 < first + n), .outOfRange) ]) s
      (let v := latchView s
       let tx := u8 p 0 == 1
       let e := if tx then l.flatMap (txEntry v) else l.flatMap (rxEntry v)
       let s1 := if u8 p 3 = 0 then s
         else { s with net := clearStreams tx l v.net s.net
                       latch := { s.latch with net := clearStreams tx l v.net s.latch.net } }
       .reply .ok (le 8 v.clk.stamp ++ le 1 (u8 p 0) ++ le 1 first ++ le 1 n ++ zeros 5 ++ e) (clearEvent 5 s1))) s

end Sys2Proof.Machine
end

