-- ==== Sys2Proof/Machine/Rates.lean ====
section
/-! DEFINITION. Changing fs_int (R204, R205), Decant assignments and relocking (R201, R206, R207), alignment groups (R211),
lost and returned clocks (R198, R200), and CLOCK_STATUS (R217). -/

namespace Sys2Proof.Machine

/-! ### FS_SET (R204, R205) -/

/-- A port, stream slot or Cooper core runs. -/
def anyRuns (coop : Bool) (s : State) : Bool :=
  (List.range 12).any (portRuns s) || !allSlotsOff s || coop

/-- A graph names an index that 192 kHz does not have (R42). -/
def graphNames192 (g : GraphCfg) : Bool :=
  let out (h : Handle) : Bool := (hClass h == 0x05 || hClass h == 0x87) && decide (128 ≤ hIndex h)
  g.edges.any (fun e => out e.src || out e.sink) || g.groups.any (fun x => x.members.any out)

/-- A sink's delay exceeds the limit at a rate (R376). -/
def delayTooLong (fs : Fin 3) (s : State) : Bool :=
  s.cfg.mix.sinks.any (fun e => decide (delayLimit < delayFrames fs e.2.delayUs + tget 0 s.cfg.graph.pads e.1))

/-- Checks of FS_SET with a changed rate, in the order of R204; `coop` says that a Cooper core runs. -/
def checkFsSet (coop : Bool) (p : Bytes) (s : State) : Status :=
  let f : Fin 3 := Fin.ofNat 3 (u8 p 0)
  let same := f = s.clk.fs
  checks
    [ (decide (2 < u8 p 0), .badParam),
      (!same && (!clockStopped s || anyRuns coop s || s.clk.fsPending.isSome), .busy),
      (!zeroAt p 1 3, .badParam),
      (!same && f == 2 && graphNames192 s.cfg.graph, .badParam),
      (!same && delayTooLong f s, .outOfRange),
      (!same && decide (usableRows f < s.gr.prog.rows), .graphTooLarge) ]

/-- A chain at the first tick of a new rate: everything is zeroed and it settles (R205, R265). -/
def renewChain (pour : Bool) (s : State) (c : Nat) : State :=
  if chainRuns s pour c then
    (if (chainCfg s pour c).run then startChain pour c s
     else setChain pour c { satCount := (chainOf s pour c).satCount } s)
  else s

/-- Read points of the sinks at the delays they have at a rate, on empty lines (R205, R376). -/
def freshSinks (f : Fin 3) (s : State) : Tab SinkRt :=
  let keys := (s.mix.sinks.map Prod.fst ++ s.cfg.mix.sinks.map Prod.fst ++ s.cfg.graph.pads.map Prod.fst).eraseDups
  keys.foldl (fun a k =>
    let c := tget ({} : SinkCfg) s.cfg.mix.sinks k
    let x := tget ({} : SinkRt) s.mix.sinks k
    tset {} a k { x with
      line := [], look := [], lim := 0, prev := 0, out := 0, lookPt := { tap := c.lookahead }
      delay := { tap := delayFrames f c.delayUs + tget 0 s.cfg.graph.pads k } }) []

/-- Step 2 of R205: delay lines, filters, Decant buffers, ramp slots and meters are zeroed, and delays keep their time at the rate
`f`. -/
def zeroAudio (f : Fin 3) (s : State) : State :=
  let s1 := (List.range 46).foldl (renewChain true) ((List.range 36).foldl (renewChain false) s)
  { s1 with
    clk := { s1.clk with decant := [] }
    mix := { s1.mix with
      ramps := [], srcMeters := [], sinkMeters := [], src := [], srcPrev := [], sinkBuf := [], drain := []
      sinks := freshSinks f s1 } }

/-- Step 3 of R205 at the first tick at the new rate: the number starts from zero or from PTP time. -/
def fsSwitch (f : Fin 3) (s : State) : State :=
  let s1 := zeroAudio f s
  let ptp := s.clk.pll.active == some ⟨1, 0⟩
  lateReply .fsSet .ok []
    { s1 with clk := { s1.clk with fs := f, fsPending := none, fsSwitching := false, started := false, rebase := ptp } }

/-! ### Decant (R201, R206, R207) -/

/-- Number of targets of a kind. -/
def targetCount (t : Nat) : Nat := if t ≤ 4 then 4 else 64

/-- The block of a Decant target runs (R46). -/
def targetRuns (s : State) (t i : Nat) : Bool :=
  match t with
  | 1 | 2 => portRuns s i
  | 3 => portRuns s (4 + i)
  | 4 => portRuns s (8 + i)
  | 5 => (rxSlot s i).state != .off
  | _ => (txSlot s i).state != .off

/-- A Decant assignment conflicts with R206: the module's own clock cannot be assigned, another rate must be. -/
def targetConflict (s : State) (t i : Nat) (on : Bool) : Bool :=
  match t with
  | 1 | 2 => on && (tdmCfg s i).master
  | 3 => false
  | 4 => on && (txCfg s i).txClock == 0
  | 5 => !on && (rxSlotCfg s i).transport != 0 && rateHz (rxSlotCfg s i).rate != fsNow s
  | _ => !on && (txSlotCfg s i).transport != 0 && rateHz (txSlotCfg s i).rate != fsNow s

/-- The target is listed as a reference (R185). -/
def targetIsRef (s : State) (t i : Nat) : Bool :=
  s.cfg.clock.refs.entries.any (fun e =>
    ((t == 1 || t == 2) && e.kind == 4 && e.index == i) || (t == 3 && e.kind == 3 && e.index == i))

/-- Another member of the target's alignment group differs (R212). -/
def targetGroup (s : State) (t i : Nat) (on : Bool) : Bool :=
  match t with
  | 1 =>
    let g := (tdmCfg s i).group
    (portGroupOthers s g i).any (fun k => isDecant s.cfg.clock.decant (rxDecant k) != on)
  | 3 =>
    let g := (rxCfg s i).group
    (portGroupOthers s g (4 + i)).any (fun k => isDecant s.cfg.clock.decant (rxDecant k) != on)
  | 5 =>
    let g := (rxSlotCfg s i).group
    g != 0xFF && (rxGroupOthers s g i).any (fun k => s.cfg.clock.decant.streamRx.getLsbD k != on)
  | _ => false

/-- A bit of a map set or cleared. -/
def putBit {w : Nat} (b : BitVec w) (i : Nat) (on : Bool) : BitVec w :=
  if on then b ||| BitVec.ofNat w (2 ^ i) else b &&& ~~~(BitVec.ofNat w (2 ^ i))

/-- The assignments after one change. -/
def assignDecant (d : DecantCfg) (t i : Nat) (on : Bool) : DecantCfg :=
  match t with
  | 1 => { d with tdmIn := putBit d.tdmIn i on }
  | 2 => { d with tdmOut := putBit d.tdmOut i on }
  | 3 => { d with aesIn := putBit d.aesIn i on }
  | 4 => { d with aesOut := putBit d.aesOut i on }
  | 5 => { d with streamRx := putBit d.streamRx i on }
  | _ => { d with streamTx := putBit d.streamTx i on }

/-- The state after an assignment. -/
def withDecant (d : DecantCfg) (s : State) : State := { s with cfg := { s.cfg with clock := { s.cfg.clock with decant := d } } }

/-- DECANT_SET (R207). -/
def execDecantSet (h : Hdr) (p : Bytes) (s : State) : R :=
  opcodeN .decantSet 4 h p (fun s =>
    let t := u8 p 0
    let i := u8 p 1
    let on := u8 p 2 == 1
    let after := withDecant (assignDecant s.cfg.clock.decant t i on) s
    guardSt (checks
      [ (t == 0 || decide (6 < t), .badParam),
        (decide (targetCount t ≤ i), .outOfRange),
        (decide (1 < u8 p 2), .badParam),
        (targetRuns s t i && isDecant s.cfg.clock.decant (64 * t + i) != on, .busy),
        (u8 p 3 != 0, .badParam),
        (targetConflict s t i on || (on && targetIsRef s t i) || targetGroup s t i on, .badParam),
        (decide (320 < decantUsed after), .noResource) ]) s
      (.reply .ok (le 2 (decantUsed after) ++ zeros 2)
        (if isDecant s.cfg.clock.decant (64 * t + i) = on then after else decantAnew (64 * t + i) after))) s

/-- Kind of R207, object and DETAIL of a target. -/
def targetFault (s : State) : DecantTarget → Handle × Word
  | .tdmIn p => (portSrc0 p, portDetail 1 p 0)
  | .tdmOut p => (portSink0 p, portDetail 2 p 0)
  | .aesIn x => (portSrc0 (4 + x), portDetail 3 (4 + x) 0)
  | .aesOut x => (portSink0 (8 + x), portDetail 4 (8 + x) 0)
  | .streamRx i => (rxObject s i, streamDetail i 0 0)
  | .streamTx i => (txObject s i, streamDetail i 0 0)

/-- Key of a target's input monitor, where it has one. -/
def targetMonitor : DecantTarget → Option Nat
  | .tdmIn p => some p
  | .tdmOut p => some p
  | .aesIn x => some (4 + x)
  | _ => none

/-- Decant has measured a target's rate (R201, step 2): over 64 frames of the clock of an input. -/
def decantMeasured (s : State) (t : DecantTarget) : Bool := match targetMonitor t with
  | none => true
  | some k => portMaster s k || decide (64 ≤ (tget ({} : Monitor) s.clk.monitors k).good)

/-- DECANT_RELOCK (R201, step 3; R200): a rate from 31.5 kHz to 194 kHz locks an assigned target whose block runs. -/
def execDecantRelock (dt : Nat) (t : DecantTarget) (rateMhz : Nat) (s0 : State) : R :=
  let s := advance dt s0
  let key := decantKey t
  if !isDecant s.cfg.clock.decant key || !targetRuns s (key / 64) (key % 64) || !decantMeasured s t
      || rateMhz < 31500000 || 194000000 < rateMhz
  then .next s
  else
    let c := { s.clk with decant := tset {} s.clk.decant key ⟨true, rateMhz⟩ }
    let s1 := release .decantUnlocked (targetFault s t).1 0 { s with clk := c }
    .next (match targetMonitor t with
      | none => s1
      | some k =>
        let m := tget ({} : Monitor) s1.clk.monitors k
        release .portClockLost (portSrc0 k) 0 { s1 with clk := { s1.clk with
          monitors := tset {} s1.clk.monitors k { m with
            lost := false, reason := 0, periods := [], glitches := [], secSum := 0, secCount := 0 } } })

/-! ### Alignment groups (R211) -/

/-- Keys of the members of a group: ports 0 to 7 by port key, receive slots as 64 + slot. -/
def groupMembers (s : State) (g : Nat) : List Nat :=
  (List.range 8).filter (fun k => (if k < 4 then (tdmCfg s k).group else (rxCfg s (k - 4)).group) == g)
    ++ ((List.range 64).filter (fun i => (rxSlotCfg s i).transport != 0 && (rxSlotCfg s i).group == g)).map (64 + ·)

/-- A member of the group runs. -/
def groupRuns (s : State) (g : Nat) : Bool :=
  (groupMembers s g).any (fun k => if k < 64 then portRuns s k else rxActive s (k - 64))

/-- The settings of a group. -/
def alignOf (s : State) (g : Nat) : AlignGroup := tget {} s.cfg.clock.align g
def putAlign (g : Nat) (a : AlignGroup) (s : State) : State :=
  { s with cfg := { s.cfg with clock := { s.cfg.clock with align := tset {} s.cfg.clock.align g a } } }

/-- Checks of ALIGN_GROUP_SET: LINK_OFFSET_US is ignored in port groups. -/
def checkAlignGroup (p : Bytes) (s : State) : Status :=
  let g := u8 p 0
  let o := alignOf s g
  let kind := u8 p 1
  let link := u32 p 4
  let runs := groupRuns s g
  checks
    [ (decide (15 < g), .outOfRange),
      (decide (2 < kind), .badParam),
      (runs && kind != o.kind, .busy),
      (decide (64 < u8 p 2), .outOfRange),
      (u8 p 3 != 0, .badParam),
      (kind != 2 && (decide (link < 250) || decide (20000 < link)), .outOfRange),
      (runs && kind != 2 && link != o.linkUs, .busy),
      (kind == 0 && !(groupMembers s g).isEmpty, .badParam) ]

/-- The fields of an ALIGN_GROUP_SET that a stopped group takes at once, and REPEAT_LIMIT, which lands. -/
def alignStopped (p : Bytes) (s : State) : State :=
  putAlign (u8 p 0) { alignOf s (u8 p 0) with kind := u8 p 1, linkUs := u32 p 4 } s
def landAlignGroup (p : Bytes) (s : State) : State :=
  putAlign (u8 p 0) { alignOf s (u8 p 0) with repeatLimit := u8 p 2 } s

/-- ALIGN_GROUP_SET (R211). -/
def execAlignGroupSet (h : Hdr) (p : Bytes) (s : State) : R :=
  opcodeN .alignGroupSet 8 h p (landLive .alignGroupSet h p (checkAlignGroup p) (alignStopped p)) s

/-! ### Lost and returned clocks (R198, R200) -/

/-- Index of an input clock's monitor. -/
def clockInKey : ClockIn → Nat
  | .tdm p => p
  | .aes x => 4 + x
  | .wclk => 8
  | .ptp p => 9 + portIdx p

/-- Two expected periods of an input clock have passed since its latest edge (R197). An AES3 receiver loses its clock also when its
biphase lock fails. -/
def clockOverdue (s : State) (c : ClockIn) : Bool :=
  let m := tget ({} : Monitor) s.clk.monitors (clockInKey c)
  let gone (n : Nat) : Bool := decide (m.lastEdge + n ≤ s.sysCnt)
  match c with
  | .tdm p => match portRate s p with
    | some r => gone (2 * 200000000000 / r)
    | none => true
  | .aes _ => true
  | .wclk => gone (2 * s.cfg.clock.wclk.inDiv * 200000000 / fsNow s)
  | .ptp _ => gone (2 * logCounts (ptpLogSync s.cfg.clock.ptp))

/-- CLOCK_LOST (R198): a monitor that has not seen its clock records nothing (R197). -/
def execClockLost (dt : Nat) (c : ClockIn) (reason : Fin 4) (s0 : State) : R :=
  let s := advance dt s0
  let k := clockInKey c
  let m := tget ({} : Monitor) s.clk.monitors k
  let r := if reason = 0 then 1 else reason.val
  if !m.seen || m.lost || !modeUp s.life.mode || (r == 1 && !clockOverdue s c) then .next s
  else match c with
    | .wclk => .next (raise .portClockLost 0 0 (wclkDetail r) (monitorLose 8 r
        { s with clk := { s.clk with wclkStamp := { s.clk.wclkStamp with valid := false, lost := true } } }))
    | .ptp p => if s.clk.grandmaster then .next s else .next (ptpLose p 1 (ptpMonitorLost p s))
    | _ => if !portRuns s k then .next s else if r = 3 then .next (rateChange k s) else .next (portLose k r s)

/-- CLOCK_RESUMED (R200): a synchronous port resumes after 64 frames without a glitch; a Decant-assigned one at its
relock. A transmitter follows its receiver (R405). -/
def execClockResumed (dt : Nat) (p : PortId) (s0 : State) : R :=
  let s := advance dt s0
  let k := portKey p
  let m := tget ({} : Monitor) s.clk.monitors k
  if 8 ≤ k || !(m.lost || inForce .portClockLost (portSrc0 k) 0 s) || m.good < 64 || !(portDecKeys s k).isEmpty then .next s
  else .next (release .portClockLost (portSrc0 k) 0 { s with clk := { s.clk with
    monitors := tset {} s.clk.monitors k { m with lost := false, reason := 0 } } })

/-! ### Qualification (R184, R186) -/

/-- Key of the monitor of a reference of KIND 2 to 4. -/
def refMonitor (e : RefEntry) : Nat := match e.kind with
  | 2 => 8
  | 3 => 4 + e.index
  | _ => e.index

/-- The condition for use of a reference (R184): a receiver or a slave port that is declared, runs and is synchronous. -/
def refUsable (s : State) (e : RefEntry) : Bool :=
  let d := s.cfg.clock.decant
  refInRange e && refDeclared s.cfg.board e && (match e.kind with
    | 2 => true
    | 3 => portRuns s (4 + e.index) && !d.aesIn.getLsbD e.index
    | 4 => portRuns s e.index && !(tdmCfg s e.index).master && !d.tdmIn.getLsbD e.index && !d.tdmOut.getLsbD e.index
    | _ => false)

/-- An input clock meets what qualifies it (R186): present for 1 s without a glitch, with its mean frequency within 100 ppm. -/
def refSteady (s : State) (e : RefEntry) : Bool :=
  let m := tget ({} : Monitor) s.clk.monitors (refMonitor e)
  refUsable s e && m.seen && !m.lost && m.meanOk && decide (m.cleanSince + secCounts ≤ s.sysCnt)

/-- REFERENCE_QUALIFIED (R186): an entry of the list whose clock is steady is qualified. -/
def execReferenceQualified (dt : Nat) (entry : Fin 8) (s0 : State) : R :=
  let s := advance dt s0
  match s.cfg.clock.refs.entries[entry.val]? with
  | none => .next s
  | some e => if modeUp s.life.mode && refSteady s e then .next (qualify e s) else .next s

/-! ### CLOCK_STATUS (R217) -/

/-- An entry's monitor sees its clock. -/
def refPresent (s : State) (e : RefEntry) : Bool :=
  let seen (k : Nat) : Bool := let m := tget ({} : Monitor) s.clk.monitors k; m.seen && !m.lost
  match e.kind with
  | 1 => seen 9 || seen 10
  | 2 => seen 8
  | 3 => seen (4 + e.index)
  | 4 => seen e.index
  | _ => true

/-- PLL_STATE's code. -/
def pllCode : PllState → Nat
  | .acquiring => 0 | .locked => 1 | .holdover => 2 | .moving => 3

/-- Bits of the entries for which `f` holds. -/
def entryBits (s : State) (f : RefEntry → Bool) : Nat := (s.cfg.clock.refs.entries.zipIdx.map (fun e => flag e.2 (f e.1))).sum

/-- Entry of the active reference, 0xFF for none. -/
def activeEntry (s : State) : Nat :=
  match s.clk.pll.active with
  | none => 0xFF
  | some e => (firstIdx (· == e) s.cfg.clock.refs.entries).getD 0xFF

/-- Decant channels assigned but not locked. -/
def decantOpen (s : State) : Nat :=
  ((decantKeys.filter (fun k => isDecant s.cfg.clock.decant k && !decantLocked s k)).map (decantCharge s)).sum

/-- Offset of the audio master clock in ppb, from units of 2^-32; the rounding is not stated (log 13). -/
def ppbOf (f : Int) : Int := freeDiv 42 (f * 1000000000) 4294967296

/-- The snapshot CLOCK_STATUS gives; `stamp` is its SYSCNT. -/
def clockSnapshot (stamp : Nat) (s : State) : Bytes :=
  let c := s.clk
  let l := c.pll
  let q := match c.ptpPort with
    | some x => ptpPortOf c x
    | none => {}
  let gm := c.grandmaster
  let hold := match l.holdSince with
    | some t => sat32 (freeDiv 43 ((s.sysCnt - t : Nat) : Int) msCounts).toNat
    | none => 0
  let f := flag 0 c.taiValid + flag 1 (c.portA.locked || c.portB.locked) + flag 2 gm + flag 3 c.arb
    + flag 4 (inForce .refLost 0 0 s) + flag 5 c.taiStepped
  le 1 (activeEntry s) ++ le 1 (pllCode l.state) ++ le 1 l.bw ++ le 1 f ++ le 1 c.fs.val
    ++ le 1 (match c.ptpPort with | some x => portIdx x | none => 0xFF)
    ++ le 1 (entryBits s (refQualified c)) ++ le 1 (entryBits s (refPresent s))
    ++ leI 4 (clampI (-2147483648) 2147483647 l.phase) ++ leI 4 (ppbOf l.freq)
    ++ leI 4 (clampI (-2147483648) 2147483647 (freeDiv 41 c.ptpOffset 65536)) ++ leI 4 (clampI 0 4294967295 q.pathNs)
    ++ le 8 (if gm then Config.macBase.toNat * 65536 else q.gmId.toNat)
    ++ le 1 (if gm then 248 else q.gmClass.toNat) ++ le 1 (if gm then 0 else q.steps.toNat)
    ++ le 2 c.utcOffset.toNat ++ le 4 hold ++ le 2 (decantUsed s) ++ le 2 (decantOpen s) ++ zeros 4
    ++ le 8 l.lastSwitch ++ le 8 stamp

/-- CLOCK_STATUS (R217): as the latest tick latched it. A step of TAI time that it has not shown stays to be shown. -/
def execClockStatus (h : Hdr) (p : Bytes) (s : State) : R :=
  opcodeN .clockStatus 0 h p (fun s =>
    let v := latchView s
    let c := { s.clk with taiStepped := s.clk.taiStepped && !v.clk.taiStepped }
    .reply .ok (clockSnapshot s.sysCnt v)
      (clearEvent 4 { s with clk := c
                             latch := { s.latch with clk := { s.latch.clk with taiStepped := false } } })) s

end Sys2Proof.Machine
end

