-- ==== Sys2Proof/Machine/Paths.lean ====
section
/-! DEFINITION. Path latencies (R37, R344, R345), equalisation groups and their pads (R346 to R348). Terms are in 1/128
frame. -/

namespace Sys2Proof.Machine

/-- The paths into a place of the graph: how many, the shortest, the longest with its terms (input, Decant in, stream
receive, Blend passes, Cooper slots) and its analogue term in ns, and whether any passes a Cooper core. -/
structure PathInfo where
  n : Nat := 0
  mn : Int := 0
  mx : Int := 0
  coop : Bool := false
  analog : Nat := 0
  terms : List Int := List.replicate 5 0
  deriving DecidableEq, Repr

/-- Two sets of paths together; where the longest tie, the first set's is taken. -/
def joinPaths (a b : PathInfo) : PathInfo :=
  if a.n = 0 then b
  else if b.n = 0 then a
  else
    let l := if a.mx < b.mx then b else a
    { n := a.n + b.n, mn := min a.mn b.mn, mx := l.mx, coop := a.coop || b.coop, analog := l.analog, terms := l.terms }

/-- Adds a term at place `i` of every path. -/
def addTerm (i : Nat) (v : Int) (a : PathInfo) : PathInfo :=
  if a.n = 0 then a
  else { a with mn := a.mn + v, mx := a.mx + v, terms := a.terms.set i (a.terms.getD i 0 + v) }

/-- A source's own terms: one path. -/
def sourcePath (s : State) (h : Handle) : PathInfo :=
  let i := hIndex h
  let one : PathInfo := { n := 1 }
  match hClass h with
  | 1 => addTerm 0 (termQ7 s false i) { one with analog := 900 }
  | 2 => addTerm 0 (termQ7 s false (34 + i)) { one with analog := 900 }
  | 3 | 4 =>
    let k := if hClass h = 3 then i / 32 else 4 + i / 2
    if isDecant s.cfg.clock.decant (rxDecant k) then addTerm 1 3072 one else addTerm 0 (portTerm s k true) one
  | 5 =>
    match (List.range 64).find? (fun j =>
      let c := rxSlotCfg s j
      c.transport != 0 && decide (c.first ≤ i) && decide (i < c.first + c.channels)) with
    | none => one
    | some j =>
      let a := addTerm 2 (128 * linkFrames s (rxSlotCfg s j)) one
      if rxDec s j then addTerm 1 3072 a else a
  | _ => one

/-- Frames of a core's block. -/
def coreBlock (s : State) (k : Nat) : Nat := (tget ({} : Core) s.coop k).image.block

/-- The paths that reach the graph through a source, given those into the buses (0 to 63) and the cores (64 to 67). `from`
limits them to those that begin at one source. -/
def pathsFrom (s : State) (begin : Option Handle) (nodes : Tab PathInfo) (h : Handle) : PathInfo :=
  let c := hClass h
  if begin = some h then
    (if c = 7 ∨ c = 8 then { n := 1 } else sourcePath s h)
  else if c = 7 then tget {} nodes (hIndex h)
  else if c = 8 then
    let k := hIndex h / 64
    let a := addTerm 4 (256 * (coreBlock s k : Int)) (addTerm 3 128 (tget {} nodes (64 + k)))
    { a with coop := decide (0 < a.n) }
  else if begin.isNone then sourcePath s h
  else {}

/-- The paths through a list of edges. -/
def edgePaths (s : State) (begin : Option Handle) (nodes : Tab PathInfo) (es : List Edge) : PathInfo :=
  es.foldl (fun a e => joinPaths a (pathsFrom s begin nodes e.src)) {}

/-- One round over the buses and cores of a program. -/
def pathRound (s : State) (begin : Option Handle) (p : List ProgSink) (nodes : Tab PathInfo) : Tab PathInfo :=
  p.foldl (fun t x => match sinkNode x.sink with
    | some k => tset {} t k (joinPaths (tget {} t k) (edgePaths s begin nodes x.edges))
    | none => t) []

/-- Rounds until nothing changes. -/
def pathRounds (s : State) (begin : Option Handle) (p : List ProgSink) : Nat → Tab PathInfo → Tab PathInfo
  | 0, t => t
  | n + 1, t =>
    let t' := pathRound s begin p t
    if t' = t then t else pathRounds s begin p n t'

/-- The paths into the buses and cores. -/
def pathNodes (s : State) (begin : Option Handle) (p : List ProgSink) : Tab PathInfo :=
  if p.any (fun x => (sinkNode x.sink).isSome) then pathRounds s begin p 69 [] else []

/-- A sink's terms after Blend: sink delay, limiter look-ahead, Pour, Decant out. -/
def sinkTerms (s : State) (h : Handle) : List Int :=
  let i := hIndex h
  let c := tget ({} : SinkCfg) s.cfg.mix.sinks h.toNat
  let pour : Option Nat := match hClass h with
    | 0x81 => some i
    | 0x82 => some (32 + i)
    | 0x83 => some (40 + i)
    | 0x84 => some (44 + i)
    | _ => none
  let dec := match hClass h with
    | 0x85 => isDecant s.cfg.clock.decant (txDecant (i / 32))
    | 0x86 => isDecant s.cfg.clock.decant (txDecant (8 + i / 2))
    | 0x87 => (List.range 64).any (fun j =>
        let t := txSlotCfg s j
        t.transport != 0 && txDec s j && decide (t.first ≤ i) && decide (i < t.first + t.channels))
    | _ => false
  if hasStage h then
    [128 * (delayFrames s.clk.fs c.delayUs : Int), 128 * (c.lookahead : Int),
     match pour with | some k => termQ7 s true k | none => 0, if dec then 3072 else 0]
  else [0, 0, 0, 0]

/-- The longest path into a sink without its pad; `none` where no path reaches it. -/
def sinkLongest (s : State) (p : List ProgSink) (nodes : Tab PathInfo) (h : Handle) : Option Int :=
  let a := edgePaths s none nodes (sinkEdges p h)
  if a.n = 0 then none else some (a.mx + 128 + (sinkTerms s h).foldl (· + ·) 0)

/-! ### Groups (R346, R347) -/

/-- A group's members with their longest paths, and its target. -/
def groupPaths (s : State) (p : List ProgSink) (nodes : Tab PathInfo) (g : EqGroup) : List (Handle × Option Int) × Int :=
  let l := g.members.map (fun h => (h, sinkLongest s p nodes h))
  let m := (l.filterMap Prod.snd).foldl max 0
  (l, if g.target = 0 then m else (g.target : Int))

/-- The pad of a member: 0 where its path exceeds the target. -/
def padFor (t : Int) : Option Int → Nat
  | none => 0
  | some l => ((t - l) / 128).toNat

/-- The pads of every group of a program. -/
def allPads (s : State) (p : List ProgSink) (gs : List EqGroup) : Tab Nat :=
  let nodes := pathNodes s none p
  gs.foldl (fun t g =>
    let (l, m) := groupPaths s p nodes g
    l.foldl (fun t e => tset 0 t e.1.toNat (padFor m e.2)) t) []

/-- Check 7 of R336: the number of the first group a member of which exceeds the target or the delay limit. -/
def groupsLong (s : State) (p : List ProgSink) (gs : List EqGroup) : Option Nat :=
  let nodes := pathNodes s none p
  (gs.find? (fun g =>
    let (l, m) := groupPaths s p nodes g
    l.any (fun e =>
      (match e.2 with | some x => decide (m < x) | none => false)
        || decide (delayLimit < padFor m e.2 + delayFrames s.clk.fs (tget ({} : SinkCfg) s.cfg.mix.sinks e.1.toNat).delayUs)))).map
    (·.num)

/-- A group's members stand at one latency: within the frame that the pads leave (R346, R348). -/
def groupAligned (s : State) (p : List ProgSink) (nodes : Tab PathInfo) (pads : Tab Nat) (g : EqGroup) : Bool :=
  let (l, m) := groupPaths s p nodes g
  l.all (fun e => match e.2 with
    | some x =>
      let total := x + 128 * ((tget (0 : Nat) pads e.1.toNat : Nat) : Int)
      decide (total ≤ m) && decide (m < total + 128)
    | none => true)

/-- Terms may have changed (R348): the pads of FOLLOW groups are computed anew, and each group is judged. -/
def followTerms (s : State) : State :=
  let g := s.cfg.graph
  if g.groups.isEmpty then s
  else
    let nodes := pathNodes s none s.gr.prog.prog
    let pads := g.groups.foldl (fun t x =>
      if !x.follow then t
      else
        let (l, m) := groupPaths s s.gr.prog.prog nodes x
        l.foldl (fun t e => tset 0 t e.1.toNat (padFor m e.2)) t) g.pads
    let bad := (g.groups.filter (fun x => !groupAligned s s.gr.prog.prog nodes pads x)).map (·.num)
    { s with cfg := { s.cfg with graph := { g with pads := pads } }, gr := { s.gr with misaligned := bad } }

/-! ### LATENCY_QUERY (R345) -/

/-- Q7 frames in ns at the rate in force; the rounding is not stated (log 13). -/
def q7Ns (s : State) (v : Int) : Int := freeDiv 47 (v * 1000000000) (128 * fsNow s)

/-- LATENCY_QUERY. -/
def execLatencyQuery (h : Hdr) (p : Bytes) (s : State) : R :=
  opcodeN .latencyQuery 8 h p (fun s =>
    let src := handleAt p 0
    let k := handleAt p 2
    guardSt (checks
      [ (u32 p 4 != 0, .badParam),
        (src != 0 && !isSrc (fsOf s) src, .badHandle),
        (!isSink (fsOf s) k, .badHandle) ]) s
      (let begin := if src = 0 then none else some src
       let g := s.gr.prog.prog
       let a := addTerm 3 128 (edgePaths s begin (pathNodes s begin g) (sinkEdges g k))
       let pad := padOf s k
       let st := sinkTerms s k
       let extra := st.foldl (· + ·) 0 + 128 * (pad : Int)
       let group := s.cfg.graph.groups.find? (fun x => x.members.contains k)
       let mis := match group with
         | some x => s.gr.misaligned.contains x.num
         | none => false
       let analog := a.analog + if isAnalogue k then 1600 else 0
       let none' := a.n == 0
       let v (x : Int) : Bytes := leI 4 (if none' then 0 else x)
       .reply .ok (le 2 (min a.n 65535) ++ le 2 (flag 0 a.coop + flag 1 group.isSome + flag 2 mis + flag 3 none')
         ++ v (a.mn + extra) ++ v (a.mx + extra) ++ le 4 pad ++ v (q7Ns s (a.mx + extra) + (analog : Int))
         ++ v (analog : Int)
         ++ v (a.terms.getD 0 0) ++ v (a.terms.getD 1 0) ++ v (a.terms.getD 2 0) ++ v (a.terms.getD 3 0)
         ++ v (a.terms.getD 4 0) ++ v (st.getD 0 0) ++ v (128 * (pad : Int)) ++ v (st.getD 1 0) ++ v (st.getD 2 0)
         ++ v (st.getD 3 0)) s)) s

end Sys2Proof.Machine
end

