-- ==== Sys2Proof/Machine/Racking.lean ====
section
/-! DEFINITION. Staging, committing and racking graphs (R339, R340, R349 to R359). -/

namespace Sys2Proof.Machine

/-! ### Compiling with groups (R336) -/

/-- Inserts a group by number. -/
def insertGroup (g : EqGroup) : List EqGroup → List EqGroup
  | [] => [g]
  | x :: t => if g.num < x.num then g :: x :: t else x :: insertGroup g t

/-- All seven checks in table order: the status, the index or number named, and the compiled program with its pads. -/
def compileGraph (s : State) (allowRemove : Bool) (n : Nat) (l : List Edge) (gs : List EqGroup) : Status × Nat × Compiled :=
  match compileChecks s.clk.fs allowRemove l with
  | (.ok, _, c) =>
    match groupsBad s.clk.fs n (gs.foldl (fun a g => insertGroup g a) []) with
    | some (st, k) => (st, k, c)
    | none => match groupsLong s c.prog gs with
      | some k => (.outOfRange, k, c)
      | none => (.ok, 0xFFFFFFFF, { c with pads := allPads s c.prog gs })
  | r => r

/-! ### What a commit would do (R349, R352, R353) -/

/-- The program in force with the gains in force; a crosspoint that ramps has a gain like no other. -/
def progInForce (s : State) : List ProgSink :=
  s.gr.prog.prog.map (fun x => { x with edges := x.edges.map (fun e =>
    { e with gain := if (rampOf s (.xpoint e.src e.sink)).isSome then 1000000 else gainTarget s (.xpoint e.src e.sink) }) })

/-- The crossfaded sinks of a commit and the rows of its rack. -/
def changeOf (s : State) (c : Compiled) : List Handle × Nat :=
  let all := changedSinks (progInForce s) c.prog s.cfg.graph.pads c.pads
  (crossfaded all, rackRowsOf s.gr.prog c all)

/-- A rack of so many rows does not fit. -/
def wouldDip (s : State) (cross : List Handle) (rows : Nat) : Bool := !cross.isEmpty && decide (usableRows s.clk.fs < rows)

/-- Size of a graph's bulk record (R104). -/
def graphSize (g : GraphCfg) (c : Compiled) : Nat :=
  64 + 12 * g.edges.length + (g.groups.map (fun x => 8 + 4 * ceilDiv x.members.length 2)).sum + 128 * c.rows

/-- The staging area empty. -/
def emptyStage (s : State) : State := { s with gr := { s.gr with stage := {} } }

/-- A refused compile is noted for GRAPH_QUERY. -/
def noteRefusal (st : Status) (i : Nat) (s : State) : State := { s with gr := { s.gr with errStatus := st, errIndex := i } }

/-! ### GRAPH_STAGE (R339, R340) -/

/-- Bound on the compile time that END reports (R340), and the quantity. -/
def qCompileUs : Nat := 28

/-- END: SET_CRC, then the compile. -/
def stageEnd (s : State) : Ans :=
  let g := s.gr.stage
  let groups := g.recvGroups.map Prod.fst
  if g.recv.length < g.edges ∨ g.recvGroups.length < g.groups then refuse .badParam s
  else
    let ordered := (groups.foldl (fun a x => insertGroup x a) []).map (·.num)
    let bytes := g.raw.flatMap id ++ ordered.flatMap (fun k =>
      match g.recvGroups.find? (fun x => x.1.num == k) with
      | some x => x.2
      | none => [])
    if crc32c bytes ≠ g.crc then refuse .crcError (emptyStage s)
    else match compileGraph s false g.groups g.recv groups with
      | (.ok, _, c) =>
        let (cross, rows) := changeOf s c
        let fit := if wouldDip s cross rows then (if g.noDip then 2 else 1) else 0
        let us := clampI 0 (2000 + g.edges) (Config.measure qCompileUs g.edges s.sysCnt)
        let s1 := { s with gr := { s.gr with stage := { g with state := .staged, compiled := c, fs := s.clk.fs } } }
        .reply (if c.warn then .warnHeadroom else .okStaged)
          (le 2 c.rows ++ le 1 c.levels ++ le 1 fit ++ le 4 g.recv.length ++ le 2 cross.length ++ le 2 rows
            ++ leI 4 (boundMdb c.headroom) ++ le 2 c.headroomSink.toNat ++ zeros 2 ++ leI 4 us ++ le 4 g.graphId.toNat
            ++ zeros 4) s1
      | (st, i, _) => refuse st (noteRefusal st i (emptyStage s))

/-- Another requester owns the staging area. -/
def stageOther (s : State) (rq : Requester) : Bool := s.gr.stage.state != .empty && s.gr.stage.owner != rq

/-- BEGIN. -/
def stageBegin (h : Hdr) (p : Bytes) (s : State) : Ans :=
  guardSt (checks
    [ (p.length != 24, .badLength),
      (decide (1 < u8 p 1), .badParam),
      (decide (32 < u8 p 2), .outOfRange),
      (u8 p 3 != 0, .badParam),
      (decide (65536 < u32 p 4), .outOfRange),
      (decide (u32 p 8 < 500) || decide (1000000 < u32 p 8), .outOfRange),
      (u32 p 20 != 0, .badParam),
      (stageOther s h.rq, .busy) ]) s
    (done { s with gr := { s.gr with stage :=
      { state := .loading, owner := h.rq, noDip := u8 p 1 == 1, groups := u8 p 2, edges := u32 p 4, rackUs := u32 p 8
        graphId := BitVec.ofNat 32 (u32 p 12), crc := BitVec.ofNat 32 (u32 p 16) } } })

/-- EDGES. -/
def stageEdges (h : Hdr) (p : Bytes) (s : State) : Ans :=
  let n := u16 p 8
  let g := s.gr.stage
  guardSt (checks
    [ (decide (p.length < 12), .badLength),
      (!zeroAt p 1 3, .badParam),
      (n == 0 || decide ((if h.rq = .spi then 340 else 115) < n), .outOfRange),
      (p.length != 12 + 12 * n, .badLength),
      (u16 p 10 != 0, .badParam),
      (stageOther s h.rq, .busy),
      (g.state != .loading || u32 p 4 != g.recv.length || decide (g.edges < g.recv.length + n), .badParam) ]) s
    (done { s with gr := { s.gr with stage := { g with
      recv := g.recv ++ (List.range n).map (fun i => edgeAt p (12 + 12 * i))
      raw := g.raw ++ [p.drop 12] } } })

/-- GROUP. -/
def stageGroup (h : Hdr) (p : Bytes) (s : State) : Ans :=
  let n := u16 p 6
  let g := s.gr.stage
  let x : EqGroup := { num := u8 p 4, follow := u8 p 5 == 1, target := u32 p 8, members := handlesAt p 12 n }
  guardSt (checks
    [ (decide (p.length < 12), .badLength),
      (!zeroAt p 1 3, .badParam),
      (decide (1 < u8 p 5), .badParam),
      (p.length != handleLen 12 n, .badLength),
      (!zeroAt p (12 + 2 * n) (handleLen 12 n - 12 - 2 * n), .badParam),
      (stageOther s h.rq, .busy),
      (g.state != .loading, .badParam) ]) s
    (done { s with gr := { s.gr with stage := { g with
      recvGroups := g.recvGroups ++ [(x, (p.drop 4).take (8 + 2 * n))] } } })

/-- GRAPH_STAGE (R339). -/
def execGraphStage (h : Hdr) (p : Bytes) (s : State) : R :=
  opcode .graphStage h p (fun s =>
    if p.length < 4 then refuse .badLength s
    else match u8 p 0 with
      | 0 => stageBegin h p s
      | 1 => stageEdges h p s
      | 2 => stageGroup h p s
      | 3 => guardSt (checks
          [ (p.length != 4, .badLength),
            (!zeroAt p 1 3, .badParam),
            (stageOther s h.rq, .busy),
            (s.gr.stage.state != .loading, .badParam) ]) s (stageEnd s)
      | _ => refuse .badParam s) s

/-- GRAPH_ABORT (R340). -/
def execGraphAbort (h : Hdr) (p : Bytes) (s : State) : R :=
  opcodeN .graphAbort 0 h p (fun s => done (emptyStage s)) s

/-! ### Committing (R350 to R356) -/

/-- A crosspoint of the old program whose gain the commit sets, or which it removes, has its own state in the old bank. -/
def ownState (g : GraphCfg) (e : Edge) : Bool :=
  match g.edges.find? (fun x => x.src == e.src && x.sink == e.sink) with
  | some x => x.setGain
  | none => true

/-- Weight of a mute (R372). -/
def muteW (s : State) (o : GainObj) : Nat := match s.mix.mutes.find? (fun m => m.1 == o) with
  | some m => m.2.w
  | none => 32

/-- The amplitudes that the old bank keeps (R356), plus one. -/
def frozenOf (s : State) (g : GraphCfg) : Tab Nat :=
  (s.cfg.graph.edges.filter (ownState g)).foldl (fun t e =>
    tset 0 t (edgeKey e) (gainLin s (.xpoint e.src e.sink) * muteW s (.xpoint e.src e.sink) / 32 + 1)) []

/-- An edge of the new graph as it comes into force: it keeps the gain in force unless the commit sets it. -/
def edgeInForce (s : State) (e : Edge) : Edge :=
  match findEdge s e.src e.sink with
  | some o => { e with gain := if e.setGain then e.gain else o.gain, setGain := false }
  | none => { e with setGain := false }

/-- A graph comes into force (R351 step 1, R353 step 2). -/
def adoptGraph (g : GraphCfg) (c : Compiled) (s : State) : State :=
  let kept (a b : Handle) : Bool := g.edges.any (fun e => e.src == a && e.sink == b)
  let held (a b : Handle) : Bool := g.edges.any (fun e => e.src == a && e.sink == b && !e.setGain)
  let old := s.gr.prog.prog
  let new := (c.prog.map (·.sink)).filter (fun h => (sinkEdges old h).isEmpty)
  let ramps := s.mix.ramps.filter (fun r => match r.obj with
    | .xpoint a b => held a b
    | _ => true)
  let mutes := s.mix.mutes.filter (fun m => match m.1 with
    | .xpoint a b => kept a b
    | _ => true)
  let sinks := new.foldl (fun t h => tmod {} t h.toNat (fun x => { x with lim := 0, look := [] })) s.mix.sinks
  let s1 : State := { s with
    cfg := { s.cfg with
      graph := { g with edges := g.edges.map (edgeInForce s), pads := c.pads }
      mix := { s.cfg.mix with xMute := s.cfg.mix.xMute.filter (fun x => kept x.src x.sink) } }
    gr := { s.gr with prog := c, generation := s.gr.generation + 1, bank := !s.gr.bank, frozen := frozenOf s g }
    mix := { s.mix with ramps := ramps, mutes := mutes, sinks := sinks } }
  poolPut .graph (graphSize g c) s1

/-- The reply that ends a commit (R355, R157). -/
def commitReply (st : Status) (s : State) : State :=
  let g := s.gr
  match g.commitHdr with
  | none => s
  | some (op, h) =>
    let pre := if h.timed.isSome then completionPrefix g.commitTai g.commitFrame else []
    reply (opCode op) h st (pre ++ le 4 g.generation ++ le 1 g.method ++ zeros 1 ++ le 2 g.changed.length
        ++ le 4 (if g.method = 2 then 0 else g.rackN) ++ le 2 g.rackRows ++ zeros 2 ++ le 8 g.commitFrame)
      { s with gr := { g with commitHdr := none } }

/-- FT(c): the armed commit begins (R351, R353). -/
def beginCommit (s : State) : State :=
  match s.gr.armed with
  | none => s
  | some k =>
    if s.gr.rack ≠ .idle then s
    else
      let (cross, rows) := changeOf s k.compiled
      let warn := k.compiled.warn
      let s1 : State := { s with gr := { s.gr with
        armed := none, commitHdr := some (k.op, k.hdr), commitFrame := s.clk.frame, commitTai := s.clk.tickTai
        rackN := usFrames s k.rackUs, rackK := 0, changed := cross, rackRows := rows, switched := false
        commitStatus := if warn then .warnHeadroom else .ok } }
      let stamp (x : State) : State := { x with gr := { x.gr with commitStamp := s.clk.stamp } }
      if cross.isEmpty then
        let s2 := adoptGraph k.graph k.compiled (stamp { s1 with gr := { s1.gr with method := 2 } })
        commitReply s2.gr.commitStatus s2
      else if wouldDip s cross rows then
        if k.noDip then commitReply .noResource s1
        else stamp { s1 with gr := { s1.gr with
          rack := .dip, oldProg := k.compiled, newGraph := k.graph, method := 1, commitStatus := .warnDip
          rackRows := max s.gr.prog.rows k.compiled.rows } }
      else
        adoptGraph k.graph k.compiled (stamp { s1 with gr := { s1.gr with rack := .rack, oldProg := s.gr.prog, method := 0 } })

/-- A trigger refused behind a pending one is counted (R354). -/
def countOverrun (st : Status) (s : State) : State :=
  if st = .busy ∧ s.gr.pendingTrig.isSome then { s with gr := { s.gr with overruns := sat32 (s.gr.overruns + 1) } } else s

/-- A captured commit is armed: it begins in its place among the commands of the next tick (R35). -/
def armCommit (k : Captured) (s : State) : State :=
  { s with gr := { s.gr with armed := some k }, cmd := { s.cmd with landing := s.cmd.landing ++ [⟨k.op, k.hdr, [], false, k.arr, false⟩] } }

/-- A trigger: it waits for its tick, becomes pending behind a running one, or is refused (R354). -/
def graphTrigger (k : Captured) (s : State) : Status × State :=
  if s.gr.rack = .idle ∧ s.gr.armed.isNone then (.ok, armCommit k s)
  else if s.gr.pendingTrig.isNone then (.ok, { s with gr := { s.gr with pendingTrig := some k } })
  else (.busy, countOverrun .busy s)

/-- A commit that would dip against the program in force and may not (R353). -/
def dipRefused (k : Captured) (s : State) : Bool :=
  let (cross, rows) := changeOf s k.compiled
  k.noDip && s.gr.rack == .idle && s.gr.armed.isNone && wouldDip s cross rows

/-- What GRAPH_COMMIT captures of the staging area (R350); the program is compiled again where the rate has changed. -/
def captureStage (h : Hdr) (s : State) : Status × Nat × Captured :=
  let g := s.gr.stage
  let groups := g.recvGroups.map Prod.fst
  let (st, i, c) := if g.fs = s.clk.fs then (.ok, 0, g.compiled) else compileGraph s false g.groups g.recv groups
  (st, i, ⟨.graphCommit, h,
    { edges := g.recv, groups := groups, pads := c.pads, rackUs := g.rackUs, graphId := g.graphId }, c, g.noDip, g.rackUs,
    arrivalOf s⟩)

/-- Checks of GRAPH_COMMIT. -/
def checkGraphCommit (h : Hdr) (p : Bytes) (s : State) : Status :=
  if p.length ≠ 0 then .badLength
  else if stageOther s h.rq then .busy
  else if s.gr.stage.state ≠ .staged then .badParam
  else
    let (st, _, k) := captureStage h s
    if st ≠ .ok then st else if dipRefused k s then .noResource else .ok

/-- A refused commit: a graph that no longer compiles, or may not dip, is discarded. -/
def discardRefused (h : Hdr) (p : Bytes) (s : State) : State :=
  if p.length ≠ 0 ∨ stageOther s h.rq ∨ s.gr.stage.state ≠ .staged then s
  else
    let (st, i, _) := captureStage h s
    if st ≠ .ok then noteRefusal st i (emptyStage s) else emptyStage s

/-- GRAPH_COMMIT (R350). -/
def execGraphCommit (h : Hdr) (p : Bytes) (s : State) : R :=
  opcode .graphCommit h p (fun s =>
    let st := checkGraphCommit h p s
    let (_, _, k) := captureStage h s
    if h.timed.isSome then
      let keep (a : State) : State := emptyStage { a with gr := { a.gr with caps := a.gr.caps ++ [k] } }
      match landing .graphCommit h p (fun _ => st) s with
      | .reply .okDeferred pay s1 => .reply .okDeferred pay (keep s1)
      | .late s1 => .late (keep s1)
      | .reply e pay s1 => .reply e pay (if e = st then discardRefused h p s1 else s1)
    else if st ≠ .ok then refuse st (discardRefused h p s)
    else match graphTrigger k s with
      | (.ok, s1) => .late (emptyStage s1)
      | (st', s1) => refuse st' s1) s

/-! ### ROUTE_SET (R358) -/

/-- The graph that a ROUTE_SET changes: the one in force, or the one a dip is moving to. -/
def routeBase (s : State) : GraphCfg :=
  if s.gr.rack = .dip ∧ s.gr.switched = false then s.gr.newGraph else s.cfg.graph

/-- One record applied; `none` where it removes an edge that does not exist. -/
def applyRecord (l : List Edge) (e : Edge) : Option (List Edge) :=
  let same (x : Edge) : Bool := x.src == e.src && x.sink == e.sink
  if e.remove then (if l.any same then some (l.filter (fun x => !same x)) else none)
  else if l.any same then some (l.map (fun x => if same x then e else x))
  else some (l ++ [e])

/-- All records applied in order. -/
def applyRecords (l : List Edge) : List Edge → Option (List Edge)
  | [] => some l
  | e :: t => match applyRecord l e with
    | some l' => applyRecords l' t
    | none => none

/-- Single fields of ROUTE_SET. -/
def routeFields (p : Bytes) : Status :=
  let n := u8 p 1
  checks
    [ (decide (p.length < 8), .badLength),
      (decide (1 < u8 p 0), .badParam),
      (n == 0 || decide (64 < n), .outOfRange),
      (u16 p 2 != 0, .badParam),
      (u32 p 4 != 0 && (decide (u32 p 4 < 500) || decide (1000000 < u32 p 4)), .outOfRange),
      (p.length != 8 + 12 * n, .badLength) ]

/-- What ROUTE_SET makes of the graph: the compile's status, the index it names, and what would be committed. -/
def routeCapture (h : Hdr) (p : Bytes) (s : State) : Status × Nat × Captured :=
  let b := routeBase s
  let recs := (List.range (u8 p 1)).map (fun i => edgeAt p (8 + 12 * i))
  let us := if u32 p 4 = 0 then b.rackUs else u32 p 4
  let cap (l : List Edge) (c : Compiled) : Captured :=
    ⟨.routeSet, h, { b with edges := l, pads := c.pads }, c, (u8 p 0).testBit 0, us, arrivalOf s⟩
  match edgeIndex (fun e => e.reserved && e.remove) recs with
  | some i => (.badParam, i, cap [] {})
  | none => match applyRecords (b.edges.map (fun e => { e with setGain := false })) recs with
    | none => (.badParam, 0xFFFFFFFF, cap [] {})
    | some l =>
      let (st, i, c) := compileGraph s false 32 l b.groups
      (st, i, cap l c)

/-- Checks of ROUTE_SET, in the order of R336 with BUSY before GRAPH_TOO_LARGE (R532). -/
def checkRouteSet (h : Hdr) (p : Bytes) (s : State) : Status :=
  let st := routeFields p
  if st ≠ .ok then st
  else
    let (c, _, k) := routeCapture h p s
    let busy := s.gr.stage.state != .empty || s.gr.pendingTrig.isSome || s.gr.armed.isSome
    if (c = .ok ∨ c = .graphTooLarge) ∧ busy then .busy
    else if c ≠ .ok then c
    else if dipRefused k s then .noResource
    else .ok

/-- A refused compile of a ROUTE_SET is noted. -/
def noteRoute (h : Hdr) (p : Bytes) (s : State) : State :=
  if routeFields p ≠ .ok then s
  else
    let (c, i, _) := routeCapture h p s
    if c ≠ .ok then noteRefusal c i s else s

/-- ROUTE_SET (R358). -/
def execRouteSet (h : Hdr) (p : Bytes) (s : State) : R :=
  opcode .routeSet h p (fun s =>
    let st := checkRouteSet h p s
    if h.timed.isSome then landing .routeSet h p (fun _ => st) (if st = .ok then s else noteRoute h p s)
    else if st ≠ .ok then refuse st (countOverrun st (noteRoute h p s))
    else
      let (_, _, k) := routeCapture h p s
      match graphTrigger k s with
      | (.ok, s1) => .late s1
      | (st', s1) => refuse st' s1) s

/-- A captured graph compiled anew at the present rate (R350): the compile's status, the index it names, and the capture after. -/
def recapture (k : Captured) (s : State) : Status × Nat × Captured :=
  let (st, i, c) := compileGraph s false 32 k.graph.edges k.graph.groups
  (st, i, { k with graph := { k.graph with pads := c.pads }, compiled := c })

/-- A commit that begins at once at its tick, or waits behind a running one, or is refused (R354). -/
def triggerNow (k : Captured) (fail : Status → State → State) (s : State) : State :=
  if s.gr.rack = .idle ∧ s.gr.armed.isNone then beginCommit { s with gr := { s.gr with armed := some k } }
  else match graphTrigger k s with
    | (.ok, s1) => s1
    | (st, s1) => fail st s1

/-- A timed GRAPH_COMMIT or ROUTE_SET reaches its tick (R155, R354): it triggers, or is refused with its completion
reply. -/
def landGraphTimed (l : Landing) (s : State) : State :=
  let fail (st : Status) (a : State) : State := reply (opCode l.op) l.hdr st [] a
  if l.op = .graphCommit then
    match s.gr.caps.find? (fun k => k.arr == l.arr) with
    | none => s
    | some k0 =>
      let s1 := { s with gr := { s.gr with caps := s.gr.caps.filter (fun x => x.arr != l.arr) } }
      let (st, i, k) := recapture k0 s1
      if st ≠ .ok then fail st (noteRefusal st i s1)
      else if dipRefused k s1 then fail .noResource s1
      else triggerNow k fail s1
  else
    let (st, i, k0) := routeCapture l.hdr l.payload s
    let k := { k0 with arr := l.arr }
    if st ≠ .ok then fail st (noteRefusal st i s)
    else if s.gr.stage.state != .empty then fail .busy (countOverrun .busy s)
    else if dipRefused k s then fail .noResource s
    else triggerNow k fail s

/-! ### The engine's events -/

/-- RACK_COMPLETE (R351 step 3, R353 step 3): the old bank stops and the reply is sent. -/
def execRackComplete (dt : Nat) (s0 : State) : R :=
  let s := advance dt s0
  let g := s.gr
  if g.rack = .idle ∨ g.rackK < g.rackN ∨ (g.rack = .dip ∧ g.switched = false) then .next s
  else
    let g1 := { g with
      rack := .idle, oldProg := {}, newGraph := {}, frozen := [], changed := g.changed, switched := false
      rackCount := if g.rack = .rack then g.rackCount + 1 else g.rackCount
      dipCount := if g.rack = .dip then g.dipCount + 1 else g.dipCount }
    .next (commitReply g.commitStatus { s with gr := g1 })

/-- DIP_BANK_SWITCH (R353 step 2): after H frames the new bank comes into force. -/
def execDipBankSwitch (dt : Nat) (s0 : State) : R :=
  let s := advance dt s0
  let g := s.gr
  if g.rack ≠ .dip ∨ g.switched ∨ g.rackK < g.rackN / 2 then .next s
  else .next (adoptGraph g.newGraph g.oldProg { s with gr := { g with switched := true } })

/-- PENDING_GRAPH_TRIGGER (R354): the running commit has ended and the pending one starts, ahead of what arrived after it. A graph that
no longer compiles at the present rate is refused (R350). -/
def execPendingGraphTrigger (dt : Nat) (s0 : State) : R :=
  let s := advance dt s0
  match s.gr.pendingTrig with
  | none => .next s
  | some k =>
    if s.gr.rack ≠ .idle ∨ s.gr.armed.isSome then .next s
    else
      let s1 := { s with gr := { s.gr with pendingTrig := none } }
      let (st, i, k1) := recapture k s1
      if st ≠ .ok then .next (reply (opCode k.op) k.hdr st [] (noteRefusal st i s1))
      else .next { s1 with
        gr := { s1.gr with armed := some k1 }
        cmd := { s1.cmd with landing := ⟨k.op, k.hdr, [], false, k.arr, false⟩ :: s1.cmd.landing } }

/-- Entry to RECOVERY cancels what waits, which replies WRONG_MODE, and the staged graph (R354, R45). -/
def cancelTriggers (s : State) : State :=
  let drop (k : Option Captured) (a : State) : State := match k with
    | some c => reply (opCode c.op) c.hdr .wrongMode [] a
    | none => a
  let s1 := { s with gr := { s.gr with pendingTrig := none, armed := none, stage := {} } }
  drop s.gr.pendingTrig (drop s.gr.armed s1)

/-! ### GRAPH_QUERY (R359) -/

/-- A crosspoint's gain in force, mdB; the manual does not say how a gain between two millidecibels is given. -/
def edgeGainNow (s : State) (e : Edge) : Int :=
  match rampOf s (.xpoint e.src e.sink) with
  | none => gainTarget s (.xpoint e.src e.sink)
  | some r => wholeMdb 8 (dbFine (rampLin r))

/-- STAGE_STATE and RACK_STATE. -/
def stageCode : StageState → Nat
  | .empty => 0 | .loading => 1 | .compiling => 2 | .staged => 3
def rackCode (g : Graph) : Nat :=
  match g.rack with
  | .idle => 0
  | .rack => if g.pendingTrig.isSome then 3 else 1
  | .dip => if g.pendingTrig.isSome then 3 else 2

/-- The summary. -/
def graphSummary (s : State) : Bytes :=
  let g := s.gr
  let st := g.stage
  le 1 (stageCode st.state) ++ le 1 (rackCode g) ++ le 2 (statusCode g.errStatus).toNat ++ le 4 g.errIndex
    ++ le 4 g.generation ++ le 2 g.prog.rows ++ le 1 g.prog.levels ++ zeros 1 ++ le 4 s.cfg.graph.edges.length
    ++ le 4 st.recv.length ++ le 4 (if g.rack = .idle then 0 else g.rackN - g.rackK) ++ le 4 g.overruns
    ++ le 4 s.cfg.graph.graphId.toNat ++ le 4 st.graphId.toNat ++ le 8 g.commitStamp

/-- The group reply. -/
def graphGroup (s : State) (prog : List ProgSink) (pads : Tab Nat) (mis : Bool) (g : EqGroup) : Bytes :=
  let (_, t) := groupPaths s prog (pathNodes s none prog) g
  le 1 g.num ++ le 1 (bit g.follow) ++ le 2 g.members.length ++ leI 4 t ++ le 2 (bit mis) ++ zeros 6
    ++ g.members.flatMap (fun h => le 2 h.toNat ++ le 2 (tget (0 : Nat) pads h.toNat))

/-- GRAPH_QUERY. -/
def execGraphQuery (h : Hdr) (p : Bytes) (s : State) : R :=
  opcodeN .graphQuery 8 h p (fun s =>
    let what := u8 p 0
    let staged := u8 p 1 == 1
    let i := u32 p 4
    let st := s.gr.stage
    let groups := if staged then st.recvGroups.map Prod.fst else s.cfg.graph.groups
    let group := groups.find? (fun g => g.num == i)
    guardSt (checks
      [ (decide (2 < what), .badParam),
        (decide (1 < u8 p 1), .badParam),
        (u16 p 2 != 0, .badParam),
        (staged && st.state != .staged, .badParam),
        (what == 2 && group.isNone, .badParam) ]) s
      (match what with
       | 0 => .reply .ok (graphSummary s) s
       | 1 =>
         let l := if staged then st.recv else s.cfg.graph.edges
         let part := ((l.drop i).take 112).map (fun e => if staged then e else { e with gain := edgeGainNow s e })
         .reply .ok (le 2 part.length ++ zeros 2 ++ le 4 l.length ++ part.flatMap edgeBytes) s
       | _ => match group with
         | some g =>
           .reply .ok (if staged then graphGroup s st.compiled.prog st.compiled.pads false g
             else graphGroup s s.gr.prog.prog s.cfg.graph.pads (s.gr.misaligned.contains g.num) g) s
         | none => refuse .badParam s)) s

end Sys2Proof.Machine
end

