-- ==== Sys2Proof/Machine/CoopDecode.lean ====
section
/-! DEFINITION. Decoding of Cooper instructions (R482 to R487). A word with a bit set that is shown as zero, or with an
encoding marked illegal, decodes to nothing. -/

namespace Sys2Proof.Machine

/-- Bits `hi` down to `lo` of a word. -/
def fld (w : Word) (hi lo : Nat) : Nat := w.toNat / 2 ^ lo % 2 ^ (hi + 1 - lo)

/-- Post-modification code MOD (R484). -/
def modOf (n : Nat) : PMod := if n = 0 then .none else if n = 1 then .inc else if n = 2 then .off else .modulo

/-- The LDD layout of bits [15:0] (R484). -/
def lddOf (w : Word) : Option LddFields :=
  if fld w 9 7 = fld w 6 4 then none
  else some { da := Fin.ofNat 8 (fld w 15 13), db := Fin.ofNat 8 (fld w 12 10), pa := Fin.ofNat 8 (fld w 9 7),
              pb := Fin.ofNat 8 (fld w 6 4), ma := modOf (fld w 3 2), mb := modOf (fld w 1 0) }

/-- Source of a store: Dn, or An in the low two bits with the upper two zero. -/
def stSrcOf (s src : Nat) : Option StSrc :=
  if s = 0 then some (.data (Fin.ofNat 16 src)) else if src < 4 then some (.acc (Fin.ofNat 4 src)) else none

/-- The parallel move of a multiply (R484). -/
def moveOf (w : Word) : Option Move :=
  match fld w 17 16 with
  | 0 => if fld w 15 0 = 0 then some .none else none
  | 1 => (lddOf w).map .ldd
  | 2 => if fld w 6 0 = 0 then
      some (.ld (Fin.ofNat 16 (fld w 15 12)) (Fin.ofNat 8 (fld w 11 9)) (modOf (fld w 8 7))) else none
  | _ => if fld w 5 0 = 0 then
      (stSrcOf (fld w 15 15) (fld w 14 11)).map (fun x => .st x (Fin.ofNat 8 (fld w 10 8)) (modOf (fld w 7 6))) else none

/-- The multiply format (R483). -/
def decodeMul (w : Word) : Option CoopOp :=
  match moveOf w with
  | none => none
  | some mv =>
    let f : MulFields :=
      { dual := fld w 28 28 == 1, a := Fin.ofNat 4 (fld w 27 26), x := Fin.ofNat 16 (fld w 25 22),
        y := Fin.ofNat 16 (fld w 21 18), mv := mv }
    match fld w 30 29 with
    | 0 => some (.mac f)
    | 1 => some (.msu f)
    | 2 => some (.mpy f)
    | _ => none

/-- Source B of a data form: a register with bits [15:4] zero, or an immediate. -/
def aluBOf (w : Word) : Option AluB :=
  if fld w 16 16 = 1 then some (.imm (BitVec.ofNat 16 (fld w 15 0)))
  else if fld w 15 4 = 0 then some (.reg (Fin.ofNat 16 (fld w 3 0))) else none

/-- Accumulator fields: [24:23], [20:19] zero; `none` where they are not. -/
def accDest (w : Word) : Option (Fin 4) := if fld w 24 23 = 0 then some (Fin.ofNat 4 (fld w 22 21)) else none
def accSrcA (w : Word) : Option (Fin 4) := if fld w 20 19 = 0 then some (Fin.ofNat 4 (fld w 18 17)) else none
def accSrcB (w : Word) : Option (Fin 4) :=
  if fld w 16 16 = 0 ∧ fld w 15 2 = 0 then some (Fin.ofNat 4 (fld w 1 0)) else none

def dataDest (w : Word) : Fin 16 := Fin.ofNat 16 (fld w 24 21)
def dataSrcA (w : Word) : Fin 16 := Fin.ofNat 16 (fld w 20 17)

/-- ADD and SUB. -/
def addOf (w : Word) : Option AddForm :=
  if fld w 25 25 = 0 then (aluBOf w).map (fun b => .data (dataDest w) (dataSrcA w) b)
  else match accDest w, accSrcA w, accSrcB w with
    | some d, some a, some b => some (.acc d a b)
    | _, _, _ => none

/-- AND, OR and XOR. -/
def logicOf (w : Word) : Option LogicForm :=
  if fld w 25 25 = 0 then (aluBOf w).map (fun b => { d := dataDest w, a := dataSrcA w, b := b }) else none

/-- A shift count below `lim` when immediate. -/
def countOf (w : Word) (lim : Nat) : Option ShCount :=
  if fld w 16 16 = 1 then (if fld w 15 0 < lim then some (.imm (Fin.ofNat 72 (fld w 15 0))) else none)
  else if fld w 15 4 = 0 then some (.reg (Fin.ofNat 16 (fld w 3 0))) else none

/-- SHL and ASR. -/
def shiftOf (w : Word) : Option ShiftForm :=
  if fld w 25 25 = 0 then (countOf w 32).map (fun n => .data (dataDest w) (dataSrcA w) n)
  else match accDest w, accSrcA w, countOf w 72 with
    | some d, some a, some n => some (.acc d a n)
    | _, _, _ => none

/-- NORM. -/
def normOf (w : Word) : Option NormForm :=
  if fld w 16 0 ≠ 0 then none
  else if fld w 25 25 = 0 then some (.data (dataDest w) (dataSrcA w))
  else (accSrcA w).map (fun a => .acc (dataDest w) a)

/-- The width field of RND and SAT: 8 to 31, with I set. -/
def widthOf (w : Word) : Option (Fin 32) :=
  if fld w 16 16 = 1 ∧ 8 ≤ fld w 15 0 ∧ fld w 15 0 ≤ 31 then some (Fin.ofNat 32 (fld w 15 0)) else none

/-- RND. -/
def rndOf (w : Word) : Option RndForm :=
  if fld w 25 25 = 0 then (widthOf w).map (fun n => .data (dataDest w) (dataSrcA w) n)
  else if fld w 16 0 = 0 then (accSrcA w).map (fun a => .narrow (dataDest w) a) else none

/-- SAT. -/
def satOf (w : Word) : Option SatForm :=
  if fld w 25 25 = 0 then (widthOf w).map (fun n => .data (dataDest w) (dataSrcA w) n)
  else if fld w 16 0 = 0 then
    match accDest w, accSrcA w with
    | some d, some a => some (.acc d a)
    | _, _ => none
  else none

/-- CMP: destination zero. -/
def cmpOf (w : Word) : Option CmpForm :=
  if fld w 24 21 ≠ 0 then none
  else if fld w 25 25 = 0 then (aluBOf w).map (fun b => .data (dataSrcA w) b)
  else match accSrcA w, accSrcB w with
    | some a, some b => some (.acc a b)
    | _, _ => none

/-- Displacement or post-modification; with I set MOD is zero, with I clear the displacement is. -/
def addrOf (mod i disp : Nat) : Option Addr :=
  if i = 1 then (if mod = 0 then some (.disp (BitVec.ofNat 14 disp)) else none)
  else if disp = 0 then some (.post (modOf mod)) else none

/-- LD (R486). -/
def ldOf (w : Word) : Option LdForm :=
  match fld w 25 24 with
  | 0 => (addrOf (fld w 16 15) (fld w 14 14) (fld w 13 0)).map
      (fun ad => .mem (Fin.ofNat 16 (fld w 23 20)) (Fin.ofNat 8 (fld w 19 17)) ad)
  | 1 => if fld w 23 18 < 42 ∧ fld w 17 16 = 0 then
      some (.immLow (Fin.ofNat 42 (fld w 23 18)) (BitVec.ofNat 16 (fld w 15 0))) else none
  | 2 => if fld w 23 18 < 42 ∧ fld w 17 16 = 0 then
      some (.immHigh (Fin.ofNat 42 (fld w 23 18)) (BitVec.ofNat 16 (fld w 15 0))) else none
  | _ => if fld w 23 18 < 48 ∧ fld w 17 12 < 44 ∧ fld w 11 0 = 0 then
      some (.reg (Fin.ofNat 48 (fld w 23 18)) (Fin.ofNat 44 (fld w 17 12))) else none

/-- ST (R486). -/
def stOf (w : Word) : Option StForm :=
  if fld w 14 14 ≠ 0 then none
  else match stSrcOf (fld w 25 25) (fld w 24 21), addrOf (fld w 17 16) (fld w 15 15) (fld w 13 0) with
    | some src, some ad => some { src := src, p := Fin.ofNat 8 (fld w 20 18), ad := ad }
    | _, _ => none

/-- Target of BR and CALL. -/
def targetOf (w : Word) : Option BrTarget :=
  if fld w 21 21 = 0 then (if fld w 20 14 = 0 then some (.imm (BitVec.ofNat 14 (fld w 13 0))) else none)
  else if fld w 20 18 = 0 ∧ fld w 13 0 = 0 then some (.reg (Fin.ofNat 16 (fld w 17 14))) else none

/-- A condition code below 13 (R495). -/
def condOf (n : Nat) : Option Cond := if n < 13 then some (Fin.ofNat 13 n) else none

/-- BEXP. -/
def bexpOf (w : Word) : Option BexpForm :=
  if fld w 25 23 = fld w 22 20 ∨ fld w 14 12 ≠ 0 ∨ fld w 11 0 = 0 then none
  else some { pa := Fin.ofNat 8 (fld w 25 23), pb := Fin.ofNat 8 (fld w 22 20), ma := modOf (fld w 19 18),
              mb := modOf (fld w 17 16), clr := fld w 15 15 == 1, n := BitVec.ofNat 12 (fld w 11 0) }

/-- The instructions whose opcode is in bits [30:26] (R485). -/
def decodeOp (w : Word) : Option CoopOp :=
  let rest := fld w 25 0
  match fld w 30 26 with
  | 0x01 => (addOf w).map .add
  | 0x02 => (addOf w).map .sub
  | 0x03 => (logicOf w).map .and
  | 0x04 => (logicOf w).map .or
  | 0x05 => (logicOf w).map .xor
  | 0x06 => (shiftOf w).map .shl
  | 0x07 => (shiftOf w).map .asr
  | 0x08 => (normOf w).map .norm
  | 0x09 => (rndOf w).map .rnd
  | 0x0A => (satOf w).map .sat
  | 0x0B => (cmpOf w).map .cmp
  | 0x0C => (ldOf w).map .ld
  | 0x0D => if fld w 25 16 = 0 then (lddOf w).map .ldd else none
  | 0x0E => (stOf w).map .st
  | 0x10 => match condOf (fld w 25 22), targetOf w with
    | some c, some t => some (.br c t)
    | _, _ => none
  | 0x11 => if fld w 25 22 = 0 then (targetOf w).map .call else none
  | 0x12 => if rest = 0 then some .ret else none
  | 0x13 => if fld w 15 0 ≠ 0 then
      some (.rep (Fin.ofNat 1024 (fld w 25 16)) (BitVec.ofNat 16 (fld w 15 0))) else none
  | 0x14 => if fld w 21 0 = 0 then (condOf (fld w 25 22)).map .endrep else none
  | 0x15 => if fld w 25 4 = 0 then some (.wait (BitVec.ofNat 4 (fld w 3 0))) else none
  | 0x16 => if rest = 0 then some .blkdone else none
  | 0x17 => if rest = 0 then some .halt else none
  | 0x18 => if fld w 6 0 = 0 then
      some (.acs { d := Fin.ofNat 16 (fld w 25 22), a := Fin.ofNat 16 (fld w 21 18), b := Fin.ofNat 16 (fld w 17 14),
                   l := Fin.ofNat 16 (fld w 13 10), ha := fld w 9 9 == 1, hb := fld w 8 8 == 1, sw := fld w 7 7 == 1 })
      else none
  | 0x19 => (bexpOf w).map .bexp
  | 0x1A => if fld w 15 4 = 0 then
      some (.repReg (Fin.ofNat 1024 (fld w 25 16)) (Fin.ofNat 16 (fld w 3 0))) else none
  | _ => none

/-- The instruction a word spells; `none` is illegal (R482). -/
def coopDecode (w : Word) : Option CoopOp := if fld w 31 31 = 1 then decodeMul w else decodeOp w

end Sys2Proof.Machine
end

