-- ==== Sys2Proof/Machine/Flags.lean ====
section
/-! DEFINITION. The status register of a Cooper core (R480) and its flag computations (R485, R491 to R495). -/

namespace Sys2Proof.Machine

/-- Bit positions in SR (R480). -/
def bitAsat : Nat := 4
def bitRnone : Nat := 5
def bitNsat : Nat := 6
def bitDsat : Nat := 7
def bitSov : Nat := 8
def bitZ : Nat := 9
def bitN : Nat := 10
def bitV : Nat := 11
def bitC : Nat := 12

/-- A bit of SR. -/
def srBit (r : BitVec 13) (k : Nat) : Bool := r.getLsbD k

/-- SR with a bit set or cleared. -/
def srPut (r : BitVec 13) (k : Nat) (b : Bool) : BitVec 13 :=
  if b then r ||| BitVec.ofNat 13 (2 ^ k) else r &&& ~~~(BitVec.ofNat 13 (2 ^ k))

/-- A sticky bit: set where `b` holds, kept otherwise. -/
def srStick (r : BitVec 13) (k : Nat) (b : Bool) : BitVec 13 := if b then srPut r k true else r

/-- Z and N of a result. -/
def srZN (r : BitVec 13) (v : Int) : BitVec 13 := srPut (srPut r bitZ (v == 0)) bitN (decide (v < 0))

/-- Z, N, V and C. -/
def srZNVC (r : BitVec 13) (v : Int) (ov c : Bool) : BitVec 13 := srPut (srPut (srZN r v) bitV ov) bitC c

/-- Signed overflow of an exact result at 32 bits. -/
def over32 (x : Int) : Bool := decide (x < -2147483648) || decide (2147483647 < x)

/-- An exact accumulator result outside −512 to 512 − 2^-62 (R491). -/
def over72 (x : Int) : Bool := decide (x < -2361183241434822606848) || decide (2361183241434822606847 < x)

/-- A condition of BR and ENDREP holds (R495). -/
def condHolds (r : BitVec 13) (c : Cond) : Bool :=
  let z := srBit r bitZ
  let n := srBit r bitN
  let v := srBit r bitV
  match c.val with
  | 0 => true
  | 1 => z
  | 2 => !z
  | 3 => n != v
  | 4 => n == v
  | 5 => !z && n == v
  | 6 => z || n != v
  | 7 => srBit r bitC
  | 8 => !srBit r bitC
  | 9 => v
  | 10 => !v
  | 11 => n
  | _ => !n

/-- A data-register result (R493): the exact value wraps modulo 2^32 and sets V, or clamps and sets SOV with DSAT. -/
def dataResult (r : BitVec 13) (x : Int) : Int × BitVec 13 :=
  if over32 x && srBit r bitDsat then (satS 32 x, srPut r bitSov true) else (signed 32 (x % 4294967296).toNat, r)

/-- An accumulator result (R491): the value written, and SR with AOV of accumulator `a` and SOV. -/
def accResult (r : BitVec 13) (a : Fin 4) (x : Int) : BitVec 72 × BitVec 13 :=
  if over72 x then
    let r1 := srPut r a true
    if srBit r bitAsat then (BitVec.ofInt 72 (satS 72 x), srPut r1 bitSov true) else (BitVec.ofInt 72 x, r1)
  else (BitVec.ofInt 72 x, r)

/-- Drops `f` bits: convergent, or toward minus infinity with RNONE (R492). -/
def roundDrop (r : BitVec 13) (x : Int) (f : Nat) : Int := if srBit r bitRnone then x / (2 ^ f : Nat) else convRound x f

/-- A rounded value at `w` bits (R492): clamped with NSAT, which sets SOV, else its low `w` bits. -/
def narrowTo (r : BitVec 13) (w : Nat) (x : Int) : Int × BitVec 13 :=
  let y := satS w x
  if y = x then (x, r)
  else if srBit r bitNsat then (y, srPut r bitSov true)
  else (signed w (x % (2 ^ w : Nat)).toNat, r)

/-- Narrowing of an accumulator to Q1.31 (R492). -/
def narrowAcc (r : BitVec 13) (a : BitVec 72) : Word × BitVec 13 :=
  let (v, r1) := narrowTo r 32 (roundDrop r a.toInt 31)
  (BitVec.ofInt 32 v, r1)

end Sys2Proof.Machine
end

