-- ==== Sys2Proof/Machine/CoopCore.lean ====
section
/-! DEFINITION. A Cooper core as it executes: its registers and memory (R456 to R459, R479), DMA starts (R461), traps
(R473), repeats (R497), the beginning and the end of a block (R464, R472). -/

namespace Sys2Proof.Machine

/-! ### Names -/

/-- A core, and what the vintage holds of it. -/
def coreOf (s : State) (k : Nat) : Core := tget {} s.coop k
def setCore (k : Nat) (c : Core) (s : State) : State := { s with coop := tset {} s.coop k c }
def coopCfg (s : State) (k : Nat) : CoopCfg := tget {} s.cfg.coop k
def setCoopCfg (k : Nat) (c : CoopCfg) (s : State) : State := { s with cfg := { s.cfg with coop := tset {} s.cfg.coop k c } }

/-- A core's first COOPOUT handle. -/
def coopObject (k : Nat) : Handle := mkHandle 0x08 (64 * k)

/-- Registers. -/
def regD (g : CoopRegs) (i : Nat) : Word := tget 0 g.d i
def regA (g : CoopRegs) (i : Nat) : BitVec 72 := tget 0 g.a i
def regP (g : CoopRegs) (i : Nat) : Word := tget 0 g.p i
def regN (g : CoopRegs) (i : Nat) : Word := tget 0 g.n i
def regM (g : CoopRegs) (i : Nat) : Word := tget 0 g.m i
def putD (i : Nat) (v : Word) (g : CoopRegs) : CoopRegs := { g with d := tset 0 g.d i v }
def putA (i : Nat) (v : BitVec 72) (g : CoopRegs) : CoopRegs := { g with a := tset 0 g.a i v }
def putP (i : Nat) (v : Word) (g : CoopRegs) : CoopRegs := { g with p := tset 0 g.p i v }
def putN (i : Nat) (v : Word) (g : CoopRegs) : CoopRegs := { g with n := tset 0 g.n i v }
def putM (i : Nat) (v : Word) (g : CoopRegs) : CoopRegs := { g with m := tset 0 g.m i v }

/-- Writes Dd with the given SR. -/
def resD (i : Nat) (v : Word) (sr : BitVec 13) (g : CoopRegs) : CoopRegs := { putD i v g with sr := sr }

/-! ### Data memory (R456 to R459) -/

/-- Bank X holds XMEM, IN and PARAM; bank Y the other regions. -/
def bankX (a : Nat) : Bool := decide (a < 0x40000) || (decide (0x60000 ≤ a) && decide (a < 0x65000))

/-- A sample of a block: channel c, frame i. -/
def blockSample (b : InBlock) (c i : Nat) : Int := (b.vals.getD i []).getD c 0

/-- A DMA channel's control word (R459). -/
def dmaCtrl (x : DmaCh) : Word :=
  BitVec.ofNat 32 (flag 1 x.dir + flag 8 x.now.isSome + flag 9 x.doneBit)

/-- A word of the CTRL page. `draw` selects the free value of an unlisted word. -/
def ctrlRead (k draw : Nat) (c : Core) (off : Nat) : Word :=
  if off = 0x00 then BitVec.ofNat 32 c.cur.num
  else if off = 0x04 then BitVec.ofNat 32 (c.cur.num / 4294967296)
  else if off = 0x08 then BitVec.ofNat 32 c.cur.frame
  else if off = 0x0C then BitVec.ofNat 32 (c.cur.frame / 4294967296)
  else if off = 0x10 then BitVec.ofNat 32 c.paramSeq
  else if off = 0x14 then BitVec.ofNat 32 (flag 0 c.lateStart + flag 1 c.waiting.isSome)
  else if 0x40 ≤ off && off < 0x80 then
    let x := c.dma.getD ((off - 0x40) / 16) {}
    match off % 16 with
    | 0 => x.cask
    | 4 => x.loc
    | 8 => x.len
    | _ => dmaCtrl x
  else Config.ctrlHole k off draw

/-- Loads a word (R456): `none` where the access traps. -/
def coreLoad (k draw : Nat) (c : Core) (a : Nat) : Option Word :=
  if a % 4 ≠ 0 then none
  else if 0x20000 ≤ a && a < 0x40000 then some (tget 0 c.xmem ((a - 0x20000) / 4))
  else if 0x40000 ≤ a && a < 0x60000 then some (tget 0 c.ymem ((a - 0x40000) / 4))
  else if 0x60000 ≤ a && a < 0x64000 then
    let w := (a - 0x60000) / 4
    let ch := w / c.image.block
    some (if ch < c.image.inCh then BitVec.ofInt 32 (blockSample c.cur ch (w % c.image.block)) else 0)
  else if 0x64000 ≤ a && a < 0x65000 then some (tget 0 c.param ((a - 0x64000) / 4))
  else if 0x70000 ≤ a && a < 0x74000 then some (tget 0 c.out ((a - 0x70000) / 4))
  else if 0x74000 ≤ a && a < 0x74400 then some (tget 0 c.rb ((a - 0x74000) / 4))
  else if 0x7F000 ≤ a && a < 0x7F100 then some (ctrlRead k draw c (a - 0x7F000))
  else none

/-- A DMA start stays inside the allocation and inside XMEM or YMEM (R461). -/
def dmaFits (c : Core) (x : DmaCh) : Bool :=
  let cask := x.cask.toNat
  let loc := x.loc.toNat
  let n := x.len.toNat
  cask % 64 == 0 && loc % 4 == 0 && n % 4 == 0 && decide (4 ≤ n) && decide (n ≤ 65536)
    && decide (cask + n ≤ 1024 * c.image.caskKib)
    && ((decide (0x20000 ≤ loc) && decide (loc + n ≤ 0x40000)) || (decide (0x40000 ≤ loc) && decide (loc + n ≤ 0x60000)))

/-- Writes DMAd_CTRL: DONE is cleared by 1; START starts the channel unless it is busy; a start that does not fit traps. -/
def dmaControl (c : Core) (d : Nat) (v : Word) : Except Nat Core :=
  let x := c.dma.getD d {}
  let x1 := { x with doneBit := x.doneBit && !v.getLsbD 9 }
  if x.now.isSome then .ok { c with dma := c.dma.set d x1 }
  else
    let x2 := { x1 with dir := v.getLsbD 1 }
    if !v.getLsbD 0 then .ok { c with dma := c.dma.set d x2 }
    else if dmaFits c x2 then
      .ok { c with dma := c.dma.set d { x2 with now := some (x2.cask.toNat, x2.loc.toNat, x2.len.toNat, x2.dir) },
                   dmaSeen := true }
    else .error 3

/-- Writes a word of the CTRL page; read-only and unlisted words ignore it. -/
def ctrlWrite (c : Core) (off : Nat) (v : Word) : Except Nat Core :=
  if 0x40 ≤ off && off < 0x80 then
    let d := (off - 0x40) / 16
    let x := c.dma.getD d {}
    match off % 16 with
    | 0 => .ok { c with dma := c.dma.set d { x with cask := v } }
    | 4 => .ok { c with dma := c.dma.set d { x with loc := v } }
    | 8 => .ok { c with dma := c.dma.set d { x with len := v } }
    | _ => dmaControl c d v
  else .ok c

/-- Stores a word (R456, R457): the core after it, or the trap's reason. -/
def coreStore (c : Core) (a : Nat) (v : Word) : Except Nat Core :=
  if a % 4 ≠ 0 then .error 2
  else if 0x20000 ≤ a && a < 0x40000 then .ok { c with xmem := tset 0 c.xmem ((a - 0x20000) / 4) v }
  else if 0x40000 ≤ a && a < 0x60000 then .ok { c with ymem := tset 0 c.ymem ((a - 0x40000) / 4) v }
  else if 0x70000 ≤ a && a < 0x74000 then
    let w := (a - 0x70000) / 4
    .ok (if w / c.image.block < c.image.outCh then { c with out := tset 0 c.out w v } else c)
  else if 0x74000 ≤ a && a < 0x74400 then .ok { c with rb := tset 0 c.rb ((a - 0x74000) / 4) v }
  else if 0x7F000 ≤ a && a < 0x7F100 then ctrlWrite c (a - 0x7F000) v
  else .error 2

/-! ### Addressing (R488) -/

/-- A pointer after its post-modification. -/
def postMod (g : CoopRegs) (p : Nat) (m : PMod) : Word :=
  let v := regP g p
  let off := (regN g p).toInt
  match m with
  | .none => v
  | .inc => v + 4
  | .off => v + regN g p
  | .modulo =>
    let base : Int := 4 * ((regM g p).toNat % 131072 : Nat)
    let len : Int := 4 * ((regM g p).toNat / 131072 : Nat)
    if len = 0 then v + regN g p else BitVec.ofInt 32 (base + ((v.toNat : Int) - base + off) % len)

/-- Effective address of a standalone load or store, and the pointer afterwards. -/
def effAddr (g : CoopRegs) (p : Nat) : Addr → Nat × Word
  | .post m => ((regP g p).toNat, postMod g p m)
  | .disp d => ((regP g p + BitVec.ofInt 32 (4 * d.toInt)).toNat, regP g p)

/-! ### Traps (R473) -/

/-- A core traps at instruction index `pc`. -/
def coreTrap (k reason pc : Nat) (s : State) : State :=
  let c := coreOf s k
  let c1 := { c with
    state := .trapped, active := false, trapReason := reason, trapPc := 4 * pc, trapAt := s.sysCnt, haltReq := false, steps := 0
    dma := c.dma.map (fun x => { x with now := none }), ready := none, waiting := none
    exhausted := c.exhausted || ((coopCfg s k).restart && decide (3 ≤ c.restarts)) }
  raise .coopTrap (coopObject k) 0 (BitVec.ofNat 32 (k + 256 * reason + 65536 * (pc % 65536))) (setCore k c1 s)

/-! ### Repeats and sequencing (R496, R497) -/

/-- What follows the instruction at `pc`: the next one, or the first of a repeat body whose last it was. -/
def endBodies (pc : Nat) : List RepLevel → Nat × List RepLevel
  | [] => (pc + 1, [])
  | l :: t =>
    if l.last = pc then
      (if 1 < l.left then (l.first, { l with left := l.left - 1 } :: t) else endBodies pc t)
    else (pc + 1, l :: t)

/-- Goes on after the instruction at `pc`. -/
def afterInstr (pc : Nat) (c : Core) : Core :=
  let (n, l) := endBodies pc c.reps
  { c with pc := n, reps := l }

/-- A taken branch or return discards every repeat level whose body the target leaves. -/
def jumpTo (t : Nat) (c : Core) : Core :=
  { c with pc := t, reps := c.reps.dropWhile (fun l => decide (t < l.first) || decide (l.last < t)) }

/-- What an instruction does: the core after it, or a trap. -/
inductive CoopRes where
  | go (c : Core)
  | trap (reason : Nat) (c : Core)

/-- The instruction took `n` cycles and the next one follows. -/
def seqOn (n : Nat) (c : Core) : CoopRes := .go (afterInstr c.pc { c with cycles := c.cycles + n })

/-- The instruction writes the registers and the next one follows. -/
def seqRegs (g : CoopRegs) (c : Core) : CoopRes := seqOn 1 { c with regs := g }

/-- Instructions that may not end a repeat body (R497). -/
def endsFlow : CoopOp → Bool
  | .br _ _ | .call _ | .ret | .rep _ _ | .repReg _ _ | .endrep _ | .blkdone | .halt => true
  | _ => false

/-! ### Execution -/

/-- The core executes: a block runs, or debug steps are left (R477). -/
def executing (c : Core) : Bool :=
  c.active && (c.state == .starting || c.state == .running || c.state == .stopping
    || (c.state == .halted && decide (0 < c.steps)))

/-- An enabled breakpoint stands before the next instruction (R478). -/
def atBreak (c : Core) : Bool :=
  !c.skipBreak && c.breaks.any (fun b => b.getLsbD 31 && b.toNat % 16384 == c.pc)

/-- A core halts by debug. -/
def debugHalt (k : Nat) (s : State) : State :=
  setCore k { coreOf s k with state := .halted, haltReq := false, steps := 0, ready := none } s

/-- The instruction that the core fetches next. -/
def fetched (c : Core) : Option CoopOp :=
  if c.image.progWords ≤ c.pc then none else coopDecode (tget 0 c.prog c.pc)

/-- AOV bits that went from clear to set (R476). -/
def newAov (a b : BitVec 13) : BitVec 4 := (b &&& ~~~a).setWidth 4

/-- Accounts for one executed instruction: `c0` before, `c` after. -/
def settleStep (c0 c : Core) : Core :=
  { c with aovEdge := c.aovEdge ||| newAov c0.regs.sr c.regs.sr, steps := c.steps - 1, skipBreak := false }

/-- Executes the instruction `op` on a core whose next instruction it is; on any other core nothing happens. -/
def coopExec (k : Fin 4) (op : CoopOp) (body : Core → CoopRes) (s : State) : R :=
  let c := coreOf s k
  if !executing c || fetched c ≠ some op then .next s
  else if atBreak c then .next (debugHalt k s)
  else if endsFlow op && c.reps.any (fun l => l.last == c.pc) then .next (coreTrap k 1 c.pc s)
  else match body c with
    | .go c1 => .next (setCore k (settleStep c c1) s)
    | .trap r c1 => .next (coreTrap k r c.pc (setCore k (settleStep c c1) s))

/-! ### Blocks (R464, R465, R472, R476) -/

/-- The shadow's words over the values in force. -/
def mergeParams (p : Tab Word) (sh : Tab (Option Word)) : Tab Word :=
  sh.foldl (fun a e => match e.2 with
    | some v => tset 0 a e.1 v
    | none => a) p

/-- A block begins: at ENTRY, with its input, zeros in OUT, and the parameter shadow come into force. -/
def startBlock (k : Nat) (b : InBlock) (late : Bool) (s : State) : State :=
  let c := coreOf s k
  let p := mergeParams (coopCfg s k).params c.shadow
  let fresh := !c.shadow.isEmpty
  let c1 := { c with
    active := true, cur := b, out := [], lateStart := late, pc := c.image.entry, rstack := [], reps := [], cycles := 0
    dmaSeen := c.dma.any (fun x => x.now.isSome), aovEdge := 0, param := p, shadow := []
    paramSeq := if fresh then c.paramSeq + 1 else c.paramSeq, paramBlock := if fresh then b.num else c.paramBlock
    skipBreak := false }
  setCoopCfg k { coopCfg s k with params := p } (setCore k c1 s)

/-- The output block, one list of 64 samples a frame. -/
def outFrames (c : Core) : List (List Int) :=
  (List.range c.image.block).map (fun i => (List.range 64).map (fun ch =>
    if ch < c.image.outCh then (tget (0 : Word) c.out (ch * c.image.block + i)).toInt else 0))

/-- A block reaches BLKDONE. -/
def blockDone (k : Nat) (s0 : State) : State :=
  let c := coreOf s0 k
  let (draw, s) := fresh s0
  let late := decide (c.cur.num + 2 ≤ c.bnd)
  let n := c.cycles + 1 + (if c.dmaSeen then Config.stallCycles draw else 0)
  let onTime := if late then 0 else c.onTime + 1
  let halt := c.haltReq || c.state == .halted
  let c1 := { c with
    active := false, reps := [], rstack := [], cyclesLast := n, cyclesPeak := max c.cyclesPeak n, blocks := c.blocks + 1
    rbHost := c.rb, rbBlock := c.cur.num, onTime := onTime, haltReq := false, steps := 0
    state := if halt then .halted else c.state
    ready := if late || halt then none else some (c.cur.num, outFrames c)
    waiting := if halt then c.waiting else none }
  let s1 := setCore k c1 s
  let s2 := (bitsOf 4 c.aovEdge.toNat).foldl (fun a x =>
    raise .coopGuard (coopObject k) 0 (BitVec.ofNat 32 (k + 256 * x)) a) s1
  let s3 := if onTime = 64 then release .coopOverrun (coopObject k) 0 s2 else s2
  if halt then s3
  else match c.waiting with
    | none => s3
    | some b => startBlock k b true s3

end Sys2Proof.Machine
end

