-- ==== Sys2Proof/Machine/Coop.lean ====
section
/-! DEFINITION. Cooper cores as the module runs them: images (R467 to R469), starts and stops (R470, R471), block
boundaries (R462 to R466), parameters (R472), restarts (R474), COOP_STATUS and COOP_DEBUG, DMA, and FS_SET, which asks
whether a core runs. -/

namespace Sys2Proof.Machine

/-! ### What runs (R46) -/

/-- The core holds an image. -/
def coreLoaded (c : Core) : Bool := c.state != .empty && c.state != .loading

/-- A core's state counts as running. -/
def coreRuns (c : Core) : Bool := c.state == .starting || c.state == .running || c.state == .stopping || c.state == .halted

/-- Some core runs. -/
def anyCoreRuns (s : State) : Bool := s.coop.any (fun e => coreRuns e.2)

/-- FS_SET (R204, R205): an unchanged rate is answered at once, a changed one at the first tick of the new rate. -/
def execFsSet (h : Hdr) (p : Bytes) (s : State) : R :=
  opcodeN .fsSet 4 h p (fun s =>
    let f : Fin 3 := Fin.ofNat 3 (u8 p 0)
    guardSt (checkFsSet (anyCoreRuns s) p s) s
      (if f = s.clk.fs then done s
       else .late (awaitReply .fsSet h []
         { s with clk := { s.clk with fsPending := some f }
                  cfg := { s.cfg with clock := { s.cfg.clock with fs := f } } }))) s

/-- Cycles of a block's budget (R463). -/
def cycleBudget (fs : Fin 3) (block : Nat) : Nat := block * (400000000 / fsHz fs) - 64

/-! ### Images (R467, R468) -/

/-- The words of `n` bytes at an offset. -/
def wordsAt (p : Bytes) (i n : Nat) : List Word :=
  let q := p.drop i
  let rec go : Nat → Bytes → List Word
    | 0, _ => []
    | k + 1, b => BitVec.ofNat 32 (u32 b 0) :: go k (b.drop 4)
  go (n / 4) q

/-- The fields of an image's header, and its initial data. -/
def imageFields (b : Bytes) : CoopImage :=
  let pw := u32 b 32
  let xb := u32 b 36
  let yb := u32 b 40
  { id := BitVec.ofNat 32 (u32 b 8), version := BitVec.ofNat 32 (u32 b 12), block := u8 b 16, inCh := u8 b 17
    outCh := u8 b 18, cyclesMax := u32 b 20, caskKib := u32 b 24, entry := u32 b 28, progWords := pw
    xinit := wordsAt b (256 + 4 * pw) xb, yinit := wordsAt b (256 + 4 * pw + xb) yb
    paramWords := u16 b 44, rbWords := u16 b 46 }

/-- A list of words as a table from index `i`. -/
def wordTab : Nat → List Word → Tab Word
  | _, [] => []
  | i, w :: t => if w = 0 then wordTab (i + 1) t else (i, w) :: wordTab (i + 1) t

/-- The program of an image. -/
def imageProg (b : Bytes) : Tab Word := wordTab 0 (wordsAt b 256 (4 * u32 b 32))

/-- The parameter defaults of an image. -/
def imageParams (b : Bytes) : Tab Word :=
  wordTab 0 (wordsAt b (256 + 4 * u32 b 32 + u32 b 36 + u32 b 40) (4 * u16 b 44))

/-- The header fields in table order (R467). -/
def headerCheck (b : Bytes) : Status :=
  let bl := u8 b 16
  let x := u32 b 36
  let y := u32 b 40
  let pw := u32 b 32
  checks
    [ (u32 b 0 != 0x434F4F50, .badParam),
      (u16 b 4 != 1, .badVersion),
      (decide (1 < u16 b 6), .badParam),
      (bl != 8 && bl != 16 && bl != 32 && bl != 64, .badParam),
      (decide (64 < u8 b 17) || decide (64 < u8 b 18) || u8 b 19 != 0, .badParam),
      (decide (32768 < u32 b 24), .badParam),
      (decide (pw ≤ u32 b 28) || pw == 0 || decide (16384 < pw), .badParam),
      (decide (131072 < x) || x % 4 != 0 || decide (131072 < y) || y % 4 != 0, .badParam),
      (decide (1024 < u16 b 44) || decide (256 < u16 b 46), .badParam),
      (u32 b 48 != 4 * pw + x + y + 4 * u16 b 44 || u32 b 48 != b.length - 256, .badParam),
      (u32 b 52 != 0, .badParam),
      (sha256 (b.drop 256) != (b.drop 56).take 32, .authFail),
      ((!(u8 b 6).testBit 0 && !zeroAt b 88 64) || !zeroAt b 152 104, .badParam) ]

/-- What a lifecycle state makes of an image (R468): `none` is refused, else whether it counts as signed. -/
def imageSigned (s : State) (b : Bytes) : Option Bool :=
  let marked := (u8 b 6).testBit 0
  let verified := match s.life.integratorKey with
    | some k => Config.ecdsaVerify k (b.take 88) ((b.drop 88).take 64)
    | none => false
  match s.life.state with
  | .blank | .returned => some false
  | .provisioned => if !marked then some false else if verified then some true else none
  | .deployed => if marked && verified then some true else none

/-! ### Cask (R460) -/

/-- Allocations in use: offset and KiB, of the cores other than `k`. -/
def caskUsed (s : State) (k : Nat) : List (Nat × Nat) :=
  (s.coop.filter (fun e => e.1 != k && coreLoaded e.2)).map (fun e => (e.2.caskOff, 1024 * e.2.image.caskKib))

/-- KiB in use by the cores other than `k`. -/
def caskKibUsed (s : State) (k : Nat) : Nat := ((caskUsed s k).map (fun e => e.2 / 1024)).sum

/-- The lowest free offset at which `n` bytes fit. -/
def caskFit (used : List (Nat × Nat)) (n : Nat) : Option Nat :=
  let ok (o : Nat) : Bool := decide (o + n ≤ 33554432) && used.all (fun e => decide (o + n ≤ e.1) || decide (e.1 + e.2 ≤ o))
  ((0 :: used.map (fun e => e.1 + e.2)).filter ok).min?

/-- Moves the allocations together, in core order. -/
def caskPack (s : State) : State :=
  let r := s.coop.foldl (fun (a : Tab Core × Nat) e =>
    if coreLoaded e.2 then (tset {} a.1 e.1 { e.2 with caskOff := a.2 }, a.2 + 1024 * e.2.image.caskKib) else a) (s.coop, 0)
  { s with coop := r.1 }

/-- Installs an image: the core is stopped and holds it. -/
def installCore (k : Nat) (b : Bytes) (verified : Bool) (s : State) : State :=
  let f := { imageFields b with verified := verified }
  let n := 1024 * f.caskKib
  let (s1, off) := match caskFit (caskUsed s k) n with
    | some o => (s, o)
    | none => let s1 := caskPack (setCore k { coreOf s k with state := .empty } s); (s1, 1024 * caskKibUsed s1 k)
  setCore k { state := .stopped, image := f, prog := imageProg b, caskOff := off } s1

/-- Leaves a core empty; what its last trap was stays to be read. -/
def emptyCore (k : Nat) (s : State) : State :=
  let c := coreOf s k
  poolDrop (.image (Fin.ofNat 4 k)) (setCoopCfg k { coopCfg s k with image := [], params := [], run := false }
    (setCore k { state := .empty, trapReason := c.trapReason, trapPc := c.trapPc, breaks := c.breaks } s))

/-! ### COOP_LOAD (R469) -/

/-- END: the load is checked and installed, or the core is left empty. -/
def coopEnd (k : Nat) (l : CoopLoading) (s : State) : Ans :=
  if l.data.length ≠ l.len then refuse .badParam s
  else match headerCheck l.data with
    | .ok => match imageSigned s l.data with
      | none => refuse .authFail (emptyCore k s)
      | some v =>
        if 32768 < u32 l.data 24 + caskKibUsed s k then refuse .noResource (emptyCore k s)
        else
          let s1 := installCore k l.data v s
          let s2 := setCoopCfg k { coopCfg s1 k with image := l.data, params := imageParams l.data } s1
          .reply .ok ((l.data.drop 8).take 4 ++ le 1 (bit v) ++ zeros 3) (poolPut (.image (Fin.ofNat 4 k)) (64 + l.len) s2)
    | st => refuse st (emptyCore k s)

/-- COOP_LOAD (R469). -/
def execCoopLoad (h : Hdr) (p : Bytes) (s : State) : R :=
  opcode .coopLoad h p (fun s =>
    let k := u8 p 0
    let part := u8 p 1
    let v := u32 p 4
    let n := p.length - 8
    let c := coreOf s k
    let other := match c.load with
      | some l => l.owner != h.rq
      | none => false
    let most := if h.rq = .spi then 4088 else 1388
    guardSt (checks
      [ (decide (p.length < 8), .badLength),
        (decide (3 < k), .outOfRange),
        (decide (3 < part), .badParam),
        (if part = 1 then decide (n < 4) || decide (most < n) || n % 4 != 0 else n != 0, .badLength),
        (u16 p 2 != 0, .badParam),
        (part == 0 && (decide (v < 256) || decide (332032 < v)), .outOfRange),
        (decide (2 ≤ part) && v != 0, .badParam),
        ((part == 1 || part == 2) && c.state != .loading, .badParam),
        (other || (part != 1 && coreRuns c), .busy) ]) s
      (match part with
       | 0 => done (setCore k { coreOf (emptyCore k s) k with state := .loading, load := some ⟨h.rq, v, []⟩ } (emptyCore k s))
       | 1 => match c.load with
         | some l =>
           if v ≠ l.data.length ∨ l.len < l.data.length + n then refuse .badParam s
           else done (setCore k { c with load := some { l with data := l.data ++ p.drop 8 } } s)
         | none => refuse .badParam s
       | 2 => match c.load with
         | some l => coopEnd k l s
         | none => refuse .badParam s
       | _ => done (emptyCore k s))) s

/-! ### Starting and stopping (R470, R471) -/

/-- The cores a bit map names. -/
def coreMask (p : Bytes) : List Nat := bitsOf 4 (u8 p 0)

/-- A start begins at the tick of frame `n`, whose own step counts `toB0` down first. -/
def beginCore (k n : Nat) (s : State) : State :=
  let c := coreOf s k
  let b := c.image.block
  let i := ceilDiv ((1000000 + 256 * c.image.caskKib) * fsNow s) 1000000000
  let b0 := b * ceilDiv (n + i) b
  let cf := coopCfg s k
  let ps := mergeParams cf.params c.shadow
  let c1 : Core := { c with
    state := .starting, inited := false, toB0 := some (b0 - n + 1), nextNum := b0, bnd := 0, collect := [], waiting := none
    latest := none, active := false, cur := ⟨0, 0, []⟩, out := [], cycles := 0, unrec := [], noted := false, ready := none
    present := [], last := [], w := 0, presented := false, stopIn := 0, shadow := [], paramSeq := 0, paramBlock := 0
    rb := [], rbHost := [], rbBlock := 0, cyclesPeak := 0, onTime := 0, blocks := 0, haltReq := false, steps := 0
    skipBreak := false, rstack := [], reps := [], exhausted := false }
  setCoopCfg k { cf with params := ps } (setCore k c1 s)

/-- Checks of COOP_START. -/
def checkCoopStart (p : Bytes) (s : State) : Status :=
  checks
    [ (p.length != 4, .badLength),
      (u8 p 0 == 0 || decide (15 < u8 p 0), .badParam),
      (decide (1 < u8 p 1), .badParam),
      (u16 p 2 != 0, .badParam),
      ((coreMask p).any (fun k => !coreLoaded (coreOf s k)), .badParam),
      ((coreMask p).any (fun k =>
        let f := (coreOf s k).image
        decide (cycleBudget s.clk.fs f.block < f.cyclesMax)), .noResource) ]

/-- A fault action holds the Cooper cores stopped (R517, R520). -/
def coresHeld (s : State) : Bool := anyInForce .thermalTrip s || inForce .avsMargin 0 1 s

/-- Marks a core to start at the next entry to SERVICE (R36, R514), or clears its marks. -/
def markCore (k : Nat) (s : State) : State :=
  let b : BitVec 4 := BitVec.ofNat 4 (2 ^ k)
  { s with flt := { s.flt with
    marked := s.flt.marked ||| b, markedAvs := if inForce .avsMargin 0 1 s then s.flt.markedAvs ||| b else s.flt.markedAvs } }
def unmarkCore (k : Nat) (s : State) : State :=
  let b : BitVec 4 := BitVec.ofNat 4 (2 ^ k)
  { s with flt := { s.flt with marked := s.flt.marked &&& ~~~b, markedAvs := s.flt.markedAvs &&& ~~~b } }

/-- A core starts at frame `n`, unless it is empty or runs; stopping, it goes on. A start a fault action overrules is kept as a
mark (R35, R36). -/
def startCore (n : Nat) (s : State) (k : Nat) : State :=
  let c := coreOf s k
  match c.state with
  | .empty | .loading | .starting | .running => s
  | .stopping => if coresHeld s then markCore k s else unmarkCore k (setCore k { c with state := .running, stopIn := 0 } s)
  | _ => if coresHeld s then markCore k s else unmarkCore k (beginCore k n s)

/-- A core that was to run starts at frame `n`, where the budget at the rate covers its image (R463). -/
def restartCore (n : Nat) (s : State) (k : Nat) : State :=
  let f := (coreOf s k).image
  let s1 := unmarkCore k s
  if f.cyclesMax ≤ cycleBudget s.clk.fs f.block then startCore n s1 k else s1

/-- A start lands on one core (R470). -/
def landCoreStart (restart : Bool) (s : State) (k : Nat) : State :=
  match (coreOf s k).state with
  | .empty | .loading | .starting | .running => s
  | _ => startCore s.clk.frame (setCoopCfg k { coopCfg s k with restart := restart, run := true } s) k

/-- COOP_START lands. -/
def landCoopStart (p : Bytes) (s : State) : State := (coreMask p).foldl (landCoreStart (u8 p 1 == 1)) s

/-- COOP_START (R470). -/
def execCoopStart (h : Hdr) (p : Bytes) (s : State) : R :=
  opcode .coopStart h p (landing .coopStart h p (checkCoopStart p)) s

/-- Checks of COOP_STOP. -/
def checkCoopStop (p : Bytes) (_ : State) : Status :=
  checks
    [ (p.length != 4, .badLength),
      (u8 p 0 == 0 || decide (15 < u8 p 0), .badParam),
      (!zeroAt p 1 3, .badParam) ]

/-- The core is stopped: it keeps its image, its allocation and its parameter values (R471). -/
def stopCore (k : Nat) (s : State) : State :=
  let c := coreOf s k
  let cf := coopCfg s k
  setCoopCfg k { cf with params := mergeParams cf.params c.shadow }
    (setCore k { c with
      state := .stopped, active := false, toB0 := none, collect := [], waiting := none, ready := none, present := []
      last := [], w := 0, shadow := [], unrec := [], haltReq := false, steps := 0, stopIn := 0
      dma := c.dma.map (fun x => { x with now := none }) } s)

/-- A core stops by the fade of COOP_STOP: at once before its first output. -/
def fadeCore (s : State) (k : Nat) : State :=
  let c := coreOf s k
  match c.state with
  | .starting | .halted => stopCore k s
  | .running => setCore k { c with state := .stopping, stopIn := 32 } s
  | _ => s

/-- A stop lands on one core: it is no longer to run, nor marked to start. -/
def landCoreStop (s : State) (k : Nat) : State :=
  match (coreOf s k).state with
  | .empty | .loading => s
  | _ => fadeCore (unmarkCore k (setCoopCfg k { coopCfg s k with run := false } s)) k

/-- COOP_STOP lands. -/
def landCoopStop (p : Bytes) (s : State) : State := (coreMask p).foldl landCoreStop s

/-- COOP_STOP (R471). -/
def execCoopStop (h : Hdr) (p : Bytes) (s : State) : R :=
  opcode .coopStop h p (landing .coopStop h p (checkCoopStop p)) s

/-- Memories, allocation and registers at their starting values (R470, step 1; R479). -/
def initCore (params : Tab Word) (c : Core) : Core :=
  { c with
    inited := true, xmem := wordTab 0 c.image.xinit, ymem := wordTab 0 c.image.yinit, cask := [], out := []
    regs := {}, dma := List.replicate 4 {}, param := params, pc := c.image.entry }

/-- COOP_INIT_COMPLETE (R470, step 1): a start's first step is done. -/
def execCoopInitComplete (dt : Nat) (core : Fin 4) (s0 : State) : R :=
  let s := advance dt s0
  let c := coreOf s core
  if c.state != .starting || c.inited then .next s
  else .next (setCore core (initCore (coopCfg s core).params c) s)

/-! ### Boundaries (R462, R465, R466) -/

/-- The block that the next boundary's deadline belongs to has not finished. -/
def lateAt (c : Core) (n : Nat) : Bool :=
  decide (2 ≤ n) && ((c.active && c.cur.num + 2 == n) || (match c.waiting with | some b => b.num + 2 == n | none => false))

/-- The presentation due at boundary `n`: block n − 2, or the last sample again. The first one ends a start. -/
def boundaryPresent (k n : Nat) (s : State) : State :=
  let c := coreOf s k
  match c.ready with
  | some (m, fr) =>
    if m + 2 = n then
      let s1 := setCore k { c with
        ready := none, present := fr, presented := true, state := if c.state = .starting then .running else c.state
        runAt := if c.state = .starting then momentOf s else c.runAt } s
      if c.state = .starting then release .coopTrap (coopObject k) 0 s1 else s1
    else setCore k { c with ready := none, present := [] } s
  | none => setCore k { c with present := [] } s

/-- The trigger of the block collected up to boundary `n`. -/
def boundaryTrigger (k : Nat) (b : InBlock) (s : State) : State :=
  let c := coreOf s k
  if c.active then
    (if c.waiting.isNone then setCore k { c with waiting := some b } s
     else setCore k { c with unrec := c.unrec ++ [2] } s)
  else startBlock k b false s

/-- COOP_BLOCK_TRIGGER (R462, R465, R471): a block boundary at which an input block is complete. -/
def execCoopBlockTrigger (dt : Nat) (core : Fin 4) (s0 : State) : R :=
  let s := advance dt s0
  let c := coreOf s core
  if !coreRuns c || !c.inited || c.image.block = 0 || c.collect.length < c.image.block then .next s
  else
    let n := c.bnd + 1
    let b : InBlock := ⟨n - 1, c.nextNum - c.image.block, c.collect⟩
    let c1 := { c with bnd := n, collect := [], latest := some b, noted := false
                       unrec := if lateAt c n && !c.noted && c.state != .halted then c.unrec ++ [1] else c.unrec }
    let s1 := setCore core c1 s
    if c.state = .halted then .next (setCore core { c1 with present := [], ready := none } s)
    else if c.state = .stopping ∧ c.stopIn = 0 ∧ c.w = 0 then .next (stopCore core s1)
    else .next (boundaryTrigger core b (boundaryPresent core n s1))

/-- Records an overrun of a kind. -/
def recordOverrun (k kind : Nat) (s : State) : State :=
  let c := coreOf s k
  raise .coopOverrun (coopObject k) 0 (BitVec.ofNat 32 (k + 256 * kind))
    (setCore k { c with
      overruns := if kind = 1 then sat32 (c.overruns + 1) else c.overruns
      dropped := if kind = 2 then sat32 (c.dropped + 1) else c.dropped, onTime := 0 } s)

/-- COOP_OVERRUN (R465, R476): a late or dropped block is recorded, at its boundary's trigger or just before it. -/
def execCoopOverrun (dt : Nat) (core : Fin 4) (s0 : State) : R :=
  let s := advance dt s0
  let c := coreOf s core
  match c.unrec with
  | x :: t => .next (recordOverrun core x (setCore core { c with unrec := t } s))
  | [] =>
    if (c.state == .starting || c.state == .running || c.state == .stopping) && !c.noted
        && decide (c.image.block ≤ c.collect.length) && lateAt c (c.bnd + 1) then
      .next (recordOverrun core 1 (setCore core { c with noted := true } s))
    else .next s

/-- COOP_RUNAWAY (R466): four block periods after its trigger a block has not ended. -/
def execCoopRunaway (dt : Nat) (core : Fin 4) (s0 : State) : R :=
  let s := advance dt s0
  let c := coreOf s core
  if c.active && c.state != .halted && c.state != .trapped && decide (c.cur.num + 4 ≤ c.bnd) then
    .next (coreTrap core 5 c.pc s)
  else .next s

/-- COOP_RESTART (R474): 1 s after its trap, as a COOP_START that landed then, refused as that would be (R463). -/
def execCoopRestart (dt : Nat) (core : Fin 4) (s0 : State) : R :=
  let s := advance dt s0
  let c := coreOf s core
  let cf := coopCfg s core
  if c.state != .trapped || !cf.restart || !cf.run || c.trapReason == 8 || decide (3 ≤ c.restarts)
      || decide (s.sysCnt < c.trapAt + secCounts) || decide (cycleBudget s.clk.fs c.image.block < c.image.cyclesMax) then .next s
  else if coresHeld s then .next (markCore core s)
  else .next (startCore (nextFrame s) (setCore core { c with restarts := c.restarts + 1 } s) core)

/-- COOP_RESTART_COUNT_RESET (R474): 60 s without a trap. -/
def execCoopRestartCountReset (dt : Nat) (core : Fin 4) (s0 : State) : R :=
  let s := advance dt s0
  let c := coreOf s core
  if c.state != .running || decide (s.sysCnt < c.runAt + 60 * secCounts) then .next s
  else .next (setCore core { c with restarts := 0, exhausted := false } s)

/-! ### Parameters (R472) -/

/-- Checks of COOP_PARAM. -/
def checkCoopParam (timed : Bool) (p : Bytes) (s : State) : Status :=
  let act := u8 p 1
  let n := u16 p 4
  let c := coreOf s (u8 p 0)
  checks
    [ (decide (p.length < 8), .badLength),
      (decide (3 < u8 p 0), .outOfRange),
      (decide (2 < act), .badParam),
      (timed && act != 0, .badParam),
      (n == 0 || decide (256 < n), .outOfRange),
      (u16 p 6 != 0, .badParam),
      (p.length != 8 + (if act = 0 then 4 * n else 0), .badLength),
      (!coreLoaded c, .badParam),
      (decide ((if act = 2 then c.image.rbWords else c.image.paramWords) < u16 p 2 + n), .outOfRange) ]

/-- A write of parameters lands: in the shadow, or, on a core that does not run, in the stored values. -/
def landCoopParam (p : Bytes) (s : State) : State :=
  let k := u8 p 0
  let c := coreOf s k
  let l := (List.range (u16 p 4)).map (fun i => (u16 p 2 + i, BitVec.ofNat 32 (u32 p (8 + 4 * i))))
  if coreRuns c then
    setCore k { c with shadow := l.foldl (fun a e => tset none a e.1 (some e.2)) c.shadow } s
  else
    let cf := coopCfg s k
    setCoopCfg k { cf with params := l.foldl (fun a e => tset 0 a e.1 e.2) cf.params } (setCore k { c with paramBlock := 0 } s)

/-- COOP_PARAM. -/
def execCoopParam (h : Hdr) (p : Bytes) (s : State) : R :=
  opcode .coopParam h p (fun s =>
    if u8 p 1 = 0 then landing .coopParam h p (checkCoopParam h.timed.isSome p) s
    else guardSt (checkCoopParam h.timed.isSome p s) s
      (let k := u8 p 0
       let c := coreOf s k
       let t := if u8 p 1 = 1 then (coopCfg s k).params else c.rbHost
       .reply .ok (le 8 (if u8 p 1 = 1 then c.paramBlock else c.rbBlock)
         ++ (List.range (u16 p 4)).flatMap (fun i => le 4 (tget (0 : Word) t (u16 p 2 + i)).toNat)) s)) s

/-! ### COOP_STATUS and COOP_DEBUG (R475, R477) -/

/-- STATE's code. -/
def coopCode : CoopState → Nat
  | .empty => 0 | .loading => 1 | .stopped => 2 | .starting => 3 | .running => 4 | .stopping => 5 | .trapped => 6
  | .halted => 7

/-- A block is late now. -/
def lateNow (c : Core) : Bool := c.active && coreRuns c && decide (c.cur.num + 2 ≤ c.bnd)

/-- One entry of COOP_STATUS. -/
def coopEntry (s : State) (k : Nat) : Bytes :=
  let c := coreOf s k
  let f := if coreLoaded c then c.image else { block := 0 }
  let fl := flag 0 f.verified + flag 1 (coopCfg s k).restart + flag 2 (lateNow c) + flag 3 c.waiting.isSome
    + flag 4 (c.regs.sr.toNat % 16 != 0) + flag 5 c.exhausted
  le 1 (coopCode c.state) ++ le 1 f.block ++ le 1 f.inCh ++ le 1 f.outCh ++ le 2 fl ++ le 1 c.trapReason ++ le 1 c.restarts
    ++ le 4 f.id.toNat ++ le 4 f.version.toNat ++ le 4 f.cyclesMax ++ le 4 (cycleBudget s.clk.fs f.block)
    ++ le 4 (sat32 c.cyclesLast) ++ le 4 (sat32 c.cyclesPeak) ++ le 4 c.overruns ++ le 4 c.dropped ++ le 4 c.trapPc
    ++ le 4 f.caskKib ++ le 8 c.blocks ++ le 8 c.boundary

/-- The values COOP_STATUS clears: of the counters, what has been shown. -/
def clearCores (shown live : Tab Core) : Tab Core :=
  live.foldl (fun a e =>
    let o := tget {} shown e.1
    let x := e.2
    tset {} a e.1 { x with
      cyclesPeak := 0, overruns := x.overruns - o.overruns, dropped := x.dropped - o.dropped }) live

/-- COOP_STATUS (R475): as the latest tick latched it. -/
def execCoopStatus (h : Hdr) (p : Bytes) (s : State) : R :=
  opcodeN .coopStatus 4 h p (fun s =>
    if 1 < u8 p 0 || !zeroAt p 1 3 then refuse .badParam s
    else
      let v := latchView s
      let s1 := if u8 p 0 = 1 then
          { s with coop := clearCores v.coop s.coop, latch := { s.latch with coop := clearCores v.coop s.latch.coop } }
        else s
      .reply .ok (le 8 v.clk.stamp ++ zeros 8 ++ (List.range 4).flatMap (coopEntry v)) s1) s

/-- Action 0 of COOP_DEBUG on a core. -/
def debugRelease (k : Nat) (s : State) : State :=
  let c := coreOf s k
  let s1 := setCore k { c with breaks := List.replicate 4 0 } s
  if c.state = .halted then landCoreStop s1 k else s1

/-- Action 2: a core at BLKDONE starts its next block with the latest complete input block. -/
def debugStep (k n : Nat) (s : State) : State :=
  let c := coreOf s k
  let s1 := if c.active then s else startBlock k (c.latest.getD c.cur) false s
  setCore k { coreOf s1 k with steps := n, skipBreak := true } s1

/-- COOP_DEBUG (R477). -/
def execCoopDebug (h : Hdr) (p : Bytes) (s : State) : R :=
  opcodeN .coopDebug 8 h p (fun s =>
    let act := u8 p 0
    let k := u8 p 1
    let n := u32 p 4
    let c := coreOf s k
    let live := c.state == .starting || c.state == .running || c.state == .stopping
    guardSt (checks
      [ (decide (3 < act), .badParam),
        (decide (3 < k), .outOfRange),
        (u16 p 2 != 0, .badParam),
        (act == 2 && (n == 0 || decide (65535 < n)), .outOfRange),
        (act != 0 && !clockStopped s, .wrongMode),
        ((act == 1 && !live) || (decide (2 ≤ act) && c.state != .halted), .busy) ]) s
      (match act with
       | 0 => done (debugRelease k s)
       | 1 =>
         if c.active || c.state == .starting then done (setCore k { c with haltReq := true } s)
         else done (debugHalt k s)
       | 2 => done (debugStep k n s)
       | _ => done (setCore k { c with state := .running, steps := 0, skipBreak := true, presented := false } s))) s

/-! ### DMA (R461) -/

/-- Copies `n` words between two tables. -/
def copyWords (src : Tab Word) (i : Nat) (dst : Tab Word) (j n : Nat) : Tab Word :=
  (List.range n).foldl (fun t m => tset 0 t (j + m) (tget 0 src (i + m))) dst

/-- DMA_DONE: the channel's transfer is complete in its destination. -/
def execDmaDone (dt : Nat) (core ch : Fin 4) (s0 : State) : R :=
  let s := advance dt s0
  let c := coreOf s core
  match (c.dma.getD ch {}).now with
  | none => .next s
  | some (ca, lo, n, out) =>
    let x := decide (lo < 0x40000)
    let mem := if x then c.xmem else c.ymem
    let j := (lo - (if x then 0x20000 else 0x40000)) / 4
    let c1 := { c with dma := c.dma.set ch { c.dma.getD ch {} with now := none, doneBit := true } }
    .next (setCore core (
      if out then { c1 with cask := copyWords mem j c.cask (ca / 4) (n / 4) }
      else
        let m1 := copyWords c.cask (ca / 4) mem j (n / 4)
        if x then { c1 with xmem := m1 } else { c1 with ymem := m1 }) s)

/-! ### The frame (R462, R470, R471, R473) -/

/-- The weight of a core's outputs in this frame, and the value it carries. -/
def stepPresent (c : Core) : Core :=
  let (l, r) := match c.present with
    | v :: t => (v, t)
    | [] => (c.last, [])
  let up := c.state == .running && c.presented
  { c with last := l, present := r, w := if up then min 32 (c.w + 1) else c.w - 1 }

/-- Collection: the values handed to the core at this tick. -/
def stepCollect (vals : List Int) (stamp : Nat) (c : Core) : Core :=
  let c1 := { c with stopIn := c.stopIn - 1, toB0 := c.toB0.map (· - 1) }
  if c1.toB0 ≠ some 0 ∨ !coreRuns c ∨ c.image.block ≤ c.collect.length then c1
  else { c1 with collect := c.collect ++ [vals], nextNum := c.nextNum + 1
                 boundary := if c.collect.isEmpty then stamp else c.boundary }

/-- The weight of what crosses to and from the cores: zeros in HOLD, by the mute ramp (R94). -/
def stepModeW (s : State) : State :=
  { s with mix := { s.mix with modeW := if s.life.mode = .hold then s.mix.modeW - 1 else min 32 (s.mix.modeW + 1) } }

/-- A start's first step has completed when its first block begins (R470). -/
def stepInit (params : Tab Word) (c : Core) : Core :=
  if c.state == .starting && !c.inited && c.toB0 == some 0 then initCore params c else c

/-- A COOPIN value as handed over. -/
def coopIn (s : State) (h : Handle) : Int := rampW s.mix.modeW (tget 0 s.mix.sinkBuf h.toNat)

/-- What a tick does with every core: the COOPIN values are handed over. -/
def stepCores (s0 : State) : State :=
  let s := stepModeW s0
  { s with coop := s.coop.foldl (fun a e =>
    let vals := (List.range 64).map (fun ch => if ch < e.2.image.inCh then coopIn s (mkHandle 0x89 (64 * e.1 + ch)) else 0)
    tset {} a e.1 (stepPresent (stepInit (coopCfg s e.1).params (stepCollect vals s.clk.stamp e.2)))) s.coop }

/-- A COOPOUT source (R370, R457). -/
def coopSource (s : State) (h : Handle) : Int :=
  let c := coreOf s (hIndex h / 64)
  rampW s.mix.modeW (rampW c.w (c.last.getD (hIndex h % 64) 0))

end Sys2Proof.Machine
end

