-- ==== Sys2Proof/Machine/Headset.lean ====
section
/-! DEFINITION. Headset ports (chapter 09): insertion and removal, the measurement cycle's verdict, buttons, HS_SET,
status, events and the expert command. -/

namespace Sys2Proof.Machine

/-- A port, its settings, and writing it. -/
def hsRt (s : State) (n : Nat) : HsRt := if n = 0 then s.hs.p0 else s.hs.p1
def hsCfg (s : State) (n : Nat) : HsCfg := if n = 0 then s.cfg.hs0 else s.cfg.hs1
def setHs (n : Nat) (x : HsRt) (s : State) : State :=
  { s with hs := if n = 0 then { s.hs with p0 := x } else { s.hs with p1 := x } }
def setHsCfg (n : Nat) (x : HsCfg) (s : State) : State :=
  { s with cfg := if n = 0 then { s.cfg with hs0 := x } else { s.cfg with hs1 := x } }

/-- The port has an XLR connector (R59, R316). -/
def hsXlr (s : State) (n : Nat) : Bool := (s.cfg.board.hsConnector >>> (2 * n)).getLsbD 0

/-- The detector runs: declared and enabled, from HOLD onward. -/
def hsRuns (s : State) (n : Nat) : Bool :=
  s.cfg.board.hsWired.getLsbD n && (hsCfg s n).enable && modeUp s.life.mode

/-- Object handle of the port's faults (R331). -/
def hsHandle (n : Nat) : Handle := mkHandle 0x83 (2 * n)

/-- Quantities of this chapter that `Config.measure` is asked for. -/
def qMicV : Nat := 13
def qHsOrder : Nat := 14
def qVIdleFactory : Nat := 15

/-- The tracked idle voltage, µV (R325); after a reset its factory value. -/
def vIdleNow (s : State) (n : Nat) : Nat :=
  (hsRt s n).vIdle.getD (clampI 1200000 2900000 (Config.measure qVIdleFactory n 0)).toNat

/-- A side is driven (R299, R319, R320). -/
def hsDriven (s : State) (n : Nat) (right : Bool) : Bool :=
  let r := hsRt s n
  hsRuns s n && (r.state == .identified || (r.state == .fault && r.reason == 3)) && (if right then r.right else r.left)

/-- The port's sides are clamped: EMPTY, or a fault of reason 1 or 2 (R320, R322), with reason 3 the side at its limit (R331), the
right one always with XLR. -/
def hsClampSide (s : State) (n : Nat) (right : Bool) : Bool :=
  let r := hsRt s n
  !hsRuns s n || r.state == .empty || (r.state == .fault && (r.reason != 3 || r.limSide == some right)) || (right && hsXlr s n)

/-- The microphone source is live (R320, R326): a type with a microphone, the bias settled, no button held. -/
def micLive (s : State) (n : Nat) : Bool :=
  let r := hsRt s n
  hsRuns s n && r.state == .identified && decide (3 ≤ r.type) && decide (r.type ≤ 5) && r.button == 0
    && decide (r.micLiveAt ≤ s.sysCnt)

/-! ### Events (R330) -/

/-- Inserts an event in order of STAMP, after those that share it. -/
def insertEvent (e : HsEvent) : List HsEvent → List HsEvent
  | [] => [e]
  | x :: t => if e.stamp < x.stamp then e :: x :: t else x :: insertEvent e t

/-- Queues an event; a full queue loses its oldest. -/
def hsEvent (e : HsEvent) (s : State) : State :=
  let full := decide (32 ≤ s.hs.events.length)
  let q := if full then s.hs.events.drop 1 else s.hs.events
  postEvent 2 { s with hs := { s.hs with events := insertEvent e q, lost := s.hs.lost + bit full } }

/-! ### Cycles (R317 to R322) -/

/-- A trigger (R321): a cycle is to start, or waits behind the one that runs; a further trigger is dropped. -/
def hsTrigger (n : Nat) (s : State) : State :=
  let r := hsRt s n
  if r.state = .measuring || r.due then
    (if r.again then setHs n { r with overruns := (r.overruns + 1) % 4294967296 } s else setHs n { r with again := true } s)
  else setHs n { r with due := true } s

/-- HS_PLUG_INSERTION (R317). -/
def execHsPlugInsertion (dt : Nat) (n : Fin 2) (s0 : State) : R :=
  let s := advance dt s0
  if hsRuns s n && !hsXlr s n then .next (hsTrigger n (setHs n { hsRt s n with present := true } s)) else .next s

/-- HS_XLR_POLL (R317), every 250 ms: two consecutive polls that find a load below 5 kΩ are an insertion. -/
def execHsXlrPoll (dt : Nat) (n : Fin 2) (zL zMic : Nat) (s0 : State) : R :=
  let s := advance dt s0
  let r := hsRt s n
  if !(hsRuns s n && hsXlr s n) || r.state ≠ .empty || r.due || (r.pollAt != 0 && decide (s.sysCnt < r.pollAt + 250 * msCounts)) then
    .next s
  else
    let x := { r with pollAt := s.sysCnt }
    if zL < 5000000 ∨ zMic < 5000000 then
      if 1 ≤ r.polls then .next (hsTrigger n (setHs n { x with present := true, polls := 0 } s))
      else .next (setHs n { x with polls := r.polls + 1 } s)
    else .next (setHs n { x with polls := 0 } s)

/-- HS_MEASUREMENT_CYCLE (R318, step 1). -/
def execHsMeasurementCycle (dt : Nat) (n : Fin 2) (s0 : State) : R :=
  let s := advance dt s0
  let r := hsRt s n
  if r.due && hsRuns s n then
    .next (setHs n { r with
      state := .measuring, due := false, bias := false, cycleAt := s.sysCnt, vIdle := some (vIdleNow s n),
      left := false, right := false, button := 0, longDone := false } s)
  else .next s

/-- In the headphone window, 8 Ω to 1 kΩ. -/
def hpWindow (z : Nat) : Bool := decide (8000 ≤ z) && decide (z ≤ 1000000)

/-- From 1 kΩ to 5 kΩ. -/
def outWindow (z : Nat) : Bool := decide (1000000 ≤ z) && decide (z ≤ 5000000)

/-- A bias reading of an electret, 1.2 V to 2.9 V. -/
def idleOk (mv : Nat) : Bool := decide (1200 ≤ mv) && decide (mv ≤ 2900)

/-- The two microphone readings agree within 5 %. -/
def micLinear (m : HsMeas) : Bool := decide ((max m.zMic m.zMic10 - min m.zMic m.zMic10) * 20 ≤ m.zMic)

/-- The verdict (R319): type, fault reason, MIC_UNKNOWN. The first row that applies; a measurement that meets none has
no verdict in the manual (free value). -/
def hsVerdict (xlr : Bool) (m : HsMeas) : Nat × Nat × Bool :=
  let shorted := decide (m.zMic < 5000)
  let isOpen := decide (5000000 < m.zMic)
  if m.zL < 8000 then (7, 1, false)
  else if outWindow m.zL || (!xlr && outWindow m.zR) then (7, 2, false)
  else if 5000000 ≤ m.zL && (xlr || 5000000 ≤ m.zR) && (shorted || isOpen) then (6, 0, false)
  else if hpWindow m.zL && ((shorted && decide (m.zR < 8000) && !xlr) || (xlr && isOpen)) then (2, 0, false)
  else if hpWindow m.zL && hpWindow m.zR && shorted && !xlr then (1, 0, false)
  else if micLinear m && 150000 ≤ m.zMic && m.zMic ≤ 600000 then (3, 0, false)
  else if !xlr && idleOk m.vIdle5 then (4, 0, false)
  else if idleOk (if xlr then m.vIdle5 else m.vIdle6) then (5, 0, false)
  else if hpWindow m.zL then (if !xlr && hpWindow m.zR then 1 else 2, 0, true)
  else (Config.hsOther m.zL m.zR m.zMic % 7, 0, false)

/-- When the cycle's verdict falls, ms from its trigger (R318): step 4 ends at 60 ms; steps 5 and 6 run only where it decided nothing,
step 6 not for XLR, and not where step 5 has found the microphone. -/
def verdictMs (xlr : Bool) (m : HsMeas) : Nat :=
  match (hsVerdict xlr m).1 with
  | 1 | 2 => if (hsVerdict xlr m).2.2 then (if xlr then 90 else 120) else 60
  | 3 | 6 | 7 => 60
  | 4 => 90
  | _ => if xlr then 90 else 120

/-- Sides driven with a type (R319, R320). -/
def hsSides (xlr : Bool) (t : Nat) (zL zR : Nat) : Bool × Bool :=
  match t with
  | 1 => (true, true)
  | 2 => (true, false)
  | 3 | 4 | 5 => (hpWindow zL, !xlr && hpWindow zR)
  | 6 => (true, !xlr)
  | _ => (false, false)

/-- Time from a verdict to the uncorking of the microphone: 200 ms, after the 10 ms ramp of the bias. -/
def micDelay (t : Nat) : Nat := (if t = 4 ∨ t = 5 then 210 else 200) * msCounts

/-- A pending trigger starts its cycle when the running one has ended. -/
def hsEnd (n : Nat) (s : State) : State :=
  let r := hsRt s n
  if r.again then setHs n { r with again := false, due := true } s else s

/-- HS_VERDICT (R318 to R320), after the steps that the measurement needs. The verdict of a cycle during which the plug was removed, or the port disabled, is
discarded. -/
def execHsVerdict (dt : Nat) (n : Fin 2) (m : HsMeas) (s0 : State) : R :=
  let s := advance dt s0
  let r := hsRt s n
  if r.state ≠ .measuring || decide (s.sysCnt < r.cycleAt + verdictMs (hsXlr s n) m * msCounts) then .next s
  else
    let now := s.sysCnt
    let xlr := hsXlr s n
    let r1 := { r with zL := m.zL, zR := m.zR, zMic := m.zMic, cycles := (r.cycles + 1) % 4294967296 }
    if !r.present || !hsRuns s n then
      .next (hsEnd n (setHs n { r1 with state := .empty, type := 0 } s))
    else
      let (t, reason, unk) := hsVerdict xlr m
      let sides := hsSides xlr t m.zL m.zR
      let seed := if t = 4 then some (1000 * m.vIdle5) else if t = 5 then some (1000 * if xlr then m.vIdle5 else m.vIdle6)
        else r.vIdle
      let r2 := { r1 with
        state := if t = 7 then .fault else .identified, type := t, reason := reason, left := sides.1, right := sides.2
        micUnknown := unk, bias := t == 4 || t == 5
        order := if t = 4 then false else if t = 5 then !xlr else !xlr && decide (0 < Config.measure qHsOrder n now)
        vIdle := seed, idleFine := if t = 4 ∨ t = 5 then 0 else r.idleFine, holdUntil := now + 200 * msCounts, identStamp := now, faultAt := now, micLiveAt := now + micDelay t
        micFade := ⟨wOne, wOne, 0, 0⟩ }
      let s1 := setHs n r2 s
      let h := hsHandle n
      let s2 := if t = 7 then
          let side := if reason = 1 ∨ outWindow m.zL then 0 else 256
          hsEvent ⟨n, 7, 0, reason, 0, now⟩ (raise .hsFault h 0 (BitVec.ofNat 32 (reason + side)) s1)
        else hsEvent ⟨n, 1, 0, t, 0, now⟩ (release .hsFault h 0 s1)
      .next (hsEnd n s2)

/-- HS_FAULT_RETRY (R320, R331): every 2 s while the fault holds. -/
def execHsFaultRetry (dt : Nat) (n : Fin 2) (s0 : State) : R :=
  let s := advance dt s0
  let r := hsRt s n
  if r.state = .fault && r.present && hsRuns s n && decide (r.faultAt + 2 * secCounts ≤ s.sysCnt) then .next (hsTrigger n s) else .next s

/-- Clamps engage 1 ms after a driver's ramp begins (R322, R331). -/
def clampSoon (h : Handle) (s : State) : State :=
  setOutRt h { outRt s h with clampAt := some (s.sysCnt + msCounts) } s

/-- Frames of 1 ms. -/
def msFrames (s : State) : Nat := usFrames s 1000

/-- A held button is released at a time: the event, and the loop holds 200 ms more (R325, R327). -/
def buttonUp (n : Fin 2) (at' : Nat) (s : State) : State :=
  let r := hsRt s n
  if r.button = 0 then s
  else
    let s1 := setHs n { r with button := 0, longDone := false, vIdle := some (vIdleNow s n),
                               holdUntil := s.sysCnt + 200 * msCounts } s
    hsEvent ⟨n, 4, r.button, 0, (freeDiv 44 ((at' - r.pressAt : Nat) : Int) msCounts).toNat, at'⟩ s1

/-- The port becomes EMPTY: sides ramp and clamp, bias off, the source fades (R322). -/
def hsEmpty (n : Fin 2) (s : State) : State :=
  let r := hsRt s n
  let s1 := clampSoon (mkHandle 0x83 (2 * n + 1)) (clampSoon (mkHandle 0x83 (2 * n)) s)
  let live := micLive s n
  setHs n { r with
    state := .empty, type := 0, left := false, right := false, reason := 0, micUnknown := false, bias := false,
    vIdle := some (vIdleNow s n)
    micFade := if live then moveTo ⟨wOne, wOne, 0, 0⟩ 0 (msFrames s) else {} } s1

/-- HS_REMOVAL (R322): during a cycle the cycle completes first (R321). -/
def execHsRemoval (dt : Nat) (n : Fin 2) (s0 : State) : R :=
  let s := advance dt s0
  let r := hsRt s n
  if !r.present || !hsRuns s n then .next s
  else
    let s1 := buttonUp n s.sysCnt s
    let s2 := setHs n { hsRt s1 n with present := false, polls := 0 } s1
    let s3 := release .hsFault (hsHandle n) 0 s2
    let s4 := if r.state = .measuring then s3 else hsEmpty n s3
    .next (hsEvent ⟨n, 2, 0, 0, 0, s.sysCnt⟩ s4)

/-- HS_SIDE_AT_LIMIT (R331, reason 3): the side ramps to 0 V over 1 ms and clamps. -/
def execHsSideAtLimit (dt : Nat) (n : Fin 2) (right : Bool) (s0 : State) : R :=
  let s := advance dt s0
  if !hsDriven s n right then .next s
  else
    let r := hsRt s n
    let s1 := clampSoon (mkHandle 0x83 (2 * n + bit right))
      (setHs n { r with state := .fault, reason := 3, faultAt := s.sysCnt, left := r.left && right, right := r.right && !right, limSide := some right } s)
    .next (hsEvent ⟨n, 7, 0, 3, 0, s.sysCnt⟩
      (raise .hsFault (hsHandle n) 0 (BitVec.ofNat 32 (3 + 256 * bit right)) s1))

/-! ### Buttons (R325 to R327) -/

/-- The five boundaries of R326, in thousandths of V_idle. -/
def buttonBounds : List Nat := [30, 78, 135, 250, 800]

/-- Reading of a line voltage against the tracked idle voltage (R326): 1 A, 2 B, 3 C, 4 D; 0 no button. -/
def buttonOf (v idle : Nat) : Nat :=
  let r := v * 1000
  if r < 30 * idle then 1 else if r < 78 * idle then 4 else if r < 135 * idle then 2 else if r < 250 * idle then 3 else 0

/-- Button recognition runs on the port. -/
def buttonsOn (s : State) (n : Nat) : Bool :=
  let r := hsRt s n
  hsRuns s n && (hsCfg s n).buttons && r.state == .identified && (r.type == 4 || r.type == 5)

/-- BUTTON_PRESS (R326, R327): a reading stable for 20 ms that began `ago` counts ago. -/
def execButtonPress (dt : Nat) (n : Fin 2) (micUv ago : Nat) (s0 : State) : R :=
  let s := advance dt s0
  let r := hsRt s n
  let b := buttonOf micUv (vIdleNow s n)
  let at' := s.sysCnt - ago
  if !buttonsOn s n || b = 0 || b = r.button || ago < 20 * msCounts then .next s
  else
    let s1 := buttonUp n at' s
    let s2 := setHs n { hsRt s1 n with button := b, pressAt := at', longDone := false, repeats := 0, vIdle := some (vIdleNow s n) } s1
    .next (hsEvent ⟨n, 3, b, 0, 0, at'⟩ s2)

/-- Milliseconds the button has been held. -/
def heldMs (s : State) (r : HsRt) : Nat := (freeDiv 44 ((s.sysCnt - r.pressAt : Nat) : Int) msCounts).toNat

/-- BUTTON_LONG_PRESS (R327): LONG_MS after the contact change. -/
def execButtonLongPress (dt : Nat) (n : Fin 2) (s0 : State) : R :=
  let s := advance dt s0
  let r := hsRt s n
  if r.button ≠ 0 && !r.longDone && decide ((hsCfg s n).longMs * msCounts ≤ s.sysCnt - r.pressAt) then
    .next (hsEvent ⟨n, 5, r.button, 0, heldMs s r, r.pressAt⟩ (setHs n { r with longDone := true } s))
  else .next s

/-- BUTTON_REPEAT (R327): every REPEAT_MS after LONG_MS. -/
def execButtonRepeat (dt : Nat) (n : Fin 2) (s0 : State) : R :=
  let s := advance dt s0
  let r := hsRt s n
  let c := hsCfg s n
  if r.button ≠ 0 && r.longDone && c.repeatMs ≠ 0
      && decide (r.pressAt + (c.longMs + (r.repeats + 1) * c.repeatMs) * msCounts ≤ s.sysCnt) then
    .next (hsEvent ⟨n, 6, r.button, 0, heldMs s r, r.pressAt⟩ (setHs n { r with repeats := r.repeats + 1 } s))
  else .next s

/-- BUTTON_RELEASE (R327): idle stable for 20 ms, begun `ago` counts ago. -/
def execButtonRelease (dt : Nat) (n : Fin 2) (ago : Nat) (s0 : State) : R :=
  let s := advance dt s0
  .next (if ago < 20 * msCounts then s else buttonUp n (s.sysCnt - ago) s)

/-! ### HS_SET (R328) -/

/-- Checks of HS_SET. -/
def checkHsSet (p : Bytes) (s : State) : Status :=
  let f := u8 p 1
  checks
    [ (p.length != 16, .badLength),
      (decide (1 < u8 p 0), .outOfRange),
      (f == 0 || decide (63 < f), .badParam),
      (f.testBit 0 && decide (1 < u8 p 2), .badParam),
      (f.testBit 1 && decide (1 < u8 p 3), .badParam),
      (f.testBit 2 && (decide (i32 p 4 < -20000) || decide (40000 < i32 p 4)), .outOfRange),
      (f.testBit 3 && decide (1 < u8 p 8), .badParam),
      (u8 p 9 != 0, .badParam),
      (f.testBit 4 && (decide (u16 p 10 < 500) || decide (5000 < u16 p 10)), .outOfRange),
      (f.testBit 5 && u16 p 12 != 0 && (decide (u16 p 12 < 100) || decide (2000 < u16 p 12)), .outOfRange),
      (u16 p 14 != 0, .badParam),
      (!s.cfg.board.hsWired.getLsbD (u8 p 0), .badParam) ]

/-- HS_SET lands. -/
def landHsSet (p : Bytes) (s : State) : State :=
  let n : Fin 2 := Fin.ofNat 2 (u8 p 0)
  let f := u8 p 1
  let o := hsCfg s n
  let a := if f.testBit 0 then { o with enable := u8 p 2 == 1 } else o
  let b := if f.testBit 1 then { a with detPol := u8 p 3 == 1 } else a
  let c := if f.testBit 3 then { b with buttons := u8 p 8 == 1 } else b
  let d := if f.testBit 4 then { c with longMs := u16 p 10 } else c
  let e := if f.testBit 5 then { d with repeatMs := u16 p 12 } else d
  let s1 := if f.testBit 2 then
      let s' := startRamp (.micTrim n) (i32 p 4) s.cfg.mix.shapeLog (rampFrames s s.cfg.mix.rampUs) s
      { s' with cfg := { s'.cfg with micTrim := tset 0 s'.cfg.micTrim n (i32 p 4) } }
    else s
  let s2 := if !e.enable && o.enable && (hsRt s1 n).state != .measuring then hsEmpty n (buttonUp n s1.sysCnt s1) else s1
  let s3 := setHsCfg n e s2
  let r := hsRt s3 n
  if e.detPol ≠ o.detPol && e.enable then
    hsTrigger n (setHs n { r with present := if hsXlr s3 n then r.present else !r.present } s3)
  else if e.enable then s3
  else release .hsFault (hsHandle n) 0 (setHs n { r with present := false, due := false, again := false } s3)

/-- HS_SET (R328). -/
def execHsSet (h : Hdr) (p : Bytes) (s : State) : R :=
  opcode .hsSet h p (landingRamped .hsSet h p (checkHsSet p)) s

/-! ### Status, events, expert (R329, R330, R332) -/

/-- STATE code. -/
def hsCode : HsState → Nat
  | .empty => 0 | .measuring => 1 | .identified => 2 | .fault => 3

/-- Microvolts as millivolts; the manual does not say how they are rounded. -/
def toMv (uv : Nat) : Nat := (freeDiv 9 uv 1000).toNat

/-- The microphone line's DC, µV. -/
def micUv (s : State) (n : Nat) : Nat := (Config.measure qMicV n s.sysCnt).toNat

/-- THRESH_LIMIT: the loop stands at a clamp limit (R325). -/
def threshLimit (s : State) (n : Nat) : Bool := vIdleNow s n == 1200000 || vIdleNow s n == 2900000

/-- An impedance as HS_STATUS gives it, mΩ. -/
def zOut (z : Nat) : Nat := if 5000000 < z then 0xFFFFFFFF else z

/-- The 32-byte entry of a port. -/
def hsEntry (s : State) (n : Nat) : Bytes :=
  let r := hsRt s n
  let f := flag 0 r.micUnknown + flag 1 r.bias + flag 2 (threshLimit s n) + flag 3 r.order + flag 4 r.again
    + flag 5 (hsXlr s n) + flag 6 (decide (s.pwr.hsLevel < 0))
  le 1 (hsCode r.state) ++ le 1 r.type ++ le 1 (flag 0 (hsDriven s n false) + flag 1 (hsDriven s n true)) ++ le 1 r.button
    ++ le 2 f ++ le 2 (toMv (vIdleNow s n)) ++ le 4 (zOut r.zL) ++ le 4 (zOut r.zR) ++ le 4 (zOut r.zMic) ++ le 2 (toMv (micUv s n))
    ++ le 2 (min r.overruns 65535) ++ le 8 r.identStamp

/-- HS_STATUS (R329). -/
def execHsStatus (h : Hdr) (p : Bytes) (s : State) : R :=
  opcodeN .hsStatus 0 h p (fun s => .reply .ok (le 8 s.sysCnt ++ hsEntry s 0 ++ hsEntry s 1) s) s

/-- A 16-byte event record. -/
def hsEventBytes (e : HsEvent) : Bytes :=
  le 1 e.port ++ le 1 e.kind ++ le 1 e.button ++ le 1 e.info ++ le 4 e.heldMs ++ le 8 e.stamp

/-- HS_EVENTS (R330). -/
def execHsEvents (h : Hdr) (p : Bytes) (s : State) : R :=
  opcodeN .hsEvents 4 h p (fun s =>
    guardSt (checks [(decide (u8 p 0 < 1) || decide (32 < u8 p 0), .outOfRange), (!zeroAt p 1 3, .badParam)]) s
      (let l := s.hs.events.take (u8 p 0)
       let rest := s.hs.events.drop (u8 p 0)
       let s1 := { s with hs := { s.hs with events := rest, lost := 0 } }
       .reply .ok (le 1 l.length ++ zeros 1 ++ le 2 (min s.hs.lost 65535) ++ l.flatMap hsEventBytes)
         (if rest.isEmpty then clearEvent 2 s1 else s1))) s

/-- A port is treated as a type (R333), or measured again when the forced type ends. -/
def forceHs (n : Fin 2) (t : Nat) (s : State) : State :=
  let r := hsRt s n
  if t = r.forceType then s
  else if t = 0 then
    let s1 := hsEmpty n (setHs n { r with forceType := 0 } s)
    if r.present then hsTrigger n s1 else s1
  else
    let xlr := hsXlr s n
    let sides := hsSides xlr t 32000 32000
    setHs n { r with
      forceType := t, state := .identified, type := t, left := sides.1, right := sides.2, reason := 0
      bias := t == 4 || t == 5, order := t == 5 && !xlr, micLiveAt := s.sysCnt + micDelay t
      micFade := ⟨wOne, wOne, 0, 0⟩ } s

/-- Ends the forced settings of a port. -/
def unforceHs (n : Fin 2) (s : State) : State :=
  let s1 := forceHs n 0 s
  setHs n { hsRt s1 n with trackFreeze := false } s1

/-- HS_EXPERT (R332). -/
def execHsExpert (h : Hdr) (p : Bytes) (s : State) : R :=
  opcodeN .hsExpert 4 h p (fun s =>
    let n : Fin 2 := Fin.ofNat 2 (u8 p 1)
    let a := u8 p 0
    guardSt (checks
      [ (decide (2 < a), .badParam),
        (decide (1 < u8 p 1), .outOfRange),
        (u16 p 2 != 0, .badParam),
        (a != 0 && !s.cfg.board.hsWired.getLsbD n, .badParam),
        (a == 2 && (hsRt s n).button != 0, .busy) ]) s
      (if a = 0 then done (unforceHs n s)
       else if a = 1 then done (hsTrigger n s)
       else done (setHs n { hsRt s n with
         vIdle := some (clampI 1200000 2900000 (micUv s n)).toNat, idleFine := 0, holdUntil := s.sysCnt } s))) s

/-- Step of the cycle that runs (R318), for DET_STATE. -/
def cycleStep (s : State) (n : Nat) : Nat :=
  let r := hsRt s n
  if r.state ≠ .measuring then 0
  else
    let ms := (s.sysCnt - r.cycleAt) / msCounts
    if s.sysCnt = r.cycleAt then 1 else if ms < 20 then 2 else if ms < 40 then 3 else if ms < 60 then 4
    else if ms < 90 then 5 else if ms < 120 then 6 else 7

end Sys2Proof.Machine
end

