-- ==== Sys2Proof/Machine/Budget.lean ====
section
/-! DEFINITION. The power budget: port allocations (R62, R67, R68), the non-sheddable reservation (R69), and the check of
commands that raise it (R71). Powers in mW, the reservation in µW. -/

namespace Sys2Proof.Machine

/-- Allocation of a granted class (R62). -/
def classMw (c : Nat) : Nat :=
  match c with
  | 1 => 3840 | 2 => 6490 | 3 => 13000 | 4 => 25500 | 5 => 40000 | 6 => 51000 | 7 => 62000 | 8 => 71300
  | _ => 0

/-- Effective allocation of a port (R67): 0 where it does not supply. -/
def effAlloc (p : PdPort) : Nat :=
  if !p.supplying then 0
  else match p.lldp with
    | some m => min (classMw p.granted) m
    | none => classMw p.granted

/-- A port's share of the budget. -/
def countedAlloc (p : PdPort) : Nat := if p.counting then effAlloc p else 0

/-- The budget B (R67). -/
def budgetMw (s : State) : Nat := min 110000 (countedAlloc s.pwr.portA + countedAlloc s.pwr.portB)

/-- Inputs with phantom on and marked essential. -/
def essentialOn (s : State) : Nat := (s.cfg.input.ch.filter (fun e => e.2.phantom && e.2.essential)).length

/-- Load of an AUX rail that the reservation uses: the declaration, or the highest average of the last 10 s above it. -/
def auxCharge (now decl : Nat) (hist : List (Nat × Nat)) : Nat :=
  (hist.filter (fun e => decide (now ≤ e.1 + 10 * secCounts))).foldl (fun m e => max m e.2) decl

/-- R_ns (R69), µW. -/
def rnsUw (s : State) : Nat :=
  28000000 + 4125 * auxCharge s.sysCnt s.cfg.board.aux3v3Ma s.pwr.aux3Hist
    + 6250 * auxCharge s.sysCnt s.cfg.board.aux5v0Ma s.pwr.aux5Hist + 700000 * essentialOn s

/-- The smaller effective allocation of the two supplying ports (R71). With one port alone supplying it is that port's: the manual
speaks of two only (DESIGN CHOICE, log 99). -/
def smallerAlloc (s : State) : Nat :=
  let a := effAlloc s.pwr.portA
  let b := effAlloc s.pwr.portB
  if !s.pwr.portA.supplying then b else if !s.pwr.portB.supplying then a else min a b

/-- A command raises R_ns beyond what R71 allows: beyond B as the governor took it last (R76). -/
def rnsRefused (before after : State) : Bool :=
  decide (rnsUw before < rnsUw after) && (decide (1000 * before.pwr.budget < rnsUw after)
    || (after.cfg.policy.onePort && decide (1000 * smallerAlloc after < rnsUw after)))

end Sys2Proof.Machine
end

