-- ==== Sys2Proof/Machine/Stages.lean ====
section
/-! DEFINITION. The stages of the Press and Pour chains (R253 to R256): the sinc⁵ and halfband stages, the programmable FIR, and
what a Press chain makes of a frame of its converter's samples and a Pour chain of a sink value. -/

namespace Sys2Proof.Machine

/-- The newest `n` samples of a history, newest first; zeros alone are an empty one. -/
def keepNew (n : Nat) (l : List Int) : List Int :=
  let k := l.take n
  if k.all (· == 0) then [] else k

/-- `n` samples, zeros where fewer are given. -/
def padTo (n : Nat) (l : List Int) : List Int := (l ++ List.replicate n 0).take n

/-- A list in `n` parts of `r`. -/
def partsOf (r : Nat) : Nat → List Int → List (List Int)
  | 0, _ => []
  | n + 1, l => l.take r :: partsOf r n (l.drop r)

/-- The sum of products of taps and samples, both newest first. -/
def dot (h x : List Int) : Int := (List.zipWith (· * ·) h x).sum

/-! ### Stage 1 of Press and stage 4 of Pour: sinc⁵ (R253 to R255) -/

/-- The ratio between 12.288 MHz and 8·fs_int. -/
def sincRatio (fs : Fin 3) : Nat := if fs = 0 then 32 else if fs = 1 then 16 else 8

/-- Coefficients of `k` running sums of `r` samples, one after the other. -/
def boxTaps (r : Nat) : Nat → List Nat
  | 0 => [1]
  | k + 1 =>
    let t := boxTaps r k
    (List.range (t.length + r - 1)).map (fun n => ((t.take (n + 1)).drop (n + 1 - r)).sum)

/-- Coefficients of the sinc⁵ stage; their sum is the fifth power of the ratio. -/
def sincTaps (r : Nat) : List Int := (boxTaps r 5).map Int.ofNat

/-- The decimator takes `r` samples, oldest first, and gives one at unity gain; its rounding is not stated. -/
def sincDown (r : Nat) (hist new : List Int) : List Int × Int :=
  let h := keepNew (5 * r - 4) (new.reverse ++ hist)
  (h, if h.isEmpty then 0 else satS 40 (freeDiv 60 (dot (sincTaps r) h) (r ^ 5)))

/-- The interpolator's `r` samples, oldest first, of an input that is newest first, before they saturate. -/
def sincUp (r : Nat) (x : List Int) : List Int :=
  let t := sincTaps r
  (List.range r).map (fun m => freeDiv 61 (dot ((List.range 5).map (fun k => t.getD (m + r * k) 0)) x) (r ^ 4))

/-! ### The programmable FIR (R256, R257, R276) -/

/-- Taps of the response in force: a standard linear-phase one is symmetric. -/
def respTaps (s : State) (pour : Bool) (resp set : Nat) : List Int :=
  let std (n : Nat) : List Int := (List.range n).map (fun k => (Config.stdTap pour resp (min k (n - 1 - k))).toInt)
  match resp with
  | 0 => std (if pour then 129 else 137)
  | 1 => std (if pour then 25 else 33)
  | 2 => (List.range (Config.minTaps pour + 1)).map (fun k => (Config.stdTap pour resp k).toInt)
  | _ => match coefSet s pour set with
    | some c => tapsOf c
    | none => []

/-- One output of the FIR: products of 40 by 32 bits summed in 72 bits, rounded to Q3.37 by convergent rounding. What a sum
beyond 72 bits gives is not stated. -/
def firOut (h x : List Int) : Int :=
  let a := dot h x
  satS 40 (convRound (if satS 72 a = a then a else satS 72 (Config.firOver a)) 30)

/-- Every other tap, from the first. -/
def everyOther : List Int → List Int
  | [] => []
  | [a] => [a]
  | a :: _ :: t => a :: everyOther t

/-! ### Rates -/

/-- Samples, oldest first, taken two at a time by a stage that gives one of its input; the input kept is `n` samples. -/
def down (f : List Int → Int) (n : Nat) : List Int → List Int → List Int × List Int
  | hist, a :: b :: t =>
    let h := keepNew n (b :: a :: hist)
    let r := down f n h t
    (r.1, (if h.isEmpty then 0 else f h) :: r.2)
  | hist, _ => (hist, [])

/-- Samples, oldest first, taken by a stage that gives two of each. -/
def up (f : List Int → Int × Int) (n : Nat) : List Int → List Int → List Int × List Int
  | hist, a :: t =>
    let h := keepNew n (a :: hist)
    let o := if h.isEmpty then (0, 0) else f h
    let r := up f n h t
    (r.1, o.1 :: o.2 :: r.2)
  | hist, [] => (hist, [])

/-- A halfband stage's output within Q3.37. -/
def halfOut (pour minPhase : Bool) (stage fine : Nat) (x : List Int) : Int := satS 40 (Config.halfband pour minPhase stage fine x)

/-- Stages 2 to 4 of a Press chain: eight samples at 8·fs_int, oldest first, give one. The fine phase delay is applied at the input
of stage 2. -/
def pressDown (s : State) (resp set fine : Nat) (new : List Int) (x : Stages) : Stages × Int :=
  let m := resp == 2
  let a := down (halfOut false m 2 fine) 64 x.at8 new
  let b := down (halfOut false m 3 0) 64 x.at4 a.2
  let c := down (fun v => firOut (respTaps s false resp set) v) 512 x.at2 b.2
  ({ x with at8 := a.1, at4 := b.1, at2 := c.1 }, c.2.headD 0)

/-- Stages 1 to 3 of a Pour chain: one sample gives the FIR's two outputs, and eight samples at 8·fs_int, oldest first. The fine
phase delay is applied at the output of stage 3. -/
def pourUp (s : State) (resp set fine : Nat) (v : Int) (x : Stages) : Stages × List Int × List Int :=
  let m := resp == 2
  let h := respTaps s true resp set
  let a := up (fun v => (firOut (everyOther h) v, firOut (everyOther h.tail) v)) 256 x.at1 [v]
  let b := up (fun v => (halfOut true m 2 0 v, halfOut true m 12 0 v)) 32 x.at2 a.2
  let c := up (fun v => (halfOut true m 3 fine v, halfOut true m 13 fine v)) 32 x.at4 b.2
  ({ x with at1 := a.1, at2 := b.1, at4 := c.1 }, a.2, c.2)

/-- Stage 4 of a Pour chain over a frame: its input kept, its last sample, and how many of its samples saturated (R256). -/
def pourSinc (fs : Fin 3) : List Int → List Int → List Int × Int × Nat
  | hist, a :: t =>
    let h := keepNew 5 (a :: hist)
    let o := if h.isEmpty then [] else sincUp (sincRatio fs) h
    let y := o.map (satS 38)
    let n := ((o.zip y).filter (fun e => e.1 != e.2)).length
    let r := pourSinc fs h t
    (r.1, if t.isEmpty then y.getLastD 0 else r.2.1, n + r.2.2)
  | hist, [] => (hist, 0, 0)

/-- The weight of a Pour chain's input, units of 1/64: its gate is closed while it settles (R260, R267), unless it is forced open
(R280). -/
def pourGate (x : FChain) : Nat := if x.gateOpen then 64 else if x.state = .settling then 0 else x.w

/-- One frame of a Pour chain on a sink value in Q1.31 (R254): gate, coarse phase delay, stages. -/
def pourFrame (c : Nat) (v : Int) (s : State) : State :=
  let x := chainOf s true c
  let g := chainCfg s true c
  if x.state = .stopped then setChain true c { x with out := 0 } s
  else
    let line := ((freeDiv 62 (v * 64 * (pourGate x : Int)) 64) :: x.line).take (g.coarse + 1)
    let (st, fir, hi) := pourUp s x.resp x.set g.fine (line.getD g.coarse 0) x.stages
    let b := pourSinc s.clk.fs x.stages.at8 hi
    let s1 := setChain true c
      { x with
        line := if line.all (· == 0) then [] else line, stages := { st with at8 := b.1 }
        out := if x.state = .settling && !x.gateOpen then 0 else b.2.1, satCount := x.satCount + b.2.2 } s
    { s1 with filt := captureFir true c fir s1.filt }

end Sys2Proof.Machine
end

