-- ==== Sys2Proof/Machine/Inputs.lean ====
section
/-! DEFINITION. The analogue inputs (chapter 06): the combiner and the matching loop (R223 to R228), phantom power (R231 to
R235), INPUT_SET, the Tasters' round, verdicts, check sequences and substitution (R237 to R246), INPUT_STATUS and INPUT_EXPERT. -/

namespace Sys2Proof.Machine

/-! ### Names -/

def phOf (s : State) (c : Nat) : Phantom := tget {} s.inp.ph c
def setPh (c : Nat) (x : Phantom) (s : State) : State := { s with inp := { s.inp with ph := tset {} s.inp.ph c x } }
def chanIn (s : State) (c : Nat) : ChanIn := tget {} s.inp.ch c
def setChanIn (c : Nat) (x : ChanIn) (s : State) : State := { s with inp := { s.inp with ch := tset {} s.inp.ch c x } }
def inCfg (s : State) (c : Nat) : InCfg := tget {} s.cfg.input.ch c
def setInCfg (c : Nat) (x : InCfg) (s : State) : State :=
  { s with cfg := { s.cfg with input := { s.cfg.input with ch := tset {} s.cfg.input.ch c x } } }
def tasterOf (s : State) (t : Fin 2) : Taster := if t = 0 then s.inp.t0 else s.inp.t1
def setTaster (t : Fin 2) (x : Taster) (s : State) : State :=
  { s with inp := if t = 0 then { s.inp with t0 := x } else { s.inp with t1 := x } }

/-- The other Taster. -/
def otherT (t : Fin 2) : Fin 2 := if t = 0 then 1 else 0

/-- The input is declared (R61). -/
def ainWired (s : State) (c : Nat) : Bool := s.cfg.board.ainWired.getLsbD c

/-- Handles of a channel and of a Taster. -/
def ainHandle (c : Nat) : Handle := mkHandle 0x01 c
def tasterHandle (t : Fin 2) : Handle := mkHandle 0x09 t

/-- The governor holds the input's phantom off. -/
def phHeld (s : State) (c : Nat) : Bool := s.pwr.phShed.getLsbD c && !(inCfg s c).essential

/-! ### The combiner (R223 to R225) -/

/-- A level in units of 2^-37 of full scale stands above, or below, a number of millidecibels. -/
def aboveLevel (mdb : Int) (v : Nat) : Bool := v != 0 && decide (lin mdb < v * 2 ^ 59)
def belowLevel (mdb : Int) (v : Nat) : Bool := v == 0 || decide (v * 2 ^ 59 < lin mdb)

/-- The combiner's weight moves by one sample at 8·fs_int (R224): over 16 samples to 1, at once on an overload of the high-gain
modulator, over 256 samples to 0 after `hold` samples below the downward threshold; a move that has begun is completed. -/
def stepWeight (hold env : Nat) (overload : Bool) (x : ChanIn) : ChanIn :=
  let low := if belowLevel (-51500) env then min hold (x.below + 1) else 0
  let y := { x with env := env, below := low, rising := false, falling := false }
  if x.pathForce = 3 ∨ (x.matchLimit = true ∧ x.pathForce ≠ 2) then { y with weight := 65536 }
  else if x.pathForce = 2 then { y with weight := 0 }
  else if overload then { y with weight := 65536 }
  else if (aboveLevel (-45500) env || x.rising) && decide (x.weight < 65536) then
    let w := min 65536 (x.weight + 4096)
    { y with weight := w, rising := decide (w < 65536) }
  else if !aboveLevel (-45500) env && (x.falling || decide (hold ≤ low)) && decide (0 < x.weight) then
    { y with weight := x.weight - 256, falling := decide (256 < x.weight) }
  else y

/-- Factory calibration of a converter's matching loop, within the limits of R226: 10^-6 dB and ps. -/
def factoryGain (k : Nat) : Int := clampI (-500000) 500000 (Config.matchGain k)
def factoryDelay (k : Nat) : Int := clampI (-1000000) 1000000 (Config.matchDelay k)

/-- The corrections in force (R226, R250). -/
def matchGain (x : ChanIn) (k : Nat) : Int := clampI (-500000) 500000 (factoryGain k + x.gain)
def matchDelay (x : ChanIn) (k : Nat) : Int := clampI (-1000000) 1000000 (factoryDelay k + x.delay)

/-- The matched high path: 40 dB of gain taken off, with the loop's gain and delay; 16 samples behind the newest (R224, R226). -/
def matchedHigh (x : ChanIn) (k : Nat) (high : List Int) : Int :=
  if high.isEmpty then 0
  else
    let amp := linFine (-40000 * mdbFine + matchGain x k * mdbFine / 1000)
    freeDiv 64 (satS 40 (Config.fracDelay (matchDelay x k) high) * (amp : Int)) linOne

/-- The combiner's output: (1 − w) × matched high path + w × low path. -/
def combine (w : Nat) (high low : Int) : Int := satS 40 (freeDiv 65 (high * (65536 - (w : Int)) + low * (w : Int)) 65536)

/-- Stage 1 and the combiner of converter `k` over `n` samples at 8·fs_int, whose modulator samples stand in parts, oldest first. -/
def combineAll (fs : Fin 3) (k : Nat) : List (List Int × List Int) → Bool → Stages → ChanIn → Stages × ChanIn × List Int
  | [], _, st, x => (st, x, [])
  | (hi, lo) :: t, overload, st, x =>
    let r := sincRatio fs
    let a := sincDown r st.modHigh hi
    let b := sincDown r st.modLow lo
    let high := keepNew 33 (a.2 :: st.high8)
    let low := keepNew 17 (b.2 :: st.low8)
    let y := stepWeight (fsHz fs * 2 / 5) (low.foldl (fun m v => max m v.natAbs) 0) overload x
    let v := combine y.weight (if y.weight = 65536 then 0 else matchedHigh y k high) (low.getD 16 0)
    let rest := combineAll fs k t false { st with modHigh := a.1, modLow := b.1, high8 := high, low8 := low } y
    (rest.1, rest.2.1, v :: rest.2.2)

/-- One frame of converter `k` up to the combiner: eight samples, oldest first; none where nothing stands in it. -/
def convFrame (fs : Fin 3) (k : Nat) (i : ConvIn) (st : Stages) (x : ChanIn) : Stages × ChanIn × List Int :=
  if i.high.isEmpty && i.low.isEmpty && !i.overload && st == {} && x.weight == 0 && x.pathForce == 0 && !x.matchLimit then
    (st, { x with env := 0 }, [])
  else
    let r := sincRatio fs
    let n := 8 * r
    combineAll fs k ((partsOf r 8 (padTo n i.high)).zip (partsOf r 8 (padTo n i.low))) i.overload st x

/-! ### The matching loop (R226 to R228) -/

/-- Measured quantities of an input: residual, phantom current and voltage. -/
def qResidual : Nat := 21
def qPhantomI : Nat := 24
def qPhantomV : Nat := 25

/-- The envelope lies within the handover window. -/
def inWindow (env : Nat) : Bool := !belowLevel (-75500) env && !aboveLevel (-45500) env

/-- A correction stands at its range limit. -/
def matchPinned (x : ChanIn) (k : Nat) : Bool :=
  decide (500000 ≤ (matchGain x k).natAbs) || decide (1000000 ≤ (matchDelay x k).natAbs)

/-- One frame of the matching loop of converter `k` (R48, R226, R228, R249): a return moves the corrections to their factory
values; else they adapt within the handover window and hold outside it, and while PATH_FORCE freezes the loop. -/
def stepMatch (k now : Nat) (x : ChanIn) : ChanIn :=
  if x.returning then { x with gain := toward 100 0 x.gain, delay := toward 1000 0 x.delay }
  else if !inWindow x.env || x.pathForce == 1 then x
  else
    let d := Config.matchStep k x.muShift now
    let y := { x with
      gain := loopStep 500000 100 (factoryGain k) x.gain d.1, delay := loopStep 1000000 1000 (factoryDelay k) x.delay d.2
      residual := Config.measure qResidual k now, winFrames := x.winFrames + 1 }
    { y with pinned := if matchPinned y k then x.pinned + 1 else 0 }

/-! ### Phantom power (R232 to R234) -/

/-- Phantom current, 0.1 mA (R233): none while the supply is at 0 V. -/
def phCurrent (s : State) (c : Nat) : Nat :=
  let x := phOf s c
  if x.pos = 0 then 0 else (clampI 0 (if x.fold then 20 else 140) (Config.measure qPhantomI c s.sysCnt)).toNat

/-- Phantom voltage at the feed, mV (R231): within 48 V ± 4 V in proportion to the ramp; another console's where it feeds the
input (R233). -/
def phVoltage (s : State) (c : Nat) : Int :=
  let x := phOf s c
  clampI 0 (max (52000 * (x.pos : Int) / 19200) (if x.ext then 52000 else 0)) (Config.measure qPhantomV c s.sysCnt)

/-- MIC_PRESENT (R233): set above 0.5 mA, cleared below 0.3 mA, held between the two. -/
def stepMic (s : State) (c : Nat) : State :=
  let x := phOf s c
  let i := phCurrent s c
  let m := if 5 < i then true else if i < 3 then false else x.mic
  if m = x.mic then s else setPh c { x with mic := m } s

/-- A switch of an input's phantom begins, or a running one retargets. Switching off releases PHANTOM_OVERCURRENT. -/
def phSwitch (c : Nat) (on : Bool) (s : State) : State :=
  let x := phOf s c
  if x.up = on then s
  else
    let y := { x with up := on, fast := false, fold := x.fold && on, retries := if on then x.retries else 0
                      stage := match x.stage with
                        | .idle | .corking => .corking
                        | _ => .ramping }
    let s1 := setPh c y s
    if on then s1 else release .phantomOvercurrent (ainHandle c) 0 s1

/-- The phantom an input is to have: its setting, within what the governor holds off. -/
def phApply (s : State) (c : Nat) : State := phSwitch c ((inCfg s c).phantom && !phHeld s c) s

/-- Frames in which phantom moves over its whole range count in steps of 48 V / 19,200 (R232; R73 in a tenth). -/
def phStep (s : State) (x : Phantom) : Nat := (if x.fast then 1920000 else 192000) / fsNow s

/-- One frame of an input's switch; `muted` says that its source has reached silence. -/
def stepPhantom (muted : Bool) (s : State) (c : Nat) : State :=
  let x := phOf s c
  match x.stage with
  | .corking => if muted then setPh c { x with stage := .ramping } s else s
  | .ramping =>
    let d := phStep s x
    let p := if x.up then min 19200 (x.pos + d) else x.pos - d
    let done := if x.up then p == 19200 else p == 0
    setPh c { x with pos := p, stage := if done then .settling else .ramping, fast := x.fast && !done
                     endAt := momentOf s } s
  | _ => s

/-- PHANTOM_RAMP_END (R232): 50 ms after the ramp the source is uncorked. A ramp that ran on while a warm reset stopped the
frame ticks (R69) has reached its end. -/
def execPhantomRampEnd (dt : Nat) (ch : Fin 32) (s0 : State) : R :=
  let s := advance dt s0
  let x := phOf s ch
  if x.stage = .settling then
    .next (if x.endAt + 50 * msCounts ≤ s.sysCnt then setPh ch { x with stage := .idle } s else s)
  else if x.stage = .ramping && !s.clk.ticks then
    .next (setPh ch { x with stage := .idle, pos := if x.up then 19200 else 0, fast := false } s)
  else .next s

/-- EXT_PHANTOM_DETECT (R233): measured while the module's phantom is off. -/
def execExtPhantomDetect (dt : Nat) (ch : Fin 32) (above : Bool) (s0 : State) : R :=
  let s := advance dt s0
  let x := phOf s ch
  if x.up || x.pos != 0 then .next s else .next (setPh ch { x with ext := above } s)

/-- PHANTOM_OVERCURRENT (R234): foldback; the source is muted while the fault holds. -/
def execPhantomOvercurrent (dt : Nat) (ch : Fin 32) (s0 : State) : R :=
  let s := advance dt s0
  let x := phOf s ch
  if x.fold || !x.up || x.pos = 0 then .next s
  else .next (raise .phantomOvercurrent (ainHandle ch) 0 0 (setPh ch { x with fold := true, retries := 0, tryAt := s.sysCnt } s))

/-- PHANTOM_RETRY (R234), the end of the 100 ms of a retry, which begins 2 s after the foldback or the retry before: at 10 mA or below the supply stays up; after five failures it stays folded back. -/
def execPhantomRetry (dt : Nat) (ch : Fin 32) (dmA : Nat) (s0 : State) : R :=
  let s := advance dt s0
  let x := phOf s ch
  if !x.fold || 5 ≤ x.retries || s.sysCnt < x.tryAt + 2100 * msCounts then .next s
  else if dmA ≤ 100 then
    .next (release .phantomOvercurrent (ainHandle ch) 0 (setPh ch { x with fold := false, retries := 0 } s))
  else .next (setPh ch { x with retries := x.retries + 1, tryAt := s.sysCnt } s)

/-! ### INPUT_SET (R236) -/

/-- The input settings that a payload makes of `c`. -/
def inputWith (p : Bytes) (c : InCfg) : InCfg :=
  let f := u8 p 4
  { trim := if f.testBit 0 then i32 p 8 else c.trim
    phantom := if f.testBit 1 then u8 p 5 == 1 else c.phantom
    essential := if f.testBit 2 then u8 p 6 == 1 else c.essential
    invert := if f.testBit 3 then u8 p 7 == 1 else c.invert }

/-- The state with the settings of the addressed inputs written, for the budget check. -/
def inputStored (p : Bytes) (s : State) : State := (bitsOf 32 (u32 p 0)).foldl (fun a c => setInCfg c (inputWith p (inCfg a c)) a) s

/-- Checks of INPUT_SET. -/
def checkInputSet (p : Bytes) (s : State) : Status :=
  let f := u8 p 4
  let chs := bitsOf 32 (u32 p 0)
  let on := f.testBit 1 && u8 p 5 == 1
  checks
    [ (p.length != 16, .badLength),
      (u32 p 0 == 0, .badParam),
      (f == 0 || decide (15 < f), .badParam),
      (f.testBit 1 && decide (1 < u8 p 5), .badParam),
      (f.testBit 2 && decide (1 < u8 p 6), .badParam),
      (f.testBit 3 && decide (1 < u8 p 7), .badParam),
      (f.testBit 0 && (decide (i32 p 8 < -20000) || decide (60000 < i32 p 8)), .outOfRange),
      (u32 p 12 != 0, .badParam),
      (on && chs.any (fun c => !s.cfg.board.phantomPermit.getLsbD c || !ainWired s c), .badParam),
      (on && chs.any (fun c => (phOf s c).ext && !(phOf s c).up), .busy),
      (rnsRefused s (inputStored p s), .noResource) ]

/-- INPUT_SET lands on one channel. An input marked essential is no longer held off. -/
def landInput (p : Bytes) (s0 : State) (c : Nat) : State :=
  let o := inCfg s0 c
  let n := inputWith p o
  let s := if (u8 p 4).testBit 0 then
      restartWindow c
        (startRamp (.trim (Fin.ofNat 32 c)) n.trim s0.cfg.mix.shapeLog (rampFrames s0 s0.cfg.mix.rampUs) s0)
    else s0
  let s1 := setInCfg c n s
  let s2 := if n.essential then
      { s1 with pwr := { s1.pwr with phShed := s1.pwr.phShed &&& ~~~(BitVec.ofNat 32 (2 ^ c)) } }
    else s1
  phApply s2 c

/-- INPUT_SET lands. -/
def landInputSet (p : Bytes) (s : State) : State := (bitsOf 32 (u32 p 0)).foldl (landInput p) s

/-- INPUT_SET (R236). -/
def execInputSet (h : Hdr) (p : Bytes) (s : State) : R :=
  opcode .inputSet h p (landingRamped .inputSet h p (checkInputSet p)) s

/-! ### Overload (R230) -/

/-- The Taster whose output a channel's source carries, from the start of the crossfade. -/
def substOf (s : State) (c : Nat) : Option (Fin 2) :=
  match s.inp.substCh, s.inp.substStage with
  | some k, .fading | some k, .held | some k, .releasing => if k.val = c then s.inp.substBy else none
  | _, _ => none

/-- The entry of `ch` that an input's overload flags stand in. -/
def overEntry (s : State) (c : Nat) : Nat := match substOf s c with
  | some t => 32 + t.val
  | none => c

/-- INPUT_OVER (R230): the comparator trips. -/
def execInputOver (dt : Nat) (ch : Fin 32) (s0 : State) : R :=
  let s := advance dt s0
  let k := overEntry s ch
  let x := chanIn s k
  .next (setChanIn k { x with overTrip := some s.sysCnt, overSticky := true, overCount := x.overCount + 1 } s)

/-- A sample saturates at the trim output of chain `k` (R229, R230). -/
def noteCodeFs (k : Nat) (s : State) : State :=
  let x := chanIn s k
  setChanIn k { x with fsSticky := true, fsCount := x.fsCount + 1 } s

/-! ### The Tasters' round (R238, R243, R245) -/

/-- A Taster takes part in roving: it is neither parked nor withdrawn nor forced. -/
def tasterRoves (x : Taster) : Bool := x.state == .idle || x.state == .roving || x.state == .check

/-- The Taster is free to begin a visit. -/
def tasterFree (x : Taster) : Bool := tasterRoves x && x.phase == .none

/-- PAUSE_MS has passed since the Taster's last visit (R237). -/
def tasterRested (s : State) (x : Taster) : Bool :=
  x.freeAt == 0 || decide (x.freeAt + s.cfg.input.taster.pauseMs * msCounts ≤ s.sysCnt)

/-- Frames of a comparison window and of its verdict (R237). -/
def windowLen (s : State) : Nat := usFrames s (1000 * s.cfg.input.taster.windowMs) + 1

/-- One frame of the Tasters' windows. -/
def stepWindows (s : State) : State :=
  let go (x : Taster) : Taster := if x.phase == .window || x.phase == .second then { x with winLeft := x.winLeft - 1 } else x
  { s with inp := { s.inp with t0 := go s.inp.t0, t1 := go s.inp.t1 } }

/-- State between visits. -/
def tasterRest (s : State) : TState := if s.cfg.input.taster.enable then .roving else .idle

/-- The module's input `c` is being substituted. -/
def isSubst (s : State) (c : Nat) : Bool := s.inp.substCh == some (Fin.ofNat 32 c) && s.inp.substStage != .none

/-- A channel is passed over for the present round: its phantom moves or its Press chain settles. -/
def passedOver (s : State) (c : Nat) : Bool :=
  (phOf s c).stage != .idle || (chainOf s false c).state == .settling

/-- The schedule of the round. -/
def scheduled (s : State) : List Nat :=
  (List.range 32).filter (fun c => s.cfg.input.taster.schedule.getLsbD c && ainWired s c && !isSubst s c)

/-- A mark of one channel in a map. -/
def chBit (c : Nat) : BitVec 32 := BitVec.ofNat 32 (2 ^ c)

/-- What a free Taster does next: a channel of a check sequence, of the round, a pair visit, or a new round. -/
inductive NextVisit where
  | none
  | check (c : Nat) (pair : Bool)
  | rove (c : Nat)
  | pair (c : Nat)
  | newRound
  deriving DecidableEq, Repr

/-- The pair visit's channel: the scheduled one after the last. -/
def pairChannel (s : State) : Option Nat :=
  let l := scheduled s
  match l.filter (fun c => decide (s.inp.lastPair < c)) with
  | c :: _ => some c
  | [] => l.head?

/-- The next visit of Taster `t`. -/
def nextVisit (s : State) (t : Fin 2) : NextVisit :=
  let x := tasterOf s t
  let o := tasterOf s (otherT t)
  let onOther (c : Nat) : Bool := o.channel == some (Fin.ofNat 32 c)
  let both := tasterFree o && tasterRested s o
  let seq := match s.inp.seqRunning with
    | some m => (bitsOf 32 m.toNat).filter (fun c => !onOther c)
    | none => []
  match seq with
  | c :: _ =>
    if s.inp.seqPair && tasterRoves o then (if both then .check c true else .none) else .check c false
  | [] =>
    if s.inp.seqRunning.isSome || !s.cfg.input.taster.enable then .none
    else
      let left := (scheduled s).filter (fun c => !s.inp.visited.getLsbD c && !onOther c && !passedOver s c)
      let firsts := (List.range 32).filter (fun c =>
        (s.inp.goesFirst.getLsbD c || ((chanIn s c).suspect && left.contains c)) && !s.inp.visited.getLsbD c
          && ainWired s c && !isSubst s c && !onOther c && !passedOver s c)
      let freed := match x.first with
        | some c => if ainWired s c && !onOther c then [c.val] else []
        | none => []
      match freed ++ firsts ++ left with
      | c :: _ => .rove c
      | [] =>
        if s.cfg.input.taster.pairCheck && tasterRoves o then
          (if !both then .none else match pairChannel s with
            | some c => .pair c
            | none => .none)
        else if (scheduled s).isEmpty then .none else .newRound

/-- A round ends: its duration is noted, every channel is open again and the next round begins (R238, R247). -/
def endRound (s : State) : State :=
  { s with inp := { s.inp with
    visited := 0, rounds := s.inp.rounds + 1, roundStart := some s.sysCnt
    roundMs := (freeDiv 45 ((s.sysCnt - s.inp.roundStart.getD s.sysCnt : Nat) : Int) msCounts).toNat } }

/-- Taster `t` connects to channel `c`; its Press chain is cleared and settles (R237, R265). -/
def connect (t : Fin 2) (c : Nat) (st : TState) (pair : Bool) (s : State) : State :=
  arriveChain t c (setTaster t { state := st, channel := some (Fin.ofNat 32 c), phase := .settling, pair := pair } s)

/-- A visit to `c` is noted in the round; the first visit after a reset begins the first round. -/
def markVisited (c : Nat) (s : State) : State :=
  { s with inp := { s.inp with
    visited := s.inp.visited ||| chBit c, goesFirst := s.inp.goesFirst &&& ~~~(chBit c)
    roundStart := some (s.inp.roundStart.getD s.sysCnt) } }

/-- Channels below the one chosen that are passed over count as visited. -/
def markPassed (c : Nat) (s : State) : State :=
  ((scheduled s).filter (fun k => decide (k < c) && passedOver s k)).foldl (fun a k =>
    { a with inp := { a.inp with visited := a.inp.visited ||| chBit k } }) s

/-- Begins the visit chosen for Taster `t`. -/
def beginVisit (t : Fin 2) (v : NextVisit) (s : State) : State :=
  match v with
  | .check c pair =>
    let s1 := { s with inp := { s.inp with seqRunning := s.inp.seqRunning.map (fun m => m &&& ~~~(chBit c)) } }
    let s2 := connect t c .check pair s1
    if pair then connect (otherT t) c .check true s2 else s2
  | .rove c => connect t c .roving false (markVisited c (markPassed c s))
  | .pair c =>
    connect (otherT t) c .roving true (connect t c .roving true { s with inp := { s.inp with lastPair := c } })
  | _ => s

/-- TASTER_VISIT_START (R237, R238): a free Taster takes its next visit; a round that has run out begins anew. -/
def execTasterVisitStart (dt : Nat) (t : Fin 2) (s0 : State) : R :=
  let s := advance dt s0
  if !tasterFree (tasterOf s t) || !tasterRested s (tasterOf s t) then .next s
  else match nextVisit s t with
    | .newRound =>
      let s1 := endRound s
      .next (match nextVisit s1 t with
        | .newRound => s
        | v => beginVisit t v s1)
    | v => .next (beginVisit t v s)

/-! ### Substitution (R244, R245) -/

/-- Taster `t`, settled on channel `c`, parks there and the crossfade begins at the next tick. -/
def parkSubst (t : Fin 2) (c : Fin 32) (s : State) : State :=
  let n := max 1 (usFrames s s.cfg.input.taster.rackUs)
  let s1 := setTaster t { state := .parked, channel := some c } s
  { s1 with
    cfg := { s1.cfg with input := { s1.cfg.input with subst := some (c, t) } }
    inp := { s1.inp with substCh := some c, substBy := some t, substStage := .fading, substPos := 0, substLen := n } }

/-- Taster `t` goes to the channel of the pending substitution. -/
def goSubst (t : Fin 2) (c : Fin 32) (s : State) : State :=
  let s1 := connect t c .parked false s
  { s1 with inp := { s1.inp with substCh := some c, substBy := some t, substStage := .settling } }

/-- A check sequence ends when every channel has been visited: the TASTER event, and the pending one begins; one without a
declared channel is over at once. -/
def seqEnd (s : State) : State :=
  if s.inp.seqRunning = some 0 ∧ s.inp.t0.state ≠ .check ∧ s.inp.t1.state ≠ .check then
    postEvent 6 { s with inp := match s.inp.seqPending with
      | some (m, pair) =>
        { s.inp with seqRunning := if m = 0 then none else some m, seqPair := pair && m != 0, seqPending := none }
      | none => { s.inp with seqRunning := none, seqPair := false } }
  else s

/-- FAIL_ACTION (R240). -/
def failAction (c : Nat) (s : State) : State :=
  if s.cfg.input.taster.failMute then setChanIn c { chanIn s c with muted := true } s else s

/-- Taster `t` is free. -/
def freeTaster (t : Fin 2) (s : State) : State := seqEnd (setTaster t { state := tasterRest s, channel := none, freeAt := s.sysCnt } s)

/-- Taster `t` ends its visit: it is free, or goes to a pending substitution. A substitution that would take the last roving
Taster is given up, and FAIL_ACTION acts where a fail called for it (R242). -/
def endVisit (t : Fin 2) (s : State) : State :=
  match s.inp.substStage, s.inp.substCh with
  | .pending, some c =>
    if tasterRoves (tasterOf s (otherT t)) then seqEnd (goSubst t c s)
    else
      let s1 := { s with inp := { s.inp with substCh := none, substStage := .none } }
      freeTaster t (if inForce .convImplausible (ainHandle c) 0 s then failAction c s1 else s1)
  | _, _ => freeTaster t s

/-- One frame of a substitution's crossfade; a completed release frees its Taster. -/
def stepSubst (s : State) : State :=
  match s.inp.substStage with
  | .fading => { s with inp := { s.inp with substPos := min s.inp.substLen (s.inp.substPos + 1) } }
  | .releasing =>
    if 1 < s.inp.substPos then { s with inp := { s.inp with substPos := s.inp.substPos - 1 } }
    else
      let s1 := match s.inp.substBy with
        | some t => setTaster t { state := tasterRest s, channel := none, first := s.inp.substCh, freeAt := s.sysCnt } s
        | none => s
      { s1 with inp := { s1.inp with substCh := none, substBy := none, substStage := .none, substPos := 0, substLen := 0 } }
  | _ => s

/-- TASTER_SUBSTITUTED (R244): the crossfade has ended. -/
def execTasterSubstituted (dt : Nat) (s0 : State) : R :=
  let s := advance dt s0
  match s.inp.substStage, s.inp.substCh, s.inp.substBy with
  | .fading, some c, some t =>
    if s.inp.substPos < s.inp.substLen then .next s
    else
      let s1 := { s with inp := { s.inp with substStage := .held, substPos := s.inp.substLen } }
      .next (postEvent 6 (raise .tasterSubstituted (ainHandle c) 0 (BitVec.ofNat 32 (256 * t.val)) s1))
  | _, _, _ => .next s

/-- TASTER_SUBSTITUTE (R245). -/
def execTasterSubstitute (h : Hdr) (p : Bytes) (s : State) : R :=
  opcodeN .tasterSubstitute 4 h p (fun s =>
    let act := u8 p 0
    let c : Fin 32 := Fin.ofNat 32 (u8 p 1)
    let i := s.inp
    let inForce := (i.substStage == .fading || i.substStage == .held) && i.substCh == some c
    let roving := bit (tasterRoves i.t0) + bit (tasterRoves i.t1)
    let on (x : Taster) : Bool := tasterRoves x && x.channel == some c && x.phase != .none
    guardSt (checks
      [ (decide (1 < act), .badParam),
        (decide (31 < u8 p 1), .outOfRange),
        (u16 p 2 != 0, .badParam),
        (act == 1 && !ainWired s c, .badParam),
        (act == 0 && !inForce, .badParam),
        (act == 1 && (i.substStage != .none || decide (roving < 2)), .noResource) ]) s
      (if act = 0 then
        let n := max 1 (usFrames s s.cfg.input.taster.rackUs)
        let pos := if i.substStage = .held then n else i.substPos
        done { s with
          cfg := { s.cfg with input := { s.cfg.input with subst := none } }
          inp := { i with substStage := .releasing, substPos := pos, substLen := if i.substStage = .held then n else i.substLen } }
      else
        let t : Fin 2 := if on i.t0 then 0 else if on i.t1 then 1 else if i.t0.phase = .none then 0 else 1
        let x := tasterOf s t
        let alone (a : State) : State :=
          if x.pair then setTaster (otherT t) { tasterOf a (otherT t) with pair := false } a else a
        .reply .okDeferred [] (
          if on x && x.phase == .settling then
            let s1 := setTaster t { x with state := .parked, pair := false } (alone s)
            seqEnd { s1 with inp := { s1.inp with substCh := some c, substBy := some t, substStage := .settling } }
          else if on x then seqEnd (parkSubst t c (alone s))
          else if x.phase = .none then goSubst t c s
          else { s with inp := { i with substCh := some c, substStage := .pending } }))) s

/-- TASTER_SETTLE_END (R237): the window begins, or the crossfade of a substitution. -/
def execTasterSettleEnd (dt : Nat) (t : Fin 2) (s0 : State) : R :=
  let s := advance dt s0
  let x := tasterOf s t
  if x.phase ≠ .settling ∨ 1 < (chainOf s false (32 + t)).left then .next s
  else
    let s1 := settleEnd false (32 + t) s
    match x.state, x.channel with
    | .parked, some c => .next (parkSubst t c s1)
    | _, _ => .next (setTaster t { x with phase := .window, winLeft := windowLen s } s1)

/-! ### Verdicts (R239 to R242) -/

/-- The verdict on one window's measurements. -/
def verdictOf (c : TasterCfg) (m : TasterMeas) : Nat :=
  if m.overload || (decide (-130000 ≤ m.chRms) && decide (m.chRms ≤ -100000)) then 2
  else if -60000 < m.chRms ∧ c.levelTol < m.levelDiff.natAbs then 3
  else if -100000 < m.chRms ∧ c.corrPpm * 1000 < m.corrDefect then 4
  else if m.chRms < -130000 ∧ m.tsRms < -130000 ∧ c.noiseTol < m.noiseDiff.natAbs then 5
  else 1

/-- Reason of a failed verdict in CONV_IMPLAUSIBLE. -/
def verdictReason (v : Nat) : Nat := v - 2

/-- A passing verdict releases CONV_IMPLAUSIBLE (R248), reason 5 only after MATCH_LIMIT has been clear for 10 s of in-window
time (R228). -/
def passChannel (c : Nat) (s : State) : State :=
  let x := chanIn s c
  if x.matchLimit || (x.limitClearAt != 0 && decide (x.winFrames < 10 * fsNow s)) then s
  else release .convImplausible (ainHandle c) 0 (setChanIn c { x with muted := false, limitClearAt := 0 } s)

/-- Notes a verdict and what was measured. -/
def noteVerdict (t : Fin 2) (c v : Nat) (m : TasterMeas) (s : State) : State :=
  let x := chanIn s c
  let silent := decide (m.chRms < -130000) && decide (m.tsRms < -130000)
  setChanIn c { x with verdict := v, verdictBy := t, levelDiff := m.levelDiff, corrDefect := m.corrDefect
                       noiseDiff := if silent then m.noiseDiff else x.noiseDiff, lastVisit := s.sysCnt } s

/-- The channel goes first in the next round. -/
def goFirst (c : Nat) (s : State) : State := { s with inp := { s.inp with goesFirst := s.inp.goesFirst ||| chBit c } }

/-- The visit of Taster `t` ends here, or, forced, its next window begins. -/
def visitOver (t : Fin 2) (s : State) : State :=
  let x := tasterOf s t
  if x.state = .forced then setTaster t { x with phase := .window, winLeft := windowLen s } s else endVisit t s

/-- A confirmed fail of a channel by Taster `t` (R240, R242). -/
def confirmFail (t : Fin 2) (c : Fin 32) (v : Nat) (m : TasterMeas) (s0 : State) : State :=
  let s := raise .convImplausible (ainHandle c) 0 (BitVec.ofNat 32 (verdictReason v + 256 * t.val)) (noteVerdict t c v m s0)
  let o := tasterOf s (otherT t)
  if s.cfg.input.taster.autoSubst && (o.state == .roving || o.state == .check) && s.inp.substStage == .none
      && (tasterOf s t).state != .forced then
    seqEnd (parkSubst t c s)
  else visitOver t (failAction c s)

/-- A pass or an inconclusive verdict. -/
def plainVerdict (t : Fin 2) (c : Fin 32) (v : Nat) (m : TasterMeas) (s0 : State) : State :=
  let s := noteVerdict t c v m s0
  visitOver t (if v = 1 then passChannel c s else goFirst c s)

/-- A Taster is withdrawn (R241). -/
def withdraw (t : Fin 2) (s : State) : State :=
  raise .convImplausible (tasterHandle t) 0 (BitVec.ofNat 32 (6 + 256 * t.val))
    (seqEnd (setTaster t { state := .withdrawn } s))

/-- The end of a pair visit (R241): `t` and the other against the channel, and against each other. -/
def pairVerdict (t : Fin 2) (c : Fin 32) (m other between : TasterMeas) (s : State) : State :=
  let k := s.cfg.input.taster
  let u := otherT t
  let a := verdictOf k m
  let b := verdictOf k other
  let x := verdictOf k between
  if 3 ≤ a ∧ 3 ≤ x ∧ b = 1 then withdraw t (plainVerdict u c 1 other s)
  else if 3 ≤ b ∧ 3 ≤ x ∧ a = 1 then withdraw u (plainVerdict t c 1 m s)
  else if 3 ≤ a ∧ 3 ≤ b ∧ x = 1 then confirmFail t c a m (endVisit u s)
  else endVisit u (plainVerdict t c (if a = 1 ∧ b = 1 ∧ x = 1 then 1 else 2) m s)

/-- TASTER_WINDOW_END (R239 to R241), once the window and the verdict's frame are over. A round's pair visit ends it (R238). -/
def execTasterWindowEnd (dt : Nat) (t : Fin 2) (m other between : TasterMeas) (s0 : State) : R :=
  let s := advance dt s0
  let x := tasterOf s t
  if x.winLeft ≠ 0 then .next s
  else match x.phase, x.channel with
  | .window, some c =>
    if x.pair then
      let s1 := pairVerdict t c m other between s
      .next (if x.state = .roving then endRound s1 else s1)
    else
      let v := verdictOf s.cfg.input.taster m
      if v = 2 then .next (visitOver t (noteVerdict t c 2 m s))
      else if v = 1 then .next (plainVerdict t c 1 m s)
      else .next (setTaster t { x with phase := .second, winLeft := windowLen s } s)
  | .second, some c =>
    let v := verdictOf s.cfg.input.taster m
    if 3 ≤ v then .next (confirmFail t c v m s) else .next (plainVerdict t c v m s)
  | _, _ => .next s

/-! ### The matching loop's flags (R228) -/

/-- MATCH_SUSPECT: the residual has stayed above, or below, RESIDUAL_LIMIT. A suspect channel is visited next. -/
def execMatchSuspect (dt : Nat) (ch : Fin 32) (residual : Int) (s0 : State) : R :=
  let s := advance dt s0
  let x := { chanIn s ch with residual := residual }
  let lim := s.cfg.input.taster.residualLimit
  if lim < residual ∧ x.suspect = false then
    let s1 := setChanIn ch { x with suspect := true } s
    .next { s1 with inp := { s1.inp with
      goesFirst := s1.inp.goesFirst ||| chBit ch, visited := s1.inp.visited &&& ~~~(chBit ch) } }
  else if residual < lim then .next (setChanIn ch { x with suspect := false } s)
  else .next (setChanIn ch x s)

/-- MATCH_LIMIT: a correction has stood at its limit for 1 s of in-window time; the low-gain path alone is used. -/
def execMatchLimit (dt : Nat) (ch : Fin 32) (s0 : State) : R :=
  let s := advance dt s0
  let x := chanIn s ch
  if x.matchLimit || x.returning || !matchPinned x ch || x.pinned < fsNow s then .next s
  else
    let y := { x with matchLimit := true, verdict := 6, verdictBy := 0xFF, lastVisit := s.sysCnt }
    let s1 := detect .convImplausible (ainHandle ch) 0 0xFF05 (setChanIn ch y s)
    let i := s1.inp
    if s1.cfg.input.taster.autoSubst && i.substStage == .none && tasterRoves i.t0 && tasterRoves i.t1 then
      let t : Fin 2 := if i.t0.phase = .none then 0 else 1
      .next (if (tasterOf s1 t).phase = .none then goSubst t ch s1
        else { s1 with inp := { i with substCh := some ch, substStage := .pending } })
    else .next (failAction ch s1)

/-- MATCH_RETURN_COMPLETE (R228, R249): the loop stands at its factory value; MATCH_LIMIT clears. -/
def execMatchReturnComplete (dt : Nat) (ch : Fin 32) (s0 : State) : R :=
  let s := advance dt s0
  let x := chanIn s ch
  if !x.returning || x.gain != 0 || x.delay != 0 then .next s
  else .next (setChanIn ch { x with
    returning := false, matchLimit := false, pinned := 0, winFrames := if x.matchLimit then 0 else x.winFrames
    limitClearAt := if x.matchLimit then s.sysCnt else x.limitClearAt } s)

/-! ### TASTER_CONFIG, TASTER_RUN (R246, R243) -/

/-- The fields of a TASTER_CONFIG payload. -/
def tasterCfgOf (p : Bytes) : TasterCfg :=
  { enable := u8 p 0 == 1, autoSubst := u8 p 1 == 1, failMute := u8 p 2 == 1, pairCheck := u8 p 3 == 1
    schedule := BitVec.ofNat 32 (u32 p 4), windowMs := u16 p 8, levelTol := u16 p 10, corrPpm := u16 p 12
    noiseTol := u16 p 14, rackUs := u32 p 16, residualLimit := i32 p 20, pauseMs := u16 p 24 }

/-- The state of a Taster between visits follows ENABLE. -/
def restTaster (s : State) (t : Fin 2) : State :=
  let x := tasterOf s t
  if x.phase = .none ∧ (x.state = .idle ∨ x.state = .roving) then setTaster t { x with state := tasterRest s } s else s

/-- Checks of TASTER_CONFIG. -/
def checkTasterConfig (p : Bytes) (_ : State) : Status :=
  let c := tasterCfgOf p
  let out (lo hi v : Nat) : Bool := decide (v < lo) || decide (hi < v)
  checks
    [ (decide (1 < u8 p 0) || decide (1 < u8 p 1) || decide (1 < u8 p 2) || decide (1 < u8 p 3), .badParam),
      (out 10 1000 c.windowMs, .outOfRange),
      (out 10 1000 c.levelTol, .outOfRange),
      (out 1 10000 c.corrPpm, .outOfRange),
      (out 500 20000 c.noiseTol, .outOfRange),
      (out 500 1000000 c.rackUs, .outOfRange),
      (decide (c.residualLimit < -120000) || decide (-40000 < c.residualLimit), .outOfRange),
      (out 0 60000 c.pauseMs, .outOfRange),
      (u16 p 26 != 0, .badParam) ]

/-- TASTER_CONFIG lands. -/
def landTasterConfig (p : Bytes) (s : State) : State :=
  restTaster (restTaster { s with cfg := { s.cfg with input := { s.cfg.input with taster := tasterCfgOf p } } } 0) 1

/-- TASTER_CONFIG. -/
def execTasterConfig (h : Hdr) (p : Bytes) (s : State) : R :=
  opcodeN .tasterConfig 28 h p (landLive .tasterConfig h p (checkTasterConfig p) id) s

/-- A trigger of a check sequence (R243): the status of its reply and what it does. -/
def seqTrigger (m : BitVec 32) (pair : Bool) (s : State) : Ans :=
  match s.inp.seqRunning, s.inp.seqPending with
  | none, _ => done (seqEnd { s with inp := { s.inp with seqRunning := some m, seqPair := pair } })
  | some _, none => .reply .okDeferred [] { s with inp := { s.inp with seqPending := some (m, pair) } }
  | some _, some _ => refuse .busy { s with inp := { s.inp with seqOverruns := sat32 (s.inp.seqOverruns + 1) } }

/-- TASTER_RUN (R243). -/
def execTasterRun (h : Hdr) (p : Bytes) (s : State) : R :=
  opcodeN .tasterRun 4 h p (fun s =>
    if u32 p 0 = 0 then refuse .badParam s
    else seqTrigger (BitVec.ofNat 32 (u32 p 0) &&& s.cfg.board.ainWired) false s) s

/-! ### INPUT_STATUS (R247) -/

/-- A register's value in units of `n`; the manual does not say how it is rounded. -/
def inUnits (n : Nat) (v : Int) : Int := freeDiv 11 v n

/-- TST_STATE's code. -/
def tstCode : TState → Nat
  | .idle => 0 | .roving => 1 | .check => 2 | .parked => 3 | .withdrawn => 4 | .forced => 5

/-- A channel as a byte, 0xFF for none. -/
def chByte (c : Option (Fin 32)) : Nat := match c with
  | some k => k
  | none => 0xFF

/-- FLAGS of an entry. -/
def inFlags (s : State) (c : Nat) : Nat :=
  let x := chanIn s c
  let o := chanIn s (overEntry s c)
  let p := phOf s c
  let live := match o.overTrip with
    | some t => decide (s.sysCnt < t + 100 * msCounts)
    | none => false
  flag 0 live + flag 1 o.overSticky + flag 2 o.fsSticky + flag 3 p.mic + flag 4 p.up
    + flag 5 (p.stage != .idle) + flag 6 p.fold + flag 7 (s.pwr.phShed.getLsbD c) + flag 8 p.ext
    + flag 9 (substOf s c).isSome + flag 10 x.suspect + flag 11 x.matchLimit + flag 12 (decide (32768 < x.weight))
    + flag 13 (!ainWired s c) + flag 14 (inForce .convImplausible (ainHandle c) 0 s) + flag 15 (x.muted || p.fold)

/-- One entry. -/
def inEntry (s : State) (c : Nat) : Bytes :=
  let x := chanIn s c
  let noise := freeDiv 12 x.noiseDiff 10
  le 2 (inFlags s c) ++ le 1 x.verdict ++ le 1 x.verdictBy ++ le 2 (phCurrent s c)
    ++ leI 2 (inUnits 100 (matchGain x c)) ++ leI 2 (inUnits 100 (matchDelay x c))
    ++ leI 2 (clampI (-32768) 32767 (inUnits 10 x.residual)) ++ leI 2 (clampI (-32768) 32767 x.levelDiff)
    ++ leI 2 (clampI (-32768) 32767 noise) ++ le 4 (sat32 x.corrDefect) ++ le 8 x.lastVisit

/-- The snapshot of INPUT_STATUS. -/
def inputSnapshot (s : State) : Bytes :=
  let i := s.inp
  let sub := if i.substStage = .fading ∨ i.substStage = .held ∨ i.substStage = .releasing then i.substCh else none
  let seq := match i.seqRunning, i.seqPending with
    | none, _ => 0
    | some _, none => 1
    | some _, some _ => 2
  le 1 (tstCode i.t0.state) ++ le 1 (chByte i.t0.channel) ++ le 1 (tstCode i.t1.state) ++ le 1 (chByte i.t1.channel)
    ++ le 1 (chByte sub) ++ le 1 seq ++ zeros 2 ++ le 4 i.seqOverruns ++ le 4 (sat32 i.roundMs) ++ le 4 (sat32 i.rounds)
    ++ zeros 4 ++ le 8 s.clk.stamp ++ (List.range 32).flatMap (inEntry s)

/-- Sticky overload bits that a snapshot has shown are cleared (R170, R247); one set since its tick stays. -/
def clearOver (shown live : Tab ChanIn) : Tab ChanIn :=
  live.foldl (fun a e =>
    let o := tget {} shown e.1
    tset {} a e.1 { e.2 with overSticky := e.2.overSticky && !o.overSticky, fsSticky := e.2.fsSticky && !o.fsSticky }) live

/-- INPUT_STATUS: as the latest tick latched it. -/
def execInputStatus (h : Hdr) (p : Bytes) (s : State) : R :=
  opcodeN .inputStatus 4 h p (fun s =>
    if 1 < u8 p 0 || !zeroAt p 1 3 then refuse .badParam s
    else
      let v := latchView s
      let s1 := if u8 p 0 = 1 then
          { s with
            inp := { s.inp with ch := clearOver v.inp.ch s.inp.ch }
            latch := { s.latch with inp := { s.latch.inp with ch := clearOver v.inp.ch s.latch.inp.ch } } }
        else s
      .reply .ok (inputSnapshot v) (clearEvent 6 s1)) s

/-! ### INPUT_EXPERT (R249) -/

/-- Test settings of the inputs return to their defaults (R173, R249, R250). -/
def releaseInputs (s : State) : State :=
  let free (a : State) (t : Fin 2) : State :=
    if (tasterOf a t).state = .forced then endVisit t a else a
  let s1 := free (free s 0) 1
  { s1 with inp := { s1.inp with ch := s1.inp.ch.foldl (fun a e =>
    tset {} a e.1 { e.2 with muShift := 16, pathForce := 0 }) s1.inp.ch } }

/-- A visit that a forced Taster leaves. -/
def forceTaster (t : Fin 2) (c : Nat) (s : State) : State :=
  let x := tasterOf s t
  let s1 := if x.pair then setTaster (otherT t) { tasterOf s (otherT t) with pair := false } s else s
  seqEnd (connect t c .forced false s1)

/-- INPUT_EXPERT (R249). -/
def execInputExpert (h : Hdr) (p : Bytes) (s : State) : R :=
  opcodeN .inputExpert 4 h p (fun s =>
    let act := u8 p 0
    let t : Fin 2 := Fin.ofNat 2 (u8 p 1)
    let c := u8 p 2
    let x := tasterOf s t
    guardSt (checks
      [ (decide (3 < act), .badParam),
        (act == 1 && decide (1 < u8 p 1), .outOfRange),
        (decide (1 ≤ act) && decide (31 < c), .outOfRange),
        (u8 p 3 != 0, .badParam),
        (act == 1 && x.state == .parked, .busy),
        (act == 1 && (x.state == .withdrawn || s.inp.substStage == .pending || !tasterRoves (tasterOf s (otherT t))),
          .noResource) ]) s
      (match act with
       | 0 => done (releaseInputs s)
       | 1 => done (forceTaster t c s)
       | 2 => done (setChanIn c { chanIn s c with returning := true } s)
       | _ => seqTrigger (chBit c &&& s.cfg.board.ainWired) true s)) s

/-! ### Restore (R244) -/

/-- The Tasters after a reset: roving where enabled, and one parked on a substituted channel without a crossfade. -/
def restoreTasters (s : State) : State :=
  let s1 := restTaster (restTaster s 0) 1
  match s.cfg.input.subst with
  | none => s1
  | some (c, t) =>
    let s2 := startChain false (32 + t) (setTaster t { state := .parked, channel := some c } s1)
    { s2 with inp := { s2.inp with substCh := some c, substBy := some t, substStage := .held, substPos := 1, substLen := 1 } }

end Sys2Proof.Machine
end

