-- ==== Sys2Proof/Machine/Sources.lean ====
section
/-! DEFINITION. What each source presents at a frame tick (R31, R40): the Press chains (R224, R229, R253, R274), the
substitution (R244), received ports and streams, generators (R384) and Cooper outputs; corking of polarity (R372). -/

namespace Sys2Proof.Machine

/-! ### Corked changes of polarity (R372, R378) -/

/-- The watched value crosses zero in this frame: it is zero, or its sign differs from the frame before. -/
def crossing (v prev : Int) : Bool := v == 0 || decide (v < 0) != decide (prev < 0)

/-- The wait of a corked change since `since` has run out (R372). -/
def corkOver (s : State) (since : Nat) : Bool := decide (since + s.cfg.mix.corkUs * 200 ≤ s.sysCnt)

/-- One frame of a polarity: changed at a crossing, or through zero after a timeout. -/
def stepInv (s : State) (want cross : Bool) (x0 : InvSt) : InvSt :=
  let x := { x0 with late := false }
  if x.ramping then
    if x.applied = want then
      (if x.w < 31 then { x with w := x.w + 1 } else { x with w := 32, ramping := false, waiting := false })
    else if x.w ≤ 1 then { x with applied := want, w := 0 }
    else { x with w := x.w - 1 }
  else if x.applied = want then { x with waiting := false }
  else if cross then { x with applied := want, waiting := false }
  else if x.waiting && corkOver s x.since then { x with waiting := false, ramping := true, w := 31, late := true }
  else { x with waiting := true, since := if x.waiting then x.since else s.sysCnt }

/-- A value under a polarity. -/
def invMix (x : InvSt) (v : Int) : Int := rampW x.w (if x.applied then -v else v)

/-! ### Press -/

/-- Amplitude of the trim of a Press chain (R229, R252, R324). -/
def chainTrim (s : State) (c : Nat) : Nat :=
  if c < 32 then gainLin s (.trim (Fin.ofNat 32 c))
  else if c < 34 then
    match (tasterOfChain s c).channel with
    | some k => gainLin s (.trim k)
    | none => linOne
  else gainLin s (.micTrim (Fin.ofNat 2 (c - 34)))

/-- What a converter's modulators delivered in the frame. -/
def convIn (i : TickIn) (c : Nat) : ConvIn :=
  match i.press.find? (fun e => e.1.val == c) with
  | some e => e.2
  | none => ⟨[], [], false⟩

/-- Stage 1 of a headset microphone's chain, which has one path: eight samples, oldest first. -/
def micFrame (fs : Fin 3) (i : ConvIn) (st : Stages) : Stages × List Int :=
  if i.low.isEmpty && st == {} then (st, [])
  else (partsOf (sincRatio fs) 8 (padTo (8 * sincRatio fs) i.low)).foldl (fun a p =>
    let r := sincDown (sincRatio fs) a.1.modLow p
    ({ a.1 with modLow := r.1 }, a.2 ++ [r.2])) (st, [])

/-- Stage 1 of a chain and, for an input or a Taster, its combiner and matching loop (R224, R226, R253). -/
def pressFirst (i : TickIn) (s : State) (c : Nat) (st : Stages) : State × Stages × List Int :=
  if c < 34 then
    let x := chanIn s c
    let (st1, y, v) := convFrame s.clk.fs c (convIn i c) st x
    let z := stepMatch c s.sysCnt y
    (if z = x then s else setChanIn c z s, st1, v)
  else
    let (st1, v) := micFrame s.clk.fs (convIn i c) st
    (s, st1, v)

/-- The DC blocker (R274): its state is carried in 64 bits, and zeros leave it at rest. -/
def dcStep (fs : Nat) (st v : Int) : Int × Int :=
  if st = 0 ∧ v = 0 then (0, 0)
  else
    let r := Config.dcBlocker fs st v
    (satS 64 r.1, satS 32 r.2)

/-- One frame of a Press chain (R253): stages 1 to 4, coarse phase delay, trim, DC blocker, wind HPF, gate. -/
def pressChain (i : TickIn) (s0 : State) (c : Nat) : State × Int :=
  let x := chainOf s0 false c
  if x.state = .stopped then (s0, 0)
  else
    let g := chainCfg s0 false c
    let (s, st1, v8) := pressFirst i s0 c x.stages
    let (st, fir) := pressDown s x.resp x.set g.fine v8 st1
    let line := (fir :: x.line).take (g.coarse + 1)
    let y := convRound (line.getD g.coarse 0 * (chainTrim s c : Int)) 102
    let z := satS 32 y
    let s1 := if z ≠ y ∧ x.state ≠ .settling ∧ c < 34 then noteCodeFs c s else s
    let (dc, d) := dcStep (fsNow s) x.dc z
    let (x1, o) := hpfMix (fsNow s) { x with dc := dc, stages := st, line := if line.all (· == 0) then [] else line } d
    let s2 := if x1 = x then s1 else setChain false c x1 s1
    ({ s2 with filt := captureFir false c [fir] s2.filt }, if x.state = .settling && !x.gateOpen then 0 else o)

/-- All Press chains of a frame: the state and their values in order. -/
def pressAll (i : TickIn) (s : State) : State × List Int :=
  (List.range 36).foldl (fun (a : State × List Int) c =>
    let (s1, v) := pressChain i a.1 c
    (s1, a.2 ++ [v])) (s, [])

/-- The value of an AIN source before its polarity: its channel's, or the substituting Taster's. -/
def ainValue (s : State) (vals : List Int) (c : Nat) : Int :=
  if !ainWired s c then 0
  else
    let own := vals.getD c 0
    match substOf s c with
    | none => own
    | some t =>
      let n := max 1 s.inp.substLen
      let k := min n s.inp.substPos
      freeDiv 20 (own * ((n : Int) - (k : Int)) + vals.getD (32 + t.val) 0 * (k : Int)) n

/-- An AIN source: its polarity moves by a frame. -/
def ainSource (vals : List Int) (a : State × Tab Int) (c : Nat) : State × Tab Int :=
  let s := a.1
  let h := ainHandle c
  let v := ainValue s vals c
  let x := tget ({} : InvSt) s.mix.srcInv c
  let p := tget (0 : Int) s.mix.src h.toNat
  let y := stepInv s (inCfg s c).invert (crossing v (if x.applied then -p else p)) x
  let s1 := if y = x then s else { s with mix := { s.mix with srcInv := tset {} s.mix.srcInv c y } }
  (s1, tset 0 a.2 h.toNat (satS 32 (invMix y v)))

/-- One frame of a port's threshold loop (R47, R49, R325): a low-pass of 2 s of the microphone line's DC, within 1.2 V to 2.9 V; it
holds without a bias, during a press, a cycle, 200 ms after either, and under TRACK_FREEZE. -/
def stepIdle (s : State) (n : Nat) : State :=
  let r := hsRt s n
  if !r.bias || r.trackFreeze || r.button != 0 || r.state == .measuring || decide (s.sysCnt < r.holdUntil) then s
  else
    let one : Int := 4294967296
    let v := (vIdleNow s n : Int) * one + (r.idleFine : Int)
    let x := (clampI (1200000 * one) (2900000 * one) (v + freeDiv 73 ((micUv s n : Int) * one - v) (2 * fsNow s))).toNat
    setHs n { r with vIdle := some (x / 4294967296), idleFine := x % 4294967296 } s

/-- One frame of a headset port: its threshold loop, and its microphone's source under the fade of a removal (R322). -/
def micSource (vals : List Int) (a : State × Tab Int) (n : Nat) : State × Tab Int :=
  let s := stepIdle a.1 n
  let r := hsRt s n
  let f := stepMove r.micFade
  let s1 := if f = r.micFade then s else setHs n { r with micFade := f } s
  let w := moveVal f
  (s1, tset 0 a.2 (mkHandle 2 n).toNat (freeDiv 21 (vals.getD (34 + n) 0 * w) (2 ^ 60)))

/-! ### Generators (R384) -/

/-- A generator's sample at amplitude 1, units of 2^-31: within full scale, noise within 4 times its rms. -/
def genUnit (s : State) (c : GenCfg) (r : Gen) : Int :=
  let one : Int := 2147483648
  match r.kind with
  | 1 => if r.phase = 0 then 0 else clampI (-one) one (Config.sine r.phase (1000 * fsNow s))
  | 2 | 3 => clampI (-4 * one) (4 * one) (Config.noise r.kind r.seed.toNat r.t)
  | 4 => if r.t = 0 then 0 else clampI (-one) one (Config.sweep c.freq c.freq2 c.durMs (fsNow s) r.t)
  | _ => 0

/-- One frame of a generator: its value, and its state after. -/
def stepGen (s : State) (g : Nat) : Int × Gen :=
  let c := tget ({} : GenCfg) s.cfg.mix.gens g
  let r0 := tget ({} : Gen) s.mix.gens g
  if !r0.running then (0, r0)
  else
    let r := { r0 with k := min r0.m (r0.k + 1)
                       t := if r0.kind == 4 && c.rpt && decide (c.durMs * fsNow s / 1000 ≤ r0.t) then 0 else r0.t }
    let v := satS 32 (convRound (genUnit s c r * (genAmp r c.level : Int)) 96)
    if r.stopping && decide (r.m ≤ r.k) then (0, {})
    else (v, { r with t := r.t + 1, phase := (r.phase + c.freq) % (1000 * fsNow s) })

/-- The generators' sources. -/
def genSource (a : State × Tab Int) (g : Nat) : State × Tab Int :=
  let (v, r) := stepGen a.1 g
  ({ a.1 with mix := { a.1.mix with gens := tset {} a.1.mix.gens g r } }, tset 0 a.2 (mkHandle 6 g).toNat v)

/-! ### All sources -/

/-- Values of a class of sources, by index. -/
def classSource (c n : Nat) (f : Handle → Int) (t : Tab Int) : Tab Int :=
  (List.range n).foldl (fun t i => tset 0 t (mkHandle c i).toNat (f (mkHandle c i))) t

/-- Every source is captured (R31, R33 step 2). `coop` gives the COOPIN values handed over at this tick. A source that is
not carried reads exact zeros (R41). BUS sources keep the last pass's values. -/
def captureSources (i : TickIn) (s0 : State) : State :=
  let old := s0.mix.src
  let s1 := stepCores (presentStreams (presentPorts (stepSubst s0)))
  let (s2, vals) := pressAll i s1
  let bus := classSource 7 64 (fun h => tget 0 old h.toNat) []
  let a := (List.range 32).foldl (ainSource vals) (s2, bus)
  let b := (List.range 2).foldl (micSource vals) a
  let c := (List.range 4).foldl genSource b
  let s3 := c.1
  let t := classSource 9 2 (fun h => vals.getD (32 + hIndex h) 0) (classSource 8 256 (coopSource s3)
    (classSource 5 (classCount s3.clk.fs 5) (streamSource s3) (classSource 4 8 (portSource s3)
      (classSource 3 128 (portSource s3) c.2))))
  { s3 with mix := { s3.mix with
    src := t, srcPrev := classSource 7 64 (fun h => tget 0 s0.mix.srcPrev h.toNat) old } }

end Sys2Proof.Machine
end

