-- ==== Sys2Proof/Machine/Blend.lean ====
section
/-! DEFINITION. The Blend pass of a frame (R33, R361 to R365): mutes and corking (R372 to R375), coefficients, accumulation,
racks and dips (R351, R353, R356), the drain, and the meters (R381). -/

namespace Sys2Proof.Machine

/-! ### Mutes (R372) -/

/-- Why an object is muted: corked, muted by the ramp at once, and muted by a fault action whose end is a ramp too. -/
structure MuteWhy where
  cork : Bool
  ramp : Bool := false
  back : Bool := false
  deriving DecidableEq, Repr

/-- An active GPIO mute input lists the object (R375). -/
def gpioMutes (s : State) (h : Handle) : Bool :=
  s.cfg.mix.gpio.any (fun e => e.2.func == 1 && gpioIsIn s e.1 && s.pads.gpioIn.getLsbD e.1 == e.2.activeHigh
    && e.2.handles.contains h)

/-- A receiving port keeps its sources corked: it is stopped, has not presented yet, or stops (R411, R412). -/
def portCork (s : State) (k : Nat) : Bool :=
  let x := portRt s k
  x.state == .stopped || x.state == .stopping || !x.presented

/-- A source is corked: by its mute, a GPIO, a phantom switch or hold (R73, R232, R234), an absent microphone (R320), a
port that starts or stops. -/
def srcCork (s : State) (h : Handle) : Bool :=
  let i := hIndex h
  s.cfg.mix.srcMute.contains h || gpioMutes s h ||
    (match hClass h with
     | 1 => let x := phOf s i; x.stage != .idle || x.fold || (phHeld s i && (inCfg s i).phantom)
     | 2 => !micLive s i && moveDone (hsRt s i).micFade
     | 3 => portCork s (i / 32)
     | 4 => portCork s (4 + i / 2)
     | _ => false)

/-- A source is muted by the 32-frame ramp: a failed channel (R241, R242), foldback, phantom removed at once (R73). -/
def srcRamp (s : State) (h : Handle) : Bool :=
  hClass h == 1 && ((chanIn s (hIndex h)).muted || (phOf s (hIndex h)).fold || (phOf s (hIndex h)).fast)

/-- Why a source is muted. A failed channel comes back by the ramp; after foldback and after phantom removed at once the source
is uncorked (R232, R234). -/
def srcWhy (s : State) (h : Handle) : MuteWhy :=
  ⟨srcCork s h, srcRamp s h, hClass h == 1 && (chanIn s (hIndex h)).muted⟩

/-- A transmitting port keeps its sinks corked (R411, R412). -/
def portSinkCork (s : State) (k : Nat) : Bool :=
  let x := portRt s k
  x.state == .stopped || x.state == .stopping || (x.state == .starting && x.frames == 0)

/-- A sink is corked: by its mute, a GPIO, its port or stream (R411, R441), a headphone side that is not driven (R299), an
output at its clamp or not yet open after it (R289). -/
def sinkCork (s : State) (h : Handle) : Bool :=
  let i := hIndex h
  let closed := outEnabled s h && ((outRt s h).clamped || (muteW s (.sink h) == 0 &&
    decide ((tget ({} : SinkRt) s.mix.sinks h.toNat).gate < 32)))
  s.cfg.mix.sinkMute.contains h || gpioMutes s h ||
    (match hClass h with
     | 0x81 => closed
     | 0x83 => closed || !hsDriven s (i / 2) (i % 2 == 1)
     | 0x85 => portSinkCork s (i / 32)
     | 0x86 => portSinkCork s (8 + i / 2)
     | 0x87 => !txCarries s i
     | _ => false)

/-- A speaker's sink is corked until its load check passes, and then fades in by the mute ramp (R305). -/
def sinkRamp (s : State) (h : Handle) : Bool :=
  let r := spkRt s (hIndex h)
  hClass h == 0x84 && outEnabled s h && ((outRt s h).clamped || r.checking || r.loadClamp || (muteW s (.sink h) == 0 &&
    decide ((tget ({} : SinkRt) s.mix.sinks h.toNat).gate < 32)))

/-- A mute takes up what is wanted at SYSCNT `now`: a change waits for a crossing, or ramps where a fault action asks for it or
one whose return is a ramp has ended (R372); a change during a ramp reverses it. -/
def wantMute (now : Nat) (y : MuteWhy) (m : MuteSt) : MuteSt :=
  let want := y.cork || y.ramp
  let goal := if want then 0 else 32
  let back := y.back || (m.byRamp && (!want || m.stage == .ramping))
  if m.stage = .ramping then { m with muted := want, byRamp := back }
  else if m.w = goal then { m with muted := want, stage := .steady, byRamp := y.back || (m.byRamp && y.cork) }
  else if (if want then y.ramp else back) then { m with muted := want, byRamp := back, stage := .ramping }
  else { m with muted := want, byRamp := back, stage := .waiting, since := if m.stage = .waiting then m.since else now }

/-- One frame of a mute: a corked change at a crossing, a ramp by one step, which a wait that has run out begins. -/
def moveMute (waited : Nat → Bool) (cross : Bool) (m : MuteSt) : MuteSt :=
  let goal := if m.muted then 0 else 32
  let late := m.stage == .waiting && !cross && waited m.since
  let stage := if late then .ramping else m.stage
  let w := match stage with
    | .waiting => if cross then goal else m.w
    | .ramping => if m.muted then m.w - 1 else min 32 (m.w + 1)
    | .steady => m.w
  if w = goal then { m with w := w, stage := .steady, byRamp := m.byRamp && m.muted, late := late }
  else { m with w := w, stage := stage, late := late }

/-- One frame of a mute. -/
def stepMute (s : State) (y : MuteWhy) (cross : Bool) (m : MuteSt) : MuteSt :=
  moveMute (corkOver s) cross (wantMute s.sysCnt y m)

/-- A mute that stands where its reasons put it. -/
def settledMute (y : MuteWhy) : MuteSt :=
  { muted := y.cork || y.ramp, w := if y.cork || y.ramp then 0 else 32, byRamp := y.back }

/-- The mute of an object, if it has one. -/
def findMute (s : State) (o : GainObj) : Option MuteSt := (s.mix.mutes.find? (fun m => m.1 == o)).map Prod.snd

/-- Programs whose banks run: that in force, and in a rack the old one. -/
def runningProgs (s : State) : List ProgSink := s.gr.prog.prog ++ (if s.gr.rack = .rack then s.gr.oldProg.prog else [])

/-- Sources whose mutes are kept: inputs, microphones, and every routed source. -/
def mutedSources (s : State) : List Handle :=
  ((List.range 32).map (mkHandle 1) ++ (List.range 2).map (mkHandle 2)
    ++ (runningProgs s).flatMap (fun x => x.edges.map (·.src))).eraseDups

/-- The watched value of a source crosses zero. -/
def srcCross (s : State) (h : Handle) : Bool := crossing (tget 0 s.mix.src h.toNat) (tget 0 s.mix.srcPrev h.toNat)

/-- One frame of a source's mute. -/
def sourceMute (s : State) (h : Handle) : GainObj × MuteSt :=
  let y := srcWhy s h
  (.source h, match findMute s (.source h) with
    | some m => stepMute s y (srcCross s h) m
    | none => settledMute y)

/-- One frame of the crosspoints' mutes; one that stands open is dropped. -/
def xpointMutes (s : State) : List (GainObj × MuteSt) :=
  let live := s.mix.mutes.filterMap (fun m => match m.1 with | .xpoint a b => some (⟨a, b⟩ : XPoint) | _ => none)
  ((s.cfg.mix.xMute ++ live).eraseDups.map (fun x =>
    let m := (findMute s (.xpoint x.src x.sink)).getD {}
    (GainObj.xpoint x.src x.sink, stepMute s ⟨s.cfg.mix.xMute.contains x, false, false⟩ (srcCross s x.src) m))).filter
      (fun e => e.2.w != 32 || e.2.stage != .steady)

/-- Source and crosspoint mutes move by a frame; sinks' mutes move at their drain. -/
def stepMutes (s : State) : State :=
  let sinks := s.mix.mutes.filter (fun m => match m.1 with | .sink _ => true | _ => false)
  { s with mix := { s.mix with mutes := (mutedSources s).map (sourceMute s) ++ xpointMutes s ++ sinks } }

/-- CORK_TIMEOUT (R372 step 3, R378, R392): no crossing has come within CORK_TIMEOUT_US; the change is made by ramp from the
next tick on. A tick that finds the time over does the same. -/
def execCorkTimeout (dt : Nat) (o : GainObj) (s0 : State) : R :=
  let s := advance dt s0
  let invWaits (x : InvSt) : Bool := x.waiting && corkOver s x.since
  let inv (x : InvSt) : InvSt := if invWaits x then { x with waiting := false, ramping := true } else x
  let waits (m : MuteSt) : Bool := m.stage == .waiting && corkOver s m.since
  let late := s.mix.mutes.any (fun m => m.1 == o && waits m.2)
  let mutes := s.mix.mutes.map (fun m => if m.1 == o && waits m.2 then (m.1, { m.2 with stage := .ramping }) else m)
  match o with
  | .source h =>
    let k := hIndex h
    let x := tget ({} : InvSt) s.mix.srcInv k
    let due := hClass h == 1 && invWaits x
    .next { s with mix := { s.mix with
      mutes := mutes, srcInv := if due then tset {} s.mix.srcInv k (inv x) else s.mix.srcInv
      corkTimeouts := s.mix.corkTimeouts + bit late + bit due } }
  | .sink h =>
    let x := tget ({} : SinkRt) s.mix.sinks h.toNat
    let due := invWaits x.inv
    .next { s with mix := { s.mix with
      mutes := mutes, sinks := if due then tset {} s.mix.sinks h.toNat { x with inv := inv x.inv } else s.mix.sinks
      corkTimeouts := s.mix.corkTimeouts + bit late + bit due } }
  | .xpoint _ _ => .next { s with mix := { s.mix with mutes := mutes, corkTimeouts := s.mix.corkTimeouts + bit late } }

/-- A handle belongs to a port. -/
def portHandle (k : Nat) (h : Handle) : Bool :=
  let i := hIndex h
  match hClass h with
  | 3 | 0x85 => k == i / 32
  | 4 => k == 4 + i / 2
  | 0x86 => k == 8 + i / 2
  | _ => false

/-- Every channel of a port is silent through its mutes (R412, step 2). -/
def portSilent (s : State) (k : Nat) : Bool :=
  s.mix.mutes.all (fun e => match e.1 with
    | .source h | .sink h => !portHandle k h || e.2.w == 0
    | .xpoint _ _ => true)

/-- The ports that stop take note of the tick at which they are silent (R412). -/
def stepPortStops (s : State) : State :=
  (List.range 12).foldl (fun a k =>
    let x := portRt a k
    if x.state = .stopping && x.silentAt.isNone && portSilent a k then setPort k { x with silentAt := some a.sysCnt } a else a) s

/-! ### Coefficients and accumulation (R362, R365) -/

/-- Weight of a source's settling fade, units of 1/64 (R266): a substituted channel's routes follow the channel's own chain, with
which the Taster's is cleared (R252, R272). -/
def fadeWeight (s : State) (h : Handle) : Nat :=
  let go (c : Nat) : Nat := let x := chainOf s false c; if x.gateOpen then 64 else x.w
  match hClass h with
  | 1 => go (hIndex h)
  | 2 => go (34 + hIndex h)
  | _ => 64

/-- The coefficient of an edge, Q5.27: `amp` is its crosspoint's amplitude and mute weight, units of 2^-101. -/
def coefOf (s : State) (amp : Nat) (e : Edge) : Int :=
  let n := amp * gainLin s (.source e.src) * muteW s (.source e.src) * fadeWeight s e.src
  let c := satS 32 (convRound (n : Int) 181)
  if e.invert then -c else c

/-- Amplitude and mute weight of a crosspoint whose gain is in force. -/
def liveAmp (s : State) (e : Edge) : Nat := gainLin s (.xpoint e.src e.sink) * muteW s (.xpoint e.src e.sink)

/-- The same in the old bank of a rack (R356). -/
def oldAmp (s : State) (e : Edge) : Nat :=
  let f := tget 0 s.gr.frozen (edgeKey e)
  if f = 0 then liveAmp s e else (f - 1) * 32

/-- What a bank finds in a pass: accumulators (units of 2^-63), bus values, values handed on, values before the sinks' own
mutes, the sinks' mutes, and saturations by sink, stage and number. -/
structure PassOut where
  acc : Tab Int := []
  bus : Tab Int := []
  out : Tab Int := []
  drain : Tab Int := []
  mutes : List (GainObj × MuteSt) := []
  sats : List (Handle × Nat × Nat) := []
  deriving DecidableEq, Repr

/-- One product added to an accumulator, which saturates at 80 bits. -/
def accTerm (v c : Int) (a : Int × Nat) : Int × Nat :=
  let x := a.1 + v * c * 32
  let y := satS 80 x
  (y, if y = x then a.2 else a.2 + 1)

/-- The accumulator of a sink: its products in source order, and how many additions saturated. -/
def accEdges (s : State) (bus : Tab Int) (amp : Edge → Nat) (es : List Edge) : Int × Nat :=
  es.foldl (fun a e =>
    accTerm (if hClass e.src = 7 then tget 0 bus (hIndex e.src) else tget 0 s.mix.src e.src.toNat) (coefOf s (amp e) e) a)
    (0, 0)

/-- Width of a sink's value, and its stage in BLEND_SATURATED (R363, R391). -/
def drainWidth (h : Handle) : Nat := if hClass h = 0x88 then 44 else if hClass h = 0x89 then 32 else 40
def drainStage (h : Handle) : Nat := if hClass h = 0x88 then 2 else if hClass h = 0x89 then 4 else 3

/-- Sink gain, unsigned Q1.31. -/
def sinkGainQ (s : State) (h : Handle) : Int :=
  if hasStage h then convRound (gainLin s (.sink h) : Int) 65 else 2147483648

/-- An accumulator, a rational `num / den`, is drained: gain, the sink's own mute, convergent rounding, saturation. -/
def drainSink (s : State) (h : Handle) (num : Int) (den : Nat) (p : PassOut) : PassOut :=
  let g := sinkGainQ s h
  let pre := ratRound (num * g) (den * 2 ^ 63)
  let seen := satS (drainWidth h) pre
  let y : MuteWhy := ⟨sinkCork s h, sinkRamp s h, sinkRamp s h⟩
  let m := match findMute s (.sink h) with
    | some m => stepMute s y (crossing seen (tget 0 s.mix.drain h.toNat)) m
    | none => settledMute y
  let v := ratRound (num * g * (m.w : Int)) (den * 2 ^ 68)
  let z := satS (drainWidth h) v
  { p with
    out := tset 0 p.out h.toNat z, drain := tset 0 p.drain h.toNat seen, mutes := p.mutes ++ [(.sink h, m)]
    sats := if z = v then p.sats else p.sats ++ [(h, drainStage h, 1)] }

/-- The mute weight of a sink in this pass. -/
def passMuteW (p : PassOut) (h : Handle) : Nat := match p.mutes.find? (fun m => m.1 == .sink h) with
  | some m => m.2.w
  | none => 32

/-- One sink of the bank in force: accumulated, and a BUSIN drained at once. -/
def bankSink (s : State) (p : PassOut) (x : ProgSink) : PassOut :=
  let (v, n) := accEdges s p.bus (liveAmp s) x.edges
  let p1 := { p with
    acc := tset 0 p.acc x.sink.toNat v, sats := if n = 0 then p.sats else p.sats ++ [(x.sink, 1, n)] }
  match busOfSink x.sink with
  | some b =>
    let p2 := drainSink s x.sink v 1 p1
    { p2 with bus := tset 0 p2.bus b (tget 0 p2.out x.sink.toNat) }
  | none => p1

/-- One sink of the old bank in a rack: only changed sinks, and the BUSINs that lead to them. `now` is the bank in force. -/
def oldBankSink (s : State) (now : PassOut) (p : PassOut) (x : ProgSink) : PassOut :=
  match busOfSink x.sink with
  | some b =>
    let (v, n) := accEdges s p.bus (oldAmp s) x.edges
    let u := ratRound (v * (passMuteW now x.sink : Int)) (2 ^ 37)
    let y := satS 44 u
    let changed := y != tget 0 now.bus b
    { p with
      bus := tset 0 p.bus b y
      sats := p.sats ++ (if changed && n != 0 then [(x.sink, 1, n)] else []) ++ (if changed && y != u then [(x.sink, 2, 1)] else []) }
  | none =>
    if s.gr.changed.contains x.sink then
      let (v, n) := accEdges s p.bus (oldAmp s) x.edges
      { p with acc := tset 0 p.acc x.sink.toNat v, sats := if n = 0 then p.sats else p.sats ++ [(x.sink, 1, n)] }
    else p

/-- What a changed sink takes of the old and the new accumulator (R351, R353), as a rational. -/
def rackMix (g : Graph) (h : Handle) (old new : Int) : Int × Nat :=
  let n := g.rackN
  let half := n / 2
  if !g.changed.contains h then (new, 1)
  else match g.rack with
    | .idle => (new, 1)
    | .rack =>
      let k := min g.rackK (n - 1)
      (old * ((n - 1 - k : Nat) : Int) + new * ((k + 1 : Nat) : Int), n)
    | .dip =>
      if g.switched then (new * ((min (g.rackK - half) (n - half - 1) + 1 : Nat) : Int), n - half)
      else (new * ((half - 1 - min g.rackK (half - 1) : Nat) : Int), half)

/-- Records saturations: each one a detection (R362, R391, R392). -/
def noteSat (s : State) (x : Handle × Nat × Nat) : State :=
  let d := BitVec.ofNat 32 x.2.1
  let m := if hasStage x.1 || 0x88 ≤ hClass x.1 then tget ({} : Meter) s.mix.sinkMeters x.1.toNat else {}
  let s1 := iter (raise .blendSaturated x.1 0 d) x.2.2 s
  { s1 with mix := { s1.mix with
    satCount := s1.mix.satCount + x.2.2, satLast := BitVec.ofNat 32 (x.1.toNat + 65536 * x.2.1)
    sinkMeters := tset {} s1.mix.sinkMeters x.1.toNat { m with saturated := true } } }

/-- Rows a frame executes. -/
def frameRows (g : Graph) : Nat := if g.rack = .rack then g.rackRows else g.prog.rows

/-- Cycles a frame leaves idle (R33). -/
def idleCycles (fs : Fin 3) (rows : Nat) : Nat := 200000000 / fsHz fs - 40 - rows

/-! ### Meters (R381) -/

/-- Adds a value to runs of equal values, newest first, and keeps `n` frames. -/
def pushRun {α : Type} [BEq α] (n : Nat) (v : α) (l : List (α × Nat)) : List (α × Nat) :=
  let l1 := match l with
    | (x, k) :: t => if x == v then (v, k + 1) :: t else (v, 1) :: (x, k) :: t
    | [] => [(v, 1)]
  let rec cut : Nat → List (α × Nat) → List (α × Nat)
    | _, [] => []
    | m, (x, k) :: t => if m ≤ k then (if m = 0 then [] else [(x, m)]) else (x, k) :: cut (m - k) t
  cut n l1

/-- Frames of the 300 ms window. -/
def meterFrames (fs : Fin 3) : Nat := ceilDiv (3 * fsHz fs) 10

/-- A meter takes a value. One that has only seen zeros stays as it is at reset. -/
def meterIn (fs : Fin 3) (h : Handle) (frame stamp : Nat) (v : Int) (m : Meter) : Meter :=
  let a := v.natAbs
  if a = 0 ∧ m.win.all (fun e => e.1 == 0) ∧ m.peak = 0 ∧ m.tpeak = 0 then { m with win := [] }
  else
    let t := max a (Config.truePeak h.toNat frame)
    { m with
      peak := max m.peak a, stamp := if m.peak < a then stamp else m.stamp, tpeak := max m.tpeak t
      win := pushRun (meterFrames fs) a m.win }

/-- Meters every value of a table of sinks or sources; entries that have run on zeros keep running. -/
def meterAll (s : State) (vals : Tab Int) (use : Handle → Bool) (t : Tab Meter) : Tab Meter :=
  let keys := (vals.map Prod.fst ++ t.map Prod.fst).eraseDups
  keys.foldl (fun a k =>
    let h : Handle := BitVec.ofNat 16 k
    if use h then tset {} a k (meterIn s.clk.fs h s.clk.frame s.clk.stamp (tget 0 vals k) (tget {} a k)) else a) t

/-- Corked changes whose wait ran out in this frame (R392). -/
def lateCorks (m : Mix) : Nat :=
  (m.mutes.filter (fun e => e.2.late)).length + (m.srcInv.filter (fun e => e.2.late)).length
    + (m.sinks.filter (fun e => e.2.inv.late)).length

/-- The value a source is metered at: what Blend reads (R381), of a substituted channel the Taster's from the start of the
crossfade on (R244). -/
def meteredSources (s : State) (src : Tab Int) : Tab Int :=
  (List.range 32).foldl (fun t c => match substOf s c with
    | none => t
    | some k => tset 0 t (ainHandle c).toNat
        (satS 32 (invMix (tget {} s.mix.srcInv c) (tget 0 s.mix.src (mkHandle 9 k.val).toNat)))) src

/-! ### The pass -/

/-- Sinks that are drained in the frame, in program order, with those a rack removes. -/
def drainedSinks (s : State) : List Handle := ((runningProgs s).map (·.sink)).eraseDups

/-- Steps 3 and 4 of a frame (R33): the program's rows, then the drain. -/
def blendPass (s0 : State) : State :=
  let s := stepMutes s0
  let g := s.gr
  let now := g.prog.prog.foldl (bankSink s) {}
  let old := if g.rack = .rack then g.oldProg.prog.foldl (oldBankSink s now) {} else {}
  let p := (drainedSinks s).foldl (fun p h =>
    if (busOfSink h).isSome then p
    else
      let (num, den) := rackMix g h (tget 0 old.acc h.toNat) (tget 0 now.acc h.toNat)
      drainSink s h num den p) now
  let rows := frameRows g
  let idle := idleCycles s.clk.fs rows
  let bus := (List.range 64).foldl (fun t b => tset 0 t (mkHandle 7 b).toNat (tget 0 p.bus b)) s.mix.src
  let others := s.mix.mutes.filter (fun m => match m.1 with | .sink _ => false | _ => true)
  let s1 : State := { s with
    gr := { g with
      rowsLast := rows, minIdle := some (match g.minIdle with | some n => min n idle | none => idle)
      rackK := if g.rack = .idle then g.rackK else g.rackK + 1 }
    mix := { s.mix with
      src := bus, srcPrev := classSource 7 64 (fun h => tget 0 s.mix.src h.toNat) s.mix.srcPrev
      sinkBuf := p.out, drain := p.drain, mutes := others ++ p.mutes } }
  let s2 := (p.sats ++ old.sats).foldl noteSat s1
  { s2 with mix := { s2.mix with
    corkTimeouts := s2.mix.corkTimeouts + lateCorks s2.mix
    srcMeters := meterAll s2 (meteredSources s bus) (fun _ => true) s2.mix.srcMeters
    sinkMeters := meterAll s2 p.out (fun h => hClass h == 0x88 || hClass h == 0x89) s2.mix.sinkMeters } }

end Sys2Proof.Machine
end

