-- ==== Sys2Proof/Machine/CoopIsa.lean ====
section
/-! DEFINITION. What each Cooper instruction computes (chapter 15). -/

namespace Sys2Proof.Machine

/-! ### Parallel moves (R481, R484) -/

/-- A load of a parallel move; the address comes from the registers before the instruction. -/
def loadAt (k : Nat) (c : Core) (p : Nat) : Option Word := coreLoad k (c.blocks * 65536 + c.cycles) c (regP c.regs p).toNat

/-- Two loads in one bank take one more cycle (R489). -/
def bankClash (g : CoopRegs) (pa pb : Nat) : Nat := bit (bankX (regP g pa).toNat == bankX (regP g pb).toNat)

/-- The value a store takes: Dn, or An narrowed; with SR after it. -/
def stValue (g : CoopRegs) (sr : BitVec 13) : StSrc → Word × BitVec 13
  | .data n => (regD g n, sr)
  | .acc a =>
    let (v, r) := narrowAcc g.sr (regA g a)
    (v, srStick sr bitSov (srBit r bitSov))

/-- The two loads of LDD: the registers written over `g1`, and the cycles taken. Every operand comes from `c`. -/
def lddMove (k : Nat) (c : Core) (f : LddFields) (g1 : CoopRegs) : Option (CoopRegs × Nat) :=
  match loadAt k c f.pa, loadAt k c f.pb with
  | some x, some y =>
    let g2 := putD f.db y (putD f.da x g1)
    some (putP f.pb (postMod c.regs f.pb f.mb) (putP f.pa (postMod c.regs f.pa f.ma) g2), 1 + bankClash c.regs f.pa f.pb)
  | _, _ => none

/-- A multiply's parallel move after its accumulators are computed into `g1`: the core after it. -/
def doMove (k : Nat) (c : Core) (g1 : CoopRegs) : Sys2Proof.Move → CoopRes
  | .none => seqRegs g1 c
  | .ldd f =>
    match lddMove k c f g1 with
    | some (g2, n) => seqOn n { c with regs := g2 }
    | none => .trap 2 c
  | .ld dd pa ma =>
    match loadAt k c pa with
    | some x => seqRegs (putP pa (postMod c.regs pa ma) (putD dd x g1)) c
    | none => .trap 2 c
  | .st src p m =>
    let (v, sr) := stValue c.regs g1.sr src
    match coreStore c (regP c.regs p).toNat v with
    | .ok c1 => seqRegs (putP p (postMod c.regs p m) { g1 with sr := sr }) c1
    | .error r => .trap r c

/-! ### Multiply (R490, R491) -/

/-- Writes one accumulator of a multiply; `op` gives the exact result from the old value and the product. -/
def mulOne (op : Int → Int → Int) (a : Fin 4) (x y : Word) (g0 g : CoopRegs) : CoopRegs :=
  let (v, sr) := accResult g.sr a (op (regA g0 a).toInt (x.toInt * y.toInt))
  { putA a v g with sr := sr }

/-- MAC, MSU and MPY. With DUAL the same is done on A(a XOR 1) with D(y XOR 1). -/
def mulBody (k : Nat) (op : Int → Int → Int) (f : MulFields) (c : Core) : CoopRes :=
  let g := c.regs
  let g1 := mulOne op f.a (regD g f.x) (regD g f.y) g g
  let g2 := if f.dual then
      mulOne op (Fin.ofNat 4 (f.a.val ^^^ 1)) (regD g f.x) (regD g (f.y.val ^^^ 1)) g g1
    else g1
  doMove k c g2 f.mv

/-- MAC: the product is added to Aa. -/
def execMac (core : Fin 4) (f : MulFields) (s : State) : R := coopExec core (.mac f) (mulBody core (· + ·) f) s

/-- MSU: the product is subtracted from Aa. -/
def execMsu (core : Fin 4) (f : MulFields) (s : State) : R := coopExec core (.msu f) (mulBody core (· - ·) f) s

/-- MPY: the product is written to Aa. -/
def execMpy (core : Fin 4) (f : MulFields) (s : State) : R := coopExec core (.mpy f) (mulBody core (fun _ p => p) f) s

/-! ### ADD, SUB, CMP (R485, R493) -/

/-- Source B of ADD, SUB and CMP: a register, or an immediate sign-extended. -/
def bSigned (g : CoopRegs) : AluB → Word
  | .reg n => regD g n
  | .imm v => v.signExtend 32

/-- Source B of a logic operation: a register, or an immediate zero-extended. -/
def bZero (g : CoopRegs) : AluB → Word
  | .reg n => regD g n
  | .imm v => v.setWidth 32

/-- A data ADD or SUB: the exact signed result, and the carry. -/
def addData (d : Nat) (x : Int) (carry : Bool) (c : Core) : CoopRes :=
  let g := c.regs
  let (v, r) := dataResult g.sr x
  seqRegs (resD d (BitVec.ofInt 32 v) (srZNVC r v (over32 x) carry) g) c

/-- An accumulator ADD or SUB. -/
def addAcc (d : Fin 4) (x : Int) (c : Core) : CoopRes :=
  let g := c.regs
  let (v, r) := accResult g.sr d x
  seqRegs { putA d v g with sr := srZN r v.toInt } c

/-- ADD. -/
def execAdd (core : Fin 4) (f : AddForm) (s : State) : R :=
  coopExec core (.add f) (fun c =>
    let g := c.regs
    match f with
    | .data d a b =>
      let x := regD g a
      let y := bSigned g b
      addData d (x.toInt + y.toInt) (decide (4294967296 ≤ x.toNat + y.toNat)) c
    | .acc d a b => addAcc d ((regA g a).toInt + (regA g b).toInt) c) s

/-- SUB. C is the inverted borrow. -/
def execSub (core : Fin 4) (f : AddForm) (s : State) : R :=
  coopExec core (.sub f) (fun c =>
    let g := c.regs
    match f with
    | .data d a b =>
      let x := regD g a
      let y := bSigned g b
      addData d (x.toInt - y.toInt) (decide (y.toNat ≤ x.toNat)) c
    | .acc d a b => addAcc d ((regA g a).toInt - (regA g b).toInt) c) s

/-- CMP: the flags of the difference; on accumulators Z and N of the exact difference, V clear. -/
def execCmp (core : Fin 4) (f : CmpForm) (s : State) : R :=
  coopExec core (.cmp f) (fun c =>
    let g := c.regs
    match f with
    | .data a b =>
      let x := regD g a
      let y := bSigned g b
      let d := x.toInt - y.toInt
      seqRegs { g with sr := srZNVC g.sr (x - y).toInt (over32 d) (decide (y.toNat ≤ x.toNat)) } c
    | .acc a b =>
      let x := regA g a
      let y := regA g b
      seqRegs { g with sr := srZNVC g.sr (x.toInt - y.toInt) false (decide (y.toNat ≤ x.toNat)) } c) s

/-! ### Logic (R485) -/

/-- A logic operation: Z and N of the result, V and C cleared. -/
def logicBody (op : Word → Word → Word) (f : LogicForm) (c : Core) : CoopRes :=
  let g := c.regs
  let v := op (regD g f.a) (bZero g f.b)
  seqRegs (resD f.d v (srZNVC g.sr v.toInt false false) g) c

/-- AND. -/
def execAnd (core : Fin 4) (f : LogicForm) (s : State) : R := coopExec core (.and f) (logicBody (· &&& ·) f) s

/-- OR. -/
def execOr (core : Fin 4) (f : LogicForm) (s : State) : R := coopExec core (.or f) (logicBody (· ||| ·) f) s

/-- XOR. -/
def execXor (core : Fin 4) (f : LogicForm) (s : State) : R := coopExec core (.xor f) (logicBody (· ^^^ ·) f) s

/-! ### Shifts (R485, R494) -/

/-- A shift count. -/
def shCount (g : CoopRegs) : ShCount → Nat
  | .reg n => (regD g n).toNat % 128
  | .imm v => v

/-- C of a shift: the last bit out, and after a shift by 0, where none has left, a free value. -/
def carryOut (draw : Nat) (n : Nat) (b : Bool) : Bool := if n = 0 then Config.shiftC draw else b

/-- The index of a free value that an instruction of a core draws. -/
def coreDraw (c : Core) : Nat := c.blocks * 65536 + c.cycles

/-- Bit of a `w`-bit value at an integer position; a left shift beyond the width passes zeros. -/
def bitLeft (w : Nat) (x n : Nat) : Bool := decide (n ≤ w) && x.testBit (w - n)

/-- Last bit out of an arithmetic right shift: the sign beyond the width. -/
def bitRight (w : Nat) (x n : Nat) : Bool := x.testBit (min (n - 1) (w - 1))

/-- SHL. -/
def execShl (core : Fin 4) (f : ShiftForm) (s : State) : R :=
  coopExec core (.shl f) (fun c =>
    let g := c.regs
    match f with
    | .data d a k =>
      let n := shCount g k
      let x := regD g a
      let e := x.toInt * (2 ^ n : Nat)
      let (v, r) := dataResult g.sr e
      seqRegs (resD d (BitVec.ofInt 32 v)
        (srZNVC r v (over32 e) (carryOut (coreDraw c) n (bitLeft 32 x.toNat n))) g) c
    | .acc d a k =>
      let n := shCount g k
      let x := regA g a
      let (v, r) := accResult g.sr d (x.toInt * (2 ^ n : Nat))
      seqRegs { putA d v g with
        sr := srPut (srZN r v.toInt) bitC (carryOut (coreDraw c) n (bitLeft 72 x.toNat n)) } c) s

/-- ASR. -/
def execAsr (core : Fin 4) (f : ShiftForm) (s : State) : R :=
  coopExec core (.asr f) (fun c =>
    let g := c.regs
    match f with
    | .data d a k =>
      let n := shCount g k
      let x := regD g a
      let v := x.toInt / (2 ^ n : Nat)
      seqRegs (resD d (BitVec.ofInt 32 v)
        (srZNVC g.sr v false (carryOut (coreDraw c) n (bitRight 32 x.toNat n))) g) c
    | .acc d a k =>
      let n := shCount g k
      let x := regA g a
      let v := x.toInt / (2 ^ n : Nat)
      seqRegs { putA d (BitVec.ofInt 72 v) g with
        sr := srZNVC g.sr v false (carryOut (coreDraw c) n (bitRight 72 x.toNat n)) } c) s

/-! ### NORM, RND, SAT (R492, R494) -/

/-- Bits from position `k` − 1 down to 0 that equal `b` before the first that differs. -/
def signRun (x : Nat) (b : Bool) : Nat → Nat
  | 0 => 0
  | k + 1 => if x.testBit k == b then 1 + signRun x b k else 0

/-- NORM of a data register. -/
def normD (x : Word) : Nat := signRun x.toNat x.msb 31

/-- NORM of an accumulator. -/
def normA (x : BitVec 72) : Int := (signRun x.toNat x.msb 71 : Int) - 9

/-- NORM. -/
def execNorm (core : Fin 4) (f : NormForm) (s : State) : R :=
  coopExec core (.norm f) (fun c =>
    let g := c.regs
    match f with
    | .data d a =>
      let v : Int := normD (regD g a)
      seqRegs (resD d (BitVec.ofInt 32 v) (srZN g.sr v) g) c
    | .acc d a =>
      let v := normA (regA g a)
      seqRegs (resD d (BitVec.ofInt 32 v) (srZN g.sr v) g) c) s

/-- RND. -/
def execRnd (core : Fin 4) (f : RndForm) (s : State) : R :=
  coopExec core (.rnd f) (fun c =>
    let g := c.regs
    match f with
    | .narrow d a =>
      let (v, r) := narrowAcc g.sr (regA g a)
      seqRegs (resD d v (srZN r v.toInt) g) c
    | .data d a w =>
      let n := 32 - w.val
      let (v, r) := narrowTo g.sr w (roundDrop g.sr (regD g a).toInt n)
      let y := v * (2 ^ n : Nat)
      seqRegs (resD d (BitVec.ofInt 32 y) (srZN r y) g) c) s

/-- SAT. -/
def execSat (core : Fin 4) (f : SatForm) (s : State) : R :=
  coopExec core (.sat f) (fun c =>
    let g := c.regs
    match f with
    | .acc d a =>
      let x := (regA g a).toInt
      let v := clampI (-4611686018427387904) (4611686018427387904 - 2147483648) x
      seqRegs { putA d (BitVec.ofInt 72 v) g with sr := srStick g.sr bitSov (v != x) } c
    | .data d a w =>
      let x := (regD g a).toInt
      let n := 32 - w.val
      let v := clampI (-2147483648) (((2 ^ (w.val - 1) : Nat) - 1) * (2 ^ n : Nat)) x
      seqRegs (resD d (BitVec.ofInt 32 v) (srStick g.sr bitSov (v != x)) g) c) s

/-! ### LD, LDD, ST (R486 to R489) -/

/-- SR as it reads: RDEPTH in bits [18:16]. -/
def srWord (c : Core) : Word := BitVec.ofNat 32 (c.regs.sr.toNat + 65536 * c.reps.length)

/-- A register by its code (R487). -/
def readCode (c : Core) (r : Nat) : Word :=
  let g := c.regs
  if r < 16 then regD g r
  else if r < 24 then regP g (r - 16)
  else if r < 32 then regN g (r - 24)
  else if r < 40 then regM g (r - 32)
  else if r = 40 then BitVec.ofNat 32 g.be.toNat
  else if r = 41 then srWord c
  else if r = 42 then BitVec.ofNat 32 g.tb.toNat
  else BitVec.ofNat 32 (g.tb.toNat / 4294967296)

/-- Writes a register by its code. -/
def writeCode (r : Nat) (v : Word) (g : CoopRegs) : CoopRegs :=
  if r < 16 then putD r v g
  else if r < 24 then putP (r - 16) v g
  else if r < 32 then putN (r - 24) v g
  else if r < 40 then putM (r - 32) v g
  else if r = 40 then { g with be := v.setWidth 5 }
  else if r = 41 then { g with sr := v.setWidth 13 }
  else if r = 42 then { g with tb := BitVec.ofNat 64 (g.tb.toNat / 4294967296 * 4294967296 + v.toNat) }
  else if r = 43 then { g with tb := BitVec.ofNat 64 (v.toNat * 4294967296 + g.tb.toNat % 4294967296) }
  else putA (r - 44) (BitVec.ofInt 72 (v.toInt * 2147483648)) g

/-- LD. -/
def execLd (core : Fin 4) (f : LdForm) (s : State) : R :=
  coopExec core (.ld f) (fun c =>
    let g := c.regs
    match f with
    | .mem dd p ad =>
      let (a, q) := effAddr g p ad
      match coreLoad core (coreDraw c) c a with
      | some x => seqRegs (putP p q (putD dd x g)) c
      | none => .trap 2 c
    | .immLow r v => seqRegs (writeCode r (v.signExtend 32) g) c
    | .immHigh r v =>
      seqRegs (writeCode r (BitVec.ofNat 32 (v.toNat * 65536 + (readCode c r).toNat % 65536)) g) c
    | .reg d q => seqRegs (writeCode d (readCode c q) g) c) s

/-- LDD. -/
def execLdd (core : Fin 4) (f : LddFields) (s : State) : R :=
  coopExec core (.ldd f) (fun c =>
    match lddMove core c f c.regs with
    | some (g, n) => seqOn n { c with regs := g }
    | none => .trap 2 c) s

/-- ST. -/
def execSt (core : Fin 4) (f : StForm) (s : State) : R :=
  coopExec core (.st f) (fun c =>
    let g := c.regs
    let (a, q) := effAddr g f.p f.ad
    let (v, sr) := stValue g g.sr f.src
    match coreStore c a v with
    | .ok c1 => seqRegs (putP f.p q { g with sr := sr }) c1
    | .error r => .trap r c) s

/-! ### Control (R495 to R498) -/

/-- Target of a branch or call. -/
def brTarget (g : CoopRegs) : BrTarget → Nat
  | .imm t => t.toNat
  | .reg n => (regD g n).toNat % 16384

/-- BR. -/
def execBr (core : Fin 4) (cc : Cond) (t : BrTarget) (s : State) : R :=
  coopExec core (.br cc t) (fun c =>
    if condHolds c.regs.sr cc then .go (jumpTo (brTarget c.regs t) { c with cycles := c.cycles + 2 }) else seqOn 1 c) s

/-- CALL: the index of the next instruction is pushed; a CALL leaves the repeat levels. -/
def execCall (core : Fin 4) (t : BrTarget) (s : State) : R :=
  coopExec core (.call t) (fun c =>
    if 16 ≤ c.rstack.length then .trap 7 c
    else .go { c with pc := brTarget c.regs t, rstack := (c.pc + 1) :: c.rstack, cycles := c.cycles + 2 }) s

/-- RET. -/
def execRet (core : Fin 4) (s : State) : R :=
  coopExec core .ret (fun c =>
    match c.rstack with
    | [] => .trap 7 c
    | t :: l => .go (jumpTo t { c with rstack := l, cycles := c.cycles + 2 })) s

/-- A repeat of `len` instructions, `count` times: a body must end within the enclosing one, at most 4 levels; a count of
0 skips the body. -/
def repBody (len count : Nat) (c : Core) : CoopRes :=
  let last := c.pc + len
  if c.reps.any (fun l => decide (l.last < last)) then .trap 1 c
  else if count = 0 then .go (afterInstr last { c with cycles := c.cycles + 2 })
  else if 4 ≤ c.reps.length then .trap 7 c
  else .go { c with pc := c.pc + 1, reps := ⟨c.pc + 1, last, count⟩ :: c.reps, cycles := c.cycles + 1 }

/-- REP with an immediate count. -/
def execRep (core : Fin 4) (len1 : Fin 1024) (count : BitVec 16) (s : State) : R :=
  coopExec core (.rep len1 count) (repBody (len1.val + 1) count.toNat) s

/-- REP with a register count, Dn[15:0]. -/
def execRepRegisterCount (core : Fin 4) (len1 : Fin 1024) (n : Fin 16) (s : State) : R :=
  coopExec core (.repReg len1 n) (fun c => repBody (len1.val + 1) ((regD c.regs n).toNat % 65536) c) s

/-- ENDREP: when its condition holds it discards the innermost level and continues after that level's body; with no level
the repeat stack underflows. -/
def execEndrep (core : Fin 4) (cc : Cond) (s : State) : R :=
  coopExec core (.endrep cc) (fun c =>
    if condHolds c.regs.sr cc then
      match c.reps with
      | [] => .trap 7 c
      | l :: t => .go (afterInstr l.last { c with reps := t, cycles := c.cycles + 2 })
    else seqOn 1 c) s

/-- WAIT: stalls while a channel of its mask is busy. -/
def execWait (core : Fin 4) (mask : BitVec 4) (s : State) : R :=
  coopExec core (.wait mask) (fun c =>
    if (bitsOf 4 mask.toNat).any (fun d => (c.dma.getD d {}).now.isSome) then .go { c with steps := c.steps + 1 }
    else seqOn 1 c) s

/-- BLKDONE (R464, R465, R498). -/
def execBlkdone (core : Fin 4) (s : State) : R :=
  let c := coreOf s core
  if !executing c || fetched c ≠ some .blkdone then .next s
  else if atBreak c then .next (debugHalt core s)
  else if c.reps.any (fun l => l.last == c.pc) then .next (coreTrap core 1 c.pc s)
  else .next (blockDone core s)

/-- HALT traps with reason 6. -/
def execHalt (core : Fin 4) (s : State) : R := coopExec core .halt (fun c => .trap 6 c) s

/-- ILLEGAL_INSTRUCTION: the fetched word is illegal (reason 1), or lies at or beyond PROG_WORDS (reason 4). -/
def execIllegalInstruction (core : Fin 4) (s : State) : R :=
  let c := coreOf s core
  if !executing c || (fetched c).isSome then .next s
  else if atBreak c then .next (debugHalt core s)
  else .next (coreTrap core (if c.image.progWords ≤ c.pc then 4 else 1) c.pc s)

/-! ### ACS and BEXP (R499, R500) -/

/-- One half of a word. -/
def half (w : Word) (hi : Bool) : Nat := if hi then w.toNat / 65536 else w.toNat % 65536

/-- The survivor of a pair and its decision bit: b is chosen when the 16-bit difference b − a is negative. -/
def survivor (a b : Nat) : Nat × Nat :=
  let x := a % 65536
  let y := b % 65536
  if 32768 ≤ (y + 65536 - x) % 65536 then (y, 1) else (x, 0)

/-- ACS. -/
def execAcs (core : Fin 4) (f : AcsForm) (s : State) : R :=
  coopExec core (.acs f) (fun c =>
    let g := c.regs
    let pa := half (regD g f.a) f.ha
    let pb := half (regD g f.b) f.hb
    let l0 := half (regD g f.l) f.sw
    let l1 := half (regD g f.l) (!f.sw)
    let (r0, d0) := survivor (pa + l0) (pb + l1)
    let (r1, d1) := survivor (pa + l1) (pb + l0)
    let tb := BitVec.ofNat 64 (g.tb.toNat * 4 + d0 * 2 + d1)
    seqRegs { putD f.d (BitVec.ofNat 32 (r1 * 65536 + r0)) g with tb := tb } c) s

/-- BE after a word. -/
def beMerge (w : Word) (c : Core) : Core := { c with regs := { c.regs with be := BitVec.ofNat 5 (min c.regs.be.toNat (normD w)) } }

/-- The cycles of a scan: the core after it, and whether a region check failed. -/
def bexpLoop (k : Nat) (f : BexpForm) : Nat → Core → Core × Bool
  | 0, c => (c, true)
  | n + 1, c =>
    match loadAt k c f.pa with
    | none => (c, false)
    | some x =>
      let c1 := beMerge x c
      match loadAt k c f.pb with
      | none => (c1, false)
      | some y =>
        let c2 := beMerge y c1
        let g := putP f.pb (postMod c.regs f.pb f.mb) (putP f.pa (postMod c.regs f.pa f.ma) c2.regs)
        bexpLoop k f n { c2 with regs := g, cycles := c.cycles + 1 + bankClash c.regs f.pa f.pb }

/-- BEXP. -/
def execBexp (core : Fin 4) (f : BexpForm) (s : State) : R :=
  coopExec core (.bexp f) (fun c =>
    let c0 := if f.clr then { c with regs := { c.regs with be := 31 } } else c
    let (c1, ok) := bexpLoop core f f.n.toNat c0
    if ok then .go (afterInstr c.pc c1) else .trap 2 c1) s

end Sys2Proof.Machine
end

