-- ==== Sys2Proof/Machine/Device.lean ====
section
/-! DEFINITION. The device group and the commands near it: identity, state, run and reset requests, the event mask,
firmware images (R123 to R126), expert session opening, authentication settings, and TEST_LOOP. -/

namespace Sys2Proof.Machine

/-- NOP (R160, R176). -/
def execNop (h : Hdr) (p : Bytes) (s : State) : R :=
  opcode .nop h p (fun s =>
    if p.length = 0 then done s
    else if p.length ≠ 4 then refuse .badLength s
    else if u16 p 2 ≠ 0 then refuse .badParam s
    else
      let hit (l : Landing) : Bool := l.hdr.rq == h.rq && l.hdr.tag.toNat == u16 p 0
      let gone := s.cmd.timed.filter hit
      .reply .ok (le 4 gone.length)
        { s with
          cmd := { s.cmd with timed := s.cmd.timed.filter (fun l => !hit l) }
          gr := { s.gr with caps := s.gr.caps.filter (fun c => !gone.any (fun l => l.arr == c.arr)) } }) s

/-- VERSION and SEC_VERSION of an image (R124). -/
def imageVersion : FwImage → BitVec 32
  | .blank => 0
  | .factory => Config.factoryVersion
  | .loaded d _ => BitVec.ofNat 32 (u32 d 8)

def imageSec : FwImage → BitVec 32
  | .blank => 0
  | .factory => Config.factorySecVersion
  | .loaded d _ => BitVec.ofNat 32 (u32 d 12)

/-- The vintage format an image writes (R177), 1 or more. -/
def imageWrites (f : FwImage) : Nat :=
  match f with
  | .loaded d _ => (Config.imageFormat (u32 d 8)).val + 1
  | _ => Config.factoryFormat.val + 1

/-- An image area of the flash. -/
def imageOf (l : Life) (i : Fin 2) : FwImage := if i = 0 then l.imageA else l.imageB

/-- Writes an image area. -/
def setImage (l : Life) (i : Fin 2) (f : FwImage) : Life :=
  if i = 0 then { l with imageA := f } else { l with imageB := f }

/-- The running image. -/
def runningImage (s : State) : FwImage :=
  match s.life.image with
  | some i => imageOf s.life i
  | none => .blank

/-- DEV_INFO (R177). -/
def execDevInfo (h : Hdr) (p : Bytes) (s : State) : R :=
  opcodeN .devInfo 0 h p (fun s =>
    let f := runningImage s
    .reply .ok ((List.range 16).map Config.moduleId ++ le 1 (bit Config.gradeX) ++ [BitVec.ofNat 8 (Config.hwLevelAbove.val + 1), 2, 0]
      ++ le 4 (imageVersion f).toNat ++ le 4 (imageSec f).toNat ++ le 4 Config.bootVersion.toNat
      ++ le 2 (imageWrites f) ++ zeros 2 ++ le 6 Config.macBase.toNat ++ zeros 2
      ++ le 4 Config.calDays.toNat) s) s

/-- The lifecycle state's code (R120). -/
def lifeCode : LifeState → Nat
  | .blank => 0 | .provisioned => 1 | .deployed => 2 | .returned => 3

/-- A slot's code: 0 A, 1 B, 0xFF none. -/
def slotCode : Option (Fin 2) → Nat
  | some i => i
  | none => 0xFF

/-- DEV_STATE (R92); reading it clears the MODE event source. -/
def execDevState (h : Hdr) (p : Bytes) (s : State) : R :=
  opcodeN .devState 0 h p (fun s =>
    let l := s.life
    let f := flag 0 l.holdPad + flag 1 l.autoRunRestored + flag 2 l.factoryRestored + flag 3 l.powerLossSlot
      + flag 4 l.trialBoot + flag 5 (s.clk.pll.state == .locked)
    .reply .ok (le 1 (modeCode l.mode) ++ le 1 (modeCode l.prev) ++ le 1 (lifeCode l.state) ++ le 1 l.cause
      ++ le 1 f ++ le 1 (slotCode l.slot) ++ le 1 (slotCode l.image) ++ zeros 1 ++ le 8 l.vintSeq ++ le 8 l.since
      ++ le 8 s.sysCnt) (clearEvent 7 s)) s

/-- DEV_RUN (R93): entry to SERVICE at the next tick, or at the first tick after PLL lock. -/
def execDevRun (h : Hdr) (p : Bytes) (s : State) : R :=
  opcodeN .devRun 4 h p (fun s =>
    let f := u32 p 0
    if f ≠ 0 ∧ (f < 10000 ∨ 10000000 < f) then refuse .outOfRange s
    else .reply (if s.clk.pll.state = .locked then .ok else .okDeferred) []
      { s with life := { s.life with runPending := some f } }) s

/-- DEV_RESET (R96): the warm reset begins 2 ms later, at DEV_RESET_START. -/
def execDevReset (h : Hdr) (p : Bytes) (s : State) : R :=
  opcodeN .devReset 4 h p (fun s =>
    if 1 < u8 p 0 || !zeroAt p 1 3 then refuse .badParam s
    else done { s with life := { s.life with resetDue := some (u8 p 0 == 1, s.sysCnt + 2 * msCounts) } }) s

/-- Checks of EVENT_MASK. -/
def checkEventMask (p : Bytes) (_ : State) : Status := if 1 < u8 p 1 || u16 p 2 ≠ 0 then .badParam else .ok

/-- EVENT_MASK at its tick. Bit 0 of IRQ_MASK always reads 1; NOTIFY over SPI leaves the listener (R165). -/
def landEventMask (h : Hdr) (p : Bytes) (s : State) : State :=
  { s with
    cfg := { s.cfg with event := ⟨BitVec.ofNat 8 (u8 p 0) ||| 1, u8 p 1 == 1⟩ }
    cmd := match h.rq with
      | .spi => s.cmd
      | rq => setListener (if u8 p 1 = 1 && (sessionAt s.cmd rq).isSome then some rq else none) s.cmd }

/-- EVENT_MASK (R163, R165). -/
def execEventMask (h : Hdr) (p : Bytes) (s : State) : R :=
  opcodeN .eventMask 4 h p (landing .eventMask h p (checkEventMask p)) s

/-- LIFE_STATE (R120). -/
def execLifeState (h : Hdr) (p : Bytes) (s : State) : R :=
  opcodeN .lifeState 0 h p (fun s =>
    .reply .ok (le 1 (lifeCode s.life.state) ++ le 1 (bit s.life.integratorKey.isSome)
      ++ le 1 (s.life.netKeys.filter Option.isSome).length ++ zeros 5 ++ le 8 s.life.nonce.toNat) s) s

/-- Signature, digest, product and security version of an image (R123): `.ok`, or the refusal of FW_END (R125). -/
def verifyImage (d : Bytes) (minSec : BitVec 32) : Status :=
  let body := (d.drop 256).take (u32 d 16)
  if d.length < 256 ∨ body.length ≠ u32 d 16 then .authFail
  else if !Config.ecdsaVerify Config.planuvalKey (d.take 56) ((d.drop 56).take 64) then .authFail
  else if sha256 body ≠ (d.drop 24).take 32 then .authFail
  else if u32 d 4 ≠ 0x256 ∨ u32 d 12 < minSec.toNat then .badVersion
  else .ok

/-- FW_BEGIN (R125): the target's erase runs in the background and the reply follows it (R533). -/
def execFwBegin (h : Hdr) (p : Bytes) (s : State) : R :=
  opcodeN .fwBegin 8 h p (fun s =>
    let t := u8 p 4
    let i : Fin 2 := Fin.ofNat 2 t
    if u32 p 0 < 256 ∨ 7340032 < u32 p 0 then refuse .outOfRange s
    else if 1 < t then refuse .badParam s
    else if s.life.image = some i then refuse .busy s
    else if !zeroAt p 5 3 then refuse .badParam s
    else
      if s.life.fwErasing then refuse .busy s
      else .late (awaitReply .fwBegin h []
        { s with life := { setImage s.life i (.loaded [] false) with
          fwTarget := some (i, u32 p 0), fwErasing := true } })) s

/-- FW_ERASE_COMPLETE (R533). -/
def execFwEraseComplete (dt : Nat) (s0 : State) : R :=
  let s := advance dt s0
  if s.life.fwErasing then .next (lateReply .fwBegin .ok [] { s with life := { s.life with fwErasing := false } })
  else .next s

/-- FW_DATA (R125): OFFSET equals the bytes already written. Data past IMAGE_LEN is answered OUT_OF_RANGE (log 88). -/
def execFwData (h : Hdr) (p : Bytes) (s : State) : R :=
  opcode .fwData h p (fun s =>
    if p.length < 4 then refuse .badLength s
    else match s.life.fwTarget with
      | none => refuse .badParam s
      | some (i, n) =>
        match imageOf s.life i with
        | .loaded d _ =>
          let e := d ++ p.drop 4
          if u32 p 0 ≠ d.length then refuse .badParam s
          else if n < e.length then refuse .outOfRange s
          else if s.life.fwErasing then refuse .busy s
          else done { s with life := setImage s.life i (.loaded e false) }
        | _ => refuse .badParam s) s

/-- FW_END (R125): the target is verified, as far as it has been written (log 88); a failed target is marked invalid. -/
def execFwEnd (h : Hdr) (p : Bytes) (s : State) : R :=
  opcodeN .fwEnd 0 h p (fun s =>
    match s.life.fwTarget with
    | none => refuse .badParam s
    | some (i, _) =>
      if s.life.fwErasing then refuse .busy s
      else match imageOf s.life i with
        | .loaded d _ =>
          let st := verifyImage d s.life.minSec
          .reply st [] { s with life := { setImage s.life i (.loaded d (st == .ok)) with fwTarget := none } }
        | _ => refuse .badParam s) s

/-- The boot ROM would run the image (R123): signature, digest, product and security version. -/
def imageBoots (f : FwImage) (minSec : BitVec 32) : Bool :=
  match f with
  | .blank => false
  | .factory => decide (minSec ≤ Config.factorySecVersion)
  | .loaded d _ => verifyImage d minSec == .ok

/-- The image stands verified in its area (R125, R126): as delivered, or by its FW_END. -/
def imageVerified (f : FwImage) : Bool :=
  match f with
  | .blank => false
  | .factory => true
  | .loaded _ v => v

/-- FW_SELECT (R126): a trial mark, or the confirmation of a trial boot, which raises the minimum security version. A trial of
an image that is not verified is answered BAD_PARAM (log 19); a trial mark stays on an area that is loaded again (log 88). -/
def execFwSelect (h : Hdr) (p : Bytes) (s : State) : R :=
  opcodeN .fwSelect 4 h p (fun s =>
    let i : Fin 2 := Fin.ofNat 2 (u8 p 1)
    if 1 < u8 p 0 || 1 < u8 p 1 || u16 p 2 ≠ 0 then refuse .badParam s
    else if u8 p 0 = 0 then
      if imageVerified (imageOf s.life i) && imageBoots (imageOf s.life i) s.life.minSec then
        done { s with life := { s.life with trialMark := some i } }
      else refuse .badParam s
    else if s.life.trialBoot ∧ s.life.image = some i then
      let v := imageSec (imageOf s.life i)
      done { s with life := { s.life with defaultImage := i, minSec := if s.life.minSec < v then v else s.life.minSec } }
    else refuse .badParam s) s

/-- EXPERT_OPEN (R172). -/
def execExpertOpen (h : Hdr) (p : Bytes) (s : State) : R :=
  opcodeN .expertOpen 4 h p (fun s =>
    let n := u16 p 0
    if n ≠ 0 ∧ (n < 10 ∨ 3600 < n) then refuse .outOfRange s
    else if u16 p 2 ≠ 0 then refuse .badParam s
    else
      let e : Expert := ⟨h.rq, if n = 0 then 300 else n, s.sysCnt⟩
      match s.cmd.expert with
      | none => done { s with cmd := { s.cmd with expert := some e } }
      | some o => if o.owner = h.rq then done { s with cmd := { s.cmd with expert := some e } } else refuse .busy s) s

/-- Checks of NET_AUTH_SET (R535): a controller cannot lock itself out. -/
def checkNetAuth (h : Hdr) (p : Bytes) (_ : State) : Status :=
  let own := match keyOf h.rq with
    | some i => !(BitVec.ofNat 16 (u16 p 2)).getLsbD i
    | none => false
  if 1 < u8 p 0 || u8 p 1 ≠ 0 || u32 p 4 ≠ 0 || own then .badParam else .ok

/-- UNAUTH_READ at its tick. -/
def landNetAuth (p : Bytes) (s : State) : State :=
  { s with cfg := { s.cfg with netAuth := { s.cfg.netAuth with unauthRead := u8 p 0 == 1 } } }

/-- KEY_ENABLE acts on the next packet admitted. -/
def keysEnabled (p : Bytes) (s : State) : State :=
  { s with cfg := { s.cfg with netAuth := { s.cfg.netAuth with keyEnable := BitVec.ofNat 16 (u16 p 2) } } }

/-- NET_AUTH_SET: KEY_ENABLE acts on the next packet admitted, UNAUTH_READ from the next tick (R16). -/
def execNetAuthSet (h : Hdr) (p : Bytes) (s : State) : R :=
  opcodeN .netAuthSet 8 h p (landLive .netAuthSet h p (checkNetAuth h p) (keysEnabled p)) s

/-- TEST_LOOP (R536). -/
def execTestLoop (h : Hdr) (p : Bytes) (s : State) : R :=
  opcode .testLoop h p (fun s => if 1400 < p.length then refuse .badLength s else .reply .ok p s) s

/-- TEST_SELF (R537): the tests run in the background. -/
def execTestSelf (h : Hdr) (p : Bytes) (s : State) : R :=
  opcodeN .testSelf 8 h p (fun s =>
    if u32 p 0 = 0 ∨ 31 < u32 p 0 ∨ u32 p 4 ≠ 0 then refuse .badParam s
    else if s.life.testSelf.isSome then refuse .busy s
    else .late (awaitReply .testSelf h [] { s with life := { s.life with testSelf := some (BitVec.ofNat 32 (u32 p 0)) } })) s

end Sys2Proof.Machine
end

