-- ==== Sys2Proof/Machine/Sinks.lean ====
section
/-! DEFINITION. The sink stage (R376 to R379, R385, R386) and the drivers of the analogue outputs: clamps, gates and their
release (R283, R284, R289). -/

namespace Sys2Proof.Machine

/-! ### Delay lines (R376) -/

/-- The value `n` frames back in runs, newest first; zero before the first. -/
def runAt : List (Int × Nat) → Nat → Int
  | [], _ => 0
  | (v, k) :: t, n => if n < k then v else runAt t (n - k)

/-- One frame of a read point toward a tap: a new target crossfades over `n` frames from the mixture in force. -/
def readStep (dest n : Nat) (x : ReadPoint) : ReadPoint :=
  let one : Nat := 2 ^ 60
  let y := if x.tap = dest then x
    else if x.len = 0 then { old := [(x.tap, one)], tap := dest, pos := 0, len := max n 1 }
    else { old := x.old.map (fun e => (e.1, e.2 * (x.len - x.pos) / x.len)) ++ [(x.tap, one * x.pos / x.len)]
           tap := dest, pos := 0, len := max n 1 }
  if y.pos + 1 < y.len then { y with pos := y.pos + 1 } else { old := [], tap := y.tap, pos := 0, len := 0 }

/-- The value at a read point of a line; the manual does not say how a crossfade rounds. -/
def readMix (x : ReadPoint) (at' : Nat → Int) : Int :=
  if x.len = 0 then at' x.tap
  else
    let o := (x.old.map (fun e => (e.2 : Int) * at' e.1)).sum
    freeDiv 15 (o * ((x.len : Int) - (x.pos : Int)) + wOne * at' x.tap * (x.pos : Int)) (2 ^ 60 * x.len)

/-! ### The override (R385, R386) -/

/-- The sink is in the override sink set. -/
def inOverride (o : OvrCfg) (h : Handle) : Bool :=
  let i := hIndex h
  match hClass h with
  | 0x81 => o.lout.getLsbD i
  | 0x83 => o.hsout.getLsbD i
  | 0x84 => o.spk.getLsbD i
  | 0x85 => o.tdmout.getLsbD i
  | 0x86 => o.aesout.getLsbD i
  | 0x87 => o.nettx.getLsbD i
  | _ => false

/-- A source scaled by a gain of the override: before source gain and mute, and past the fades of its routes (R386). -/
def ovrPart (s : State) (src : Handle) (gain : Int) : Int :=
  let c := satS 32 (convRound (lin gain : Int) 69)
  satS 40 (convRound (tget 0 s.mix.src src.toNat * c) 27)

/-- The override value of the frame: of a changed source or gain, the crossfade over 8 frames (R389). -/
def ovrValue (s : State) : Int :=
  let r := s.mix.ovr
  let c := s.cfg.mix.ovr
  let v := ovrPart s c.source c.gain
  if 8 ≤ r.swap then v
  else
    let o := (r.old.map (fun e => (e.2.2 : Int) * ovrPart s e.1 e.2.1)).sum
    freeDiv 16 (o * (8 - (r.swap : Int)) + wOne * v * (r.swap : Int)) (2 ^ 60 * 8)

/-- The override engages and releases (R387): sampled at the tick, in every mode from HOLD onward. -/
def stepOverride (s : State) : State :=
  let r := s.mix.ovr
  let on := r.command || (!s.pads.ovrN && s.cfg.mix.ovr.pinEnable)
  let r1 := if r.swap < 8 then { r with swap := r.swap + 1, old := if r.swap = 7 then [] else r.old } else r
  let r2 :=
    if on && !r.inForce then { r1 with inForce := true, frame := 1, count := r.count + 1, landed := s.clk.stamp }
    else if on then { r1 with frame := min 8 (r.frame + 1) }
    else if r.inForce then { r1 with inForce := false, frame := 1 }
    else { r1 with frame := if r.frame = 0 then 0 else min 8 (r.frame + 1) }
  { s with mix := { s.mix with ovr := r2 } }

/-! ### The limiter (R377) -/

/-- e^−x for x = `num / den` of at most one, units of 2^-64: a series of 16 terms. -/
def expNeg (num den : Nat) : Int :=
  let rec go : Nat → Nat → Int → Int → Int
    | 0, _, _, a => a
    | n + 1, k, t, a =>
      let t' := -(t * (num : Int)) / ((den * k : Nat) : Int)
      go n (k + 1) t' (a + t')
  go 16 1 (2 ^ 64) (2 ^ 64)

/-- Threshold in force, 2^-40 mdB, and whether the limiter runs: its mode, or a ceiling below LIM_THRESH. A ceiling that is
off leaves the limiter as it is; the sink fades (R377). -/
def limThreshold (s : State) (h : Handle) (c : SinkCfg) : Option Int :=
  let own := c.limThresh * mdbFine
  let ceil := sinkCeiling s h
  if -144000 * mdbFine < ceil && ceil < own then some ceil else if c.limMode = 0 then none else some own

/-- Level of a peak in units of 2^-31, 2^-40 mdB. -/
def peakDb (a : Nat) : Int := if a = 0 then -144000 * mdbFine else dbWide (a * 2 ^ 65)

/-- Required gain of a peak under a threshold, 2^-40 mdB, not above 0. -/
def needGain (thr : Int) (peak : Nat) : Int := if peak = 0 then 0 else min 0 (thr - peakDb peak)

/-- Detected peak of the sample that entered `ago` frames ago. -/
def limPeak (s : State) (h : Handle) (mode ago : Nat) (v : Int) : Nat :=
  if mode = 2 then max v.natAbs (Config.truePeak (65536 + h.toNat) (s.clk.frame - ago)) else v.natAbs

/-- The applied gain of a frame, from the one before: `need j` is the required gain of the sample that leaves in j frames. -/
def limGain (last release : Int) (window : Nat) (need : Nat → Int) : Int :=
  (List.range (window + 1)).foldl (fun g j => min g (last + (need j - last) / ((j : Int) + 1))) release

/-- A value under a gain; where it lies between two LSBs the manual does not say which it takes. -/
def limScale (g : Int) (v : Int) : Int := if g = 0 then v else freeDiv 14 (v * (linFine g : Int)) (2 ^ 96)

/-! ### Narrowing (R379) -/

/-- Bits of the word a sink's destination carries. -/
def wordBits (s : State) (h : Handle) : Nat :=
  let i := hIndex h
  match hClass h with
  | 0x85 => (tdmCfg s (i / 32)).word
  | 0x86 => if (txCfg s (i / 2)).word = 1 then 20 else 24
  | 0x87 =>
    match (List.range 64).find? (fun j =>
      let t := txSlotCfg s j
      t.transport != 0 && (txSlot s j).state != .off && decide (t.first ≤ i) && decide (i < t.first + t.channels)) with
    | some j => if (txSlotCfg s j).encoding = 0 then 16 else 24
    | none => 32
  | _ => 32

/-- Dither of a frame within its bound: ±1 LSB for TPDF, ±0.5 LSB for RPDF. -/
def ditherOf (s : State) (h : Handle) (narrow bits : Nat) : Int :=
  let lsb : Int := ((2 ^ (32 - bits) : Nat) : Int)
  let b := if narrow = 1 then lsb else lsb / 2
  if narrow = 0 || 24 < bits then 0 else clampI (-b) b (Config.dither h.toNat s.clk.frame)

/-- A sink-stage value narrowed: the word left-aligned in Q1.31, and whether it saturated. -/
def narrowWord (bits : Nat) (v : Int) : Int × Bool :=
  let f := 32 - bits
  let y := convRound v f
  let z := satS bits y
  (z * ((2 ^ f : Nat) : Int), z != y)

/-! ### Drivers of the analogue outputs (R283, R289, R302, R304) -/

/-- The driver's gate is to stand closed. -/
def gateShut (s : State) (h : Handle) : Bool :=
  let i := hIndex h
  !outDeclared s h || !outEnabled s h || decide (sinkCeiling s h ≤ -144000 * mdbFine)
    || (match stageOf h with | some k => stageMuted s k | none => false)
    || (hClass h == 0x84 && ((spkRt s i).loadClamp || (spkRt s i).checking))
    || (hClass h == 0x83 && !hsDriven s (i / 2) (i % 2 == 1)
        && (muteW s (.sink h) == 0 || moveVal (tget ({} : SinkRt) s.mix.sinks h.toNat).ovr != 0))

/-- A thermal trip clamps speakers and headphones until RECOVERY ends (R517). -/
def tripClamp (s : State) (h : Handle) : Bool :=
  let trip := anyInForce .thermalTrip s || (s.life.mode == .recovery && (match s.flt.recoveryCause with
    | some (c, _, _) => c == .thermalTrip
    | none => false))
  let x := outRt s h
  hClass h != 0x81 && trip && moveDone x.w && x.w.dest == wOne

/-- The output's clamp is to be engaged. -/
def clampWanted (s : State) (h : Handle) : Bool :=
  let i := hIndex h
  !outDeclared s h || !outEnabled s h || tripClamp s h
    || (hClass h == 0x84 && (spkRt s i).loadClamp && !(spkRt s i).checking)
    || (hClass h == 0x83 && hsClampSide s (i / 2) (i % 2 == 1))

/-- The linear ramp to 0 V that runs at an output's driver, as SYSCNT of its start and its length in counts: in power loss a line
output's 2 ms, a headphone side's 40 µs, a speaker's none (R80, R307); 2 ms in a warm reset (R98, R100); 1 ms at a headset
port's removal or side fault (R322, R331). -/
def driverRamp (s : State) (h : Handle) : Option (Nat × Nat) :=
  match s.pwr.loss, s.life.phase with
  | some t, _ => some (t, if hClass h = 0x81 then 2 * msCounts else if hClass h = 0x83 then 8000 else 0)
  | none, .muting t _ _ => some (t, 2 * msCounts)
  | none, _ => (outRt s h).clampAt.map (fun t => (t - msCounts, msCounts))

/-- Counts that are left of it. -/
def rampLeft (s : State) (h : Handle) : Option Nat := (driverRamp s h).map (fun r => r.1 + r.2 - s.sysCnt)

/-- A value under that ramp. -/
def driverMix (s : State) (h : Handle) (v : Int) : Int :=
  match driverRamp s h with
  | none => v
  | some r => freeDiv 72 (v * ((min r.2 (r.1 + r.2 - s.sysCnt) : Nat) : Int)) r.2

/-- One frame of an output's gate, clamp and servo. A clamp engages, and is released, only while the driver stands at 0 V. A gate opens
over the mute ramp, and at once where it has nothing to pass. -/
def stepDriver (s0 : State) (h : Handle) : State :=
  let y := tget ({} : SinkRt) s0.mix.sinks h.toNat
  let x := outRt s0 h
  let want := clampWanted s0 h
  let left := rampLeft s0 h
  let g := match left with
    | some l => if l = 0 then 0 else y.gate
    | none => if gateShut s0 h || want || x.clamped then y.gate - 1 else if y.prev = 0 then 32 else min 32 (y.gate + 1)
  let c := match left with
    | some l => x.clamped || l == 0
    | none => if want then x.clamped || g == 0 else x.clamped && g != 0
  let s1 := if y.gate = g then s0
    else { s0 with mix := { s0.mix with sinks := tset {} s0.mix.sinks h.toNat { y with gate := g } } }
  let z := if hClass h = 0x81 then stepServo s0 (hIndex h) x else x
  setOutRt h { z with clamped := c, clampAt := x.clampAt.filter (fun t => decide (s0.sysCnt < t))
                      ilimCount := if x.ilimLive then sat32 (x.ilimCount + 1) else x.ilimCount
                      ilimSticky := x.ilimSticky || x.ilimLive } s1

/-! ### One frame of a sink (R376 to R379) -/

/-- The mode lets the value of a port or stream sink through (R88, R94, R513). -/
def ownWanted (s : State) : Bool := modeLive s.life.mode && !anyInForce .thermalTrip s

/-- The weight of a sink's own value moves by a frame: the mode holds a line, headphone or speaker output by its clear code and
a hold output by its target, a port or stream sink by the mute ramp. -/
def stepOwn (s : State) (h : Handle) (w : Nat) : Nat :=
  if isAnalogue h then 32 else if ownWanted s then min 32 (w + 1) else w - 1

/-- One frame of the stage of sink `h`; `ov` is the frame's override value. -/
def sinkFrame (ov : Int) (s0 : State) (h : Handle) : State :=
  let c := tget ({} : SinkCfg) s0.cfg.mix.sinks h.toNat
  let y := tget ({} : SinkRt) s0.mix.sinks h.toNat
  let cross := usFrames s0 s0.cfg.graph.rackUs
  -- delay
  let line := pushRun (delayLimit + 1) (tget 0 s0.mix.sinkBuf h.toNat) y.line
  let silent := line.all (fun e => e.1 == 0)
  let delay := readStep (delayFrames s0.clk.fs c.delayUs + padOf s0 h) cross y.delay
  let own := stepOwn s0 h y.own
  let v0 := rampW own (if silent then 0 else readMix delay (runAt line))
  -- clear code
  let analog := isAnalogue h && hClass h != 0x82
  let x := if analog then clearMove s0 h (outRt s0 h) else outRt s0 h
  let s := if analog then setOutRt h x s0 else s0
  let v1 := if analog then clearMix x v0 else v0
  -- override
  let dest : Int := if s.mix.ovr.inForce && inOverride s.cfg.mix.ovr h then wOne else 0
  let om := stepMove (if y.ovr.dest = dest then y.ovr else moveTo y.ovr dest 8)
  let ow := moveVal om
  let v2 := if ow = 0 then v1 else freeDiv 17 (v1 * (wOne - ow) + ov * ow) (2 ^ 60)
  -- limiter
  let look := (v2 :: y.look).take 65
  let lookPt := readStep c.lookahead cross y.lookPt
  let v3 := readMix lookPt (fun n => look.getD n 0)
  let release := y.lim * expNeg 1000 (fsHz s.clk.fs * c.releaseMs) / (2 ^ 64)
  let mode := if c.limMode = 2 then 2 else 1
  let lim := match limThreshold s h c with
    | none => min 0 (if y.lim = 0 then 0 else release + 1)
    | some thr =>
      let need (j : Nat) : Int := needGain thr
        (if j = 0 then limPeak s h mode c.lookahead v3 else limPeak s h mode (c.lookahead - j) (look.getD (c.lookahead - j) 0))
      limGain y.lim (if y.lim = 0 then 0 else min 0 (release + 1)) c.lookahead need
  let v4 := satS 40 (limScale lim v3)
  -- polarity
  let inv := stepInv s0 c.invert (crossing v4 y.prev) y.inv
  let v5 := satS 40 (invMix inv v4)
  -- driver's gate, narrowing
  let v6 := if analog then driverMix s0 h (rampW y.gate v5) else v5
  let zeros := if v6 = 0 then min 64 (y.zeroRun + 1) else 0
  let bits := wordBits s h
  let d := if 64 ≤ zeros then 0 else ditherOf s h c.narrow bits
  let (out, clip) := narrowWord bits (v6 + d)
  let line' := if silent then [] else line
  let look' := if look.all (· == 0) then [] else look
  let z : SinkRt := { y with
    line := line', delay := delay, own := own, ovr := om, look := look', lookPt := lookPt, lim := lim, inv := inv
    prev := v4, zeroRun := zeros, out := out }
  let m0 := tget ({} : Meter) s.mix.sinkMeters h.toNat
  let m1 := meterIn s.clk.fs h s.clk.frame s.clk.stamp out m0
  let m := { m1 with clipped := m1.clipped || clip, limiting := decide (lim < 0), grMax := min m1.grMax lim }
  { s with mix := { s.mix with
    sinks := tset {} s.mix.sinks h.toNat z, sinkMeters := tset {} s.mix.sinkMeters h.toNat m } }

/-- Every sink that has a stage at a rate. -/
def stageSinks (fs : Fin 3) : List Handle :=
  [0x81, 0x82, 0x83, 0x84, 0x85, 0x86, 0x87].flatMap (fun c => (List.range (classCount fs c)).map (mkHandle c))

/-- One frame of the whole sink stage and the drivers, on the values handed over at this tick. -/
def sinkStage (s0 : State) : State :=
  let s := audioOuts.foldl stepDriver (stepOverride s0)
  (stageSinks s.clk.fs).foldl (sinkFrame (ovrValue s)) s

end Sys2Proof.Machine
end

