-- ==== Sys2Proof/Machine/Modes.lean ====
section
/-! DEFINITION. The close of an expert session and what reverts with it (R91, R173), and DEV_MODE, which takes effect at a frame
tick (R90, R94, R95, R514). -/

namespace Sys2Proof.Machine

/-! ### Closing the expert session -/

/-- Test settings that revert when the expert session closes (R173): those of the governor, clocks, inputs, outputs, filters,
headsets, ports, network, cores and fault injection. -/
def revertTests (s0 : State) : State :=
  let s1 := releaseInputs (closeGates (releaseForcedClock s0))
  let s2 := unforceHs 1 (unforceHs 0 s1)
  let s3 := (List.range 4).foldl (fun a k => debugRelease k a) s2
  let s4 : State := { s3 with
    pwr := { s3.pwr with govTest := 0 }
    flt := { s3.flt with injectObj := 0 }
    outp := { s3.outp with
      out := s3.outp.out.foldl (fun t e => tset {} t e.1 { e.2 with servoTc := 0 }) []
      hold := s3.outp.hold.foldl (fun t e => tset {} t e.1 { e.2 with clampTest := false }) [] }
    port := s3.port.foldl (fun t e => tset {} t e.1 { e.2 with loopback := false }) []
    net := { s3.net with
      a := { s3.net.a with phyLoop := false }, b := { s3.net.b with phyLoop := false }
      host := { s3.net.host with phyLoop := false } } }
  holdRefreshAll 64 s4

/-- The expert session closes, if one is open. -/
def closeExpert (s : State) : State :=
  match s.cmd.expert with
  | none => s
  | some _ => revertTests { s with cmd := { s.cmd with expert := none } }

/-- EXPERT_CLOSE (R173). -/
def execExpertClose (h : Hdr) (p : Bytes) (s : State) : R :=
  opcodeN .expertClose 0 h p (fun s =>
    match s.cmd.expert with
    | some e => if e.owner = h.rq then done (closeExpert s) else refuse .wrongMode s
    | none => refuse .wrongMode s) s

/-- EXPERT_IDLE_TIMEOUT (R173): IDLE_S has passed without a restarting packet. -/
def execExpertIdleTimeout (dt : Nat) (s0 : State) : R :=
  let s := advance dt s0
  match s.cmd.expert with
  | some e => if e.last + e.idleS * secCounts ≤ s.sysCnt then .next (closeExpert s) else .next s
  | none => .next s

/-! ### DEV_MODE (R90, R94, R95, R514) -/

/-- RECOVERY may be left (R514). -/
def mayLeaveRecovery (s : State) : Bool :=
  let cause := match s.flt.recoveryCause with
    | some (c, o, i) => inForce c o i s
    | none => false
  !cause && !anyInForce .thermalTrip s && !anyInForce .avsMargin s && !anyInForce .powerBudget s
    && !s.flt.queue.any (fun r => decide (3 ≤ classCode r.cls))

/-- To HOLD (R94, R514): sinks fade, hold outputs move to their safe values. -/
def toHold (s : State) : State :=
  holdRefreshAll 64 (enterMode .hold { s with
    life := { s.life with runPending := none }
    flt := { s.flt with recoverySeq := none, recoveryCause := none } })

/-- Checks of DEV_MODE: a transition of R90's table. -/
def checkDevMode (p : Bytes) (s : State) : Status :=
  if 6 < u8 p 0 || !zeroAt p 1 3 then .badParam
  else match s.life.mode, u8 p 0 with
    | .service, 5 | .maintenance, 4 | .service, 3 | .maintenance, 3 => .ok
    | .recovery, 3 => if mayLeaveRecovery s then .ok else .busy
    | _, _ => .wrongMode

/-- DEV_MODE at its tick: a transition that still stands in R90's table takes place. -/
def landDevMode (p : Bytes) (s : State) : State :=
  if checkDevMode p s = .ok then
    (if u8 p 0 = 5 then enterMode .maintenance s
     else if u8 p 0 = 4 then enterMode .service (closeExpert s)
     else toHold s)
  else s

/-- DEV_MODE (R90, R94, R95, R514). -/
def execDevMode (h : Hdr) (p : Bytes) (s : State) : R :=
  opcodeN .devMode 4 h p (landing .devMode h p (checkDevMode p)) s

end Sys2Proof.Machine
end

