-- ==== Sys2Proof/Machine/Vintage.lean ====
section
/-! DEFINITION. The vintage store (R102 to R116): which slot is valid and which is chosen, commits by command, periodic and at
power loss, read-back, and the commands of the store. -/

namespace Sys2Proof.Machine

/-! ### Slots (R105, R110) -/

/-- A slot, and writing it. -/
def slotOf (v : Vint) (i : Fin 2) : Slot := if i = 0 then v.slotA else v.slotB
def setSlot (v : Vint) (i : Fin 2) (x : Slot) : Vint := if i = 0 then { v with slotA := x } else { v with slotB := x }

/-- The other slot. -/
def otherSlot (i : Fin 2) : Fin 2 := if i = 0 then 1 else 0

/-- An image reads a vintage format (R124): VINT_FORMATS, lowest and highest. -/
def readsFormat (f : FwImage) (n : Nat) : Bool :=
  match f with
  | .blank => false
  | .factory => n == imageWrites .factory || Config.factoryReads n
  | .loaded d _ => decide (u16 d 20 ≤ n) && decide (n ≤ u16 d 22)

/-- Why a slot that holds a vintage is not valid for firmware `f` (R110): 0 where it is. -/
def slotReason (v : Vint) (f : FwImage) (x : Slot) : Nat :=
  if !x.headerOk then 1
  else if !x.stateOk then 2
  else if !readsFormat f x.format then 3
  else if !bulkComplete v x.refs then 4
  else 0

/-- The slot is valid. -/
def slotValid (v : Vint) (f : FwImage) (x : Slot) : Bool := !x.blank && !x.interrupted && slotReason v f x == 0

/-- The selection rule (R110): the valid slot with the higher sequence number, slot A where they are equal. -/
def bestSlot (v : Vint) (f : FwImage) : Option (Fin 2) :=
  let a := slotValid v f v.slotA
  let b := slotValid v f v.slotB
  if a && b then (if v.slotA.seq < v.slotB.seq then some 1 else some 0)
  else if a then some 0 else if b then some 1 else none

/-- The slot a commit is written into (R105). -/
def commitTarget (v : Vint) (f : FwImage) : Fin 2 :=
  match v.current, bestSlot v f with
  | _, none => 0
  | some i, _ => otherSlot i
  | none, some i => otherSlot i

/-- The sequence number a commit takes (R105). -/
def commitSeq (v : Vint) (f : FwImage) : Nat :=
  let q (x : Slot) : Nat := if slotValid v f x then x.seq else 0
  max (q v.slotA) (q v.slotB) + 1

/-! ### Commits (R105 to R109, R115) -/

/-- Lines taken in the pool by the records a commit refers to and those the other slot refers to. -/
def commitLines (v : Vint) (refs keep : List (BulkId × Nat)) : Nat :=
  ((v.pool.filter (fun r => refs.contains (r.id, r.version) || keep.contains (r.id, r.version))).map (·.lines)).sum

/-- A commit is refused for lack of space (R115). -/
def commitRefused (s : State) : Bool :=
  let v := s.vint
  !bulkPlaced v v.bulkNow
    || decide (poolLines < commitLines v v.bulkNow (slotOf v (otherSlot (commitTarget v (runningImage s)))).refs)

/-- Begins a commit of what is in force into slot `t`, which is marked interrupted (R105, steps 1 and 2); `tai` is the TAI time of
its capture, 0 where that is unknown. -/
def beginVint (t : Fin 2) (tai : Nat) (label : Word) (kind : CommitKind) (s : State) : State :=
  let v := s.vint
  let c : Commit := ⟨t, commitSeq v (runningImage s), tai, label, kind, s.cfg, v.bulkNow, false⟩
  let v1 := setSlot v t { slotOf v t with blank := false, interrupted := true, refs := [] }
  { s with vint := poolTidy { v1 with running := some c } }

/-- The capture of a commit (R105 step 1), taken at a frame tick once what lands there has landed. A commit without space is
refused (R115). -/
def takeCommit (s : State) : State :=
  match s.vint.armed with
  | none => s
  | some q =>
    let s1 := { s with vint := { s.vint with armed := none } }
    if commitRefused s1 then (if q.kind = .command then lateReply .vintCommit .noResource [] s1 else s1)
    else beginVint (commitTarget s.vint (runningImage s)) (if s.clk.taiValid then s.clk.tickTai.toNat else 0) q.label q.kind s1

/-- A commit runs, or captures at the next tick. -/
def commitRuns (v : Vint) : Bool := v.running.isSome || v.armed.isSome

/-- A trigger is dropped and counted (R106). -/
def dropCommit (s : State) : State := { s with vint := { s.vint with overruns := sat32 (s.vint.overruns + 1) } }

/-- VINT_COMMIT (R105, R106, R112, R533). -/
def execVintCommit (h : Hdr) (p : Bytes) (s : State) : R :=
  opcodeN .vintCommit 4 h p (fun s =>
    let label := BitVec.ofNat 32 (u32 p 0)
    if s.vint.pendingReq.isSome then refuse .busy (dropCommit s)
    else if commitRuns s.vint then
      .late (awaitReply .vintCommit h [] { s with vint := { s.vint with pendingReq := some ⟨label, .command⟩ } })
    else if commitRefused s then refuse .noResource s
    else .late (awaitReply .vintCommit h [] { s with vint := { s.vint with armed := some ⟨label, .command⟩ } })) s

/-- PENDING_COMMIT_START (R106): the running commit has ended; the pending one captures at the coming tick. -/
def execPendingCommitStart (dt : Nat) (s0 : State) : R :=
  let s := advance dt s0
  if commitRuns s.vint then .next s
  else .next { s with vint := { s.vint with armed := s.vint.pendingReq, pendingReq := none } }

/-- AUTO_COMMIT (R108): AUTO_COMMIT_S have passed; triggered where a captured field has changed since the last commit
completed. -/
def execAutoCommit (dt : Nat) (s0 : State) : R :=
  let s := advance dt s0
  let due := s.vint.autoSince + s.cfg.vint.autoCommitS * secCounts
  if s.cfg.vint.autoCommitS = 0 || !modeUp s.life.mode || s.pwr.loss.isSome || decide (s.sysCnt < due) then .next s
  else
    let s1 := { s with vint := { s.vint with autoSince := due } }
    if s.vint.lastContent = some s.cfg then .next s1
    else if s.vint.pendingReq.isSome then .next (dropCommit s1)
    else if commitRuns s.vint then .next { s1 with vint := { s1.vint with pendingReq := some ⟨0, .periodic⟩ } }
    else .next { s1 with vint := { s1.vint with armed := some ⟨0, .periodic⟩ } }

/-- The power-loss commit (R109): it supersedes a running commit and discards those that have not captured. -/
def powerLossCommit (s : State) : State :=
  let v := s.vint
  let t := match v.running with
    | some c => c.target
    | none => commitTarget v (runningImage s)
  let s1 := { s with vint := { v with running := none, armed := none, pendingReq := none } }
  if s.cfg.vint.powerLossCommit && s.pwr.hupReady && bulkComplete v v.bulkNow then
    beginVint t (taiReported s) 0 .powerLoss s1
  else s1

/-- The slot as step 5 leaves it (R105). -/
def writtenSlot (c : Commit) (s : State) : Slot :=
  { blank := false, format := imageWrites (runningImage s), seq := c.seq, tai := c.tai, label := c.label, kind := c.kind
    content := c.content, refs := c.refs }

/-- Step 5 and a good read-back: the slot holds the capture. -/
def finishVint (c : Commit) (s : State) : State :=
  let x := writtenSlot c s
  { s with vint := poolTidy { setSlot s.vint c.target x with
    running := none, current := some c.target, lastContent := some c.content } }

/-- Code of the check that failed (R107). -/
def readBackCode : ReadBack → Nat
  | .good => 0 | .headerCrc => 1 | .stateCrc => 2

/-- A power-loss commit that has failed its read-back: the slot is not valid until, 4 µs on, it is marked interrupted again
(R109). -/
def spoilSlot (rb : ReadBack) (c : Commit) (s : State) : State :=
  let x := { writtenSlot c s with headerOk := rb != .headerCrc, stateOk := rb != .stateCrc }
  { s with vint := poolTidy { setSlot s.vint c.target x with
    running := none, remark := some (c.target, s.sysCnt + 800) } }

/-- The mark of such a slot, once its time has come. -/
def settleMark (s : State) : State :=
  match s.vint.remark with
  | none => s
  | some (t, due) =>
    let v := { s.vint with remark := none }
    if due ≤ s.sysCnt then
      let x := slotOf v t
      { s with vint := poolTidy (setSlot v t { x with interrupted := true, headerOk := true, stateOk := true, refs := [] }) }
    else { s with vint := v }

/-- VINT_COMMIT_COMPLETE (R105 step 6, R107, R109, R112): the read-back ends. It waits for the bulk records of step 3. -/
def execVintCommitComplete (dt : Nat) (rb : ReadBack) (durationUs : Nat) (s0 : State) : R :=
  let s := advance dt s0
  match s.vint.running with
  | none => .next s
  | some c =>
    if !bulkComplete s.vint c.refs then .next s
    else if rb = .good then
      let s1 := finishVint c s
      .next (if c.kind = .command then
        lateReply .vintCommit .ok (le 1 c.target ++ zeros 3 ++ le 4 durationUs ++ le 8 c.seq) s1 else s1)
    else if c.kind = .powerLoss then .next (spoilSlot rb c s)
    else if !c.repeated then .next { s with vint := { s.vint with running := some { c with repeated := true } } }
    else
      let s1 := raise .vintCommitFail 0 0 (BitVec.ofNat 32 (c.target.val + 6 * 256 + 65536 * readBackCode rb))
        { s with vint := poolTidy { s.vint with running := none } }
      .next (if c.kind = .command then lateReply .vintCommit .internal [] s1 else s1)

/-! ### VINT_STATUS, VINT_POLICY, VINT_CLEAR (R113, R114, R116) -/

/-- Code of a commit kind. -/
def kindCode : CommitKind → Nat
  | .command => 0 | .periodic => 1 | .powerLoss => 2

/-- The 24-byte entry of a slot. -/
def slotEntry (s : State) (x : Slot) : Bytes :=
  if x.blank then zeros 24
  else
    let st := if x.interrupted then 3 else if slotReason s.vint (runningImage s) x = 0 then 1 else 2
    le 8 x.seq ++ le 8 x.tai ++ le 4 x.label.toNat ++ le 1 st ++ le 1 (kindCode x.kind) ++ zeros 2

/-- VINT_STATUS. -/
def execVintStatus (h : Hdr) (p : Bytes) (s : State) : R :=
  opcodeN .vintStatus 0 h p (fun s =>
    let v := s.vint
    let st := if commitRuns v then 1 + bit v.pendingReq.isSome else bit v.pendingReq.isSome
    .reply .ok (le 1 st ++ le 1 (slotCode s.life.slot) ++ le 1 (commitTarget v (runningImage s))
      ++ le 1 (flag 0 v.safeA.valid + flag 1 v.safeB.valid) ++ le 4 v.overruns
      ++ le 4 (freeDiv 53 (poolLines - poolUsed v.pool : Nat) 16).toNat ++ le 4 (min 131008 (Config.stateSize s.sysCnt).toNat)
      ++ slotEntry s v.slotA ++ slotEntry s v.slotB) s) s

/-- Checks of VINT_POLICY. -/
def checkVintPolicy (p : Bytes) (_ : State) : Status :=
  checks
    [ (decide (1 < u8 p 0), .badParam),
      (decide (1 < u8 p 1), .badParam),
      (u16 p 2 != 0, .badParam),
      (decide (u32 p 4 < 10000) || decide (10000000 < u32 p 4), .outOfRange),
      (u32 p 8 != 0 && (decide (u32 p 8 < 10) || decide (86400 < u32 p 8)), .outOfRange) ]

/-- VINT_POLICY lands; a new AUTO_COMMIT_S runs from here. -/
def landVintPolicy (p : Bytes) (s : State) : State :=
  { s with
    cfg := { s.cfg with vint := ⟨u8 p 0 == 1, u8 p 1 == 1, u32 p 4, u32 p 8⟩ }
    vint := { s.vint with autoSince := if u32 p 8 = s.cfg.vint.autoCommitS then s.vint.autoSince else s.sysCnt } }

/-- VINT_POLICY. -/
def execVintPolicy (h : Hdr) (p : Bytes) (s : State) : R :=
  opcodeN .vintPolicy 12 h p (landing .vintPolicy h p (checkVintPolicy p)) s

/-- The pool after VINT_CLEAR: the records of every object in force, to be written again. -/
def poolAgain (v : Vint) : List BulkRec :=
  v.pool.filterMap (fun r =>
    if v.bulkNow.contains (r.id, r.version) then some { r with placed := false, complete := false } else none)

/-- VINT_CLEAR. -/
def execVintClear (h : Hdr) (p : Bytes) (s : State) : R :=
  opcodeN .vintClear 4 h p (fun s =>
    if u32 p 0 ≠ 0x56494E54 then refuse .badParam s
    else if commitRuns s.vint || s.vint.pendingReq.isSome then refuse .busy s
    else
      let v := { s.vint with slotA := {}, slotB := {}, current := none }
      done { s with vint := poolTidy { v with pool := poolAgain v } }) s

end Sys2Proof.Machine
end

