-- ==== Sys2Proof/Machine/Power.lean ====
section
/-! DEFINITION. Power (R59 to R85): the board declaration, ports as powered devices, the governor with its stages and faults,
the auxiliary rails, hold-up and the power-loss sequence, POWER_STATUS and POWER_POLICY. -/

namespace Sys2Proof.Machine

/-! ### BOARD_DESCRIBE (R59 to R61, R309) -/

/-- The declaration a payload makes. -/
def boardOf (p : Bytes) : BoardCfg :=
  { ainWired := BitVec.ofNat 32 (u32 p 0), phantomPermit := BitVec.ofNat 32 (u32 p 4), loutWired := BitVec.ofNat 32 (u32 p 8)
    houtWired := BitVec.ofNat 8 (u8 p 12), hsWired := BitVec.ofNat 2 (u8 p 13), hsConnector := BitVec.ofNat 4 (u8 p 14)
    spkWired := BitVec.ofNat 2 (u8 p 15), spk0Load := u16 p 16, spk1Load := u16 p 18, aux3v3Ma := u16 p 20
    aux5v0Ma := u16 p 22, tdmWired := BitVec.ofNat 4 (u8 p 24), aesWired := BitVec.ofNat 8 (u8 p 25)
    miscWired := BitVec.ofNat 5 (u8 p 26), hostnetMode := u8 p 27, gpioMode := (List.range 16).map (fun g => u8 p (28 + g)) }

/-- A declared speaker load is in range; that of an undeclared speaker may be 0. -/
def loadOk (wired : Bool) (z : Nat) : Bool := (decide (60 ≤ z) && decide (z ≤ 160)) || (!wired && z == 0)

/-- HOUT_WIRED in force: the safe record's (R111). -/
def houtInForce (s : State) : BitVec 8 :=
  BitVec.ofNat 8 ((List.range 8).map (fun n => flag n (safeOf s n).declared)).sum

/-- The input settings left by a declaration (R61): phantom that loses its permit or its wiring is set off. -/
def inputsUnder (b : BoardCfg) (ch : Tab InCfg) : Tab InCfg :=
  ch.foldl (fun t e => tset {} t e.1
    (if b.phantomPermit.getLsbD e.1 && b.ainWired.getLsbD e.1 then e.2 else { e.2 with phantom := false })) []

/-- The state with the declaration and the inputs' settings stored. -/
def boardStored (b : BoardCfg) (s : State) : State :=
  { s with cfg := { s.cfg with board := b, input := { s.cfg.input with ch := inputsUnder b s.cfg.input.ch } } }

/-- Checks of BOARD_DESCRIBE: fields in payload order, a changed X field refused while the audio clock runs, then R71. -/
def checkBoard (p : Bytes) (s : State) : Status :=
  let b := boardOf p
  let o := s.cfg.board
  let run := modeLive s.life.mode
  let gpio (g : Nat) : List (Bool × Status) :=
    [(decide (4 < u8 p (28 + g)), .badParam), (run && o.gpioMode.getD g 0 != u8 p (28 + g), .busy)]
  checks (
    [ (run && b.ainWired != o.ainWired, .busy),
      (run && b.phantomPermit != o.phantomPermit, .busy),
      (run && b.loutWired != o.loutWired, .busy),
      (run && b.houtWired != houtInForce s, .busy),
      (decide (3 < u8 p 13), .badParam),
      (run && b.hsWired != o.hsWired, .busy),
      (decide (15 < u8 p 14) || b.hsConnector &&& 10 != 0, .badParam),
      (run && b.hsConnector != o.hsConnector, .busy),
      (decide (3 < u8 p 15), .badParam),
      (run && b.spkWired != o.spkWired, .busy),
      (!loadOk (b.spkWired.getLsbD 0) b.spk0Load, .outOfRange),
      (run && b.spk0Load != o.spk0Load, .busy),
      (!loadOk (b.spkWired.getLsbD 1) b.spk1Load, .outOfRange),
      (run && b.spk1Load != o.spk1Load, .busy),
      (decide (2000 < b.aux3v3Ma), .outOfRange),
      (decide (1000 < b.aux5v0Ma), .outOfRange),
      (decide (15 < u8 p 24), .badParam),
      (run && b.tdmWired != o.tdmWired, .busy),
      (run && b.aesWired != o.aesWired, .busy),
      (decide (31 < u8 p 26), .badParam),
      (run && b.miscWired != o.miscWired, .busy),
      (decide (3 < b.hostnetMode), .badParam),
      (run && b.hostnetMode != o.hostnetMode, .busy) ]
    ++ (List.range 16).flatMap gpio
    ++ [ (u32 p 44 != 0, .badParam), (rnsRefused s (boardStored b s), .noResource) ])

/-- The safe record takes HOUT_WIRED (R111), first of all (R309); the hold outputs then move. -/
def declareHold (b : BoardCfg) (s : State) : State :=
  if b.houtWired = houtInForce s then s
  else
    let l := s.outp.safe.zipIdx.map (fun e => { e.1 with declared := b.houtWired.getLsbD e.2 })
    holdRefreshAll 64 (writeSafe { s with outp := { s.outp with safe := l } })

/-- A headset port that is no longer declared becomes empty. -/
def undeclareHs (n : Fin 2) (s : State) : State :=
  if s.cfg.board.hsWired.getLsbD n || (hsRt s n).state == .empty then s
  else
    let s1 := hsEmpty n s
    setHs n { hsRt s1 n with present := false, due := false, again := false } s1

/-- A network link that is no longer declared goes down. -/
def undeclareLink (l : LinkPort) (s : State) : State :=
  if linkDeclared s l || (linkOf s l).link == 0 then s else linkFall l false s

/-- What a new declaration withdraws: ports that run stop, headset ports become empty, network links go down. -/
def undeclare (s : State) : State :=
  let s1 := (List.range 12).foldl (fun a k => if portRuns a k && !portDeclared a k then landStop a k else a) s
  undeclareLink .hostnet (undeclareLink .netb (undeclareLink .neta (undeclareHs 1 (undeclareHs 0 s1))))

/-- A speaker that becomes declared while it is enabled has its load checked (R305). -/
def checkNewSpk (old : BitVec 2) (s : State) (n : Nat) : State :=
  if s.cfg.board.spkWired.getLsbD n && !old.getLsbD n && (tget ({} : SpkCfg) s.cfg.outp.spk n).enable then
    setSpkRt n { spkRt s n with checking := true } s
  else s

/-- The declaration comes into force, at the tick of its command (R16, R309). -/
def landBoard (p : Bytes) (s : State) : State :=
  let b := boardOf p
  let s1 := boardStored b (declareHold b s)
  let s2 := (List.range 32).foldl phApply s1
  let w := s.cfg.board.spkWired
  undeclare (checkNewSpk w (checkNewSpk w s2 0) 1)

/-- BOARD_DESCRIBE. -/
def execBoardDescribe (h : Hdr) (p : Bytes) (s : State) : R :=
  opcodeN .boardDescribe 48 h p (landing .boardDescribe h p (checkBoard p)) s

/-! ### Ports as powered devices (R62 to R68) -/

/-- A port, and writing it. -/
def pdPort (s : State) : NetPort → PdPort
  | .a => s.pwr.portA
  | .b => s.pwr.portB
def setPd (x : NetPort) (q : PdPort) (s : State) : State :=
  match x with
  | .a => { s with pwr := { s.pwr with portA := q } }
  | .b => { s with pwr := { s.pwr with portB := q } }

/-- AO drives PWR_GOOD, PD_STAT0 and PD_STAT1 (R55, R65). -/
def notePads (s : State) : State :=
  let w := s.pwr
  { s with pads := { s.pads with
    pwrGood := w.auxReg && !w.auxFault3 && !w.auxFault5 && w.loss.isNone
    pdStat0 := w.portA.counting, pdStat1 := w.portB.counting } }

/-- A PSE allocation as HOST mode reports it (R68, R84). -/
def hostLldp (c : PowerPolicyCfg) (x : NetPort) : Option Nat :=
  let m := match x with | .a => c.lldpA | .b => c.lldpB
  if c.lldpMode = 1 ∧ m ≠ 0 then some m else none

/-- The image the boot ROM runs (R123, R126), and whether that is a trial. -/
def bootChoice (l : Life) : Option (Fin 2 × Bool) :=
  let sel := l.trialMark.getD l.defaultImage
  if imageBoots (imageOf l sel) l.minSec then some (sel, l.trialMark.isSome)
  else if imageBoots (imageOf l (otherSlot sel)) l.minSec then some (otherSlot sel, false)
  else none

/-- The configuration AO finds before the restore (R65): the slot the rule would choose, or the factory values. -/
def committedCfg (s : State) : Settings :=
  let f := match bootChoice s.life with
    | some (i, _) => imageOf s.life i
    | none => .blank
  match bestSlot s.vint f with
  | some i => (slotOf s.vint i).content
  | none => {}

/-- AO starts on its RC oscillator (R86, step 3): mode RESET, the power fields are read. -/
def startAo (s : State) : State :=
  let c := committedCfg s
  { s with
    life := { s.life with mode := .reset, prev := .off, since := 0, cause := 0 }
    pwr := { s.pwr with aoOn := true }
    cfg := { s.cfg with board := c.board, policy := c.policy, input := c.input }
    flt := { s.flt with boot := s.flt.boot + 1 } }

/-- The AUX rails are enabled where B covers R_ns (R64, R65). -/
def tryAux (s : State) : State :=
  if s.pwr.aoOn && !s.pwr.auxOn && decide (rnsUw s ≤ 1000 * budgetMw s) then { s with pwr := { s.pwr with auxOn := true } }
  else s

/-- POWER_APPLIED (R62, R86 step 2): a PSE has granted a class and applies power. -/
def execPowerApplied (dt : Nat) (port : NetPort) (granted : Fin 9) (s0 : State) : R :=
  let s := advance dt s0
  let q := pdPort s port
  if q.supplying || granted = 0 then .next s
  else .next (setPd port { granted := granted, applied := true } s)

/-- INPUT_POWER_GOOD (R63, R81): during a power-loss sequence it waits for the sequence's end. -/
def execInputPowerGood (dt : Nat) (port : NetPort) (s0 : State) : R :=
  let s := advance dt s0
  let q := pdPort s port
  if !q.applied || q.supplying || s.pwr.loss.isSome then .next s
  else
    let s1 := if s.life.mode = .off then startAo s else s
    .next (setPd port
      { q with applied := false, supplying := true, goodAt := s1.pwr.aoCnt, lldp := hostLldp s1.cfg.policy port } s1)

/-- POWER_UP_DELAY_END (R64, R65, R78): 80 ms after its input power good the port counts in B, and the hold-up capacitor begins to
charge. -/
def execPowerUpDelayEnd (dt : Nat) (port : NetPort) (s0 : State) : R :=
  let s := advance dt s0
  let q := pdPort s port
  if !q.supplying || q.counting || s.pwr.loss.isSome || decide (s.pwr.aoCnt < q.goodAt + 80 * msCounts) then .next s
  else
    let s1 := setPd port { q with counting := true } s
    .next (notePads (tryAux { s1 with pwr := { s1.pwr with
      budget := budgetMw s1, hupCharging := s1.pwr.hupCharging || !s1.pwr.hupReady } }))

/-- LLDP_ALLOCATION (R68): in MODULE mode, for a supplying port. -/
def execLldpAllocation (dt : Nat) (port : NetPort) (mw : Nat) (s0 : State) : R :=
  let s := advance dt s0
  let q := pdPort s port
  if q.supplying && s.cfg.policy.lldpMode == 0 then .next (setPd port { q with lldpNext := some (some mw) } s) else .next s

/-- HUP_READY (R78): HUP is within 2 V of the bulk node. -/
def execHupReady (dt : Nat) (s0 : State) : R :=
  let s := advance dt s0
  if s.pwr.hupCharging && s.pwr.loss.isNone then
    .next { s with pwr := { s.pwr with hupReady := true, hupCharging := false } }
  else .next s

/-- AUX_FAULT (R77): a rail held at its limit is switched off. -/
def execAuxFault (dt : Nat) (r : Rail) (s0 : State) : R :=
  let s := advance dt s0
  if !s.pwr.auxOn then .next s
  else .next (notePads (match r with
    | .aux3v3 => { s with pwr := { s.pwr with auxFault3 := true, auxTry3 := s.pwr.aoCnt } }
    | .aux5v0 => { s with pwr := { s.pwr with auxFault5 := true, auxTry5 := s.pwr.aoCnt } }))

/-- AUX_RETRY (R77): every 500 ms a rail that is off is tried again. -/
def execAuxRetry (dt : Nat) (r : Rail) (ok : Bool) (s0 : State) : R :=
  let s := advance dt s0
  let due (t : Nat) : Bool := decide (t + 500 * msCounts ≤ s.pwr.aoCnt)
  .next (notePads (match r with
    | .aux3v3 => if s.pwr.auxFault3 && due s.pwr.auxTry3 then
        { s with pwr := { s.pwr with auxFault3 := !ok, auxTry3 := s.pwr.aoCnt } } else s
    | .aux5v0 => if s.pwr.auxFault5 && due s.pwr.auxTry5 then
        { s with pwr := { s.pwr with auxFault5 := !ok, auxTry5 := s.pwr.aoCnt } } else s))

/-! ### The governor (R72 to R76, R83) -/

/-- The budget the governor compares with: B, or the test budget of GOV_TEST (R85), mW. -/
def govBudget (s : State) : Nat :=
  if s.pwr.govTest.getLsbD 0 then 1000 * (s.pwr.govTest.toNat / 65536) else s.pwr.budget

/-- P of the last period, mW. -/
def drawMw (s : State) : Nat := s.pwr.meas.drawA + s.pwr.meas.drawB

/-- The target T = B − G, mW. -/
def govTarget (s : State) : Int := (govBudget s : Int) - 1000 * (s.cfg.policy.guardW : Int)

/-- Off, as the governor's levels code it. -/
def levelOff : Int := -144000

/-- One dB down, to −40 dB, then off (R72). -/
def levelDown (v : Int) : Int := if v ≤ -40000 then levelOff else max (-40000) (v - 1000)

/-- One dB up, from off to −40 dB (R74). -/
def levelUp (v : Int) : Int := if v < -40000 then -40000 else min 0 (v + 1000)

/-- Non-essential inputs whose phantom is set on and not held off, ascending. -/
def sheddable (s : State) : List Nat :=
  (List.range 32).filter (fun c => (inCfg s c).phantom && !(inCfg s c).essential && !s.pwr.phShed.getLsbD c)

/-- Holds an input's phantom off, or lets it return. -/
def holdPh (c : Nat) (on : Bool) (s : State) : State :=
  let m := BitVec.ofNat 32 (2 ^ c)
  phApply { s with pwr := { s.pwr with phShed := if on then s.pwr.phShed ||| m else s.pwr.phShed &&& ~~~m } } c

/-- Phantom removed without corking (R73): muted over 32 frames, then 10 ms. -/
def cutPh (s : State) (c : Nat) : State :=
  let s1 := { s with pwr := { s.pwr with phShed := s.pwr.phShed ||| BitVec.ofNat 32 (2 ^ c) } }
  let x := phOf s1 c
  if !x.up && x.pos = 0 then s1
  else setPh c { x with up := false, fast := true, stage := if x.stage == .ramping then .ramping else .corking } s1

/-- Non-essential inputs whose phantom is set on, held off or not. -/
def nonEssential (s : State) : List Nat := (List.range 32).filter (fun c => (inCfg s c).phantom && !(inCfg s c).essential)

/-- Every sheddable load goes off (R73, R76): phantom that a stage is still switching off, too. -/
def shedAll (s : State) : State :=
  (nonEssential s).foldl cutPh { s with pwr := { s.pwr with spkCeil := levelOff, hsLevel := levelOff, restoring := false } }

/-- One period of stages 1 to 3 (R72). -/
def shedStep (s : State) : State :=
  if levelOff < s.pwr.spkCeil then { s with pwr := { s.pwr with spkCeil := levelDown s.pwr.spkCeil, restoring := false } }
  else if levelOff < s.pwr.hsLevel then { s with pwr := { s.pwr with hsLevel := levelDown s.pwr.hsLevel, restoring := false } }
  else match (sheddable s).reverse with
    | c :: _ => holdPh c true { s with pwr := { s.pwr with restoring := false } }
    | [] => { s with pwr := { s.pwr with restoring := false } }

/-- Some load is held below its level. -/
def shedActive (s : State) : Bool := decide (s.pwr.spkCeil < 0) || decide (s.pwr.hsLevel < 0) || s.pwr.phShed != 0

/-- The averages of an AUX load that can still count (R69): within 10 s, and not below a later one. -/
def noteAux (now v : Nat) (l : List (Nat × Nat)) : List (Nat × Nat) :=
  (now, v) :: l.filter (fun e => decide (v < e.2) && decide (now ≤ e.1 + 10 * secCounts))

/-- A measured AUX load above its declaration counts (R69). -/
def auxOverNow (s : State) : Bool :=
  let b := s.cfg.board
  decide (b.aux3v3Ma < auxCharge s.sysCnt b.aux3v3Ma s.pwr.aux3Hist) || decide (b.aux5v0Ma < auxCharge s.sysCnt b.aux5v0Ma s.pwr.aux5Hist)

/-- A new LLDP allocation enters the budget (R68). -/
def enterLldp (q : PdPort) : PdPort :=
  match q.lldpNext with
  | some m => { q with lldp := m, lldpNext := none }
  | none => q

/-- Charge of a speaker output that is on (R70), mW: 1.2 times its ceiling power and 0.4 W. -/
def spkCharge (s : State) (n : Nat) : Nat :=
  let g := lin s.pwr.spkCeil
  if (tget ({} : SpkCfg) s.cfg.outp.spk n).enable && s.cfg.board.spkWired.getLsbD n && g != 0 then
    400 + (freeDiv 70 (12 * ratedMw s * g * g : Nat) (10 * 2 ^ 192)).toNat
  else 0

/-- Charge of a headset port with its output on (R70), mW. -/
def hsCharge (s : State) (n : Nat) : Nat :=
  if (hsDriven s n false || hsDriven s n true) && decide (levelOff < s.pwr.hsLevel) then 1500 else 0

/-- What the governor charges the sheddable loads that are active (R70), mW. -/
def sheddableCharge (s : State) : Nat :=
  spkCharge s 0 + spkCharge s 1 + hsCharge s 0 + hsCharge s 1 + 700 * (sheddable s).length

/-- B, R_ns and the charges as a period takes them (R68, R70, R76, R235). -/
def takeBudget (s : State) : State :=
  { s with pwr := { s.pwr with budget := budgetMw s, rns := rnsUw s, charge := sheddableCharge s } }

/-- What a period measures. -/
def takeMeas (m : PowerMeas) (s : State) : State :=
  let s1 := { s with pwr := { s.pwr with
    meas := m, portA := enterLldp s.pwr.portA, portB := enterLldp s.pwr.portB
    aux3Hist := noteAux s.sysCnt m.aux3Ma s.pwr.aux3Hist, aux5Hist := noteAux s.sysCnt m.aux5Ma s.pwr.aux5Hist
    caseCeil := if Config.gradeX && m.caseAbove85 then -4771 else 0 } }
  takeBudget { s1 with pwr := { s1.pwr with auxOver := auxOverNow s1 } }

/-- Comparisons of a period: POWER_BUDGET, the hard stage, the stages. -/
def governStep (s : State) : State :=
  let b := govBudget s
  let p := drawMw s
  let short := inForce .powerBudget 0 0 s
  let overB := if b < p then s.pwr.overB + 1 else 0
  let overT := if short && decide (b < p) then s.pwr.overBShort + 1 else 0
  let since (on : Bool) (t : Option Nat) : Option Nat := if on then some (t.getD s.pwr.aoCnt) else none
  let s1 := { s with pwr := { s.pwr with
    overB := overB, overBShort := overT
    lowSince := since (decide ((p : Int) ≤ govTarget s - 3000)) s.pwr.lowSince
    fitSince := since (decide (s.pwr.rns + 2000000 ≤ 1000 * b)) s.pwr.fitSince } }
  let s2 := if 1000 * b < s.pwr.rns ∧ s.pwr.auxOn then raise .powerBudget 0 0 0 s1 else s1
  let budget := inForce .powerBudget 0 0 s2
  let shedding := budget || decide (govTarget s < (p : Int))
  let s3 := if shedding then { s2 with pwr := { s2.pwr with govEvents := s2.pwr.govEvents + 1 } } else s2
  if budget then
    (if 10 ≤ overT then callRecovery .powerBudget 0 0 (shedAll s3) else shedAll s3)
  else if 3 ≤ overB then shedAll { s3 with pwr := { s3.pwr with hard := true } }
  else if shedding then shedStep s3
  else s3

/-- FLAGS of POWER_STATUS (R83). -/
def powerFlags (s : State) : BitVec 8 :=
  let w := s.pwr
  BitVec.ofNat 8 (flag 0 w.hupReady + flag 1 (shedActive s) + flag 2 w.hard + flag 3 (w.caseCeil != 0)
    + flag 4 (w.portA.counting != w.portB.counting) + flag 5 (inForce .powerBudget 0 0 s) + flag 6 w.auxOver
    + flag 7 (w.auxFault3 || w.auxFault5))

/-- The flags are evaluated; a change makes the POWER source pending. -/
def noteFlags (s : State) : State :=
  let f := powerFlags s
  if f = s.pwr.flags then s else postEvent 3 { s with pwr := { s.pwr with flags := f } }

/-- A port that counts in B again is no longer lost (R76). -/
def portsBack (s : State) : State :=
  let back (x : NetPort) (a : State) : State := if (pdPort a x).counting then release .powerPortLost 0 (portIdx x) a else a
  back .b (back .a s)

/-- In MODULE mode the module asks for its class allocation on a supplying port (R68), every 30 s (PRESUMED, log 94). -/
def sendLldp (x : NetPort) (s : State) : State :=
  let q := pdPort s x
  let l := match x with | .a => LinkPort.neta | .b => .netb
  let due := match q.lldpSent with | some t => decide (t + 30 * secCounts ≤ s.pwr.aoCnt) | none => true
  if s.cfg.policy.lldpMode == 0 && q.supplying && linkIsUp s l && due then
    sendOut l (.lldp x (classMw q.granted)) (setPd x { q with lldpSent := some s.pwr.aoCnt } s)
  else s

/-- GOVERNOR_PERIOD (R72). -/
def execGovernorPeriod (dt : Nat) (m : PowerMeas) (s0 : State) : R :=
  let s := advance dt s0
  if !s.pwr.aoOn || s.pwr.loss.isSome then .next s
  else .next (sendLldp .b (sendLldp .a (noteFlags (portsBack (governStep (takeMeas m s))))))

/-- One step of restoring (R74): phantom, lowest input first, then headsets, then speakers. -/
def restoreStep (s : State) : State :=
  match bitsOf 32 s.pwr.phShed.toNat with
  | c :: _ => holdPh c false s
  | [] =>
    if s.pwr.hsLevel < 0 then { s with pwr := { s.pwr with hsLevel := levelUp s.pwr.hsLevel } }
    else { s with pwr := { s.pwr with spkCeil := levelUp s.pwr.spkCeil } }

/-- A step of restoring is due (R74): the first once P has been at or below T − 3 W for 2 s; then phantom every 200 ms, a level
every 2 s. -/
def restoreDue (s : State) : Bool :=
  if s.pwr.restoring then
    decide (s.pwr.restoreAt + (if s.pwr.phShed = 0 then 2 * secCounts else 200 * msCounts) ≤ s.pwr.aoCnt)
  else match s.pwr.lowSince with
    | some t => decide (t + 2 * secCounts ≤ s.pwr.aoCnt)
    | none => false

/-- SHED_RESTORE (R74): a step of restoring. It begins only with P at or below T − 3 W, and stops while P is above T or
POWER_BUDGET or THERMAL_TRIP is in force. -/
def execShedRestore (dt : Nat) (s0 : State) : R :=
  let s := advance dt s0
  let limit := if s.pwr.restoring then govTarget s else govTarget s - 3000
  if !shedActive s || !restoreDue s || anyInForce .powerBudget s || anyInForce .thermalTrip s || s.pwr.loss.isSome
      || decide (limit < (drawMw s : Int)) then .next s
  else
    let s1 := restoreStep { s with pwr := { s.pwr with restoring := true, restoreAt := s.pwr.aoCnt, hard := false } }
    .next { s1 with pwr := { s1.pwr with restoring := shedActive s1 } }

/-- POWER_BUDGET_RELEASE (R76): B has covered R_ns with 2 W to spare for 2 s. -/
def execPowerBudgetRelease (dt : Nat) (s0 : State) : R :=
  let s := advance dt s0
  match s.pwr.fitSince with
  | some t => if t + 2 * secCounts ≤ s.pwr.aoCnt then .next (release .powerBudget 0 0 s) else .next s
  | none => .next s

/-! ### Power loss (R76, R80, R81, R109) -/

/-- A hold output ramps to 0 V within 2 ms (R80, step 3); a range change ends with the ramp. -/
def holdLoss (s : State) (n : Nat) : State :=
  let r := holdRt s n
  setHoldRt n { holdMove s.sysCnt 0 (ceilDiv (holdValue r s.sysCnt).natAbs 2) r with rc := none } s

/-- Speakers, headset outputs and all phantom are cut (R80, step 2). -/
def cutLoads (s : State) : State :=
  let s1 := ((List.range 4).map (mkHandle 0x83) ++ (List.range 2).map (mkHandle 0x84)).foldl (fun a h =>
    setOutRt h { outRt a h with clamped := true } (shutGate h a)) s
  { s1 with inp := { s1.inp with ph := s1.inp.ph.foldl (fun t e => tset {} t e.1 { ext := e.2.ext }) [] } }

/-- Commands already queued or running are abandoned, and no reply waits (R80). -/
def abandon (c : Cmd) : Cmd :=
  { c with inBuf := [], queue := [], running := none, preempted := [], store := [], holding := [], timed := [],
           landing := [], late := [] }

/-- The sequence begins: the power-loss commit captures first; commits of a graph that have not begun are abandoned. -/
def powerLoss (s0 : State) : State :=
  let s := powerLossCommit s0
  let s1 := cutLoads { s with
    pwr := { s.pwr with loss := some s.sysCnt, hupCharging := false }
    cmd := abandon s.cmd
    mix := { s.mix with deferred := [] }
    gr := { s.gr with stage := {}, armed := none, pendingTrig := none, caps := [], commitHdr := none } }
  notePads ((List.range 8).foldl holdLoss s1)

/-- The module is unpowered: what is not stored is gone (R80 step 5, R103, R104, R117). -/
def powerOff (s0 : State) : State :=
  let s := settleMark s0
  let v := { s.vint with
    current := none, running := none, armed := none, pendingReq := none, autoSince := 0, overruns := 0, lastContent := none
    bulkNow := []
    pool := s.vint.pool.filter (·.complete) }
  let l := s.life
  { pending := s.pending, seed := s.seed
    pads := { s.pads with
      gpioOut := 0, gpioDriven := 0, pwrGood := false, pdStat0 := false, pdStat1 := false, wclkOut := none, mclkOut := none }
    pwr := { portA := { granted := s.pwr.portA.granted, applied := s.pwr.portA.applied || s.pwr.portA.supplying }
             portB := { granted := s.pwr.portB.granted, applied := s.pwr.portB.applied || s.pwr.portB.supplying } }
    life := { state := l.state, integratorKey := l.integratorKey, netKeys := l.netKeys, minSec := l.minSec
              imageA := l.imageA, imageB := l.imageB, defaultImage := l.defaultImage, trialMark := l.trialMark }
    vint := poolTidy v
    flt := { log := s.flt.log, boot := s.flt.boot } }

/-- A port that still has its supply takes input power good at once (R81). -/
def regain (s : State) (x : NetPort) : State :=
  let q := pdPort s x
  if q.applied then
    let s1 := if s.life.mode = .off then startAo s else s
    setPd x { q with applied := false, supplying := true, goodAt := s1.pwr.aoCnt, lldp := hostLldp s1.cfg.policy x } s1
  else s

/-- HOLD_UP_EXHAUSTED (R80 step 5, R81). -/
def execHoldUpExhausted (dt : Nat) (s0 : State) : R :=
  let s := advance dt s0
  if s.pwr.loss.isNone then .next s else .next (regain (regain (powerOff s) .a) .b)

/-- A port's supply stops. -/
def portStops (x : NetPort) (stops : Bool) (s : State) : State := if stops then setPd x {} s else s

/-- PORT_SUPPLY_STOPPED (R76, R80): a port that counted is lost while the other counts, or the power-loss sequence begins.
Where no port supplies and none had counted, AO has no supply left. -/
def execPortSupplyStopped (dt : Nat) (a b : Bool) (s0 : State) : R :=
  let s := advance dt s0
  let ca := s.pwr.portA.counting
  let cb := s.pwr.portB.counting
  let s1 := portStops .b b (portStops .a a s)
  let left := s1.pwr.portA.counting || s1.pwr.portB.counting
  if s.pwr.loss.isSome then .next s1
  else if left then
    let lost (x : NetPort) (was stops : Bool) (t : State) : State :=
      if was && stops then raise .powerPortLost 0 (portIdx x) (BitVec.ofNat 32 (portIdx x)) t else t
    .next (notePads (lost .b cb b (lost .a ca a s1)))
  else if ca || cb then .next (powerLoss s1)
  else if s1.pwr.aoOn && !s1.pwr.portA.supplying && !s1.pwr.portB.supplying then .next (powerOff s1)
  else .next s1

/-! ### POWER_STATUS and POWER_POLICY (R82, R84) -/

/-- R_ns in mW; the manual does not say how it is rounded. -/
def rnsMw (s : State) : Nat := (freeDiv 10 (s.pwr.rns : Nat) 1000).toNat

/-- The governing speaker ceiling of the module (R82): the smaller of both outputs'. -/
def spkGoverning (s : State) : Int := min (ceilingRel s (mkHandle 0x84 0)) (ceilingRel s (mkHandle 0x84 1))

/-- POWER_STATUS. -/
def execPowerStatus (h : Hdr) (p : Bytes) (s : State) : R :=
  opcodeN .powerStatus 0 h p (fun s =>
    let w := s.pwr
    let m := w.meas
    let cls (q : PdPort) : Bytes := le 1 (if q.supplying then q.granted else 0)
    .reply .ok (le 1 (flag 0 w.portA.counting + flag 1 w.portB.counting + flag 2 (w.portA.supplying && !w.portA.counting)
          + flag 3 (w.portB.supplying && !w.portB.counting))
        ++ cls w.portA ++ cls w.portB ++ le 1 w.flags.toNat ++ le 4 (effAlloc w.portA) ++ le 4 (effAlloc w.portB)
        ++ le 4 w.budget ++ le 4 (rnsMw s) ++ le 4 (drawMw s) ++ le 4 m.drawA ++ le 4 m.drawB ++ le 4 m.vpdA
        ++ le 4 m.vpdB ++ le 4 m.hupMv ++ le 2 m.aux3Ma ++ le 2 m.aux5Ma ++ leI 4 (spkGoverning s) ++ leI 4 w.hsLevel
        ++ le 4 w.phShed.toNat ++ le 4 m.dissMw ++ le 8 s.sysCnt) (clearEvent 3 s)) s

/-- The policy of a payload. -/
def policyOf (p : Bytes) : PowerPolicyCfg := ⟨u8 p 0 == 1, u8 p 1, u8 p 2, u32 p 4, u32 p 8⟩

/-- A new policy's LLDP allocation of a port, from the next period on: HOST reports it, a change of mode or OFF ends it. -/
def policyLldp (old new : PowerPolicyCfg) (x : NetPort) (s : State) : State :=
  if new.lldpMode = 0 ∧ old.lldpMode = 0 then s
  else setPd x { pdPort s x with lldpNext := some (hostLldp new x) } s

/-- Checks of POWER_POLICY. -/
def checkPowerPolicy (p : Bytes) (s : State) : Status :=
  let c := policyOf p
  checks
    [ (decide (1 < u8 p 0), .badParam),
      (decide (2 < u8 p 1), .badParam),
      (decide (c.guardW < 1) || decide (10 < c.guardW), .outOfRange),
      (u8 p 3 != 0, .badParam),
      (decide (71300 < c.lldpA), .outOfRange),
      (decide (71300 < c.lldpB), .outOfRange),
      (c.onePort && decide (1000 * smallerAlloc s < rnsUw s), .noResource) ]

/-- POWER_POLICY lands. -/
def landPowerPolicy (p : Bytes) (s : State) : State :=
  let c := policyOf p
  policyLldp s.cfg.policy c .b (policyLldp s.cfg.policy c .a { s with cfg := { s.cfg with policy := c } })

/-- POWER_POLICY. -/
def execPowerPolicy (h : Hdr) (p : Bytes) (s : State) : R :=
  opcodeN .powerPolicy 12 h p (landing .powerPolicy h p (checkPowerPolicy p)) s

end Sys2Proof.Machine
end

