-- ==== Sys2Proof/Machine/Supervision.lean ====
section
/-! DEFINITION. Reading and acknowledging faults, the fault log, temperature and adaptive voltage scaling
(R508 to R521). -/

namespace Sys2Proof.Machine

/-- The CLASS byte of a record (R502). -/
def classByte (k : FaultClass) (injected released : Bool) : Nat := classCode k + flag 3 injected + flag 4 released

/-- A record of 16 bytes (R502). -/
def recordBytes (r : FaultRec) : Bytes :=
  le 2 (faultNum r.code).toNat ++ le 1 (classByte r.cls r.injected r.released) ++ le 1 r.seq.toNat
    ++ le 2 r.object.toNat ++ le 6 r.stamp ++ le 4 r.detail.toNat

/-- A queue entry of 32 bytes (R509). -/
def queueEntry (r : FaultRec) : Bytes := recordBytes r ++ le 4 r.repeats ++ zeros 4 ++ le 8 r.lastStamp

/-- A condition in force as a record of 16 bytes (R509). -/
def conditionBytes (c : Condition) : Bytes :=
  le 2 (faultNum c.code).toNat ++ le 1 (classByte (faultClass c.code) false false) ++ le 1 c.seq.toNat
    ++ le 2 c.object.toNat ++ le 6 c.stamp ++ le 4 c.detail.toNat

/-- A log record of 16 bytes (R510). -/
def logBytes (r : LogRec) : Bytes :=
  le 2 (faultNum r.code).toNat ++ le 1 (classByte r.cls r.injected false) ++ le 1 r.boot.toNat ++ le 2 r.object.toNat
    ++ le 2 r.ms.toNat ++ le 4 r.time.toNat ++ le 4 r.detail.toNat

/-- RECOVERY_SEQ as a byte (R509). -/
def recoveryByte (s : State) : Nat := match s.flt.recoverySeq with
  | some q => q.toNat
  | none => 0xFF

/-- The 32-byte header of FAULT_READ (R509). -/
def faultHeader (s : State) (mode count total : Nat) : Bytes :=
  le 8 s.sysCnt ++ le 1 mode ++ le 1 count ++ le 1 s.flt.queue.length
    ++ le 1 (s.flt.queue.filter (fun r => r.cls == .safety)).length ++ le 4 (sat32 s.flt.lost) ++ le 2 total
    ++ le 1 (recoveryByte s) ++ le 1 s.flt.nextSeq.toNat ++ zeros 12

/-- FAULT_READ (R509). -/
def execFaultRead (h : Hdr) (p : Bytes) (s : State) : R :=
  opcodeN .faultRead 4 h p (fun s =>
    let mode := u8 p 0
    let m := u8 p 1
    let i := u16 p 2
    if 2 < mode then refuse .badParam s
    else if m < 1 ∨ 32 < m then refuse .outOfRange s
    else if mode = 0 then
      let q := s.flt.queue
      .reply .ok (faultHeader s 0 q.length q.length ++ q.flatMap queueEntry) s
    else if mode = 1 then
      let l := (s.flt.active.drop i).take m
      .reply .ok (faultHeader s 1 l.length s.flt.active.length ++ l.flatMap conditionBytes) s
    else
      let l := (s.flt.log.drop i).take m
      .reply .ok (faultHeader s 2 l.length s.flt.log.length ++ l.flatMap logBytes) s) s

/-- Removes the records with the listed sequence numbers; how many were removed. -/
def ackAll (l : List Nat) (q : List FaultRec) : List FaultRec × Nat :=
  l.foldl (fun (a : List FaultRec × Nat) n =>
    if a.1.any (fun r => r.seq.toNat == n) then (dropOne (fun r => r.seq.toNat == n) a.1, a.2 + 1) else a) (q, 0)

/-- FAULT_ACK (R508). -/
def execFaultAck (h : Hdr) (p : Bytes) (s : State) : R :=
  opcode .faultAck h p (fun s =>
    let n := u8 p 0
    if p.length < 4 then refuse .badLength s
    else if n < 1 ∨ 32 < n then refuse .outOfRange s
    else if !zeroAt p 1 3 then refuse .badParam s
    else if p.length ≠ 4 + paddedLen n then refuse .badLength s
    else if !zeroAt p (4 + n) (paddedLen n - n) then refuse .badParam s
    else
      let (q, k) := ackAll ((List.range n).map (fun i => u8 p (4 + i))) s.flt.queue
      .reply .ok (le 1 k ++ le 1 (n - k) ++ le 1 q.length ++ zeros 1)
        { s with flt := { s.flt with queue := q } }) s

/-- FAULT_LOG_WRITE (R510): the oldest waiting record enters the ring of 2048, newest first. -/
def execFaultLogWrite (dt : Nat) (s0 : State) : R :=
  let s := advance dt s0
  match s.flt.logPending with
  | [] => .next s
  | r :: t =>
    let tai := taiAt s.clk r.stamp
    let sec := if s.clk.taiValid then BitVec.ofInt 32 (tai / 1000000000)
      else BitVec.ofNat 32 (r.stamp / secCounts) ||| 0x80000000
    let ms := if s.clk.taiValid then BitVec.ofInt 16 (tai % 1000000000 / 1000000)
      else BitVec.ofNat 16 (r.stamp % secCounts / msCounts)
    let e : LogRec := ⟨r.code, r.cls, r.injected, s.flt.boot, r.object, ms, sec, r.detail⟩
    .next { s with flt := { s.flt with logPending := t, log := (e :: s.flt.log).take 2048 } }

/-! ### Temperature (R515 to R519) -/

/-- Index and value of the hottest sensor (R515). -/
def hottest (t : List Int) : Nat × Int :=
  (t.zipIdx).foldl (fun (a : Nat × Int) e => if a.2 < e.1 then (e.2, e.1) else a) (0, t.headD 0)

/-- DETAIL of a THERMAL fault (R515): sensor, and T_j in 0.1 °C. -/
def thermalDetail (t : List Int) : Word :=
  let (i, v) := hottest t
  BitVec.ofNat 32 i ||| (BitVec.ofInt 32 (freeDiv 51 v 100) <<< 16)

/-- THERMAL_STATUS (R519). -/
def execThermalStatus (h : Hdr) (p : Bytes) (s : State) : R :=
  opcodeN .thermalStatus 0 h p (fun s =>
    let t := s.flt.th
    let f := flag 0 (anyInForce .thermalWarn s) + flag 1 (anyInForce .thermalTrip s) + flag 2 (anyInForce .avsMargin s)
      + flag 3 t.reset135
    .reply .ok (le 8 s.sysCnt ++ le 1 f ++ le 1 (hottest t.temp).1 ++ zeros 2
      ++ (List.range 8).flatMap (fun i => leI 4 (t.temp.getD i 0)) ++ leI 4 t.peak ++ le 2 t.avsBlend ++ le 2 t.avsCoop
      ++ leI 2 (freeDiv 52 t.slackBlend 10) ++ leI 2 (freeDiv 52 t.slackCoop 10) ++ leI 4 t.warnCeiling ++ zeros 4) s) s

/-- A condition that holds now has held since `t`, or since now. -/
def sinceWhen (on : Bool) (now : Nat) (t : Option Nat) : Option Nat := if on then some (t.getD now) else none

/-- It has held for `n` counts. -/
def heldFor (n now : Nat) (t : Option Nat) : Bool := match t with
  | some u => decide (u + n ≤ now)
  | none => false

/-- THERMAL_WARN_RELEASE (R516): below 100 °C for 10 s; the ceilings rise from now on. -/
def execThermalWarnRelease (dt : Nat) (s0 : State) : R :=
  let s := advance dt s0
  if inForce .thermalWarn 0 0 s && heldFor (10 * secCounts) s.sysCnt s.flt.th.below100 then
    .next (release .thermalWarn 0 0 { s with flt := { s.flt with th := { s.flt.th with warnStep := s.sysCnt } } })
  else .next s

/-- THERMAL_TRIP_RELEASE (R517): below 110 °C for 60 s. -/
def execThermalTripRelease (dt : Nat) (s0 : State) : R :=
  let s := advance dt s0
  .next (if heldFor (60 * secCounts) s.sysCnt s.flt.th.below110 then release .thermalTrip 0 0 s else s)

/-! ### Adaptive voltage scaling (R520) -/

/-- One step of a rail at its worst slack, in 0.01 % of a cycle: 5 mV up below 3 %, down above 8 %, within 650 to
900 mV. -/
def avsRail (mv : Nat) (slack : Int) : Nat :=
  if slack < 300 then min 900 (mv + 5) else if 800 < slack then max 650 (mv - 5) else mv

end Sys2Proof.Machine
end

