-- ==== Sys2Proof/Machine/Registers.lean ====
section
/-! DEFINITION. The expert registers: every documented register of R85, R220, R250, R281, R314, R333, R360, R392, R420, R454,
R478 and R521, REG_READ and REG_WRITE with their shadows (R167 to R169, R174, R175), and the registers whose write has a
command of its own. -/

namespace Sys2Proof.Machine

/-! ### Reading -/

/-- What stands at an address: nothing documented (R20), a 32-bit register, or a word of a 64-bit register. -/
inductive RegVal where
  | absent
  | word (v : Nat)
  | low (v : Nat)
  | high (v : Nat)
  deriving DecidableEq, Repr

/-- A signed register. -/
def regI (v : Int) : RegVal := .word (v % 4294967296).toNat

/-- Entry `i` of a list of registers, each an offset and its value; a 64-bit register stands at two offsets. -/
def regPick : List (Nat × RegVal) → Nat → RegVal
  | [], _ => .absent
  | (o, v) :: t, off =>
    match v with
    | .low n => if off = o then .low n else if off = o + 4 then .high n else regPick t off
    | r => if off = o then r else regPick t off

/-- Quantities `Config.measure` is asked for here: PHY pair order, PHY clock role, signal-to-noise margin, Cask words of no known
owner, buffer space, instantaneous power. -/
def qMdiX : Nat := 32
def qPhyMaster : Nat := 33
def qPhySnr : Nat := 34
def qCask : Nat := 35
def qRxBuf : Nat := 36
def qPwrInst : Nat := 39

/-- A measured count or level as a word. -/
def regMeas (q i : Nat) (s : State) : RegVal := regI (Config.measure q i s.sysCnt)

/-- Input power of a port, which AO takes anew every 100 µs (R85). -/
def pwrInst (s : State) (i : Nat) : RegVal := regI (Config.measure qPwrInst i (s.pwr.aoCnt / 20000))

/-- Hold output registers (R314). -/
def holdRegs (s : State) (n : Nat) : List (Nat × RegVal) :=
  let r := holdRt s n
  let now := s.sysCnt
  [ (0x00, regI (holdValue r now)), (0x04, regMeas qHoldMeas n s), (0x08, regMeas qHoldCurrent n s),
    (0x0C, .word (r.range + flag 2 r.audio + 8 * rcStep r now + flag 6 (holdClamped s n) + flag 7 r.ilimit
      + flag 8 (holdAtSafe s n))),
    (0x10, regI (Config.measure qCalGain (8 * r.range + n) 0)), (0x14, regI (Config.measure qCalOffset (8 * r.range + n) 0)),
    (0x18, .word (bit r.clampTest)) ]

/-- Headset port registers (R333). -/
def hsRegs (s : State) (n : Nat) : List (Nat × RegVal) :=
  let r := hsRt s n
  let v := vIdleNow s n
  [ (0x00, .word (hsCode r.state + 4 * r.type + flag 5 (r.present == (hsCfg s n).detPol) + flag 6 r.order + flag 7 r.bias
      + 256 * cycleStep s n)),
    (0x04, .word (micUv s n)), (0x08, .word v) ]
    ++ buttonBounds.zipIdx.map (fun e => (0x0C + 4 * e.2, RegVal.word (freeDiv 50 (e.1 * v : Nat) 1000).toNat))
    ++ [ (0x20, .word r.zL), (0x24, .word r.zR), (0x28, .word r.zMic), (0x2C, .word r.cycles), (0x30, .word r.overruns),
         (0x34, .word (bit r.trackFreeze)), (0x38, .word r.forceType) ]

/-- The AO region (R85, R220, R314, R333). -/
def aoReg (s : State) (a : Nat) : RegVal :=
  if 0x400 ≤ a ∧ a < 0x500 then regPick (holdRegs s ((a - 0x400) / 32)) (a % 32)
  else if 0x600 ≤ a ∧ a < 0x680 then regPick (hsRegs s ((a - 0x600) / 64)) (a % 64)
  else regPick
    [ (0x100, .low s.sysCnt), (0x200, pwrInst s 0), (0x204, pwrInst s 1),
      (0x208, .word s.pwr.govTest.toNat), (0x20C, .word s.pwr.govEvents),
      (0x210, .word (flag 0 s.pwr.hupCharging + flag 1 s.pwr.hupReady)) ] a

/-- Converter registers of an input, or of Taster t under 32 + t (R250). -/
def convRegs (s : State) (k : Nat) : List (Nat × RegVal) :=
  let x := chanIn s k
  let ph := decide (k < 32)
  [ (0x00, regI (matchGain x k)), (0x04, regI (matchDelay x k)), (0x08, regI x.residual),
    (0x0C, regI (if x.env = 0 then -144000 else wholeMdb 66 (dbWide (x.env * 2 ^ 59)))), (0x10, .word x.weight),
    (0x14, .word (if ph then 100 * phCurrent s k else 0)), (0x18, if ph then regI (phVoltage s k) else .word 0),
    (0x1C, .word x.muShift), (0x20, .word x.pathForce), (0x24, .word x.overCount), (0x28, .word x.fsCount) ]

/-- Line output registers (R314). -/
def lineRegs (s : State) (n : Nat) : List (Nat × RegVal) :=
  let x := outRt s (mkHandle 0x81 n)
  [ (0x00, regI (servoValue n 0 x)), (0x04, regI (servoValue n 1 x)), (0x08, regMeas qDcErrP n s), (0x0C, regMeas qDcErrM n s),
    (0x10, .word x.ilimCount), (0x14, .word x.servoTc.toNat) ]

/-- Speaker registers (R314). -/
def spkRegs (s : State) (n : Nat) : List (Nat × RegVal) :=
  let r := spkRt s n
  [ (0x00, .word r.mohm), (0x04, .word r.limitCount), (0x08, regI (stageTherm s n).temp),
    (0x0C, regI (ceilingRel s (mkHandle 0x84 n))) ]

/-- The CONV region. -/
def convReg (s : State) (a : Nat) : RegVal :=
  if a < 0x800 then regPick (convRegs s (a / 64)) (a % 64)
  else if a < 0x880 then regPick (convRegs s (32 + (a - 0x800) / 64)) (a % 64)
  else if 0x1000 ≤ a ∧ a < 0x1400 then regPick (lineRegs s ((a - 0x1000) / 32)) (a % 32)
  else if 0x1800 ≤ a ∧ a < 0x1840 then regPick (spkRegs s ((a - 0x1800) / 32)) (a % 32)
  else regPick [ (0x1840, regI (stageTherm s 2).temp), (0x1844, regI (stageTherm s 3).temp) ] a

/-- Registers of a chain (R281). -/
def chainRegs (s : State) (pour : Bool) (c : Nat) : List (Nat × RegVal) :=
  let x := chainOf s pour c
  [ (0x0, .word (fstateCode x.state + flag 3 x.gateOpen + 65536 * settleLeft x)),
    (0x4, .word (if pour then x.satCount else 0)), (0x8, .low x.clearStamp) ]

/-- The FILT region. -/
def filtReg (s : State) (a : Nat) : RegVal :=
  let f := s.filt
  if a < 0x240 then regPick (chainRegs s false (a / 16)) (a % 16)
  else if 0x400 ≤ a ∧ a < 0x6E0 then regPick (chainRegs s true ((a - 0x400) / 16)) (a % 16)
  else if 0x1000 ≤ a ∧ a < 0x1800 then .word (f.captureBuf.getD ((a - 0x1000) / 4) 0).toNat
  else regPick
    [ (0x800, .word f.syncInCount), (0x808, .low f.syncInStamp), (0x810, .low s.cfg.filt.selPress.toNat),
      (0x818, .low s.cfg.filt.selPour.toNat), (0x820, .word (f.capture + 256 * f.captureChain + flag 16 f.captureDir)) ] a

/-- The BLEND region (R360, R392). -/
def blendReg (s : State) (a : Nat) : RegVal :=
  let g := s.gr
  let m := s.mix
  let o := m.ovr
  regPick
    [ (0x00, .word (flag 0 g.bank + flag 1 (g.rack == .rack) + flag 2 (g.rack == .dip) + flag 3 g.pendingTrig.isSome)),
      (0x04, .word (g.prog.rows + 65536 * g.rowsLast)), (0x08, .word (if g.rack = .idle then 0 else g.rackN - g.rackK)),
      (0x0C, .word g.generation), (0x10, .word g.rackCount), (0x14, .word g.dipCount), (0x18, .word (g.minIdle.getD 0)),
      (0x20, .low g.commitStamp),
      (0x100, .word m.ramps.length), (0x104, .word m.rampPeak), (0x108, .word m.deferred.length), (0x10C, .word m.satCount),
      (0x110, .word m.satLast.toNat), (0x114, .word m.corkTimeouts),
      (0x118, .word (flag 0 (!s.pads.ovrN) + flag 1 o.command + flag 2 o.inForce + 256 * o.frame)),
      (0x11C, .word o.count), (0x120, .low o.arrive), (0x128, .low o.landed) ] a

/-- The word of an accumulator at one of its three offsets (R478). -/
def accWord (v : BitVec 72) (i : Nat) : RegVal :=
  if i = 0 then .word (v.toNat % 4294967296) else if i = 1 then .word (v.toNat / 4294967296 % 4294967296)
  else regI (v.toInt / 18446744073709551616)

/-- The register file shows while the core is halted by debug or trapped; it reads zero otherwise (R478). -/
def fileShown (c : Core) : Bool := c.state == .halted || c.state == .trapped

/-- A register of the register file, by its offset from 0x100. -/
def coreFile (c : Core) (a : Nat) : RegVal :=
  let g := c.regs
  if a < 0x40 then .word (regD g (a / 4)).toNat
  else if a < 0x80 then (if a % 16 = 12 then .absent else accWord (regA g ((a - 0x40) / 16)) (a % 16 / 4))
  else if a < 0xA0 then .word (regP g ((a - 0x80) / 4)).toNat
  else if a < 0xC0 then .word (regN g ((a - 0xA0) / 4)).toNat
  else if a < 0xE0 then .word (regM g ((a - 0xC0) / 4)).toNat
  else regPick [ (0xE0, .low g.tb.toNat), (0xE8, .word g.be.toNat), (0xEC, .word (srWord c).toNat) ] a

/-- A documented register reads zero. -/
def regZero : RegVal → RegVal
  | .absent => .absent
  | .word _ => .word 0
  | .low _ => .low 0
  | .high _ => .high 0

/-- The COOP region of a core (R478). -/
def coopReg (s : State) (k a : Nat) : RegVal :=
  let c := coreOf s k
  if 0x100 ≤ a ∧ a < 0x1F0 then (if fileShown c then coreFile c (a - 0x100) else regZero (coreFile c (a - 0x100)))
  else if 0x28 ≤ a ∧ a < 0x38 then .word (c.breaks.getD ((a - 0x28) / 4) 0).toNat
  else if 0x20000 ≤ a ∧ a < 0x40000 then .word (tget 0 c.xmem ((a - 0x20000) / 4)).toNat
  else if 0x40000 ≤ a ∧ a < 0x60000 then .word (tget 0 c.ymem ((a - 0x40000) / 4)).toNat
  else if 0x60000 ≤ a ∧ a < 0x70000 then .word (tget 0 c.prog ((a - 0x60000) / 4)).toNat
  else regPick
    [ (0x00, .word (coopCode c.state + flag 3 c.waiting.isSome + flag 4 (lateNow c) + 256 * c.trapReason)),
      (0x04, .word (4 * c.pc)), (0x08, .word (sat32 c.cyclesLast)), (0x0C, .word (sat32 c.cyclesPeak)), (0x10, .low c.blocks),
      (0x18, .low c.boundary), (0x20, .word ((c.dma.zipIdx.map (fun e => flag e.2 e.1.now.isSome)).sum)),
      (0x24, .word (if coreLoaded c then Config.caskPool + c.caskOff else 0)) ] a

/-- TDM port registers (R420). -/
def tdmRegs (s : State) (p : Nat) : List (Nat × RegVal) :=
  let x := portRt s p
  let dec := isDecant s.cfg.clock.decant (rxDecant p) || isDecant s.cfg.clock.decant (txDecant p)
  [ (0x00, .word (pstateCode x.state + 4 * portClock s p true + flag 4 (portMaster s p) + flag 5 dec + flag 6 x.loopback)),
    (0x04, .word x.bclkHz), (0x08, .word x.bclksLast), (0x0C, .word x.queue.length), (0x10, .low x.frames),
    (0x18, .low (max x.rxStamp.stamp x.txStamp.stamp)), (0x20, .word (bit x.loopback)) ]

/-- AES3 receiver registers (R420). -/
def aesRxRegs (s : State) (x : Nat) : List (Nat × RegVal) :=
  let r := portRt s (4 + x)
  let m := tget ({} : Monitor) s.clk.monitors (4 + x)
  let key := rxDecant (4 + x)
  let dec := isDecant s.cfg.clock.decant key
  [ (0x00, .word (pstateCode r.state + 4 * portClock s (4 + x) true
      + flag 4 (r.state != .stopped && m.seen && !m.lost) + flag 5 dec)),
    (0x04, .word (if dec then (tget ({} : DecantState) s.clk.decant key).rateMhz else stampRate r.rxStamp)),
    (0x08, .word r.parityCount), (0x0C, .word r.csCrcCount), (0x10, .low r.frames), (0x18, .low r.rxStamp.stamp),
    (0x20, RegVal.word r.biphase) ]

/-- AES3 transmitter registers (R420). -/
def aesTxRegs (s : State) (x : Nat) : List (Nat × RegVal) :=
  let r := portRt s (8 + x)
  [ (0x00, .word (pstateCode r.state + 4 * (if r.fallback then 5 else (txCfg s x).txClock) + flag 5 r.fallback
      + flag 6 (isDecant s.cfg.clock.decant (txDecant (8 + x))))),
    (0x04, .word (stampRate r.txStamp)), (0x08, .word r.vSent), (0x0C, .word r.blockPos), (0x10, .low r.frames),
    (0x18, .low r.txStamp.stamp) ]

/-- The PORT region. -/
def portReg (s : State) (a : Nat) : RegVal :=
  if a < 0x100 then regPick (tdmRegs s (a / 64)) (a % 64)
  else if 0x200 ≤ a ∧ a < 0x300 then regPick (aesRxRegs s ((a - 0x200) / 64)) (a % 64)
  else if 0x400 ≤ a ∧ a < 0x500 then regPick (aesTxRegs s ((a - 0x400) / 64)) (a % 64)
  else .absent

/-- Network port by number (R454). -/
def linkOfNum (n : Nat) : LinkPort := if n = 0 then .neta else if n = 1 then .netb else .hostnet

/-- Network port registers (R454). -/
def linkRegs (s : State) (n : Nat) : List (Nat × RegVal) :=
  let l := linkOfNum n
  let x := linkOf s l
  let q (k : Nat) : Bool := decide (0 < Config.measure k n s.sysCnt)
  [ (0x00, .word (linkCode s l + flag 3 (q qMdiX) + flag 4 (q qPhyMaster))), (0x04, .word x.rxFrames), (0x08, .word x.txFrames),
    (0x0C, .word x.fcsErr), (0x10, .word x.queueDrops), (0x14, .word x.stormDrops), (0x18, .word (txKbps s l)),
    (0x1C, if n = 2 then .word 0 else regMeas qPhySnr n s), (0x20, .low x.lastUp), (0x28, .word (bit x.phyLoop)) ]

/-- The NET region. -/
def netReg (s : State) (a : Nat) : RegVal :=
  if a < 0xC0 then regPick (linkRegs s (a / 64)) (a % 64)
  else regPick
    [ (0x100, .word s.net.fdb.length), (0x104, .word s.net.tcMaxNs), (0x108, regMeas qRxBuf 0 s), (0x10C, .word s.net.ctrlPrio) ] a

/-- The CLOCK region (R220). -/
def clockReg (s : State) (a : Nat) : RegVal :=
  let c := s.clk
  let l := c.pll
  regPick
    [ (0x00, regI l.freq), (0x04, regI (clampI (-2147483648) 2147483647 l.phase)),
      (0x08, .word (l.bw + flag 8 l.forcedBw.isSome + 512 * pllCode l.state)), (0x0C, regI l.holdFreq),
      (0x10, .low (c.ptpOffset % 18446744073709551616).toNat), (0x18, regI c.taiRate), (0x20, .low c.stamp),
      (0x28, .low c.frame), (0x30, .word c.glitchTotal) ] a

/-- The FAULT region (R521). -/
def faultReg (s : State) (a : Nat) : RegVal :=
  let f := s.flt
  let safety := (f.queue.filter (fun r => r.cls == .safety)).length
  if 0x10 ≤ a ∧ a < 0x30 then regI (f.th.temp.getD ((a - 0x10) / 4) 0)
  else regPick
    [ (0x00, .word (f.queue.length + 256 * safety + 65536 * f.nextSeq.toNat
        + flag 24 (s.life.mode == .recovery && f.recoverySeq.isSome))),
      (0x04, .word (sat32 f.lost)), (0x08, .word f.active.length), (0x30, .word f.th.avsBlend), (0x34, .word f.th.avsCoop),
      (0x38, regI f.th.slackBlend), (0x3C, regI f.th.slackCoop), (0x40, .word f.th.avsSteps), (0x48, .low f.lastDetect),
      (0x50, .word f.injectCode.toNat), (0x54, .word f.injectObj.toNat) ] a

/-- A word of Cask (R174, R460): a core's allocation, or a word whose place the manual does not give. -/
def caskReg (s : State) (a : Nat) : RegVal :=
  let own := s.coop.find? (fun e => coreLoaded e.2 && decide (Config.caskPool + e.2.caskOff ≤ a)
    && decide (a < Config.caskPool + e.2.caskOff + 1024 * e.2.image.caskKib))
  match own with
  | some (_, c) => .word (tget 0 c.cask ((a - Config.caskPool - c.caskOff) / 4)).toNat
  | none => regMeas qCask a s

/-- The register at an address. -/
def regAt (s : State) (a : Nat) : RegVal :=
  let o := a % 0x100000
  match a / 0x100000 with
  | 0 => aoReg s o
  | 2 => convReg s o
  | 3 => filtReg s o
  | 4 => blendReg s o
  | 5 => coopReg s 0 o
  | 6 => coopReg s 1 o
  | 7 => coopReg s 2 o
  | 8 => coopReg s 3 o
  | 9 => portReg s o
  | 10 => netReg s o
  | 11 => clockReg s o
  | 12 => faultReg s o
  | n => if 0x100 ≤ n ∧ n < 0x200 then caskReg s (a - 0x10000000) else .absent

/-- What a list holds for a requester, and writing it. -/
def perRequester {α : Type} (d : α) (l : List (Requester × α)) (rq : Requester) : α :=
  match l.find? (fun e => e.1 == rq) with
  | some e => e.2
  | none => d
def putRequester {α : Type} (rq : Requester) (x : α) (l : List (Requester × α)) : List (Requester × α) :=
  l.filter (fun e => e.1 != rq) ++ [(rq, x)]

/-- The read shadow of a requester (R167). -/
def readShadowOf (s : State) (rq : Requester) : ReadShadow := perRequester {} s.cmd.readShadow rq
def setReadShadow (rq : Requester) (x : ReadShadow) (s : State) : State :=
  { s with cmd := { s.cmd with readShadow := putRequester rq x s.cmd.readShadow } }

/-- Reads one word (R167, R168): its value, whether it is stale, and the shadow after. A stale read leaves the shadow as it is
(DESIGN CHOICE, log 95). -/
def readWord (rq : Requester) (a : Nat) (s : State) : Nat × Bool × State :=
  match regAt s a with
  | .absent => (0, false, s)
  | .word v => (v % 4294967296, false, s)
  | .low v =>
    (v % 4294967296, false, setReadShadow rq ⟨BitVec.ofNat 32 a, BitVec.ofNat 32 (v / 4294967296), false⟩ s)
  | .high _ =>
    let x := readShadowOf s rq
    if x.addr.toNat + 4 = a ∧ x.consumed = false then (x.high.toNat, false, setReadShadow rq { x with consumed := true } s)
    else (x.high.toNat, true, s)

/-- Reads `n` words at ascending addresses: their bytes, whether one was stale, and the state after. -/
def readWords (rq : Requester) : Nat → Nat → State → Bytes × Bool × State
  | 0, _, s => ([], false, s)
  | n + 1, a, s =>
    let (v, st, s1) := readWord rq a s
    let (l, st', s2) := readWords rq n (a + 4) s1
    (le 4 v ++ l, st || st', s2)

/-- REG_READ (R174). -/
def execRegRead (h : Hdr) (p : Bytes) (s : State) : R :=
  opcodeN .regRead 8 h p (fun s =>
    guardSt (checks
      [ (u32 p 0 % 4 != 0, .badParam),
        (u16 p 4 == 0 || decide (256 < u16 p 4), .outOfRange),
        (u16 p 6 != 0, .badParam) ]) s
      (let (l, stale, s1) := readWords h.rq (u16 p 4) (u32 p 0) s
       .reply (if stale then .shadowStale else .ok) l s1)) s

/-! ### Writing -/

/-- GOV_TEST (R85). -/
def writeGovTest (v : Nat) (s : State) : Except Status State :=
  if s.life.mode ≠ .hold then .error .wrongMode
  else if v / 2 % 32768 ≠ 0 then .error .badParam
  else if v % 2 = 1 ∧ (v / 65536 < 20 ∨ 110 < v / 65536) then .error .outOfRange
  else .ok { s with pwr := { s.pwr with govTest := BitVec.ofNat 32 v } }

/-- MU_SHIFT and PATH_FORCE (R250). -/
def writeMuShift (k v : Nat) (s : State) : Except Status State :=
  if v < 12 ∨ 20 < v then .error .outOfRange else .ok (setChanIn k { chanIn s k with muShift := v } s)

def writePathForce (k v : Nat) (s : State) : Except Status State :=
  if 3 < v then .error .badParam
  else if 2 ≤ v ∧ clockStopped s = false then .error .wrongMode
  else .ok (setChanIn k { chanIn s k with pathForce := v } s)

/-- CLAMP_TEST and SERVO_TC (R314). -/
def writeClampTest (n v : Nat) (s : State) : Except Status State :=
  if s.life.mode ≠ .hold then .error .wrongMode
  else if 1 < v then .error .badParam
  else .ok (holdRefresh 64 n (setHoldRt n { holdRt s n with clampTest := v == 1 } s))

def writeServoTc (n v : Nat) (s : State) : Except Status State :=
  if clockStopped s = false then .error .wrongMode
  else if 1 < v then .error .badParam
  else .ok (setOutRt (mkHandle 0x81 n) { outRt s (mkHandle 0x81 n) with servoTc := BitVec.ofNat 32 v } s)

/-- TRACK_FREEZE and FORCE_TYPE (R333). A frozen loop keeps the value it has. -/
def writeTrackFreeze (n : Fin 2) (v : Nat) (s : State) : Except Status State :=
  if 1 < v then .error .badParam
  else .ok (setHs n { hsRt s n with trackFreeze := v == 1, vIdle := some (vIdleNow s n) } s)

def writeForceType (n : Fin 2) (v : Nat) (s : State) : Except Status State :=
  if clockStopped s = false then .error .wrongMode
  else if 6 < v then .error .badParam
  else .ok (forceHs n v s)

/-- LOOPBACK (R420). -/
def writeLoopback (p v : Nat) (s : State) : Except Status State :=
  if s.life.mode ≠ .hold then .error .wrongMode
  else if portRuns s p then .error .busy
  else if 1 < v then .error .badParam
  else .ok (setPort p { portRt s p with loopback := v == 1 } s)

/-- PHY_LOOP (R454). -/
def writePhyLoop (l : LinkPort) (v : Nat) (s : State) : Except Status State :=
  if s.life.mode ≠ .hold then .error .wrongMode
  else if netRuns s then .error .busy
  else if 1 < v then .error .badParam
  else .ok (setLink l { linkOf s l with phyLoop := v == 1 } s)

/-- BREAK0 to BREAK3 (R478). -/
def writeBreak (k n v : Nat) (s : State) : Except Status State :=
  if clockStopped s = false then .error .wrongMode
  else if v / 16384 % 131072 ≠ 0 then .error .badParam
  else .ok (setCore k { coreOf s k with breaks := lset (coreOf s k).breaks n (BitVec.ofNat 32 v) } s)

/-- INJECT_CODE and INJECT_OBJ (R521). -/
def writeInjectCode (v : Nat) (s : State) : Except Status State :=
  if s.life.mode ≠ .hold then .error .wrongMode
  else match allFaults.find? (fun c => (faultNum c).toNat == v) with
    | none => .error .badParam
    | some c =>
      let s1 := newRecord c s.flt.injectObj 0 0 true s
      .ok { s1 with flt := { s1.flt with injectCode := BitVec.ofNat 16 v } }

def writeInjectObj (v : Nat) (s : State) : Except Status State :=
  if 65535 < v then .error .badParam else .ok { s with flt := { s.flt with injectObj := BitVec.ofNat 16 v } }

/-- Replaces a word of an accumulator: bits [31:0], [63:32], or [71:64]. -/
def accPut (a : BitVec 72) (i v : Nat) : BitVec 72 :=
  let n := a.toNat
  BitVec.ofNat 72 (if i = 0 then n / 4294967296 * 4294967296 + v
    else if i = 1 then n / 18446744073709551616 * 18446744073709551616 + v * 4294967296 + n % 4294967296
    else v % 256 * 18446744073709551616 + n % 18446744073709551616)

/-- The write shadow of a requester (R169). -/
def writeShadowOf (s : State) (rq : Requester) : WriteShadow := perRequester {} s.cmd.writeShadow rq
def setWriteShadow (rq : Requester) (x : WriteShadow) (s : State) : State :=
  { s with cmd := { s.cmd with writeShadow := putRequester rq x s.cmd.writeShadow } }

/-- A word of the register file other than TB, by its offset from 0x100; `none` where no register stands. -/
def filePut (a v : Nat) (g : CoopRegs) : Option CoopRegs :=
  let w := BitVec.ofNat 32 v
  if a < 0x40 then some (putD (a / 4) w g)
  else if a < 0x80 then
    (if a % 16 = 12 then none else some (putA ((a - 0x40) / 16) (accPut (regA g ((a - 0x40) / 16)) (a % 16 / 4) v) g))
  else if a < 0xA0 then some (putP ((a - 0x80) / 4) w g)
  else if a < 0xC0 then some (putN ((a - 0xA0) / 4) w g)
  else if a < 0xE0 then some (putM ((a - 0xC0) / 4) w g)
  else if a = 0xE8 then some { g with be := BitVec.ofNat 5 v }
  else if a = 0xEC then some { g with sr := BitVec.ofNat 13 v }
  else none

/-- The state in which the register file and the memory windows of a core may be written (R478, R530). -/
def corePermit (prog : Bool) (k : Nat) (s : State) : Status :=
  checks
    [ (!clockStopped s, .wrongMode), (prog && s.life.state == .deployed, .locked), ((coreOf s k).state != .halted, .busy) ]

/-- A write to a core's register file or memory windows; TB is written low word first (R169). `a` is the full address. -/
def writeCore (rq : Requester) (k o a v : Nat) (s : State) : Except Status State :=
  let c := coreOf s k
  let w := BitVec.ofNat 32 v
  let prog := decide (0x60000 ≤ o)
  match corePermit prog k s with
  | .ok =>
    if o = 0x1E0 then .ok (setWriteShadow rq ⟨BitVec.ofNat 32 a, w, true⟩ s)
    else if o = 0x1E4 then
      let x := writeShadowOf s rq
      if x.valid && x.addr.toNat + 4 == a then
        .ok (setCore k { c with regs := { c.regs with tb := w ++ x.low } } (setWriteShadow rq {} s))
      else .error .badParam
    else if o < 0x1F0 then
      match filePut (o - 0x100) v c.regs with
      | some g => .ok (setCore k { c with regs := g } s)
      | none => .ok s
    else if o < 0x40000 then .ok (setCore k { c with xmem := tset 0 c.xmem ((o - 0x20000) / 4) w } s)
    else if o < 0x60000 then .ok (setCore k { c with ymem := tset 0 c.ymem ((o - 0x40000) / 4) w } s)
    else .ok (setCore k { c with prog := tset 0 c.prog ((o - 0x60000) / 4) w } s)
  | st => .error st

/-- A documented address that no other case writes is read-only (R175); any other ignores the write (R20). -/
def writeOther (a : Nat) (s : State) : Except Status State :=
  match regAt s a with
  | .absent => .ok s
  | _ => .error .badParam

/-- The COOP region. -/
def writeCoop (rq : Requester) (k o a v : Nat) (s : State) : Except Status State :=
  if 0x28 ≤ o ∧ o < 0x38 then writeBreak k ((o - 0x28) / 4) v s
  else if (0x100 ≤ o ∧ o < 0x1F0 ∧ coreFile (coreOf s k) (o - 0x100) ≠ .absent) ∨ (0x20000 ≤ o ∧ o < 0x70000) then
    writeCore rq k o a v s
  else writeOther a s

/-- Writes one word (R175): the state after, or the status that refuses it. -/
def writeWord (rq : Requester) (a v : Nat) (s : State) : Except Status State :=
  let o := a % 0x100000
  match a / 0x100000 with
  | 0 =>
    if o = 0x208 then writeGovTest v s
    else if 0x400 ≤ o ∧ o < 0x500 ∧ o % 32 = 0x18 then writeClampTest ((o - 0x400) / 32) v s
    else if 0x600 ≤ o ∧ o < 0x680 ∧ o % 64 = 0x34 then writeTrackFreeze (Fin.ofNat 2 ((o - 0x600) / 64)) v s
    else if 0x600 ≤ o ∧ o < 0x680 ∧ o % 64 = 0x38 then writeForceType (Fin.ofNat 2 ((o - 0x600) / 64)) v s
    else writeOther a s
  | 2 =>
    if o < 0x880 ∧ o % 64 = 0x1C then writeMuShift (o / 64) v s
    else if o < 0x880 ∧ o % 64 = 0x20 then writePathForce (o / 64) v s
    else if 0x1000 ≤ o ∧ o < 0x1400 ∧ o % 32 = 0x14 then writeServoTc ((o - 0x1000) / 32) v s
    else writeOther a s
  | 5 => writeCoop rq 0 o a v s
  | 6 => writeCoop rq 1 o a v s
  | 7 => writeCoop rq 2 o a v s
  | 8 => writeCoop rq 3 o a v s
  | 9 => if o < 0x100 ∧ o % 64 = 0x20 then writeLoopback (o / 64) v s else writeOther a s
  | 10 => if o < 0xC0 ∧ o % 64 = 0x28 then writePhyLoop (linkOfNum (o / 64)) v s else writeOther a s
  | 12 => if o = 0x50 then writeInjectCode v s else if o = 0x54 then writeInjectObj v s else writeOther a s
  | _ => writeOther a s

/-- Writes words at ascending addresses; the first refused one refuses them all (R17). -/
def writeWords (rq : Requester) : Nat → List Nat → State → Except Status State
  | _, [], s => .ok s
  | a, v :: t, s =>
    match writeWord rq a v s with
    | .ok s1 => writeWords rq (a + 4) t s1
    | .error st => .error st

/-- Words that follow the header of REG_WRITE. -/
def regWords (p : Bytes) : List Nat := (List.range (u16 p 4)).map (fun i => u32 p (8 + 4 * i))

/-- A documented register that is read-only, or the Cask window (R175). -/
def regReadOnly (a : Nat) (s : State) : Bool :=
  match writeOther a s, a / 0x100000 with
  | .ok _, _ => false
  | .error _, 0 => !(a == 0x208 || (decide (0x400 ≤ a) && decide (a < 0x500) && a % 32 == 0x18)
      || (decide (0x600 ≤ a) && decide (a < 0x680) && (a % 64 == 0x34 || a % 64 == 0x38)))
  | .error _, 2 =>
    let o := a % 0x100000
    !((decide (o < 0x880) && (o % 64 == 0x1C || o % 64 == 0x20)) || (decide (0x1000 ≤ o) && decide (o < 0x1400) && o % 32 == 0x14))
  | .error _, 5 | .error _, 6 | .error _, 7 | .error _, 8 =>
    let o := a % 0x100000
    !((decide (0x28 ≤ o) && decide (o < 0x38)) || (decide (0x100 ≤ o) && decide (o < 0x1F0)) || decide (0x20000 ≤ o))
  | .error _, 9 => !(decide (a % 0x100000 < 0x100) && a % 64 == 0x20)
  | .error _, 10 => !(decide (a % 0x100000 < 0xC0) && a % 64 == 0x28)
  | .error _, 12 => !(a % 0x100000 == 0x50 || a % 0x100000 == 0x54)
  | .error _, _ => true

/-- A write shadow as 12 bytes, and back: it waits with the words it precedes. -/
def shadowBytes (x : WriteShadow) : Bytes := le 4 x.addr.toNat ++ le 4 x.low.toNat ++ le 4 (bit x.valid)
def shadowAt (p : Bytes) : WriteShadow := ⟨BitVec.ofNat 32 (u32 p 0), BitVec.ofNat 32 (u32 p 4), u32 p 8 == 1⟩

/-- REG_WRITE's body (R175): checked whole, its words wait for the next tick. -/
def regWriteBody (h : Hdr) (p : Bytes) (s : State) : Ans :=
  guardSt (checks
    [ (decide (p.length < 8) || p.length != 8 + 4 * u16 p 4, .badLength),
      (u32 p 0 % 4 != 0, .badParam),
      (u16 p 4 == 0 || decide (256 < u16 p 4), .outOfRange),
      (u16 p 6 != 0, .badParam),
      ((List.range (u16 p 4)).any (fun i => regReadOnly (u32 p 0 + 4 * i) s), .badParam) ]) s
    (match writeWords h.rq (u32 p 0) (regWords p) s with
     | .ok s1 => done (prepare .regWrite h (shadowBytes (writeShadowOf s h.rq) ++ p) (setWriteShadow h.rq (writeShadowOf s1 h.rq) s))
     | .error st => refuse st s)

/-- REG_WRITE lands (R18, R175): all its words are written at one tick, with the write shadow it was executed with. A write that is
no longer permitted changes nothing; one that finds the expert session closed reverts with the session's other test settings. -/
def landRegWrite (h : Hdr) (p : Bytes) (s : State) : State :=
  let q := p.drop 12
  match writeWords h.rq (u32 q 0) (regWords q) (setWriteShadow h.rq (shadowAt p) s) with
  | .ok s1 =>
    let s2 := { s1 with cmd := { s1.cmd with writeShadow := s.cmd.writeShadow } }
    if s2.cmd.expert.isNone then revertTests s2 else s2
  | .error _ => s

/-- REG_WRITE (R175). -/
def execRegWrite (h : Hdr) (p : Bytes) (s : State) : R := opcode .regWrite h p (regWriteBody h p) s

/-- The payload of a REG_WRITE of one word. -/
def regPayload (a : Nat) (v : Word) : Bytes := le 4 a ++ le 2 1 ++ zeros 2 ++ le 4 v.toNat

/-- GOV_TEST: REG_WRITE of 0x0000_0208 (R85). -/
def execGovTest (h : Hdr) (v : Word) (s : State) : R := execRegWrite h (regPayload 0x208 v) s

/-- PATH_FORCE of input n, or of Taster t under 32 + t (R250). -/
def execPathForce (h : Hdr) (n : Fin 34) (v : Word) (s : State) : R :=
  execRegWrite h (regPayload (0x200020 + 64 * n.val) v) s

/-- CLAMP_TEST of a hold output (R314). -/
def execClampTest (h : Hdr) (n : Fin 8) (v : Word) (s : State) : R := execRegWrite h (regPayload (0x418 + 32 * n.val) v) s

/-- TRACK_FREEZE of a headset port (R333). -/
def execTrackFreeze (h : Hdr) (n : Fin 2) (v : Word) (s : State) : R := execRegWrite h (regPayload (0x634 + 64 * n.val) v) s

/-- FORCE_TYPE of a headset port (R333). -/
def execForceType (h : Hdr) (n : Fin 2) (v : Word) (s : State) : R := execRegWrite h (regPayload (0x638 + 64 * n.val) v) s

/-- LOOPBACK of a TDM port (R420). -/
def execLoopback (h : Hdr) (n : Fin 4) (v : Word) (s : State) : R := execRegWrite h (regPayload (0x900020 + 64 * n.val) v) s

/-- PHY_LOOP of a network port (R454). -/
def execPhyLoop (h : Hdr) (n : LinkPort) (v : Word) (s : State) : R :=
  execRegWrite h (regPayload (0xA00028 + 64 * linkIdx n) v) s

/-- BREAK0 to BREAK3 of a core (R478). -/
def execBreakpointSet (h : Hdr) (core n : Fin 4) (v : Word) (s : State) : R :=
  execRegWrite h (regPayload (0x500028 + 0x100000 * core.val + 4 * n.val) v) s

/-- A write to a core's register file or windows (R478), at an offset from the core's base. -/
def execCoopRegisterWrite (h : Hdr) (core : Fin 4) (off : BitVec 20) (v : Word) (s : State) : R :=
  execRegWrite h (regPayload (0x500000 + 0x100000 * core.val + off.toNat) v) s

/-- INJECT_CODE (R521). -/
def execInjectCode (h : Hdr) (v : Word) (s : State) : R := execRegWrite h (regPayload 0xC00050 v) s

end Sys2Proof.Machine
end

