-- ==== Sys2Proof/Machine/Reset.lean ====
section
/-! DEFINITION. Warm resets (R96, R100, R101): the request, the soft mute of 2 ms, the reset of every island but AO, and the start
that follows. -/

namespace Sys2Proof.Machine

/-- Conditions AO keeps through a warm reset: those of hold outputs, power, phantom foldback and junction temperature. -/
def aoKeeps : FaultCode → Bool
  | .holdShort | .powerBudget | .powerPortLost | .phantomOvercurrent | .thermalWarn | .thermalTrip | .avsMargin => true
  | _ => false

/-- The fault manager after a warm reset: queue, log and AO's conditions stay (R100). -/
def warmFlt (f : Flt) : Flt :=
  { f with
    active := f.active.filter (fun c => aoKeeps c.code)
    recoverySeq := none, recoveryCause := none, recoveryDue := none, marked := 0, markedAvs := 0, injectObj := 0
    injectCode := 0, th := { f.th with avsBlend := 900, avsCoop := 900, avsSteps := 0, blendOk := none, coopOk := none } }

/-- Phantom through a warm reset (R69, R234): its state is kept; a switch that waited for its source goes on. -/
def warmPh (x : Phantom) : Phantom := if x.stage = .corking then { x with stage := .ramping } else x

/-- The power path through a warm reset: AO keeps it, and the governor's loop begins anew (R50). -/
def warmPwr (s : State) : Pwr :=
  let v : Int := if anyInForce .thermalTrip s then levelOff else 0
  { s.pwr with
    spkCeil := v, hsLevel := v, phShed := 0, overB := 0, overBShort := 0, lowSince := none, restoring := false, hard := false
    govTest := 0, govEvents := 0 }

/-- Step 3 (R100): every island but AO is reset, and step 4 is waited for. -/
def resetIslands (s : State) : State :=
  { pending := s.pending, sysCnt := s.sysCnt, seed := s.seed
    pads := { s.pads with gpioOut := 0, gpioDriven := 0, wclkOut := none, mclkOut := none }
    cfg := s.cfg
    pwr := warmPwr s
    life := { s.life with
      phase := .waiting, runPending := none, resetDue := none, lifeDue := none, watchdog := false, trialBoot := false
      image := none, held := .no, purgeTries := 0, purgeDone := false, fwDone := false, fwTarget := none, fwErasing := false
      testSelf := none }
    vint := poolTidy { s.vint with running := none, armed := none, pendingReq := none, overruns := 0, lastContent := none }
    flt := warmFlt s.flt
    inp := { ph := s.inp.ph.foldl (fun t e => tset {} t e.1 (warmPh e.2)) [] }
    outp :=
      { hold := s.outp.hold.foldl (fun t e => tset {} t e.1 { e.2 with releasing := false }) []
        safe := s.outp.safe, safeBad := s.outp.safeBad } }

/-- Steps 1 and 2 (R100): mode RESET. Expert sessions close, a running commit stops, what waits is abandoned; the drivers begin to
mute and hold outputs to move. -/
def beginReset (cause : Nat) (stay holdN thermal : Bool) (s0 : State) : State :=
  let s := closeExpert s0
  let s1 := { s with
    cmd := abandon s.cmd
    vint := poolTidy { s.vint with running := none, armed := none, pendingReq := none }
    life := { s.life with
      cause := cause, stayHold := stay, phase := .muting s.sysCnt holdN thermal, runPending := none, resetDue := none
      lifeDue := none, testSelf := none } }
  holdRefreshAll 64 (enterMode .reset s1)

/-- Step 4, or steps 8 and 9 of a first start (R86, R100): STARTUP_HOLD_N is sampled, a nonce drawn (R120), mode START. -/
def beginStart (holdN : Bool) (s0 : State) : State :=
  let (k, s) := fresh s0
  let s1 := { s with
    pads := { s.pads with startupHoldN := holdN }
    life := { s.life with
      holdPad := !holdN, nonce := Config.nonce k, phase := .idle, held := .no, purgeTries := 0, purgeDone := false
      fwDone := false } }
  if s1.life.mode = .start then s1 else enterMode .start s1

/-- The reset phase ends where RESET_N is high, else it waits for it. -/
def leaveReset (holdN : Bool) (s : State) : State :=
  if s.pads.resetN then beginStart holdN s else { s with life := { s.life with phase := .waiting } }

/-- After step 3: the hold of R518, or step 4. -/
def afterReset (holdN thermal : Bool) (s : State) : State :=
  if thermal then { s with life := { s.life with phase := .thermal } } else leaveReset holdN s

/-- A warm reset takes effect (R90, R101): not during power loss and not before START. -/
def resettable (s : State) : Bool := s.pwr.loss.isNone && (modeUp s.life.mode || s.life.mode == .start)

/-- A warm reset is requested (R100). Found in START it restarts START at step 4 (R101). -/
def warmReset (cause : Nat) (stay holdN thermal : Bool) (s : State) : State :=
  if !resettable s then s
  else if s.life.mode = .start then
    afterReset holdN thermal (resetIslands { s with life := { s.life with cause := cause, stayHold := stay } })
  else beginReset cause stay holdN thermal s

/-- Steps 3 and 4 of a reset whose 2 ms have passed, at their own time (R100). -/
def settleReset (s : State) : State :=
  match s.life.phase with
  | .muting t holdN thermal =>
    if s.life.mode = .reset ∧ s.pwr.loss.isNone ∧ t + 2 * msCounts ≤ s.sysCnt then
      { afterReset holdN thermal (resetIslands { s with sysCnt := t + 2 * msCounts }) with sysCnt := s.sysCnt }
    else s
  | _ => s

/-- The module waits for RESET_N, in RESET or in START. -/
def waitsReset (s : State) : Bool :=
  s.life.phase == .waiting && (s.life.mode == .reset || s.life.mode == .start) && s.pwr.loss.isNone

/-- RESET_N_LOW (R54, R100). -/
def execResetNLow (dt : Nat) (s0 : State) : R :=
  let s := settleReset (advance dt s0)
  .next (warmReset 1 false true false { s with pads := { s.pads with resetN := false } })

/-- RESET_N_HIGH (R86, R100): step 4 follows, where the first 2 ms of a reset have passed. -/
def execResetNHigh (dt : Nat) (startupHoldN : Bool) (s0 : State) : R :=
  let s := settleReset (advance dt s0)
  let s1 := { s with pads := { s.pads with resetN := true } }
  .next (if waitsReset s1 then beginStart startupHoldN s1
    else match s1.life.phase with
      | .muting t _ th => { s1 with life := { s1.life with phase := .muting t startupHoldN th } }
      | _ => s1)

/-- WATCHDOG_EXPIRY (R97). -/
def execWatchdogExpiry (dt : Nat) (startupHoldN : Bool) (s0 : State) : R :=
  let s := settleReset (advance dt s0)
  .next (if s.life.watchdog then warmReset 3 false startupHoldN false s else s)

/-- DEV_RESET_START (R96): 2 ms after the reply. -/
def execDevResetStart (dt : Nat) (startupHoldN : Bool) (s0 : State) : R :=
  let s := settleReset (advance dt s0)
  match s.life.resetDue with
  | some (stay, due) => .next (if due ≤ s.sysCnt then warmReset 2 stay startupHoldN false s else s)
  | none => .next s

end Sys2Proof.Machine
end

