-- ==== Sys2Proof/Machine/Frame.lean ====
section
/-! DEFINITION. The frame tick (R28, R33 to R36), timed and deferred commands at their tick (R154, R155, R371), GPIO outputs
(R375), and METER_READ (R382). -/

namespace Sys2Proof.Machine

/-! ### Effects that land (R34, R155) -/

/-- Checks that a timed command repeats at its tick (R155). -/
def landCheck (l : Landing) (s : State) : Status :=
  let p := l.payload
  match l.op with
  | .gainSet => checkGainSet p s
  | .muteSet => checkMuteSet l.hdr p s
  | .sinkSet => checkSinkSet p s
  | .genSet => checkGenSet p s
  | .override => checkOverride p s
  | .overrideConfig => checkOverrideConfig p s
  | .inputSet => checkInputSet p s
  | .outputSet => checkOutputSet p s
  | .holdSet => checkHoldSet p s
  | .speakerSet => checkSpeakerSet p s
  | .clearConfig => checkClearConfig p s
  | .filtConfig => checkFiltConfig p s
  | .filtSync => checkFiltSync l.hdr p s
  | .portStart => checkPorts true p s
  | .portStop => checkPorts false p s
  | .aesCsSet => checkAesCsSet p s
  | .streamEnable => checkStreamEnable p s
  | .coopStart => checkCoopStart p s
  | .coopStop => checkCoopStop p s
  | .coopParam => checkCoopParam true p s
  | _ => .ok

/-- The effects of a landing command but for FILT_SYNC and the graph commands, which answer for themselves. -/
def landEffect (l : Landing) (s : State) : State :=
  let p := l.payload
  match l.op with
  | .devMode => landDevMode p s
  | .boardDescribe => landBoard p s
  | .eventMask => landEventMask l.hdr p s
  | .vintPolicy => landVintPolicy p s
  | .gainSet => landGainSet p s
  | .muteSet => landMuteSet p s
  | .rampDefaults => landRampDefaults p s
  | .sinkSet => landSinkSet p s
  | .genSet => landGenSet p s
  | .override => landOverride p s
  | .overrideConfig => landOverrideConfig p s
  | .inputSet => landInputSet p s
  | .tasterConfig => landTasterConfig p s
  | .outputSet => landOutputSet p s
  | .holdSet => landHoldSet p s
  | .holdSafeSet => landHoldSafeSet l.hdr p s
  | .speakerSet => landSpeakerSet p s
  | .clearConfig => landClearConfig p s
  | .filtConfig => landFiltConfig p s
  | .filtRun => landFiltRun p s
  | .hsSet => landHsSet p s
  | .aesSet => landAesSet p s
  | .portStart => landPortStart p s
  | .portStop => landPortStop p s
  | .aesCsSet => landAesCsSet p s
  | .clockRefs => landClockRefs p s
  | .ptpSet => landPtpSet p s
  | .wclkSet => landWclkSet p s
  | .alignGroupSet => landAlignGroup p s
  | .netSet => landNetSet p s
  | .netAuthSet => landNetAuth p s
  | .streamEnable => landStreamEnable p s
  | .coopStart => landCoopStart p s
  | .coopStop => landCoopStop p s
  | .coopParam => landCoopParam p s
  | .powerPolicy => landPowerPolicy p s
  | .regWrite => landRegWrite l.hdr p s
  | _ => s

/-- A prepared command lands at the latest tick; a timed one gets its completion reply (R157). -/
def landCommand (s : State) (l : Landing) : State :=
  let pre := if l.completion then completionPrefix s.clk.tickTai s.clk.frame else []
  match l.op with
  | .graphCommit | .routeSet => if l.completion then landGraphTimed l s else beginCommit s
  | .filtSync => landFiltSync l.hdr l.payload pre s.clk.frame s
  | _ =>
    let s1 := landEffect l s
    if l.completion then reply (opCode l.op) l.hdr .ok pre s1 else s1

/-- A timed command reaches its tick: checked again, it lands, is deferred for ramp slots, or changes nothing (R155, R371). -/
def landTimed (s : State) (l : Landing) : State :=
  let fail (st : Status) : State := reply (opCode l.op) l.hdr st [] s
  match check10 l.op l.hdr.rq s with
  | .ok => match landCheck l s with
    | .ok =>
      let why := deferReason l.op l.payload s
      if why ≠ 0 then (if 64 ≤ s.mix.deferred.length then fail .noResource else deferCommand why l s)
      else landCommand s l
    | st => fail st
  | st => fail st

/-- The ramps of a command that waits find slots. -/
def slotsFree (s : State) (l : Landing) : Bool :=
  decide (s.mix.ramps.length + slotsNeeded s (rampObjs l.op l.payload) ≤ 8192)

/-- Commands that waited for ramp slots land in order, as far as slots for all ramps of each are free (R371). -/
def landDeferred : List Landing → State → State
  | [], s => { s with mix := { s.mix with deferred := [] } }
  | l :: t, s => if slotsFree s l then landDeferred t (landCommand s l) else { s with mix := { s.mix with deferred := l :: t } }

/-! ### Steps 1 and 2 of a frame: the tick, and what lands at it -/

/-- Frames run (R30, R100): from HOLD on, and while a warm reset mutes. -/
def framesRun (s : State) : Bool :=
  s.clk.ticks && (modeUp s.life.mode || match s.life.phase with | .muting .. => true | _ => false)

/-- The next tick is taken; while fs_int changes it is the first at the new rate (R205). -/
def nextTick (s : State) : State :=
  takeTick (match s.clk.fsPending with
    | some f => if s.clk.fsSwitching then fsSwitch f s else s
    | none => s)

/-- A timed command is due at a tick of this TAI time (R154, R156). -/
def timedDue (tai : Int) (l : Landing) : Bool :=
  l.atOnce || match l.hdr.timed with
    | some t => decide ((t.toNat : Int) ≤ tai)
    | none => true

/-- A tick is taken, and the timed commands due at it land in order of arrival, ahead of its untimed ones (R35, R159); then those
that waited for ramp slots. -/
def beginTick (s0 : State) : State :=
  let s := nextTick s0
  let due := s.cmd.timed.filter (timedDue s.clk.tickTai)
  let s1 := { s with cmd := { s.cmd with timed := s.cmd.timed.filter (fun l => !timedDue s.clk.tickTai l) } }
  let s2 := due.foldl landTimed s1
  landDeferred s2.mix.deferred s2

/-- The tick is taken ahead of its FRAME_TICK, where something lands at it. -/
def tickAhead (s : State) : State :=
  let s1 := beginTick s
  { s1 with clk := { s1.clk with tickBegun := true } }

/-- TIMED_COMMAND_APPLY (R154, R155, R159, R161): the tick is reached at which a timed command is due; its FRAME_TICK follows. The
tick's own time decides what is due, not the one the sender names (R182). -/
def execTimedCommandApply (dt : Nat) (_tickTai : Nat) (s0 : State) : R :=
  let s := settleReset (advance dt s0)
  if framesRun s && !s.clk.tickBegun && s.cmd.timed.any (timedDue (nextTick s).clk.tickTai) then .next (tickAhead s) else .next s

/-- DEFERRED_COMMAND_LANDS (R371): the first tick is reached at which slots for all ramps of the first waiting command are free; its
FRAME_TICK follows. -/
def execDeferredCommandLands (dt : Nat) (s0 : State) : R :=
  let s := settleReset (advance dt s0)
  match s.mix.deferred with
  | [] => .next s
  | l :: _ => if framesRun s && !s.clk.tickBegun && slotsFree s l then .next (tickAhead s) else .next s

/-! ### GPIO outputs and muted handles (R375) -/

/-- A handle is silent through a mute: its own, or its source's. -/
def handleSilent (s : State) (h : Handle) : Bool :=
  if hClass h < 0x80 then
    (match findMute s (.source h) with | some m => m.w == 0 | none => srcCork s h || srcRamp s h)
  else match findMute s (.sink h) with | some m => m.w == 0 | none => sinkCork s h || sinkRamp s h

/-- The meter of a handle. -/
def meterOf (s : State) (h : Handle) : Meter :=
  if hClass h < 0x80 then tget {} s.mix.srcMeters h.toNat else tget {} s.mix.sinkMeters h.toNat

/-- The largest value of the newest `n` frames of runs. -/
def runMax : Nat → List (Nat × Nat) → Nat
  | _, [] => 0
  | n, (v, k) :: t => if n = 0 then 0 else max v (runMax (n - k) t)

/-- The paging override is in force on some sink. -/
def overrideSounds (s : State) : Bool :=
  s.mix.ovr.inForce && (stageSinks s.clk.fs).any (inOverride s.cfg.mix.ovr)

/-- An output function is active. -/
def gpioActive (s : State) (f : GpioFn) : Bool :=
  match f.func with
  | 2 => overrideSounds s
  | 3 => f.handles.any (fun h => decide (f.thresh < levelMdb (runMax (ceilDiv (fsNow s) 10) (meterOf s h).win)))
  | 4 => f.handles.any (handleSilent s)
  | 5 => true
  | _ => false

/-- GPIO outputs change at frame ticks: a push-pull output is always driven, an open-drain output and a LED sink only low (R59). Every
GPIO is high impedance until HOLD and in a warm reset (R56). -/
def stepGpio (s : State) : State :=
  let high (g : Nat) : Bool :=
    let f := tget ({} : GpioFn) s.cfg.mix.gpio g
    gpioActive s f == f.activeHigh
  let out (g : Nat) : Bool := modeUp s.life.mode && gpioIsOut s g
  let bits (f : Nat → Bool) : BitVec 16 := BitVec.ofNat 16 ((List.range 16).map (fun g => flag g (f g))).sum
  { s with pads := { s.pads with
    gpioOut := bits (fun g => out g && high g)
    gpioDriven := bits (fun g => out g && (!high g || s.cfg.board.gpioMode.getD g 0 == 2)) } }

/-! ### The tick -/

/-- CLEAR_N is sampled (R286, R287): hold outputs move, and return over RELEASE_US. -/
def stepClear (s : State) : State :=
  let on := !s.pads.clearN
  let sel (n : Nat) : Bool := s.cfg.outp.clear.hout.getLsbD n
  let mark (v : Bool) (a : State) (n : Nat) : State :=
    if sel n then setHoldRt n { holdRt a n with releasing := v } a else a
  if on && !s.outp.clearOn then
    holdRefreshAll 64 ((List.range 8).foldl (mark false) { s with outp := { s.outp with clearOn := true } })
  else if !on && s.outp.clearOn then
    holdRefreshAll (usFrames s s.cfg.outp.clear.releaseUs)
      ((List.range 8).foldl (mark true) { s with outp := { s.outp with clearOn := false } })
  else if s.pwr.loss.isSome then s
  else holdRefreshAll 64 s

/-- Values that leave the sink stage of a class, from an index. -/
def sinkOuts (s : State) (c i n : Nat) : List Int :=
  (List.range n).map (fun k => (tget ({} : SinkRt) s.mix.sinks (mkHandle c (i + k)).toNat).out)

/-- The values of the sink stage are handed to ports and streams as those of frame `n` (R414, R443). -/
def feedSinks (n : Nat) (s : State) : State :=
  let s1 := (List.range 4).foldl (fun a k => feedPort k n (sinkOuts s 0x85 (32 * k) 32) a) s
  let s2 := (List.range 4).foldl (fun a x => feedPort (8 + x) n (sinkOuts s 0x86 (2 * x) 2) a) s1
  feedStreams (fun i => (tget ({} : SinkRt) s.mix.sinks (mkHandle 0x87 i).toNat).out) s2

/-- The sink value a Pour chain takes (R254): with an XLR connector a headset port's first chain takes the mean of its two sinks, the
second none (R316). -/
def pourIn (s : State) (c : Nat) : Int :=
  let out (h : Handle) : Int := (tget ({} : SinkRt) s.mix.sinks h.toNat).out
  if c < 32 then out (mkHandle 0x81 c)
  else if c < 40 then out (mkHandle 0x82 (c - 32))
  else if c < 44 then
    let n := (c - 40) / 2
    if hsXlr s n then (if c % 2 = 0 then freeDiv 71 (out (mkHandle 0x83 (2 * n)) + out (mkHandle 0x83 (2 * n + 1))) 2 else 0)
    else out (mkHandle 0x83 (c - 40))
  else out (mkHandle 0x84 (c - 44))

/-- One frame of every Pour chain. -/
def pourAll (s : State) : State := (List.range 46).foldl (fun a c => pourFrame c (pourIn a c) a) s

/-- Phantom switches move once their sources are silent (R232). -/
def stepPhantoms (s : State) : State :=
  (List.range 32).foldl (fun a c => stepPhantom (muteW s (.source (ainHandle c)) == 0) a c) s

/-- One frame of microphone detection where a phantom supply is on, or was. -/
def stepMics (s : State) : State :=
  (List.range 32).foldl (fun a c => if (phOf a c).pos != 0 || (phOf a c).mic then stepMic a c else a) s

/-- Untimed commands land in the order their handshakes completed (R34, R35); a vintage commit captures what is then in force
(R105). -/
def landWaiting (s : State) : State :=
  takeCommit (s.cmd.landing.foldl landCommand { s with cmd := { s.cmd with landing := [] } })

/-- Steps 1 and 2 of a frame whose tick has been taken: untimed commands land, ramps move, the reference is selected, controls are
sampled, sources are captured and sink values handed on. -/
def frameIn (i : TickIn) (s0 : State) : State :=
  let s1 := stepRamps (stepChains (syncInTick (stepMclk (stepWclk (landWaiting s0)))))
  let s2 := selectReference (pllFrame i.phasePs i.freq s1)
  let s3 := pourAll (sinkStage (captureSources i (stepClear s2)))
  let s4 := (List.range 8).foldl stepHold s3
  feedSinks (s4.clk.frame - 1) s4

/-- Steps 3 and 4 of a frame, and what moves once a frame; at its end every island's state is latched for the status commands. -/
def frameEnd (s0 : State) : State :=
  let s1 := stepPortStops (stepMics (stepPhantoms (stepWindows (blendPass s0))))
  let s2 := allOuts.foldl stepPeak ((List.range 4).foldl stepStage s1)
  latchTick (serveLinks (stepGpio (followTerms s2)))

/-- The last tick at the old rate (R205 step 1): no pass runs for it, and the clock outputs stop. -/
def lastFrame (i : TickIn) (s0 : State) : State :=
  let s := stopClockOuts (frameIn i s0)
  { s with clk := { s.clk with fsSwitching := true } }

/-- FRAME_TICK (R28, R33): one frame, at the tick that has been taken ahead, or at the next. -/
def execFrameTick (dt : Nat) (i : TickIn) (s0 : State) : R :=
  let s := settleReset (advance dt s0)
  if !framesRun s then .next s
  else
    let s1 := if s.clk.tickBegun then s else beginTick s
    let s2 := { s1 with clk := { s1.clk with tickBegun := false } }
    .next (if s2.clk.fsPending.isSome then lastFrame i s2 else frameEnd (frameIn i s2))

/-! ### METER_READ (R382) -/

/-- A handle's chain settles: a Press chain of a source, a Pour chain of a sink. -/
def handleSettling (s : State) (h : Handle) : Bool :=
  let i := hIndex h
  let go (pour : Bool) (c : Nat) : Bool := (chainOf s pour c).state == .settling
  match hClass h with
  | 0x01 => go false i
  | 0x02 => go false (34 + i)
  | 0x09 => go false (32 + i)
  | 0x81 => go true i
  | 0x82 => go true (32 + i)
  | 0x83 => go true (40 + i)
  | 0x84 => go true (44 + i)
  | _ => false

/-- The rms of the 300 ms window, mdB. -/
def meterRms (fs : Fin 3) (m : Meter) : Int :=
  let sum := (m.win.map (fun e => e.1 * e.1 * e.2)).sum
  let v := sum * 2 ^ 34 / meterFrames fs
  if v = 0 then -144000
  else if v = linOne then 0
  else dbWide v / 2 / mdbFine + (if Config.roundUp 4 sum then 1 else 0)

/-- The 28-byte entry of a handle. -/
def meterEntry (s : State) (h : Handle) : Bytes :=
  let m := meterOf s h
  let ovr := decide (0x80 ≤ hClass h) && s.mix.ovr.inForce && inOverride s.cfg.mix.ovr h
  let f := flag 0 m.clipped + flag 1 m.limiting + flag 2 ovr + flag 3 (handleSilent s h) + flag 4 (handleSettling s h)
    + flag 5 m.saturated
  le 2 h.toNat ++ le 2 f ++ leI 4 (levelMdb m.peak) ++ leI 4 (levelMdb m.tpeak) ++ leI 4 (meterRms s.clk.fs m)
    ++ leI 4 (wholeMdb 5 m.grMax) ++ le 8 m.stamp

/-- The held values of a handle's meter are cleared (R170). -/
def clearMeter (s : State) (h : Handle) : State :=
  let m := { meterOf s h with peak := 0, tpeak := 0, stamp := 0, clipped := false, saturated := false, grMax := 0 }
  { s with mix :=
    if hClass h < 0x80 then { s.mix with srcMeters := tset {} s.mix.srcMeters h.toNat m }
    else { s.mix with sinkMeters := tset {} s.mix.sinkMeters h.toNat m } }

/-- METER_READ. -/
def execMeterRead (h : Hdr) (p : Bytes) (s : State) : R :=
  opcode .meterRead h p (fun s =>
    let n := u8 p 1
    let l := handlesAt p 4 n
    guardSt (checks
      [ (decide (p.length < 4), .badLength),
        (decide (1 < u8 p 0), .badParam),
        (n == 0 || decide (48 < n), .outOfRange),
        (u16 p 2 != 0, .badParam),
        (p.length != handleLen 4 n, .badLength),
        (l.any (fun x => !(isSrcT (fsOf s) x || isSink (fsOf s) x)), .badHandle),
        (!handlePad p 4 n, .badParam) ]) s
      (.reply .ok (le 1 n ++ zeros 3 ++ le 8 s.clk.stamp ++ l.flatMap (meterEntry s))
        (if u8 p 0 = 1 then l.foldl clearMeter s else s))) s

end Sys2Proof.Machine
end

