-- ==== Sys2Proof/Machine/Sessions.lean ====
section
/-! DEFINITION. Network sessions and their datagrams (R138 to R144), and KEY_INSTALL (R122). -/

namespace Sys2Proof.Machine

/-! ### Sessions (R144) -/

/-- What the module keeps of a requester: its shadows, its subscription, its staging and its expert session. -/
def forget (rq : Requester) (s : State) : State :=
  let c := setListener (if s.cmd.listener = some rq then none else s.cmd.listener) s.cmd
  let s1 := { s with cmd := { c with
    readShadow := c.readShadow.filter (fun e => e.1 != rq), writeShadow := c.writeShadow.filter (fun e => e.1 != rq) } }
  let s2 := if s.gr.stage.state ≠ .empty ∧ s.gr.stage.owner = rq then emptyStage s1 else s1
  match s.cmd.expert with
  | some e => if e.owner = rq then closeExpert s2 else s2
  | none => s2

/-- A session is freed: its place, and what is kept of its requester. -/
def freeSession (i : Fin 8) (s : State) : State :=
  match s.cmd.sessions.getD i none with
  | none => s
  | some e => forget e.rq { s with cmd := { s.cmd with sessions := lset s.cmd.sessions i none } }

/-- SESSION_TIMEOUT (R144): 60 s without a packet. -/
def execSessionTimeout (dt : Nat) (session : Fin 8) (s0 : State) : R :=
  let s := advance dt s0
  match s.cmd.sessions.getD session none with
  | some x => if x.last + 60 * secCounts ≤ s.sysCnt then .next (freeSession session s) else .next s
  | none => .next s

/-! ### Datagrams (R138 to R144) -/

/-- What check 5 finds: a refusal with its detail, or the key of an authenticated packet. -/
inductive AuthVerdict where
  | refused (st : Status) (detail : Nat)
  | open
  | key (k : Fin 16) (counter : Nat)
  deriving DecidableEq, Repr

/-- Check 5 (R139 to R141, R535). -/
def authCheck (s : State) (b : Bytes) (k : Packet) : AuthVerdict :=
  if k.flags / 4 % 2 = 0 then
    match opOfCode k.opcode with
    | some o => if opUnauth o && s.cfg.netAuth.unauthRead then .open else .refused .authFail 4
    | none => .refused .authFail 4
  else
    let n := 16 + paddedLen k.plen
    let id := u8 b n
    match (if id < 16 && s.cfg.netAuth.keyEnable.getLsbD id then s.life.netKeys.getD id none else none) with
    | none => .refused .authFail 2
    | some key =>
      let msg := b.take n ++ le 8 s.life.nonce.toNat ++ (b.drop n).take 9
      if (hmacSha256 key msg).take 16 ≠ (b.drop (n + 9)).take 16 then .refused .authFail 1
      else if u64 b (n + 1) ≤ tget 0 s.cmd.keyHigh id then .refused .replay 3
      else .key (Fin.ofNat 16 id) (u64 b (n + 1))

/-- Checks 6 to 11 of a packet that has passed check 5. -/
def admitNet (k : Packet) (h : Hdr) (s : State) : State :=
  match holdSession h s with
  | none => refuseAt k.opcode h .noResource s
  | some s1 => match admitQueue k h s1 with
    | (.ok, s2) => s2
    | (st, s2) => refuseAt k.opcode h st s2

/-- The checks of a datagram (R132). The COUNTER of a packet that passes check 5 is accepted, whatever a later check says
(R140, log 89). -/
def admitDatagram (l : LinkPort) (ip : BitVec 32) (udp : BitVec 16) (b : Bytes) (s : State) : State :=
  if b.length < 16 || u8 b 0 != 0xCE then s
  else
    let k := parsePacket b
    let auth := k.flags / 4 % 2 = 1
    let h (key : Option (Fin 16)) : Hdr := hdrOf k (.net ip udp key) l
    if u8 b 1 ≠ 2 then refuseAt k.opcode (h none) .badVersion s
    else if 1400 < k.plen ∨ b.length ≠ 16 + paddedLen k.plen + (if auth then 25 else 0) then
      refuseAt k.opcode (h none) .badLength s
    else if packetCrc b k.plen ≠ k.hcrc then refuseAt k.opcode (h none) .crcError s
    else match authCheck s b k with
      | .refused st d => refuseAt k.opcode (h none) st (raise .authFail 0 0 (BitVec.ofNat 32 d) s)
      | .open => admitNet k (h none) s
      | .key id n => admitNet k (h (some id)) { s with cmd := { s.cmd with keyHigh := tset 0 s.cmd.keyHigh id n } }

/-- COMMAND_DATAGRAM (R138): a datagram to port 4750 at the module's address; HOSTNET carries them in SWITCHED mode only. -/
def execCommandDatagram (dt : Nat) (port : LinkPort) (srcIp : BitVec 32) (srcPort : BitVec 16) (udp : Bytes) (s0 : State) :
    R :=
  let s := advance dt s0
  if !accepting s || !modeUp s.life.mode || !linkDeclared s port || !linkIsUp s port
      || (port == .hostnet && !(netCfg s).switched) then .next s
  else .next (admitDatagram port srcIp srcPort udp (countRx port s))

/-! ### KEY_INSTALL (R122, R530) -/

/-- Checks of KEY_INSTALL. -/
def checkKeyInstall (p : Bytes) (s : State) : Status :=
  let kind := u8 p 0
  let n := u16 p 2
  checks
    [ (decide (p.length < 4), .badLength),
      (kind != 1 && kind != 2, .badParam),
      (kind == 2 && s.life.state == .deployed, .locked),
      (kind == 1 && decide (15 < u8 p 1), .outOfRange),
      (kind == 2 && u8 p 1 != 0, .badParam),
      (if kind = 1 then n != 0 && n != 32 else n != 64, .outOfRange),
      (p.length != 4 + n, .badLength) ]

/-- A network key is replaced or removed: sessions that use it end. -/
def setNetKey (id : Nat) (k : Option Bytes) (s : State) : State :=
  let s1 := { s with life := { s.life with netKeys := lset s.life.netKeys id k } }
  (List.range 8).foldl (fun a i => match a.cmd.sessions.getD i none with
    | some e => if keyOf e.rq = some (Fin.ofNat 16 id) then freeSession (Fin.ofNat 8 i) a else a
    | none => a) s1

/-- KEY_INSTALL: its reply is sent before a session that uses the key ends. -/
def execKeyInstall (h : Hdr) (p : Bytes) (s : State) : R :=
  opcode .keyInstall h p (fun s =>
    guardSt (checkKeyInstall p s) s
      (let s1 := reply (opCode .keyInstall) h .ok [] s
       let key := (p.drop 4).take (u16 p 2)
       if u8 p 0 = 1 then .late (setNetKey (u8 p 1) (if u16 p 2 = 0 then none else some key) s1)
       else .late { s1 with life := { s1.life with integratorKey := some key } })) s

end Sys2Proof.Machine
end

