-- ==== Sys2Proof/Machine/Startup.lean ====
section
/-! DEFINITION. Modes and starting (R86 to R95, R110, R111, R117 to R126, R512 to R514): from AO ready through the lees purge, the boot
ROM and the restore to HOLD and SERVICE; the lifecycle; entry to RECOVERY. -/

namespace Sys2Proof.Machine

/-! ### From AO ready to the restore (R86, R110, R111, R117, R118, R123) -/

/-- The safe record is read (R111): the valid copy with the higher sequence; without one every hold output stays at 0 V until the next
start, also where the record is written again before it (log 96). -/
def readSafe (s : State) : State :=
  let a := s.vint.safeA
  let b := s.vint.safeB
  let pick := if a.valid && (!b.valid || decide (b.seq ≤ a.seq)) then some a.entries
    else if b.valid then some b.entries else none
  match pick with
  | some l =>
    let s1 := { s with outp := { s.outp with safe := l, safeBad := false } }
    (List.range 8).foldl (fun t n => setHoldRt n { holdRt t n with range := (safeOf t n).range } t) s1
  | none => raise .vintSlotBad 0 0 (BitVec.ofNat 32 (2 + 5 * 256)) { s with outp := { s.outp with safeBad := true } }

/-- AUX_RAILS_IN_REGULATION (R64, R86 step 5): PWR_GOOD rises. -/
def execAuxRailsInRegulation (dt : Nat) (s0 : State) : R :=
  let s := advance dt s0
  if !s.pwr.auxOn || s.pwr.auxReg || s.pwr.loss.isSome then .next s
  else .next (notePads { s with pwr := { s.pwr with auxReg := true } })

/-- AO_READY (R86, steps 6 and 7): the crystal runs and SYSCNT starts from zero. With RESET_N low, step 8 waits. -/
def execAoReady (dt : Nat) (startupHoldN : Bool) (s0 : State) : R :=
  let s := advance dt s0
  if s.life.mode ≠ .reset || !s.pwr.auxReg || s.life.crystal || s.pwr.loss.isSome then .next s
  else
    let s1 := { s with sysCnt := 0, life := { s.life with crystal := true, holdPad := !startupHoldN } }
    let s2 := holdRefreshAll 64 (readSafe (enterMode .start s1))
    .next (if s2.pads.resetN then beginStart startupHoldN s2
      else { s2 with life := { s2.life with phase := .waiting } })

/-- START runs: steps 8 to 10 are under way. -/
def starting (s : State) : Bool := s.life.mode == .start && s.life.phase == .idle && s.pwr.loss.isNone

/-- LEES_PURGE_COMPLETE (R117, R118): repeated once; a second failure keeps the module in START. -/
def execLeesPurgeComplete (dt : Nat) (clean : Bool) (s0 : State) : R :=
  let s := settleReset (advance dt s0)
  if !starting s || s.life.purgeDone || s.life.held = .purge then .next s
  else if clean then .next { s with life := { s.life with purgeDone := true } }
  else if s.life.purgeTries = 0 then .next { s with life := { s.life with purgeTries := 1 } }
  else .next { s with life := { s.life with purgeTries := 2, held := .purge } }

/-- BOOT_IMAGE_VERIFIED (R97, R123, R126): the selected image, else the other; a trial mark is used up. -/
def execBootImageVerified (dt : Nat) (s0 : State) : R :=
  let s := settleReset (advance dt s0)
  if !starting s || s.life.fwDone || s.life.held ≠ .no then .next s
  else match bootChoice s.life with
    | some (i, trial) => .next { s with life := { s.life with
        image := some i, trialBoot := trial, trialMark := none, fwDone := true, watchdog := true } }
    | none => .next { s with life := { s.life with image := none, trialBoot := false, trialMark := none, held := .boot } }

/-- VINT_SLOT_BAD for a slot that holds a vintage and is not valid (R110). -/
def noteSlot (i : Fin 2) (s : State) : State :=
  let x := slotOf s.vint i
  let r := slotReason s.vint (runningImage s) x
  if x.blank || x.interrupted || r == 0 then s else raise .vintSlotBad 0 0 (BitVec.ofNat 32 (i.val + 256 * r)) s

/-- The configuration of the chosen slot, or the factory values, comes into force (R110, R111). -/
def applySlot (s0 : State) : State :=
  let s := noteSlot 1 (noteSlot 0 s0)
  let pick := bestSlot s.vint (runningImage s)
  let x : Slot := match pick with
    | some i => slotOf s.vint i
    | none => {}
  let c := x.content
  let auto := pick.isSome && c.vint.autoRun
  { s with
    cfg := { c with board := { c.board with houtWired := houtInForce s } }
    vint := poolTidy { s.vint with
      current := pick, bulkNow := x.refs, autoSince := s.sysCnt, lastContent := if pick.isSome then some c else none }
    life := { s.life with
      slot := pick, vintSeq := x.seq, autoRunRestored := auto, factoryRestored := pick.isNone
      powerLossSlot := pick.isSome && x.kind == .powerLoss
      runPending := if auto && !s.life.holdPad && !s.life.stayHold then some 0 else none, stayHold := false } }

/-- The clocks start (R86 step 10, R187): the frame tick at the restored rate, the PLL without a reference yet. -/
def restoreClocks (s : State) : State :=
  { s with clk := { s.clk with fs := s.cfg.clock.fs, ticks := true, pll := { restoredAt := s.sysCnt } } }

/-- The restored graph's program, generation 1 (R355). -/
def restoreGraph (s : State) : State :=
  { s with gr := { s.gr with
    prog := { compileEdges s.cfg.graph.edges with pads := s.cfg.graph.pads }, generation := 1 } }

/-- A restored generator starts as GEN_SET starts it (R383, R384). -/
def restoreGen (s0 : State) (g : Nat) : State :=
  let c := tget ({} : GenCfg) s0.cfg.mix.gens g
  if c.type = 0 then s0
  else
    let (k, s1) := fresh s0
    let noise := isNoise c.type
    let r : Gen :=
      { running := true, kind := c.type, seed := if c.seed = 0 then Config.genSeed k else c.seed
        m := if noise then rampFrames s0 s0.cfg.mix.rampUs else 0, log := s0.cfg.mix.shapeLog
        fromDb := if noise then -144000 * mdbFine else max c.level (-144000) * mdbFine }
    let s := if c.seed = 0 then s1 else s0
    { s with mix := { s.mix with gens := tset {} s.mix.gens g r } }

/-- Mutes, polarities, delays and generators stand as restored. -/
def restoreMix (s : State) : State :=
  let c := s.cfg.mix
  let sinks := c.sinks.foldl (fun t e => tmod {} t e.1 (fun x => { x with inv := { applied := e.2.invert } })) (freshSinks s.clk.fs s)
  let inv := s.cfg.input.ch.foldl (fun t e => tset {} t e.1 ({ applied := e.2.invert } : InvSt)) []
  (List.range 4).foldl restoreGen { s with mix := { s.mix with
    mutes := c.xMute.map (fun x => (.xpoint x.src x.sink, settledMute ⟨true, false, false⟩)), sinks := sinks, srcInv := inv } }

/-- A chain set to run starts and settles; another waits with its restored response (R260, R261). -/
def restoreChain (pour : Bool) (s : State) (c : Nat) : State :=
  if (chainStored s pour c).run then startChain pour c s else setChain pour c (adoptResp s pour c (chainOf s pour c)) s

/-- Every chain stands as restored. -/
def restoreChains (s : State) : State :=
  (List.range 46).foldl (restoreChain true) ((List.range 36).foldl (restoreChain false) s)

/-- Every output stands clamped at its clear code (R98); enabled speakers have their loads checked (R305). -/
def restoreOutputs (s : State) : State :=
  let s1 := audioOuts.foldl (fun a h => setOutRt h
    { clamped := true, w := ⟨wOne, wOne, 0, 0⟩, why := .mode, code := ⟨(outCfg a h).clear, (outCfg a h).clear, 0, 0⟩ } a) s
  checkNewSpk 0 (checkNewSpk 0 s1 0) 1

/-- A core takes its restored image (R468): in DEPLOYED its signature is verified again. -/
def restoreCore (s : State) (k : Nat) : State :=
  let b := (coopCfg s k).image
  if b.isEmpty then s
  else match imageSigned s b with
    | some v => installCore k b v s
    | none =>
      if s.life.state ≠ .deployed then installCore k b false s
      else
        let s1 := emptyCore k s
        raise .coopTrap (coopObject k) 0 (BitVec.ofNat 32 (k + 256 * 8)) (setCore k { coreOf s1 k with trapReason := 8 } s1)

/-- RESTORE (R86, step 10): the slot is chosen and its configuration written to every island; mode HOLD. -/
def execRestore (dt : Nat) (s0 : State) : R :=
  let s := settleReset (advance dt s0)
  if !starting s || !s.life.purgeDone || !s.life.fwDone || s.life.held ≠ .no then .next s
  else
    let old := s.cfg.policy
    let s1 := restoreGraph (restoreClocks (applySlot s))
    let s2 := policyLldp old s1.cfg.policy .b (policyLldp old s1.cfg.policy .a s1)
    let s3 := restoreTasters (restoreChains (restoreMix s2))
    let s4 := (List.range 4).foldl restoreCore (restoreOutputs ((List.range 32).foldl phApply s3))
    .next (holdRefreshAll 64 (enterMode .hold s4))

/-! ### SERVICE (R86 steps 11 and 12, R90, R91, R93 to R95) -/

/-- Step 12: the ports, slots and cores that are to run start, among them the cores a fault action stopped (R514). -/
def startRunning (s : State) : State :=
  let portRun (a : State) (k : Nat) : Bool :=
    if k < 4 then (tdmCfg a k).run else if k < 8 then (rxCfg a (k - 4)).run else (txCfg a (k - 8)).run
  let s1 := (List.range 12).foldl (fun a k => if portRun a k && portDeclared a k then landStart a k else a) s
  let s2 := (List.range 64).foldl (fun a i => if (rxSlotCfg a i).run then rxOn a i else a) s1
  let s3 := (List.range 64).foldl (fun a i => if (txSlotCfg a i).run then txOn a i else a) s2
  (List.range 4).foldl (fun a k =>
    if (coopCfg a k).run || a.flt.marked.getLsbD k then restartCore (nextFrame a) a k else a) s3

/-- SERVICE_ENTRY: the first tick with the PLL locked, sent before that tick. -/
def execServiceEntry (dt : Nat) (s0 : State) : R :=
  let s := advance dt s0
  match s.life.runPending with
  | none => .next s
  | some f =>
    if s.life.mode ≠ .hold || s.clk.pll.state ≠ .locked || !s.clk.ticks || s.pwr.loss.isSome then .next s
    else
      let n := usFrames s (if f = 0 then s.cfg.vint.restoreFade else f)
      let s1 := closeExpert { s with life := { s.life with runPending := none }, mix := { s.mix with fadeN := n } }
      .next (startRunning (holdRefreshAll n (enterMode .service s1)))

/-! ### RECOVERY (R162, R371, R512, R513) -/

/-- Commands that wait for a time or for ramp slots are answered WRONG_MODE and discarded. -/
def dropWaiting (s : State) : State :=
  let l := s.cmd.timed ++ s.mix.deferred
  let s1 := { s with
    cmd := { s.cmd with timed := [] }, mix := { s.mix with deferred := [] }, gr := { s.gr with caps := [] } }
  l.foldl (fun a x => reply (opCode x.op) x.hdr .wrongMode [] a) s1

/-- RECOVERY_ENTRY: the first tick after the detection, sent before that tick. -/
def execRecoveryEntry (dt : Nat) (s0 : State) : R :=
  let s := advance dt s0
  match s.flt.recoveryDue with
  | none => .next s
  | some q =>
    if !(s.life.mode == .hold || modeLive s.life.mode) then .next { s with flt := { s.flt with recoveryDue := none } }
    else
      let s1 := { s with
        flt := { s.flt with recoveryDue := none, recoverySeq := some q }
        life := { s.life with runPending := none } }
      .next (holdRefreshAll 64 (enterMode .recovery (cancelTriggers (dropWaiting s1))))

/-! ### Lifecycle (R119 to R121, R530) -/

/-- The lifecycle state of a code. -/
def lifeOf (n : Nat) : LifeState := if n = 0 then .blank else if n = 1 then .provisioned else if n = 2 then .deployed else .returned

/-- The transition is in the table of R119. -/
def lifeStep (a b : LifeState) : Bool :=
  match a, b with
  | .blank, .provisioned | .provisioned, .deployed | .deployed, .returned | .returned, .provisioned => true
  | _, _ => false

/-- The keys PROVISIONED needs are installed. -/
def keysReady (l : Life) : Bool := l.integratorKey.isSome && l.netKeys.any Option.isSome

/-- The committed vintage refers to no unsigned Cooper image. -/
def committedSigned (s : State) : Bool :=
  match bestSlot s.vint (runningImage s) with
  | none => true
  | some i => (slotOf s.vint i).content.coop.all (fun e => e.2.image.isEmpty ||
      imageSigned { s with life := { s.life with state := .deployed } } e.2.image == some true)

/-- Checks of LIFE_ADVANCE. -/
def checkLifeAdvance (p : Bytes) (s : State) : Status :=
  let dest := lifeOf (u8 p 0)
  let auth := s.life.state == .returned && dest == .provisioned
  checks
    [ (decide (3 < u8 p 0), .badParam),
      (!zeroAt p 1 3, .badParam),
      (!auth && !zeroAt p 4 88, .badParam),
      (!lifeStep s.life.state dest, .badParam),
      (dest == .provisioned && !keysReady s.life, .badParam),
      (dest == .deployed && !committedSigned s, .badParam),
      (auth && ((p.drop 4).take 16 != (List.range 16).map Config.moduleId || u64 p 20 != s.life.nonce.toNat
        || !Config.ecdsaVerify Config.planuvalKey (p.take 28) ((p.drop 28).take 64)), .authFail) ]

/-- LIFE_ADVANCE (R121, R530): the transition begins 2 ms after the reply. -/
def execLifeAdvance (h : Hdr) (p : Bytes) (s : State) : R :=
  opcodeN .lifeAdvance 92 h p (fun s =>
    guardSt (checkLifeAdvance p s) s (done { s with life := { s.life with lifeDue := some (lifeOf (u8 p 0), s.sysCnt + 2 * msCounts) } })) s

/-- What the transition to RETURNED wipes (R119). -/
def wipeReturned (s : State) : State :=
  let k := max s.vint.safeA.seq s.vint.safeB.seq + 1
  let l : List SafeEntry := List.replicate 8 {}
  { s with
    vint := { s.vint with slotA := {}, slotB := {}, current := none, pool := [], bulkNow := []
                          safeA := ⟨true, k, l⟩, safeB := ⟨true, k, l⟩ }
    life := { s.life with integratorKey := none, netKeys := List.replicate 16 none }
    flt := { s.flt with log := [], logPending := [] }
    outp := { s.outp with safe := l } }

/-- LIFE_TRANSITION_START (R119, R121): 2 ms after the reply. -/
def execLifeTransitionStart (dt : Nat) (startupHoldN : Bool) (s0 : State) : R :=
  let s := settleReset (advance dt s0)
  match s.life.lifeDue with
  | none => .next s
  | some (t, due) =>
    if s.pwr.loss.isSome || decide (s.sysCnt < due) then .next s
    else
      let s1 := if t = .returned then wipeReturned s else s
      .next (warmReset 4 false startupHoldN false { s1 with life := { s1.life with state := t, lifeDue := none } })

end Sys2Proof.Machine
end

