-- ==== Sys2Proof/Machine/Thermal.lean ====
section
/-! DEFINITION. Junction temperature (R515 to R518), adaptive voltage scaling (R520), and the end of the self-tests (R537). -/

namespace Sys2Proof.Machine

/-- Writes the temperature and voltage registers. -/
def withTh (t : Thermal) (s : State) : State := { s with flt := { s.flt with th := t } }

/-- A fault action stops every running core by the fade of COOP_STOP and marks it; what is stored of it stays (R514, R517, R520). -/
def stopMarked (s : State) : State :=
  (List.range 4).foldl (fun a k =>
    let c := coreOf a k
    if c.state == .starting || c.state == .running || c.state == .halted then markCore k (fadeCore a k) else a) s

/-- One more reading at or above a threshold, up to 4. -/
def countOver (t limit : Int) (n : Nat) : Nat := if limit ≤ t then min 4 (n + 1) else 0

/-- A reading of the sensors, with the THERMAL_WARN ceiling (R515, R516): down 1 dB every 100 ms at or above 105 °C to −20 dB,
up 1 dB every 2 s once the fault is released. -/
def takeTemps (t : List Int) (s : State) : State :=
  let h := s.flt.th
  let tj := (hottest t).2
  let warn := anyInForce .thermalWarn s
  let down := warn && decide (105000 ≤ tj) && decide (h.warnStep + 100 * msCounts ≤ s.sysCnt)
  let up := !warn && decide (h.warnCeiling < 0) && decide (h.warnStep + 2 * secCounts ≤ s.sysCnt)
  withTh { h with
    temp := t, peak := max h.peak tj, over105 := countOver tj 105000 h.over105, over125 := countOver tj 125000 h.over125
    over135 := countOver tj 135000 h.over135
    below100 := sinceWhen (decide (tj < 100000)) s.sysCnt h.below100
    below110 := sinceWhen (decide (tj < 110000)) s.sysCnt h.below110
    warnCeiling := if down then max (-20000) (h.warnCeiling - 1000) else if up then min 0 (h.warnCeiling + 1000)
      else h.warnCeiling
    warnStep := if down || up then s.sysCnt else h.warnStep } s

/-- THERMAL_WARN is recorded (R516). -/
def warnNow (s : State) : State :=
  if s.flt.th.over105 < 4 || anyInForce .thermalWarn s then s
  else raise .thermalWarn 0 0 (thermalDetail s.flt.th.temp) (withTh { s.flt.th with warnStep := s.sysCnt } s)

/-- The actions of a trip (R517): RECOVERY, cores stopped, the governor's levels off. -/
def tripAction (s : State) : State :=
  let s1 := callRecovery .thermalTrip 0 0 (stopMarked s)
  { s1 with pwr := { s1.pwr with spkCeil := levelOff, hsLevel := levelOff, restoring := false } }

/-- THERMAL_TRIP is recorded (R517). -/
def tripNow (s : State) : State :=
  if s.flt.th.over125 < 4 || anyInForce .thermalTrip s then s
  else tripAction (raise .thermalTrip 0 0 (thermalDetail s.flt.th.temp) s)

/-- Bit 8 of DETAIL joins the record and the condition of a trip (R518). -/
def markTrip (s : State) : State :=
  { s with flt := { s.flt with
    queue := s.flt.queue.map (fun r => if r.code = .thermalTrip ∧ !r.injected then { r with detail := r.detail ||| 0x100 } else r)
    active := s.flt.active.map (fun c => if c.code = .thermalTrip then { c with detail := c.detail ||| 0x100 } else c) } }

/-- 135 °C (R518): the trip is recorded with bit 8, or its record takes it, and a warm reset holds the islands until
THERMAL_RESET_HOLD_END. -/
def resetHot (s : State) : State :=
  let d := thermalDetail s.flt.th.temp ||| 0x100
  let s1 := if anyInForce .thermalTrip s then markTrip (detect .thermalTrip 0 0 d s) else tripAction (raise .thermalTrip 0 0 d s)
  warmReset 5 false true true (withTh { s1.flt.th with reset135 := true } s1)

/-- A 135 °C reset runs or its hold does. -/
def thermalReset (p : ResetPhase) : Bool := match p with
  | .thermal | .muting _ _ true => true
  | _ => false

/-- THERMAL_SENSOR_READ (R515): every 1 ms. -/
def execThermalSensorRead (dt : Nat) (t : List Int) (s0 : State) : R :=
  let s := settleReset (advance dt s0)
  if !s.pwr.aoOn || s.pwr.loss.isSome || t.length ≠ 8 then .next s
  else
    let s1 := warnNow (takeTemps t s)
    .next (if s1.flt.th.over135 = 4 && !thermalReset s1.life.phase && resettable s1 then resetHot s1 else tripNow s1)

/-- THERMAL_RESET_HOLD_END (R518): T_j has stayed below 110 °C for 60 s. -/
def execThermalResetHoldEnd (dt : Nat) (startupHoldN : Bool) (s0 : State) : R :=
  let s := settleReset (advance dt s0)
  if s.life.phase ≠ .thermal || (s.life.mode ≠ .reset && s.life.mode ≠ .start) || s.pwr.loss.isSome || !heldFor (60 * secCounts) s.sysCnt s.flt.th.below110 then .next s
  else .next (leaveReset startupHoldN s)

/-! ### Adaptive voltage scaling (R520) -/

/-- Number of a rail. -/
def railIdx : AvsRail → Nat
  | .blend => 0
  | .coop => 1

/-- AVS_MARGIN: a rail at 0.90 V still shows slack below 0. -/
def avsMargin (r : AvsRail) (mv : Nat) (slack : Int) (monitor : Fin 16) (s : State) : State :=
  if mv < 900 || 0 ≤ slack || inForce .avsMargin 0 (railIdx r) s then s
  else
    let s1 := raise .avsMargin 0 (railIdx r) (BitVec.ofNat 32 (railIdx r + 256 * monitor.val)) s
    match r with
    | .coop => stopMarked s1
    | .blend => callRecovery .avsMargin 0 0 s1

/-- The voltage in force of a rail, and writing it with its slack. -/
def railMv (s : State) : AvsRail → Nat
  | .blend => s.flt.th.avsBlend
  | .coop => s.flt.th.avsCoop
def setRail (r : AvsRail) (mv : Nat) (slack : Int) (s : State) : State :=
  let h := s.flt.th
  let n := h.avsSteps + bit (mv != railMv s r)
  match r with
  | .blend => withTh { h with
      avsBlend := mv, slackBlend := slack, avsSteps := n, blendOk := sinceWhen (decide (300 ≤ slack)) s.sysCnt h.blendOk } s
  | .coop => withTh { h with
      avsCoop := mv, slackCoop := slack, avsSteps := n, coopOk := sinceWhen (decide (300 ≤ slack)) s.sysCnt h.coopOk } s

/-- The islands run, so the monitors report. -/
def railsRun (s : State) : Bool := s.pwr.auxReg && s.life.phase != .thermal

/-- AVS_STEP: every 50 µs. -/
def execAvsStep (dt : Nat) (slackBlend slackCoop : Int) (monitorBlend monitorCoop : Fin 16) (s0 : State) : R :=
  let s := settleReset (advance dt s0)
  if !railsRun s then .next s
  else
    let step (r : AvsRail) (slack : Int) (m : Fin 16) (a : State) : State :=
      let mv := railMv a r
      avsMargin r mv slack m (setRail r (avsRail mv slack) slack a)
    .next (step .coop slackCoop monitorCoop (step .blend slackBlend monitorBlend s))

/-- AVS_NEGATIVE_SLACK: the rail rises by 5 mV at once. -/
def execAvsNegativeSlack (dt : Nat) (r : AvsRail) (slack : Int) (monitor : Fin 16) (s0 : State) : R :=
  let s := settleReset (advance dt s0)
  if !railsRun s || 0 ≤ slack then .next s
  else
    let mv := railMv s r
    .next (avsMargin r mv slack monitor (setRail r (min 900 (mv + 5)) slack s))

/-- AVS_MARGIN_RELEASE: slack at or above 3 % for 10 s. Cores the COOP rail stopped start at once where audio runs, else at the
next entry to SERVICE. -/
def execAvsMarginRelease (dt : Nat) (r : AvsRail) (s0 : State) : R :=
  let s := settleReset (advance dt s0)
  let since := match r with | .blend => s.flt.th.blendOk | .coop => s.flt.th.coopOk
  if !heldFor (10 * secCounts) s.sysCnt since || !inForce .avsMargin 0 (railIdx r) s then .next s
  else
    let s1 := release .avsMargin 0 (railIdx r) s
    if r = .coop ∧ modeLive s.life.mode then .next ((bitsOf 4 s1.flt.markedAvs.toNat).foldl (restartCore (nextFrame s1)) s1)
    else .next s1

/-! ### TEST_SELF (R537) -/

/-- Quantity: 0 where the CRC of the factory area checks. -/
def qFactoryCrc : Nat := 29

/-- The first index of `l` at which a check fails. -/
def firstBad (l : List Bool) : Option Nat := firstIdx (fun b => !b) l

/-- The eight readings lie within 15 °C of their median, the mean of the middle two; which do. -/
def sensorsOk (t : List Int) : List Bool :=
  let q := t.mergeSort
  let m := q.getD 3 0 + q.getD 4 0
  t.map (fun x => decide ((2 * x - m).natAbs ≤ 30000))

/-- One self-test: the first slot, copy, image or sensor that fails. -/
def selfTest (s : State) (k : Nat) : Option Nat :=
  let v := s.vint
  let slot (x : Slot) : Bool := x.blank || slotValid v (runningImage s) x
  match k with
  | 0 => if Config.measure qFactoryCrc 0 s.sysCnt = 0 then none else some 0
  | 1 => firstBad [v.safeA.valid, v.safeB.valid]
  | 2 => firstBad [slot v.slotA, slot v.slotB]
  | 3 => firstBad [imageBoots s.life.imageA s.life.minSec, imageBoots s.life.imageB s.life.minSec]
  | _ => firstBad (sensorsOk s.flt.th.temp)

/-- TEST_SELF_COMPLETE: the reply with PASSED, FAILED, DURATION_US and DETAIL. -/
def execTestSelfComplete (dt : Nat) (durationUs : Nat) (s0 : State) : R :=
  let s := advance dt s0
  match s.life.testSelf with
  | none => .next s
  | some w =>
    let tests := bitsOf 5 w.toNat
    let bad := tests.filter (fun k => (selfTest s k).isSome)
    let mask (l : List Nat) : Nat := (l.map (2 ^ ·)).sum
    let detail := match bad with
      | k :: _ => k + 256 * (selfTest s k).getD 0
      | [] => 0xFF
    .next (lateReply .testSelf .ok (le 4 (mask (tests.filter (fun k => !bad.contains k))) ++ le 4 (mask bad)
      ++ le 4 durationUs ++ le 4 detail) { s with life := { s.life with testSelf := none } })

end Sys2Proof.Machine
end

