-- ==== Sys2Proof/Machine/Dispatch.lean ====
section
/-! DEFINITION. The meaning of each command: one arm per constructor of `Instr`. -/

namespace Sys2Proof.Machine

def exec (i : Instr) (s : State) : Host.Outcome State Fault Refusal :=
  match i with
  | .nop h p => Sys2Proof.Machine.execNop h p s
  | .devInfo h p => Sys2Proof.Machine.execDevInfo h p s
  | .devState h p => Sys2Proof.Machine.execDevState h p s
  | .devRun h p => Sys2Proof.Machine.execDevRun h p s
  | .devMode h p => Sys2Proof.Machine.execDevMode h p s
  | .devReset h p => Sys2Proof.Machine.execDevReset h p s
  | .boardDescribe h p => Sys2Proof.Machine.execBoardDescribe h p s
  | .timeRead h p => Sys2Proof.Machine.execTimeRead h p s
  | .eventMask h p => Sys2Proof.Machine.execEventMask h p s
  | .vintCommit h p => Sys2Proof.Machine.execVintCommit h p s
  | .vintStatus h p => Sys2Proof.Machine.execVintStatus h p s
  | .vintPolicy h p => Sys2Proof.Machine.execVintPolicy h p s
  | .vintClear h p => Sys2Proof.Machine.execVintClear h p s
  | .lifeState h p => Sys2Proof.Machine.execLifeState h p s
  | .lifeAdvance h p => Sys2Proof.Machine.execLifeAdvance h p s
  | .fwBegin h p => Sys2Proof.Machine.execFwBegin h p s
  | .fwData h p => Sys2Proof.Machine.execFwData h p s
  | .fwEnd h p => Sys2Proof.Machine.execFwEnd h p s
  | .fwSelect h p => Sys2Proof.Machine.execFwSelect h p s
  | .keyInstall h p => Sys2Proof.Machine.execKeyInstall h p s
  | .graphStage h p => Sys2Proof.Machine.execGraphStage h p s
  | .graphCommit h p => Sys2Proof.Machine.execGraphCommit h p s
  | .graphAbort h p => Sys2Proof.Machine.execGraphAbort h p s
  | .graphQuery h p => Sys2Proof.Machine.execGraphQuery h p s
  | .routeSet h p => Sys2Proof.Machine.execRouteSet h p s
  | .latencyQuery h p => Sys2Proof.Machine.execLatencyQuery h p s
  | .gainSet h p => Sys2Proof.Machine.execGainSet h p s
  | .muteSet h p => Sys2Proof.Machine.execMuteSet h p s
  | .rampDefaults h p => Sys2Proof.Machine.execRampDefaults h p s
  | .sinkSet h p => Sys2Proof.Machine.execSinkSet h p s
  | .genSet h p => Sys2Proof.Machine.execGenSet h p s
  | .override h p => Sys2Proof.Machine.execOverride h p s
  | .overrideConfig h p => Sys2Proof.Machine.execOverrideConfig h p s
  | .meterRead h p => Sys2Proof.Machine.execMeterRead h p s
  | .inputSet h p => Sys2Proof.Machine.execInputSet h p s
  | .inputStatus h p => Sys2Proof.Machine.execInputStatus h p s
  | .tasterConfig h p => Sys2Proof.Machine.execTasterConfig h p s
  | .tasterRun h p => Sys2Proof.Machine.execTasterRun h p s
  | .tasterSubstitute h p => Sys2Proof.Machine.execTasterSubstitute h p s
  | .inputExpert h p => Sys2Proof.Machine.execInputExpert h p s
  | .outputSet h p => Sys2Proof.Machine.execOutputSet h p s
  | .outputStatus h p => Sys2Proof.Machine.execOutputStatus h p s
  | .holdSet h p => Sys2Proof.Machine.execHoldSet h p s
  | .holdSafeSet h p => Sys2Proof.Machine.execHoldSafeSet h p s
  | .speakerSet h p => Sys2Proof.Machine.execSpeakerSet h p s
  | .clearConfig h p => Sys2Proof.Machine.execClearConfig h p s
  | .outputExpert h p => Sys2Proof.Machine.execOutputExpert h p s
  | .filtConfig h p => Sys2Proof.Machine.execFiltConfig h p s
  | .filtCoefLoad h p => Sys2Proof.Machine.execFiltCoefLoad h p s
  | .filtRun h p => Sys2Proof.Machine.execFiltRun h p s
  | .filtSync h p => Sys2Proof.Machine.execFiltSync h p s
  | .filtPhase h p => Sys2Proof.Machine.execFiltPhase h p s
  | .filtStatus h p => Sys2Proof.Machine.execFiltStatus h p s
  | .filtExpert h p => Sys2Proof.Machine.execFiltExpert h p s
  | .tdmSet h p => Sys2Proof.Machine.execTdmSet h p s
  | .aesSet h p => Sys2Proof.Machine.execAesSet h p s
  | .portStart h p => Sys2Proof.Machine.execPortStart h p s
  | .portStop h p => Sys2Proof.Machine.execPortStop h p s
  | .portStatus h p => Sys2Proof.Machine.execPortStatus h p s
  | .portStamp h p => Sys2Proof.Machine.execPortStamp h p s
  | .aesCsSet h p => Sys2Proof.Machine.execAesCsSet h p s
  | .aesCsRead h p => Sys2Proof.Machine.execAesCsRead h p s
  | .clockRefs h p => Sys2Proof.Machine.execClockRefs h p s
  | .clockStatus h p => Sys2Proof.Machine.execClockStatus h p s
  | .ptpSet h p => Sys2Proof.Machine.execPtpSet h p s
  | .wclkSet h p => Sys2Proof.Machine.execWclkSet h p s
  | .fsSet h p => Sys2Proof.Machine.execFsSet h p s
  | .decantSet h p => Sys2Proof.Machine.execDecantSet h p s
  | .alignGroupSet h p => Sys2Proof.Machine.execAlignGroupSet h p s
  | .clockExpert h p => Sys2Proof.Machine.execClockExpert h p s
  | .netSet h p => Sys2Proof.Machine.execNetSet h p s
  | .streamRxSet h p => Sys2Proof.Machine.execStreamRxSet h p s
  | .streamTxSet h p => Sys2Proof.Machine.execStreamTxSet h p s
  | .streamEnable h p => Sys2Proof.Machine.execStreamEnable h p s
  | .streamStatus h p => Sys2Proof.Machine.execStreamStatus h p s
  | .netStatus h p => Sys2Proof.Machine.execNetStatus h p s
  | .netAuthSet h p => Sys2Proof.Machine.execNetAuthSet h p s
  | .hsSet h p => Sys2Proof.Machine.execHsSet h p s
  | .hsStatus h p => Sys2Proof.Machine.execHsStatus h p s
  | .hsEvents h p => Sys2Proof.Machine.execHsEvents h p s
  | .hsExpert h p => Sys2Proof.Machine.execHsExpert h p s
  | .coopLoad h p => Sys2Proof.Machine.execCoopLoad h p s
  | .coopStart h p => Sys2Proof.Machine.execCoopStart h p s
  | .coopStop h p => Sys2Proof.Machine.execCoopStop h p s
  | .coopStatus h p => Sys2Proof.Machine.execCoopStatus h p s
  | .coopParam h p => Sys2Proof.Machine.execCoopParam h p s
  | .coopDebug h p => Sys2Proof.Machine.execCoopDebug h p s
  | .faultRead h p => Sys2Proof.Machine.execFaultRead h p s
  | .faultAck h p => Sys2Proof.Machine.execFaultAck h p s
  | .powerStatus h p => Sys2Proof.Machine.execPowerStatus h p s
  | .powerPolicy h p => Sys2Proof.Machine.execPowerPolicy h p s
  | .thermalStatus h p => Sys2Proof.Machine.execThermalStatus h p s
  | .expertOpen h p => Sys2Proof.Machine.execExpertOpen h p s
  | .expertClose h p => Sys2Proof.Machine.execExpertClose h p s
  | .regRead h p => Sys2Proof.Machine.execRegRead h p s
  | .regWrite h p => Sys2Proof.Machine.execRegWrite h p s
  | .govTest h v => Sys2Proof.Machine.execGovTest h v s
  | .pathForce h n v => Sys2Proof.Machine.execPathForce h n v s
  | .clampTest h n v => Sys2Proof.Machine.execClampTest h n v s
  | .trackFreeze h n v => Sys2Proof.Machine.execTrackFreeze h n v s
  | .forceType h n v => Sys2Proof.Machine.execForceType h n v s
  | .loopback h n v => Sys2Proof.Machine.execLoopback h n v s
  | .phyLoop h n v => Sys2Proof.Machine.execPhyLoop h n v s
  | .breakpointSet h core n v => Sys2Proof.Machine.execBreakpointSet h core n v s
  | .coopRegisterWrite h core off v => Sys2Proof.Machine.execCoopRegisterWrite h core off v s
  | .injectCode h v => Sys2Proof.Machine.execInjectCode h v s
  | .testLoop h p => Sys2Proof.Machine.execTestLoop h p s
  | .testSelf h p => Sys2Proof.Machine.execTestSelf h p s
  | .writeCmd dt frame => Sys2Proof.Machine.execWriteCmd dt frame s
  | .readReply dt clocked => Sys2Proof.Machine.execReadReply dt clocked s
  | .readStatus dt => Sys2Proof.Machine.execReadStatus dt s
  | .commandDatagram dt port srcIp srcPort udp => Sys2Proof.Machine.execCommandDatagram dt port srcIp srcPort udp s
  | .commandPreemption dt => Sys2Proof.Machine.execCommandPreemption dt s
  | .commandAgeing dt => Sys2Proof.Machine.execCommandAgeing dt s
  | .timedCommandApply dt tickTai => Sys2Proof.Machine.execTimedCommandApply dt tickTai s
  | .eventNotice dt => Sys2Proof.Machine.execEventNotice dt s
  | .sessionTimeout dt session => Sys2Proof.Machine.execSessionTimeout dt session s
  | .expertIdleTimeout dt => Sys2Proof.Machine.execExpertIdleTimeout dt s
  | .frameTick dt i1 => Sys2Proof.Machine.execFrameTick dt i1 s
  | .corkTimeout dt o => Sys2Proof.Machine.execCorkTimeout dt o s
  | .deferredCommandLands dt => Sys2Proof.Machine.execDeferredCommandLands dt s
  | .sweepEnd dt g => Sys2Proof.Machine.execSweepEnd dt g s
  | .powerApplied dt port granted => Sys2Proof.Machine.execPowerApplied dt port granted s
  | .inputPowerGood dt port => Sys2Proof.Machine.execInputPowerGood dt port s
  | .powerUpDelayEnd dt port => Sys2Proof.Machine.execPowerUpDelayEnd dt port s
  | .auxRailsInRegulation dt => Sys2Proof.Machine.execAuxRailsInRegulation dt s
  | .aoReady dt startupHoldN => Sys2Proof.Machine.execAoReady dt startupHoldN s
  | .leesPurgeComplete dt clean => Sys2Proof.Machine.execLeesPurgeComplete dt clean s
  | .bootImageVerified dt => Sys2Proof.Machine.execBootImageVerified dt s
  | .restore dt => Sys2Proof.Machine.execRestore dt s
  | .serviceEntry dt => Sys2Proof.Machine.execServiceEntry dt s
  | .portSupplyStopped dt a b => Sys2Proof.Machine.execPortSupplyStopped dt a b s
  | .holdUpExhausted dt => Sys2Proof.Machine.execHoldUpExhausted dt s
  | .hupReady dt => Sys2Proof.Machine.execHupReady dt s
  | .lldpAllocation dt port mw => Sys2Proof.Machine.execLldpAllocation dt port mw s
  | .governorPeriod dt m => Sys2Proof.Machine.execGovernorPeriod dt m s
  | .shedRestore dt => Sys2Proof.Machine.execShedRestore dt s
  | .powerBudgetRelease dt => Sys2Proof.Machine.execPowerBudgetRelease dt s
  | .auxFault dt r => Sys2Proof.Machine.execAuxFault dt r s
  | .auxRetry dt r ok => Sys2Proof.Machine.execAuxRetry dt r ok s
  | .resetNLow dt => Sys2Proof.Machine.execResetNLow dt s
  | .resetNHigh dt startupHoldN => Sys2Proof.Machine.execResetNHigh dt startupHoldN s
  | .watchdogExpiry dt startupHoldN => Sys2Proof.Machine.execWatchdogExpiry dt startupHoldN s
  | .devResetStart dt startupHoldN => Sys2Proof.Machine.execDevResetStart dt startupHoldN s
  | .lifeTransitionStart dt startupHoldN => Sys2Proof.Machine.execLifeTransitionStart dt startupHoldN s
  | .bulkRecordStored dt id => Sys2Proof.Machine.execBulkRecordStored dt id s
  | .vintCommitComplete dt rb durationUs => Sys2Proof.Machine.execVintCommitComplete dt rb durationUs s
  | .pendingCommitStart dt => Sys2Proof.Machine.execPendingCommitStart dt s
  | .autoCommit dt => Sys2Proof.Machine.execAutoCommit dt s
  | .thermalSensorRead dt t => Sys2Proof.Machine.execThermalSensorRead dt t s
  | .thermalWarnRelease dt => Sys2Proof.Machine.execThermalWarnRelease dt s
  | .thermalTripRelease dt => Sys2Proof.Machine.execThermalTripRelease dt s
  | .thermalResetHoldEnd dt startupHoldN => Sys2Proof.Machine.execThermalResetHoldEnd dt startupHoldN s
  | .avsStep dt slackBlend slackCoop monitorBlend monitorCoop => Sys2Proof.Machine.execAvsStep dt slackBlend slackCoop monitorBlend monitorCoop s
  | .avsNegativeSlack dt r slack monitor => Sys2Proof.Machine.execAvsNegativeSlack dt r slack monitor s
  | .avsMarginRelease dt r => Sys2Proof.Machine.execAvsMarginRelease dt r s
  | .recoveryEntry dt => Sys2Proof.Machine.execRecoveryEntry dt s
  | .faultLogWrite dt => Sys2Proof.Machine.execFaultLogWrite dt s
  | .ptpSync dt port m => Sys2Proof.Machine.execPtpSync dt port m s
  | .ptpAnnounce dt port m => Sys2Proof.Machine.execPtpAnnounce dt port m s
  | .referenceQualified dt entry => Sys2Proof.Machine.execReferenceQualified dt entry s
  | .phaseMoveComplete dt => Sys2Proof.Machine.execPhaseMoveComplete dt s
  | .pllLock dt => Sys2Proof.Machine.execPllLock dt s
  | .pllLockLost dt => Sys2Proof.Machine.execPllLockLost dt s
  | .pllBandwidthStep dt widen => Sys2Proof.Machine.execPllBandwidthStep dt widen s
  | .refLostGraceEnd dt => Sys2Proof.Machine.execRefLostGraceEnd dt s
  | .taiTimeout dt => Sys2Proof.Machine.execTaiTimeout dt s
  | .clockLost dt c reason => Sys2Proof.Machine.execClockLost dt c reason s
  | .clockResumed dt p => Sys2Proof.Machine.execClockResumed dt p s
  | .decantRelock dt t rateMhz => Sys2Proof.Machine.execDecantRelock dt t rateMhz s
  | .syncInEdge dt => Sys2Proof.Machine.execSyncInEdge dt s
  | .clearNLow dt => Sys2Proof.Machine.execClearNLow dt s
  | .clearNHigh dt => Sys2Proof.Machine.execClearNHigh dt s
  | .ovrNLow dt => Sys2Proof.Machine.execOvrNLow dt s
  | .ovrNHigh dt => Sys2Proof.Machine.execOvrNHigh dt s
  | .gpioMuteInput dt g level => Sys2Proof.Machine.execGpioMuteInput dt g level s
  | .inputOver dt ch => Sys2Proof.Machine.execInputOver dt ch s
  | .extPhantomDetect dt ch above => Sys2Proof.Machine.execExtPhantomDetect dt ch above s
  | .phantomRampEnd dt ch => Sys2Proof.Machine.execPhantomRampEnd dt ch s
  | .phantomOvercurrent dt ch => Sys2Proof.Machine.execPhantomOvercurrent dt ch s
  | .phantomRetry dt ch dmA => Sys2Proof.Machine.execPhantomRetry dt ch dmA s
  | .matchLimit dt ch => Sys2Proof.Machine.execMatchLimit dt ch s
  | .matchReturnComplete dt ch => Sys2Proof.Machine.execMatchReturnComplete dt ch s
  | .tasterVisitStart dt t => Sys2Proof.Machine.execTasterVisitStart dt t s
  | .tasterSettleEnd dt t => Sys2Proof.Machine.execTasterSettleEnd dt t s
  | .tasterWindowEnd dt t m other between => Sys2Proof.Machine.execTasterWindowEnd dt t m other between s
  | .tasterSubstituted dt => Sys2Proof.Machine.execTasterSubstituted dt s
  | .settlingEnd dt c => Sys2Proof.Machine.execSettlingEnd dt c s
  | .filtStopComplete dt c => Sys2Proof.Machine.execFiltStopComplete dt c s
  | .filtReloadClear dt c => Sys2Proof.Machine.execFiltReloadClear dt c s
  | .filtSyncClear dt => Sys2Proof.Machine.execFiltSyncClear dt s
  | .captureComplete dt samples => Sys2Proof.Machine.execCaptureComplete dt samples s
  | .outputShort dt n legP legM => Sys2Proof.Machine.execOutputShort dt n legP legM s
  | .outputShortProbe dt n legMicroamp => Sys2Proof.Machine.execOutputShortProbe dt n legMicroamp s
  | .servoLimit dt n => Sys2Proof.Machine.execServoLimit dt n s
  | .holdShort dt n => Sys2Proof.Machine.execHoldShort dt n s
  | .holdShortRelease dt n => Sys2Proof.Machine.execHoldShortRelease dt n s
  | .rangeChangeComplete dt n => Sys2Proof.Machine.execRangeChangeComplete dt n s
  | .loadCheckVerdict dt n mohm => Sys2Proof.Machine.execLoadCheckVerdict dt n mohm s
  | .loadCheckRepeat dt n => Sys2Proof.Machine.execLoadCheckRepeat dt n s
  | .speakerShortInOperation dt n => Sys2Proof.Machine.execSpeakerShortInOperation dt n s
  | .outputThermal dt stage tempMc => Sys2Proof.Machine.execOutputThermal dt stage tempMc s
  | .outputThermalRelease dt stage => Sys2Proof.Machine.execOutputThermalRelease dt stage s
  | .hsPlugInsertion dt n => Sys2Proof.Machine.execHsPlugInsertion dt n s
  | .hsXlrPoll dt n zL zMic => Sys2Proof.Machine.execHsXlrPoll dt n zL zMic s
  | .hsMeasurementCycle dt n => Sys2Proof.Machine.execHsMeasurementCycle dt n s
  | .hsVerdict dt n m => Sys2Proof.Machine.execHsVerdict dt n m s
  | .hsFaultRetry dt n => Sys2Proof.Machine.execHsFaultRetry dt n s
  | .hsRemoval dt n => Sys2Proof.Machine.execHsRemoval dt n s
  | .buttonPress dt n micUv ago => Sys2Proof.Machine.execButtonPress dt n micUv ago s
  | .buttonLongPress dt n => Sys2Proof.Machine.execButtonLongPress dt n s
  | .buttonRepeat dt n => Sys2Proof.Machine.execButtonRepeat dt n s
  | .buttonRelease dt n ago => Sys2Proof.Machine.execButtonRelease dt n ago s
  | .rackComplete dt => Sys2Proof.Machine.execRackComplete dt s
  | .dipBankSwitch dt => Sys2Proof.Machine.execDipBankSwitch dt s
  | .pendingGraphTrigger dt => Sys2Proof.Machine.execPendingGraphTrigger dt s
  | .tdmFrameReceived dt p f => Sys2Proof.Machine.execTdmFrameReceived dt p f s
  | .aes3FrameReceived dt x f => Sys2Proof.Machine.execAes3FrameReceived dt x f s
  | .aesCsBlockComplete dt x sub cs user frames => Sys2Proof.Machine.execAesCsBlockComplete dt x sub cs user frames s
  | .portStartComplete dt p => Sys2Proof.Machine.execPortStartComplete dt p s
  | .portStopComplete dt p => Sys2Proof.Machine.execPortStopComplete dt p s
  | .linkUp dt l fast => Sys2Proof.Machine.execLinkUp dt l fast s
  | .linkDown dt l noCommonSpeed => Sys2Proof.Machine.execLinkDown dt l noCommonSpeed s
  | .mediaPacketReceived dt m => Sys2Proof.Machine.execMediaPacketReceived dt m s
  | .streamPacketSend dt slot => Sys2Proof.Machine.execStreamPacketSend dt slot s
  | .streamLost dt slot => Sys2Proof.Machine.execStreamLost dt slot s
  | .streamReportRepeat dt slot => Sys2Proof.Machine.execStreamReportRepeat dt slot s
  | .pathLost dt slot path => Sys2Proof.Machine.execPathLost dt slot path s
  | .arpRequest dt l targetIp senderIp senderMac => Sys2Proof.Machine.execArpRequest dt l targetIp senderIp senderMac s
  | .icmpEcho dt l targetIp senderIp data => Sys2Proof.Machine.execIcmpEcho dt l targetIp senderIp data s
  | .igmpQuery dt l v2 group => Sys2Proof.Machine.execIgmpQuery dt l v2 group s
  | .switchForward dt l f => Sys2Proof.Machine.execSwitchForward dt l f s
  | .fdbAgeOut dt mac vlan => Sys2Proof.Machine.execFdbAgeOut dt mac vlan s
  | .coopBlockTrigger dt core => Sys2Proof.Machine.execCoopBlockTrigger dt core s
  | .coopInitComplete dt core => Sys2Proof.Machine.execCoopInitComplete dt core s
  | .coopOverrun dt core => Sys2Proof.Machine.execCoopOverrun dt core s
  | .coopRunaway dt core => Sys2Proof.Machine.execCoopRunaway dt core s
  | .coopRestart dt core => Sys2Proof.Machine.execCoopRestart dt core s
  | .coopRestartCountReset dt core => Sys2Proof.Machine.execCoopRestartCountReset dt core s
  | .dmaDone dt core ch => Sys2Proof.Machine.execDmaDone dt core ch s
  | .mac core f => Sys2Proof.Machine.execMac core f s
  | .msu core f => Sys2Proof.Machine.execMsu core f s
  | .mpy core f => Sys2Proof.Machine.execMpy core f s
  | .add core f => Sys2Proof.Machine.execAdd core f s
  | .sub core f => Sys2Proof.Machine.execSub core f s
  | .and core f => Sys2Proof.Machine.execAnd core f s
  | .or core f => Sys2Proof.Machine.execOr core f s
  | .xor core f => Sys2Proof.Machine.execXor core f s
  | .shl core f => Sys2Proof.Machine.execShl core f s
  | .asr core f => Sys2Proof.Machine.execAsr core f s
  | .norm core f => Sys2Proof.Machine.execNorm core f s
  | .rnd core f => Sys2Proof.Machine.execRnd core f s
  | .sat core f => Sys2Proof.Machine.execSat core f s
  | .cmp core f => Sys2Proof.Machine.execCmp core f s
  | .ld core f => Sys2Proof.Machine.execLd core f s
  | .ldd core f => Sys2Proof.Machine.execLdd core f s
  | .st core f => Sys2Proof.Machine.execSt core f s
  | .br core c t => Sys2Proof.Machine.execBr core c t s
  | .call core t => Sys2Proof.Machine.execCall core t s
  | .ret core => Sys2Proof.Machine.execRet core s
  | .rep core len1 count => Sys2Proof.Machine.execRep core len1 count s
  | .repRegisterCount core len1 n => Sys2Proof.Machine.execRepRegisterCount core len1 n s
  | .endrep core c => Sys2Proof.Machine.execEndrep core c s
  | .wait core mask => Sys2Proof.Machine.execWait core mask s
  | .blkdone core => Sys2Proof.Machine.execBlkdone core s
  | .halt core => Sys2Proof.Machine.execHalt core s
  | .acs core f => Sys2Proof.Machine.execAcs core f s
  | .bexp core f => Sys2Proof.Machine.execBexp core f s
  | .announceReceiptTimeout dt port => Sys2Proof.Machine.execAnnounceReceiptTimeout dt port s
  | .ptpMasterTransmit dt port k => Sys2Proof.Machine.execPtpMasterTransmit dt port k s
  | .ptpDelayRequest dt port => Sys2Proof.Machine.execPtpDelayRequest dt port s
  | .ptpDelayResponse dt port pathNs => Sys2Proof.Machine.execPtpDelayResponse dt port pathNs s
  | .wclkInEdge dt period => Sys2Proof.Machine.execWclkInEdge dt period s
  | .aes3TransmitFrame dt x => Sys2Proof.Machine.execAes3TransmitFrame dt x s
  | .matchSuspect dt ch residual => Sys2Proof.Machine.execMatchSuspect dt ch residual s
  | .hsSideAtLimit dt n right => Sys2Proof.Machine.execHsSideAtLimit dt n right s
  | .illegalInstruction core => Sys2Proof.Machine.execIllegalInstruction core s
  | .fwEraseComplete dt => Sys2Proof.Machine.execFwEraseComplete dt s
  | .testSelfComplete dt durationUs => Sys2Proof.Machine.execTestSelfComplete dt durationUs s
  | .hostnetBridgeFrame dt fromHost toModule f => Sys2Proof.Machine.execHostnetBridgeFrame dt fromHost toModule f s

end Sys2Proof.Machine
end

