-- ==== Sys2Proof/WellFormed.lean ====
section
/-! DEFINITION. Which commands the table's forms admit: limits on operands that the types of `Instr` do not already set. -/

namespace Sys2Proof

/-- Longest payload of a packet of a requester, the apply time of a timed one counted (R127, R128). -/
def payloadLimit (h : Hdr) : Nat := (if h.rq = .spi then 4096 else 1400) - (if h.timed.isSome then 8 else 0)

/-- A packet: its payload within the transport's limit (R127). -/
def packetOk (h : Hdr) (p : Bytes) : Bool := decide (p.length ≤ payloadLimit h)

/-- The two loads of LDD use different pointers (R484). -/
def lddOk (f : LddFields) : Bool := f.pa != f.pb

/-- A parallel move (R484). -/
def moveOk : Move → Bool
  | .ldd f => lddOk f
  | _ => true

/-- A data-form shift count is below 32 (R485). -/
def shiftOk : ShiftForm → Bool
  | .data _ _ (.imm v) => decide (v.val < 32)
  | _ => true

/-- A width is 8 to 31 (R485). -/
def rndOk : RndForm → Bool
  | .data _ _ w => decide (8 ≤ w.val)
  | .narrow _ _ => true

def satOk : SatForm → Bool
  | .data _ _ w => decide (8 ≤ w.val)
  | .acc _ _ => true

/-- BEXP: different pointers and a count that is not zero (R485, R500). -/
def bexpOk (f : BexpForm) : Bool := f.pa != f.pb && f.n != 0

/-- The Cooper instructions that have an encoding (R482 to R487). -/
def CoopOp.wf : CoopOp → Bool
  | .mac f | .msu f | .mpy f => moveOk f.mv
  | .shl f | .asr f => shiftOk f
  | .rnd f => rndOk f
  | .sat f => satOk f
  | .ldd f => lddOk f
  | .rep _ c => c != 0
  | .bexp f => bexpOk f
  | _ => true

/-- A tick brings the samples of each converter at most once, no more of them than a frame at 48 kHz has (R33, R253). -/
def tickOk (i : TickIn) : Bool :=
  decide (i.press.map Prod.fst).Nodup && i.press.all (fun e => decide (e.2.high.length ≤ 256) && decide (e.2.low.length ≤ 256))

/-- The forms the table admits. -/
def Instr.wf : Instr → Bool
  | .nop h p | .devInfo h p | .devState h p | .devRun h p | .devMode h p | .devReset h p | .boardDescribe h p
  | .timeRead h p | .eventMask h p | .vintCommit h p | .vintStatus h p | .vintPolicy h p | .vintClear h p
  | .lifeState h p | .lifeAdvance h p | .fwBegin h p | .fwData h p | .fwEnd h p | .fwSelect h p | .keyInstall h p
  | .graphStage h p | .graphCommit h p | .graphAbort h p | .graphQuery h p | .routeSet h p | .latencyQuery h p
  | .gainSet h p | .muteSet h p | .rampDefaults h p | .sinkSet h p | .genSet h p | .override h p
  | .overrideConfig h p | .meterRead h p
  | .inputSet h p | .inputStatus h p | .tasterConfig h p | .tasterRun h p | .tasterSubstitute h p | .inputExpert h p
  | .outputSet h p | .outputStatus h p | .holdSet h p | .holdSafeSet h p | .speakerSet h p | .clearConfig h p
  | .outputExpert h p | .filtConfig h p | .filtCoefLoad h p | .filtRun h p | .filtSync h p | .filtPhase h p
  | .filtStatus h p | .filtExpert h p
  | .tdmSet h p | .aesSet h p | .portStart h p | .portStop h p | .portStatus h p | .portStamp h p | .aesCsSet h p
  | .aesCsRead h p | .clockRefs h p | .clockStatus h p | .ptpSet h p | .wclkSet h p | .fsSet h p | .decantSet h p
  | .alignGroupSet h p | .clockExpert h p
  | .netSet h p | .streamRxSet h p | .streamTxSet h p | .streamEnable h p | .streamStatus h p | .netStatus h p
  | .netAuthSet h p | .hsSet h p | .hsStatus h p | .hsEvents h p | .hsExpert h p | .coopLoad h p | .coopStart h p
  | .coopStop h p | .coopStatus h p | .coopParam h p | .coopDebug h p
  | .faultRead h p | .faultAck h p | .powerStatus h p | .powerPolicy h p | .thermalStatus h p | .expertOpen h p
  | .expertClose h p | .regRead h p | .regWrite h p | .testLoop h p | .testSelf h p => packetOk h p
  | .govTest h _ | .pathForce h _ _ | .clampTest h _ _ | .trackFreeze h _ _ | .forceType h _ _ | .loopback h _ _
  | .phyLoop h _ _ | .breakpointSet h _ _ _ | .injectCode h _ => packetOk h []
  | .coopRegisterWrite h _ off _ => packetOk h [] && off.toNat % 4 == 0
  | .frameTick _ i => tickOk i
  | .thermalSensorRead _ t => t.length == 8
  | .tdmFrameReceived _ _ f => decide (f.slots.length ≤ 32)
  | .aesCsBlockComplete _ _ _ cs user n => cs.length == 24 && user.length == 24 && decide (n ≤ 192)
  | .mac _ f => (CoopOp.mac f).wf
  | .msu _ f => (CoopOp.msu f).wf
  | .mpy _ f => (CoopOp.mpy f).wf
  | .shl _ f => (CoopOp.shl f).wf
  | .asr _ f => (CoopOp.asr f).wf
  | .rnd _ f => (CoopOp.rnd f).wf
  | .sat _ f => (CoopOp.sat f).wf
  | .ldd _ f => (CoopOp.ldd f).wf
  | .rep _ l c => (CoopOp.rep l c).wf
  | .bexp _ f => (CoopOp.bexp f).wf
  | .writeCmd .. | .readReply .. | .readStatus .. | .commandDatagram .. | .commandPreemption .. | .commandAgeing ..
  | .timedCommandApply .. | .eventNotice .. | .sessionTimeout .. | .expertIdleTimeout .. | .corkTimeout ..
  | .deferredCommandLands .. | .sweepEnd .. | .powerApplied .. | .inputPowerGood .. | .powerUpDelayEnd ..
  | .auxRailsInRegulation .. | .aoReady .. | .leesPurgeComplete .. | .bootImageVerified .. | .restore .. | .serviceEntry ..
  | .portSupplyStopped .. | .holdUpExhausted .. | .hupReady .. | .lldpAllocation .. | .governorPeriod .. | .shedRestore ..
  | .powerBudgetRelease .. | .auxFault .. | .auxRetry .. | .resetNLow .. | .resetNHigh .. | .watchdogExpiry ..
  | .devResetStart .. | .lifeTransitionStart .. | .bulkRecordStored .. | .vintCommitComplete .. | .pendingCommitStart ..
  | .autoCommit .. | .thermalWarnRelease .. | .thermalTripRelease .. | .thermalResetHoldEnd .. | .avsStep ..
  | .avsNegativeSlack .. | .avsMarginRelease .. | .recoveryEntry .. | .faultLogWrite .. | .ptpSync .. | .ptpAnnounce ..
  | .referenceQualified .. | .phaseMoveComplete .. | .pllLock .. | .pllLockLost .. | .pllBandwidthStep ..
  | .refLostGraceEnd .. | .taiTimeout .. | .clockLost .. | .clockResumed .. | .decantRelock .. | .syncInEdge ..
  | .clearNLow .. | .clearNHigh .. | .ovrNLow .. | .ovrNHigh .. | .gpioMuteInput .. | .inputOver .. | .extPhantomDetect ..
  | .phantomRampEnd .. | .phantomOvercurrent .. | .phantomRetry .. | .matchLimit .. | .matchReturnComplete ..
  | .tasterVisitStart .. | .tasterSettleEnd .. | .tasterWindowEnd .. | .tasterSubstituted .. | .settlingEnd ..
  | .filtStopComplete .. | .captureComplete .. | .filtReloadClear .. | .filtSyncClear .. | .outputShort .. | .outputShortProbe .. | .servoLimit ..
  | .holdShort .. | .holdShortRelease .. | .rangeChangeComplete .. | .loadCheckVerdict .. | .loadCheckRepeat ..
  | .speakerShortInOperation .. | .outputThermal .. | .outputThermalRelease .. | .hsPlugInsertion .. | .hsXlrPoll ..
  | .hsMeasurementCycle .. | .hsVerdict .. | .hsFaultRetry .. | .hsRemoval .. | .buttonPress .. | .buttonLongPress ..
  | .buttonRepeat .. | .buttonRelease .. | .rackComplete .. | .dipBankSwitch .. | .pendingGraphTrigger ..
  | .aes3FrameReceived .. | .portStartComplete .. | .portStopComplete .. | .linkUp .. | .linkDown ..
  | .mediaPacketReceived .. | .streamPacketSend .. | .streamLost .. | .streamReportRepeat .. | .pathLost .. | .arpRequest ..
  | .icmpEcho .. | .igmpQuery .. | .switchForward .. | .fdbAgeOut .. | .coopBlockTrigger .. | .coopInitComplete ..
  | .coopOverrun .. | .coopRunaway .. | .coopRestart .. | .coopRestartCountReset .. | .dmaDone .. => true
  | .add .. | .sub .. | .and .. | .or .. | .xor .. | .norm .. | .cmp .. | .ld .. | .st .. | .br .. | .call .. | .ret ..
  | .repRegisterCount .. | .endrep .. | .wait .. | .blkdone .. | .halt .. | .acs .. | .illegalInstruction .. => true
  | .announceReceiptTimeout .. | .ptpMasterTransmit .. | .ptpDelayRequest .. | .ptpDelayResponse .. | .wclkInEdge ..
  | .aes3TransmitFrame .. | .matchSuspect .. | .hsSideAtLimit .. | .fwEraseComplete .. | .testSelfComplete ..
  | .hostnetBridgeFrame .. => true

end Sys2Proof
end

