-- ==== Sys2Proof/Machine/CoopEncode.lean ====
section
/-! DEFINITION. The words of Cooper instructions (R482 to R487): each field at the bits the tables give it. -/

namespace Sys2Proof.Machine

/-- Post-modification code (R484). -/
def modCode : PMod → Nat
  | .none => 0 | .inc => 1 | .off => 2 | .modulo => 3

/-- The LDD layout. -/
def lddBits (f : LddFields) : Nat :=
  f.da.val * 2 ^ 13 + f.db.val * 2 ^ 10 + f.pa.val * 2 ^ 7 + f.pb.val * 2 ^ 4 + modCode f.ma * 2 ^ 2 + modCode f.mb

/-- S and SRC of a store, S above four bits of SRC. -/
def srcBits : StSrc → Nat
  | .data n => n.val
  | .acc a => 16 + a.val

/-- MV and MOVE, bits [17:0]. -/
def moveBits : Move → Nat
  | .none => 0
  | .ldd f => 2 ^ 16 + lddBits f
  | .ld d p m => 2 * 2 ^ 16 + d.val * 2 ^ 12 + p.val * 2 ^ 9 + modCode m * 2 ^ 7
  | .st s p m => 3 * 2 ^ 16 + srcBits s * 2 ^ 11 + p.val * 2 ^ 8 + modCode m * 2 ^ 6

/-- A multiply instruction (R483). -/
def mulWord (kind : Nat) (f : MulFields) : Nat :=
  2 ^ 31 + kind * 2 ^ 29 + f.dual.toNat * 2 ^ 28 + f.a.val * 2 ^ 26 + f.x.val * 2 ^ 22 + f.y.val * 2 ^ 18 + moveBits f.mv

/-- I and source B, bits [16:0]. -/
def aluBBits : AluB → Nat
  | .reg n => n.val
  | .imm v => 2 ^ 16 + v.toNat

/-- I and a shift count. -/
def countBits : ShCount → Nat
  | .reg n => n.val
  | .imm v => 2 ^ 16 + v.val

/-- Destination and source A of the data form, and of the accumulator form with T set (R485). -/
def dataBits (d a : Fin 16) : Nat := d.val * 2 ^ 21 + a.val * 2 ^ 17
def accBits (d a : Fin 4) : Nat := 2 ^ 25 + d.val * 2 ^ 21 + a.val * 2 ^ 17
def toDataBits (d : Fin 16) (a : Fin 4) : Nat := 2 ^ 25 + d.val * 2 ^ 21 + a.val * 2 ^ 17

def addBits : AddForm → Nat
  | .data d a b => dataBits d a + aluBBits b
  | .acc d a b => accBits d a + b.val

def logicBits (f : LogicForm) : Nat := dataBits f.d f.a + aluBBits f.b

def shiftBits : ShiftForm → Nat
  | .data d a n => dataBits d a + countBits n
  | .acc d a n => accBits d a + countBits n

def normBits : NormForm → Nat
  | .data d a => dataBits d a
  | .acc d a => toDataBits d a

def rndBits : RndForm → Nat
  | .narrow d a => toDataBits d a
  | .data d a w => dataBits d a + 2 ^ 16 + w.val

def satBits : SatForm → Nat
  | .acc d a => accBits d a
  | .data d a w => dataBits d a + 2 ^ 16 + w.val

def cmpBits : CmpForm → Nat
  | .data a b => dataBits 0 a + aluBBits b
  | .acc a b => accBits 0 a + b.val

/-- MOD in two bits above I, and the displacement; I stands at bit `i`. -/
def addrBits (i : Nat) : Addr → Nat
  | .post m => modCode m * 2 ^ (i + 1)
  | .disp d => 2 ^ i + d.toNat

/-- LD (R486). -/
def ldBits : LdForm → Nat
  | .mem d p ad => d.val * 2 ^ 20 + p.val * 2 ^ 17 + addrBits 14 ad
  | .immLow r v => 2 ^ 24 + r.val * 2 ^ 18 + v.toNat
  | .immHigh r v => 2 * 2 ^ 24 + r.val * 2 ^ 18 + v.toNat
  | .reg a b => 3 * 2 ^ 24 + a.val * 2 ^ 18 + b.val * 2 ^ 12

/-- ST (R486). -/
def stBits (f : StForm) : Nat := srcBits f.src * 2 ^ 21 + f.p.val * 2 ^ 18 + addrBits 15 f.ad

/-- R and the target of BR and CALL (R485). -/
def targetBits : BrTarget → Nat
  | .imm t => t.toNat
  | .reg n => 2 ^ 21 + n.val * 2 ^ 14

def acsBits (f : AcsForm) : Nat :=
  f.d.val * 2 ^ 22 + f.a.val * 2 ^ 18 + f.b.val * 2 ^ 14 + f.l.val * 2 ^ 10 + f.ha.toNat * 2 ^ 9 + f.hb.toNat * 2 ^ 8
    + f.sw.toNat * 2 ^ 7

def bexpBits (f : BexpForm) : Nat :=
  f.pa.val * 2 ^ 23 + f.pb.val * 2 ^ 20 + modCode f.ma * 2 ^ 18 + modCode f.mb * 2 ^ 16 + f.clr.toNat * 2 ^ 15 + f.n.toNat

/-- A word whose opcode stands in bits [30:26] (R485). -/
def opWord (op rest : Nat) : Nat := op * 2 ^ 26 + rest

/-- The word of an instruction. -/
def coopEncode (op : CoopOp) : Word :=
  BitVec.ofNat 32 (match op with
  | .mac f => mulWord 0 f
  | .msu f => mulWord 1 f
  | .mpy f => mulWord 2 f
  | .add f => opWord 0x01 (addBits f)
  | .sub f => opWord 0x02 (addBits f)
  | .and f => opWord 0x03 (logicBits f)
  | .or f => opWord 0x04 (logicBits f)
  | .xor f => opWord 0x05 (logicBits f)
  | .shl f => opWord 0x06 (shiftBits f)
  | .asr f => opWord 0x07 (shiftBits f)
  | .norm f => opWord 0x08 (normBits f)
  | .rnd f => opWord 0x09 (rndBits f)
  | .sat f => opWord 0x0A (satBits f)
  | .cmp f => opWord 0x0B (cmpBits f)
  | .ld f => opWord 0x0C (ldBits f)
  | .ldd f => opWord 0x0D (lddBits f)
  | .st f => opWord 0x0E (stBits f)
  | .br c t => opWord 0x10 (c.val * 2 ^ 22 + targetBits t)
  | .call t => opWord 0x11 (targetBits t)
  | .ret => opWord 0x12 0
  | .rep l c => opWord 0x13 (l.val * 2 ^ 16 + c.toNat)
  | .repReg l n => opWord 0x1A (l.val * 2 ^ 16 + n.val)
  | .endrep c => opWord 0x14 (c.val * 2 ^ 22)
  | .wait m => opWord 0x15 m.toNat
  | .blkdone => opWord 0x16 0
  | .halt => opWord 0x17 0
  | .acs f => opWord 0x18 (acsBits f)
  | .bexp f => opWord 0x19 (bexpBits f))

end Sys2Proof.Machine
end

