-- ==== Sys2Proof/Safety.lean ====
section
/-! DEFINITION. What the statements say of a step: that it answers a next state, and for a command packet the conditions
under which its body runs, the state it runs on and the state with its reply. -/

namespace Sys2Proof.Machine

/-- The fault queue holds at most 32 records, at most 28 of them of other classes than SAFETY (R505). -/
def queueFits (q : List FaultRec) : Prop :=
  q.length ≤ 32 ∧ (q.filter (fun r => r.cls != .safety)).length ≤ 28

/-- The reply store (R137), the command queue (R146), the timed commands (R159), the fault log (R510) and the fault queue
(R505) hold no more than the spec gives them room for. -/
def State.Full (s : State) : Prop :=
  s.cmd.store.length ≤ 16 ∧ s.cmd.queue.length ≤ 64 ∧ s.cmd.timed.length ≤ 256 ∧ s.flt.log.length ≤ 2048 ∧
    queueFits s.flt.queue

end Sys2Proof.Machine

namespace Sys2Proof.Safety

open Sys2Proof.Machine

/-- A step answers a next state. -/
def Runs (s : State) : Prop := ∃ t, step s = .next t

/-- The machine once the packet has come in: its time has passed, and it stands in the queue where it was admitted before, or is
admitted now by what its header says (R132, R146). -/
def entered (op : Op) (h : Hdr) (p : Bytes) (s : State) : State :=
  let s1 := advance h.dt s
  if isQueued op h p s1.cmd then s1 else (admission op h p s1).2

/-- The state the packet's own effect starts from: the control core has selected a command (R147). -/
def during (op : Op) (h : Hdr) (p : Bytes) (s : State) : State :=
  let s1 := entered op h p s
  { s1 with cmd := select s1.cmd }

/-- The packet is the command the control core has selected. -/
def selected (op : Op) (h : Hdr) (p : Bytes) (c : Cmd) : Bool := match c.running with
  | some q => sameCmd op h p q
  | none => false

/-- The packet is executed (R132, R147): commands are accepted; it was admitted before, or passes the checks its header decides; the
control core has selected it; and checks 9 and 10, made again, pass. -/
def ready (op : Op) (h : Hdr) (p : Bytes) (s : State) : Bool :=
  let s1 := advance h.dt s
  accepting s1 && (isQueued op h p s1.cmd || (admission op h p s1).1 == .ok)
    && selected op h p (during op h p s).cmd && check9and10 op h (during op h p s) == .ok

/-- The state after a reply of status `st` and payload `pay` (R130, R152), the control core free again (R147). -/
def answered (op : Op) (h : Hdr) (st : Status) (pay : Bytes) (s : State) : State := finish (reply (opCode op) h st pay s)

/-- The state of a command whose reply comes later (R533), the control core free again. -/
def unanswered (s : State) : State := finish s

/-- The packet of a command that a host sends: its opcode, header and payload; a register write by its address is the packet
that writes it (R532). The other commands are events. -/
def packetOf : Instr → Option (Op × Hdr × Bytes)
  | .nop h p => some (.nop, h, p)
  | .devInfo h p => some (.devInfo, h, p)
  | .devState h p => some (.devState, h, p)
  | .devRun h p => some (.devRun, h, p)
  | .devMode h p => some (.devMode, h, p)
  | .devReset h p => some (.devReset, h, p)
  | .boardDescribe h p => some (.boardDescribe, h, p)
  | .timeRead h p => some (.timeRead, h, p)
  | .eventMask h p => some (.eventMask, h, p)
  | .vintCommit h p => some (.vintCommit, h, p)
  | .vintStatus h p => some (.vintStatus, h, p)
  | .vintPolicy h p => some (.vintPolicy, h, p)
  | .vintClear h p => some (.vintClear, h, p)
  | .lifeState h p => some (.lifeState, h, p)
  | .lifeAdvance h p => some (.lifeAdvance, h, p)
  | .fwBegin h p => some (.fwBegin, h, p)
  | .fwData h p => some (.fwData, h, p)
  | .fwEnd h p => some (.fwEnd, h, p)
  | .fwSelect h p => some (.fwSelect, h, p)
  | .keyInstall h p => some (.keyInstall, h, p)
  | .graphStage h p => some (.graphStage, h, p)
  | .graphCommit h p => some (.graphCommit, h, p)
  | .graphAbort h p => some (.graphAbort, h, p)
  | .graphQuery h p => some (.graphQuery, h, p)
  | .routeSet h p => some (.routeSet, h, p)
  | .latencyQuery h p => some (.latencyQuery, h, p)
  | .gainSet h p => some (.gainSet, h, p)
  | .muteSet h p => some (.muteSet, h, p)
  | .rampDefaults h p => some (.rampDefaults, h, p)
  | .sinkSet h p => some (.sinkSet, h, p)
  | .genSet h p => some (.genSet, h, p)
  | .override h p => some (.override, h, p)
  | .overrideConfig h p => some (.overrideConfig, h, p)
  | .meterRead h p => some (.meterRead, h, p)
  | .inputSet h p => some (.inputSet, h, p)
  | .inputStatus h p => some (.inputStatus, h, p)
  | .tasterConfig h p => some (.tasterConfig, h, p)
  | .tasterRun h p => some (.tasterRun, h, p)
  | .tasterSubstitute h p => some (.tasterSubstitute, h, p)
  | .inputExpert h p => some (.inputExpert, h, p)
  | .outputSet h p => some (.outputSet, h, p)
  | .outputStatus h p => some (.outputStatus, h, p)
  | .holdSet h p => some (.holdSet, h, p)
  | .holdSafeSet h p => some (.holdSafeSet, h, p)
  | .speakerSet h p => some (.speakerSet, h, p)
  | .clearConfig h p => some (.clearConfig, h, p)
  | .outputExpert h p => some (.outputExpert, h, p)
  | .filtConfig h p => some (.filtConfig, h, p)
  | .filtCoefLoad h p => some (.filtCoefLoad, h, p)
  | .filtRun h p => some (.filtRun, h, p)
  | .filtSync h p => some (.filtSync, h, p)
  | .filtPhase h p => some (.filtPhase, h, p)
  | .filtStatus h p => some (.filtStatus, h, p)
  | .filtExpert h p => some (.filtExpert, h, p)
  | .tdmSet h p => some (.tdmSet, h, p)
  | .aesSet h p => some (.aesSet, h, p)
  | .portStart h p => some (.portStart, h, p)
  | .portStop h p => some (.portStop, h, p)
  | .portStatus h p => some (.portStatus, h, p)
  | .portStamp h p => some (.portStamp, h, p)
  | .aesCsSet h p => some (.aesCsSet, h, p)
  | .aesCsRead h p => some (.aesCsRead, h, p)
  | .clockRefs h p => some (.clockRefs, h, p)
  | .clockStatus h p => some (.clockStatus, h, p)
  | .ptpSet h p => some (.ptpSet, h, p)
  | .wclkSet h p => some (.wclkSet, h, p)
  | .fsSet h p => some (.fsSet, h, p)
  | .decantSet h p => some (.decantSet, h, p)
  | .alignGroupSet h p => some (.alignGroupSet, h, p)
  | .clockExpert h p => some (.clockExpert, h, p)
  | .netSet h p => some (.netSet, h, p)
  | .streamRxSet h p => some (.streamRxSet, h, p)
  | .streamTxSet h p => some (.streamTxSet, h, p)
  | .streamEnable h p => some (.streamEnable, h, p)
  | .streamStatus h p => some (.streamStatus, h, p)
  | .netStatus h p => some (.netStatus, h, p)
  | .netAuthSet h p => some (.netAuthSet, h, p)
  | .hsSet h p => some (.hsSet, h, p)
  | .hsStatus h p => some (.hsStatus, h, p)
  | .hsEvents h p => some (.hsEvents, h, p)
  | .hsExpert h p => some (.hsExpert, h, p)
  | .coopLoad h p => some (.coopLoad, h, p)
  | .coopStart h p => some (.coopStart, h, p)
  | .coopStop h p => some (.coopStop, h, p)
  | .coopStatus h p => some (.coopStatus, h, p)
  | .coopParam h p => some (.coopParam, h, p)
  | .coopDebug h p => some (.coopDebug, h, p)
  | .faultRead h p => some (.faultRead, h, p)
  | .faultAck h p => some (.faultAck, h, p)
  | .powerStatus h p => some (.powerStatus, h, p)
  | .powerPolicy h p => some (.powerPolicy, h, p)
  | .thermalStatus h p => some (.thermalStatus, h, p)
  | .expertOpen h p => some (.expertOpen, h, p)
  | .expertClose h p => some (.expertClose, h, p)
  | .regRead h p => some (.regRead, h, p)
  | .regWrite h p => some (.regWrite, h, p)
  | .testLoop h p => some (.testLoop, h, p)
  | .testSelf h p => some (.testSelf, h, p)
  | .govTest h v => some (.regWrite, h, regPayload 0x208 v)
  | .pathForce h n v => some (.regWrite, h, regPayload (0x200020 + 64 * n.val) v)
  | .clampTest h n v => some (.regWrite, h, regPayload (0x418 + 32 * n.val) v)
  | .trackFreeze h n v => some (.regWrite, h, regPayload (0x634 + 64 * n.val) v)
  | .forceType h n v => some (.regWrite, h, regPayload (0x638 + 64 * n.val) v)
  | .loopback h n v => some (.regWrite, h, regPayload (0x900020 + 64 * n.val) v)
  | .phyLoop h n v => some (.regWrite, h, regPayload (0xA00028 + 64 * linkIdx n) v)
  | .breakpointSet h core n v => some (.regWrite, h, regPayload (0x500028 + 0x100000 * core.val + 4 * n.val) v)
  | .coopRegisterWrite h core off v => some (.regWrite, h, regPayload (0x500000 + 0x100000 * core.val + off.toNat) v)
  | .injectCode h v => some (.regWrite, h, regPayload 0xC00050 v)
  | _ => none

/-- Bytes of payload of the opcodes whose payload has one length (R523 to R529). -/
def payloadLen : Op → Option Nat
  | .devInfo | .devState | .timeRead | .vintStatus | .lifeState | .fwEnd | .graphAbort | .filtStatus | .clockStatus
  | .netStatus | .hsStatus | .powerStatus | .thermalStatus | .expertClose => some 0
  | .devRun | .devMode | .devReset | .eventMask | .vintCommit | .vintClear | .fwSelect | .inputStatus | .tasterRun
  | .tasterSubstitute | .inputExpert | .outputStatus | .outputExpert | .filtExpert | .portStatus | .portStamp
  | .aesCsRead | .wclkSet | .fsSet | .decantSet | .clockExpert | .streamStatus | .hsEvents | .hsExpert
  | .coopStatus | .faultRead | .expertOpen => some 4
  | .fwBegin | .graphQuery | .latencyQuery | .alignGroupSet | .netAuthSet | .coopDebug | .regRead | .testSelf => some 8
  | .vintPolicy | .rampDefaults | .holdSafeSet | .filtPhase | .powerPolicy => some 12
  | .aesSet | .ptpSet => some 16
  | .tdmSet => some 24
  | .tasterConfig => some 28
  | .clockRefs | .netSet => some 36
  | .boardDescribe => some 48
  | .streamRxSet | .streamTxSet => some 64
  | .lifeAdvance => some 92
  | _ => none

/-- The memories of a Cooper core are in canonical form. -/
def MemoriesWf (c : Core) : Prop :=
  tabWf (0 : Word) c.prog = true ∧ tabWf (0 : Word) c.xmem = true ∧ tabWf (0 : Word) c.ymem = true ∧
    tabWf (0 : Word) c.cask = true

/-- The operating mode may go from `a` to `b` by the command (R90). What DEV_MODE asks for takes place at a frame tick, and several may
land at one. A warm reset is in RESET for its first 2 ms (R100), and the first of the commands that AO or a tick brings after them
finds it in START. Where a port's supply is still there at the end of a power loss, the module goes through OFF to RESET (R81). -/
def modeStep : Instr → Mode → Mode → Bool
  | .inputPowerGood .., a, b => a == .off && b == .reset
  | .aoReady .., a, b | .resetNHigh .., a, b | .thermalResetHoldEnd .., a, b | .leesPurgeComplete .., a, b
  | .bootImageVerified .., a, b | .avsStep .., a, b | .avsNegativeSlack .., a, b | .avsMarginRelease .., a, b =>
    a == .reset && b == .start
  | .restore .., a, b => (a == .reset && b == .start) || (a == .start && b == .hold)
  | .serviceEntry .., a, b => a == .hold && b == .service
  | .frameTick .., a, b | .timedCommandApply .., a, b | .deferredCommandLands .., a, b =>
    (a == .reset && b == .start) || (modeLive a && (modeLive b || b == .hold)) || (a == .recovery && b == .hold)
  | .recoveryEntry .., a, b => (a == .hold || a == .service || a == .maintenance) && b == .recovery
  | .resetNLow .., a, b | .thermalSensorRead .., a, b | .watchdogExpiry .., a, b | .devResetStart .., a, b
  | .lifeTransitionStart .., a, b => (modeUp a && b == .reset) || (a == .reset && b == .start)
  | .portSupplyStopped .., _, b => b == .off
  | .holdUpExhausted .., _, b => b == .off || b == .reset
  | _, _, _ => false

/-- The commands whose effects wait for a frame tick (R34), with their packet and the checks their payload meets before it is
prepared. GRAPH_COMMIT, ROUTE_SET and a FILT_SYNC of modes 0 and 1 that is not timed answer at their tick and stand apart. -/
def landingOf : Instr → Option (Op × Hdr × Bytes × (State → Status))
  | .devMode h p => some (.devMode, h, p, checkDevMode p)
  | .boardDescribe h p => some (.boardDescribe, h, p, checkBoard p)
  | .eventMask h p => some (.eventMask, h, p, checkEventMask p)
  | .vintPolicy h p => some (.vintPolicy, h, p, checkVintPolicy p)
  | .powerPolicy h p => some (.powerPolicy, h, p, checkPowerPolicy p)
  | .gainSet h p => some (.gainSet, h, p, checkGainSet p)
  | .muteSet h p => some (.muteSet, h, p, checkMuteSet h p)
  | .sinkSet h p => some (.sinkSet, h, p, checkSinkSet p)
  | .genSet h p => some (.genSet, h, p, checkGenSet p)
  | .override h p => some (.override, h, p, checkOverride p)
  | .overrideConfig h p => some (.overrideConfig, h, p, checkOverrideConfig p)
  | .inputSet h p => some (.inputSet, h, p, checkInputSet p)
  | .outputSet h p => some (.outputSet, h, p, checkOutputSet p)
  | .holdSet h p => some (.holdSet, h, p, checkHoldSet p)
  | .speakerSet h p => some (.speakerSet, h, p, checkSpeakerSet p)
  | .clearConfig h p => some (.clearConfig, h, p, checkClearConfig p)
  | .filtConfig h p => some (.filtConfig, h, p, checkFiltConfig p)
  | .filtRun h p => some (.filtRun, h, p, checkFiltRun p)
  | .filtSync h p => if h.timed.isSome || u8 p 16 == 2 then some (.filtSync, h, p, checkFiltSync h p) else none
  | .portStart h p => some (.portStart, h, p, checkPorts true p)
  | .portStop h p => some (.portStop, h, p, checkPorts false p)
  | .aesCsSet h p => some (.aesCsSet, h, p, checkAesCsSet p)
  | .streamEnable h p => some (.streamEnable, h, p, checkStreamEnable p)
  | .hsSet h p => some (.hsSet, h, p, checkHsSet p)
  | .coopStart h p => some (.coopStart, h, p, checkCoopStart p)
  | .coopStop h p => some (.coopStop, h, p, checkCoopStop p)
  | .coopParam h p => if u8 p 1 = 0 then some (.coopParam, h, p, checkCoopParam h.timed.isSome p) else none
  | _ => none

/-- The commands with live fields alone or beside fields of a stopped block (R16), with their packet, their checks, and what they
change when they are executed; the live fields wait for the next tick. -/
def liveOf : Instr → Option (Op × Hdr × Bytes × (State → Status) × (State → State))
  | .rampDefaults h p => some (.rampDefaults, h, p, checkRampDefaults p, id)
  | .tasterConfig h p => some (.tasterConfig, h, p, checkTasterConfig p, id)
  | .clockRefs h p => some (.clockRefs, h, p, checkClockRefs p, id)
  | .aesSet h p => some (.aesSet, h, p, checkAesSet p, aesStopped p)
  | .ptpSet h p => some (.ptpSet, h, p, checkPtpSet p, ptpStopped p)
  | .wclkSet h p => some (.wclkSet, h, p, checkWclkSet p, wclkStopped p)
  | .alignGroupSet h p => some (.alignGroupSet, h, p, checkAlignGroup p, alignStopped p)
  | .netSet h p => some (.netSet, h, p, checkNetSet p, netStopped p)
  | .netAuthSet h p => some (.netAuthSet, h, p, checkNetAuth h p, keysEnabled p)
  | _ => none

/-- A command whose ramps may make it wait deferred where it is not timed (R371). -/
def mayDefer (op : Op) : Bool := op == .gainSet || op == .inputSet || op == .hsSet

/-- The command writes the word `v` to the register at `a` (R175): where the state permits it the packet is answered and waits for the
next tick, and landing where the state still permits it, with an expert session open, it does what `write` says and nothing else. -/
def writesAt (c : Instr) (h : Hdr) (a : Nat) (v : Word) (permits : State → Prop) (write : State → State) (s : State) : Prop :=
  ready .regWrite h (regPayload a v) s = true →
    (let t := during .regWrite h (regPayload a v) s
     permits t → exec c s = .next (answered .regWrite h .ok [] (prepare .regWrite h
       (shadowBytes (writeShadowOf t h.rq) ++ regPayload a v) (setWriteShadow h.rq (writeShadowOf (write t) h.rq) t)))) ∧
    ∀ (x : WriteShadow) (u : State), let w := setWriteShadow h.rq x u
      permits w → (write w).cmd.expert.isSome = true → landRegWrite h (shadowBytes x ++ regPayload a v) u =
        { write w with cmd := { (write w).cmd with writeShadow := u.cmd.writeShadow } }

/-! ### Cooper instructions -/

/-- The core and the decoded instruction of a Cooper command. -/
def coopOf : Instr → Option (Fin 4 × CoopOp)
  | .mac k f => some (k, .mac f)
  | .msu k f => some (k, .msu f)
  | .mpy k f => some (k, .mpy f)
  | .add k f => some (k, .add f)
  | .sub k f => some (k, .sub f)
  | .and k f => some (k, .and f)
  | .or k f => some (k, .or f)
  | .xor k f => some (k, .xor f)
  | .shl k f => some (k, .shl f)
  | .asr k f => some (k, .asr f)
  | .norm k f => some (k, .norm f)
  | .rnd k f => some (k, .rnd f)
  | .sat k f => some (k, .sat f)
  | .cmp k f => some (k, .cmp f)
  | .ld k f => some (k, .ld f)
  | .ldd k f => some (k, .ldd f)
  | .st k f => some (k, .st f)
  | .br k c t => some (k, .br c t)
  | .call k t => some (k, .call t)
  | .ret k => some (k, .ret)
  | .rep k l n => some (k, .rep l n)
  | .repRegisterCount k l n => some (k, .repReg l n)
  | .endrep k c => some (k, .endrep c)
  | .wait k m => some (k, .wait m)
  | .blkdone k => some (k, .blkdone)
  | .halt k => some (k, .halt)
  | .acs k f => some (k, .acs f)
  | .bexp k f => some (k, .bexp f)
  | _ => none

/-- The core executes and its next instruction is `op`, with no breakpoint before it and no repeat body that it may not end. -/
def issues (k : Fin 4) (op : CoopOp) (s : State) : Bool :=
  let c := coreOf s k
  executing c && fetched c == some op && !atBreak c && !(endsFlow op && c.reps.any (fun l => l.last == c.pc))

/-- The state after an instruction that left the core as `c`, the program counter moved. -/
def went (k : Fin 4) (c : Core) (s : State) : State := setCore k (settleStep (coreOf s k) c) s

/-- The state after an instruction of `n` cycles that left the core as `c`, and the next one follows. -/
def retired (k : Fin 4) (n : Nat) (c : Core) (s : State) : State :=
  went k (afterInstr (coreOf s k).pc { c with cycles := c.cycles + n }) s

/-- The state after an instruction that left the core as `c` and trapped. -/
def trappedAs (k : Fin 4) (reason : Nat) (c : Core) (s : State) : State := coreTrap k reason (coreOf s k).pc (went k c s)

/-- The registers after a multiply (R490): the exact result `op old product` goes to Aa, and with DUAL another, from
D(y XOR 1), to A(a XOR 1). -/
def multiplied (op : Int → Int → Int) (f : MulFields) (g : CoopRegs) : CoopRegs :=
  let r := accResult g.sr f.a (op (regA g f.a).toInt ((regD g f.x).toInt * (regD g f.y).toInt))
  let g1 := { putA f.a r.1 g with sr := r.2 }
  if f.dual then
    let b : Fin 4 := Fin.ofNat 4 (f.a.val ^^^ 1)
    let q := accResult r.2 b (op (regA g b).toInt ((regD g f.x).toInt * (regD g (f.y.val ^^^ 1)).toInt))
    { putA b q.1 g1 with sr := q.2 }
  else g1

/-- MAC, MSU or MPY: the command, the decoded instruction and what it makes of the accumulator and the product. -/
def multiplies (k : Fin 4) (f : MulFields) : List (Instr × CoopOp × (Int → Int → Int)) :=
  [(.mac k f, .mac f, (· + ·)), (.msu k f, .msu f, (· - ·)), (.mpy k f, .mpy f, fun _ p => p)]

end Sys2Proof.Safety
end

