-- ==== Sys2Proof/Certificates/Slice0/Obligations.lean ====
section
/-! DEFINITION. What is to be proved of the block, from the numbered rules of the spec. In every statement about a packet, `ready`
says that the packet is executed, `during` is the state its own effect starts from, and `answered` the state with its reply. -/

open Sys2Proof Sys2Proof.Machine Sys2Proof.Safety


/-! ### The block as a whole -/

/-- The front of the queue is what a step runs: on a state whose queue begins with `c`, a step is `exec c` on the state with
the rest of the queue. -/
def Obligations.StepRunsFront : Prop := ∀ (c : Instr) (rest : List Instr) (s : State), step { s with pending := c :: rest } = exec c { s with pending := rest }

/-- No command stops the block: every command answers a next state in every state, with all its operands, and so does every
step. With nothing waiting the block idles (the model's choice, log entry 1). -/
def Obligations.StepAnswers : Prop :=
  ((∀ (c : Instr) (s : State), ∃ t : State, exec c s = .next t) ∧ (∀ s : State, Runs s)) ∧
  (∀ s : State, s.pending = [] → step s = .next s)

/-- No command touches the queue of waiting commands. -/
def Obligations.QueueUntouched : Prop := ∀ (c : Instr) (s t : State), exec c s = .next t → t.pending = s.pending

/-- The operating mode changes only by the transitions of R90, each by its trigger. -/
def Obligations.ModeChanges : Prop := ∀ (c : Instr) (s t : State), exec c s = .next t →
    t.life.mode = s.life.mode ∨ modeStep c s.life.mode t.life.mode = true

/-- A lifecycle transition that is due is one of R119's. -/
def Obligations.DueIsLegal : Prop := ∀ (c : Instr) (s t : State), (∀ x ∈ s.life.lifeDue, lifeStep s.life.state x.1 = true) → exec c s = .next t →
    (∀ x ∈ t.life.lifeDue, lifeStep t.life.state x.1 = true) ∧
    (t.life.state = s.life.state ∨
      lifeStep s.life.state t.life.state = true ∧ ∃ dt hold, c = .lifeTransitionStart dt hold)

/-- SYSCNT runs backwards only where it starts again: at AO ready and where the power goes. -/
def Obligations.SysCntRises : Prop := ∀ (c : Instr) (s t : State), exec c s = .next t → s.sysCnt ≤ t.sysCnt ∨
    (∃ dt hold, c = .aoReady dt hold) ∨ (∃ dt, c = .holdUpExhausted dt) ∨ (∃ dt a b, c = .portSupplyStopped dt a b)

/-- Every step keeps the reply store, the command queue, the timed commands, the fault log and the fault queue within the room
the spec gives them. -/
def Obligations.ListsStayBounded : Prop := ∀ s t : State, s.Full → step s = .next t → t.Full

/-- After reset nothing waits, and the module is without power: mode OFF, in lifecycle BLANK, no key installed, no expert
session, no vintage committed, no fault recorded, all commands refused. Its lists are within their bounds, and no lifecycle
transition is due. -/
def Obligations.ResetState : Prop := State.reset.pending = [] ∧ State.reset.life.mode = .off ∧ State.reset.life.state = .blank ∧
  State.reset.life.integratorKey = none ∧ (∀ k ∈ State.reset.life.netKeys, k = none) ∧
  State.reset.cmd.expert = none ∧ State.reset.cmd.store = [] ∧ State.reset.vint.current = none ∧
  State.reset.flt.queue = [] ∧ State.reset.flt.log = [] ∧ accepting State.reset = false ∧
  State.reset.Full ∧ State.reset.life.lifeDue = none


/-! ### Command packets -/

/-- Before HOLD, and during the power-loss sequence, a packet does nothing: only its time passes. A packet that is not
admitted is refused with the status of its check, and nothing of its own happens: an authentication failure is recorded, and a
packet refused after check 6 holds its session. An admitted packet that the control core has not selected waits in the queue;
one that has been selected and that checks 9 and 10 refuse is answered so and changes nothing. A packet whose payload has not
its opcode's length is refused with BAD_LENGTH and changes nothing. -/
def Obligations.PacketsRefused : Prop :=
  (∀ (c : Instr) (op : Op) (h : Hdr) (p : Bytes) (s : State), packetOf c = some (op, h, p) →
    accepting (advance h.dt s) = false → exec c s = .next (advance h.dt s)) ∧
  ((∀ (c : Instr) (op : Op) (h : Hdr) (p : Bytes) (s : State), packetOf c = some (op, h, p) →
    let t := advance h.dt s
    accepting t = true →
    (isQueued op h p t.cmd = false → (admission op h p t).1 ≠ .ok →
      exec c s = .next (refuseAt (opCode op) h (admission op h p t).1 (admission op h p t).2)) ∧
    (isQueued op h p t.cmd = true ∨ (admission op h p t).1 = .ok →
      (selected op h p (during op h p s).cmd = false → exec c s = .next (during op h p s)) ∧
      (∀ st, selected op h p (during op h p s).cmd = true → check9and10 op h (during op h p s) = st → st ≠ .ok →
        exec c s = .next (answered op h st [] (during op h p s))))) ∧
  (∀ (op : Op) (h : Hdr) (p : Bytes) (s : State), (admission op h p s).1 ≠ .ok →
    ((admission op h p s).1 = .authFail ∧ check5 op h.rq s ≠ 0 ∧
      (admission op h p s).2 = raise .authFail 0 0 (BitVec.ofNat 32 (check5 op h.rq s)) s) ∨
    (admission op h p s).2 = s ∨ holdSession h s = some (admission op h p s).2)) ∧
  (∀ (c : Instr) (op : Op) (h : Hdr) (p : Bytes) (s : State) (n : Nat), packetOf c = some (op, h, p) →
    ready op h p s = true → payloadLen op = some n → p.length ≠ n →
    exec c s = .next (answered op h .badLength [] (during op h p s)))

/-- With NO_REPLY set a reply of status class 0 or 1 is not sent; a refusal or failure is still replied, and the body of a
reply of status class 2 or above is empty, whatever the command would answer (R131). -/
def Obligations.ReplyForm : Prop := (∀ (op : Op) (h : Hdr) (st : Status) (pay : Bytes) (s : State), 2 ≤ statusClass st →
    answered op h st pay s = answered op h st [] s) ∧
  (∀ (code : BitVec 16) (h : Hdr) (st : Status) (pay : Bytes) (s : State), h.noReply = true → statusClass st < 2 →
    reply code h st pay s = s) ∧
  (∀ (code : BitVec 16) (h : Hdr) (st : Status) (pay : Bytes) (s : State), 2 ≤ statusClass st →
    reply code h st pay s = reply code { h with noReply := false } st pay s)

/-- When the control core is free it selects, of the queued commands that may start, one of highest class, and of these the
one admitted first; a command marked as aged counts as class 2 if its own class is lower. At the end of a step a queued
command of a higher class takes the control core and the command it interrupts waits; commands queued for 2 s are marked as
aged; the interval after a notice ended, the latest events are sent. -/
def Obligations.SelectionOrder : Prop :=
  (∀ (c : Cmd), c.running = none → c.preempted = [] →
    (∀ q, bestQueued selClass c c.queue = some q →
      (select c).running = some q ∧ q ∈ c.queue ∧ mayStart c q = true ∧
      (∀ r ∈ c.queue, mayStart c r = true → selClass r ≤ selClass q) ∧
      (∀ l m, c.queue = l ++ q :: m → q ∉ l → ∀ r ∈ l, mayStart c r = true → selClass r < selClass q)) ∧
    ((∀ r ∈ c.queue, mayStart c r = false) → select c = c) ∧
    (∀ q : Queued, selClass q = if q.aged = true ∧ q.hdr.cls.val < 2 then 2 else q.hdr.cls.val)) ∧
  ((∀ (dt : Nat) (s : State) (r b : Queued), let t := advance dt s
    t.cmd.running = some r →
    bestQueued (fun q => q.hdr.cls) t.cmd (t.cmd.queue.filter (fun q => decide (r.hdr.cls < q.hdr.cls))) = some b →
    r.hdr.cls < b.hdr.cls ∧ exec (.commandPreemption dt) s = .next { t with cmd := { t.cmd with
      running := some b, queue := t.cmd.queue.erase b, preempted := r :: t.cmd.preempted } }) ∧
  (∀ (dt : Nat) (s : State), let t := advance dt s
    exec (.commandAgeing dt) s = .next { t with cmd := select { t.cmd with
      queue := t.cmd.queue.map (fun x => if x.since + 400000000 ≤ t.sysCnt then { x with aged := true } else x) } }) ∧
  (∀ (dt : Nat) (s : State), (advance dt s).cmd.noticeDue = true →
    exec (.eventNotice dt) s = .next (sendNotice (advance dt s))))


/-! ### The device, its firmware and its sessions -/

/-- The five reports of the device itself answer OK with the payload of their rule, and change nothing but the pending MODE
event, which DEV_STATE clears. TEST_LOOP answers its own payload of up to 1400 bytes, and BAD_LENGTH above. NOP answers OK,
with a TAG cancels the requester's timed commands of that TAG, and refuses any other length; DEV_RUN asks for SERVICE at the
next tick after lock; DEV_RESET asks for a reset 2 ms after it; LIFE_ADVANCE asks for a lifecycle transition whose conditions
hold 2 ms after it; EVENT_MASK waits for the next tick, which stores its mask and takes the sender as listener or ends that;
NET_AUTH_SET stores the key mask at once, and the next tick stores whether reads need no authentication. Each changes nothing
else. -/
def Obligations.DeviceCommands : Prop :=
  (∀ (h : Hdr) (p : Bytes) (s : State),
  (ready .devInfo h p s = true → p.length = 0 →
    let t := during .devInfo h p s
    let f := runningImage t
    exec (.devInfo h p) s = .next (answered .devInfo h .ok
      ((List.range 16).map Config.moduleId ++ le 1 (bit Config.gradeX) ++ [BitVec.ofNat 8 (Config.hwLevelAbove.val + 1), 2, 0]
        ++ le 4 (imageVersion f).toNat ++ le 4 (imageSec f).toNat ++ le 4 Config.bootVersion.toNat
        ++ le 2 (imageWrites f) ++ zeros 2 ++ le 6 Config.macBase.toNat ++ zeros 2
        ++ le 4 Config.calDays.toNat) t)) ∧
  (ready .devState h p s = true → p.length = 0 →
    let t := during .devState h p s
    exec (.devState h p) s = .next (answered .devState h .ok
      (le 1 (modeCode t.life.mode) ++ le 1 (modeCode t.life.prev) ++ le 1 (lifeCode t.life.state) ++ le 1 t.life.cause
        ++ le 1 (flag 0 t.life.holdPad + flag 1 t.life.autoRunRestored + flag 2 t.life.factoryRestored
          + flag 3 t.life.powerLossSlot + flag 4 t.life.trialBoot + flag 5 (t.clk.pll.state == .locked))
        ++ le 1 (slotCode t.life.slot) ++ le 1 (slotCode t.life.image) ++ zeros 1 ++ le 8 t.life.vintSeq
        ++ le 8 t.life.since ++ le 8 t.sysCnt) (clearEvent 7 t))) ∧
  (ready .lifeState h p s = true → p.length = 0 →
    let t := during .lifeState h p s
    exec (.lifeState h p) s = .next (answered .lifeState h .ok
      (le 1 (lifeCode t.life.state) ++ le 1 (bit t.life.integratorKey.isSome)
        ++ le 1 (t.life.netKeys.filter Option.isSome).length ++ zeros 5 ++ le 8 t.life.nonce.toNat) t)) ∧
  (ready .timeRead h p s = true → p.length = 0 →
    let t := during .timeRead h p s
    exec (.timeRead h p) s = .next (answered .timeRead h .ok
      (le 8 t.sysCnt ++ le 8 (taiReported t) ++ le 8 t.clk.frame ++ le 8 t.clk.stamp
        ++ le 1 (flag 0 t.clk.taiValid + flag 1 (t.clk.portA.locked || t.clk.portB.locked)
          + flag 2 (t.clk.pll.state == .holdover) + flag 3 t.clk.arb)
        ++ le 1 t.clk.fs ++ le 2 t.clk.utcOffset.toNat
        ++ leI 4 (clampI (-2147483648) 2147483647 (freeDiv 41 t.clk.ptpOffset 65536))) t)) ∧
  (ready .testLoop h p s = true → p.length ≤ 1400 →
    exec (.testLoop h p) s = .next (answered .testLoop h .ok p (during .testLoop h p s))) ∧
  (ready .testLoop h p s = true → 1400 < p.length →
    exec (.testLoop h p) s = .next (answered .testLoop h .badLength [] (during .testLoop h p s)))) ∧
  (∀ (h : Hdr) (p : Bytes) (s : State),
  (ready .nop h p s = true → p.length = 0 →
    exec (.nop h p) s = .next (answered .nop h .ok [] (during .nop h p s))) ∧
  (ready .nop h p s = true → p.length ≠ 0 → p.length ≠ 4 →
    exec (.nop h p) s = .next (answered .nop h .badLength [] (during .nop h p s))) ∧
  (ready .nop h p s = true → p.length = 4 → u16 p 2 = 0 →
    let t := during .nop h p s
    let mine (l : Landing) : Bool := l.hdr.rq == h.rq && l.hdr.tag.toNat == u16 p 0
    exec (.nop h p) s = .next (answered .nop h .ok (le 4 (t.cmd.timed.filter mine).length)
      { t with
        cmd := { t.cmd with timed := t.cmd.timed.filter (fun l => !mine l) }
        gr := { t.gr with caps := t.gr.caps.filter (fun c => !(t.cmd.timed.filter mine).any (fun l => l.arr == c.arr)) } })) ∧
  (ready .devRun h p s = true → p.length = 4 → (u32 p 0 = 0 ∨ 10000 ≤ u32 p 0 ∧ u32 p 0 ≤ 10000000) →
    let t := during .devRun h p s
    exec (.devRun h p) s = .next (answered .devRun h (if t.clk.pll.state = .locked then .ok else .okDeferred) []
      { t with life := { t.life with runPending := some (u32 p 0) } })) ∧
  (ready .devReset h p s = true → p.length = 4 → u8 p 0 ≤ 1 → zeroAt p 1 3 = true →
    let t := during .devReset h p s
    exec (.devReset h p) s = .next (answered .devReset h .ok []
      { t with life := { t.life with resetDue := some (u8 p 0 == 1, t.sysCnt + 400000) } })) ∧
  (ready .lifeAdvance h p s = true → p.length = 92 →
    let t := during .lifeAdvance h p s
    let x := lifeOf (u8 p 0)
    u8 p 0 ≤ 3 → zeroAt p 1 3 = true → lifeStep t.life.state x = true → (x = .provisioned → keysReady t.life = true) →
    (x = .deployed → committedSigned t = true) → (t.life.state ≠ .returned → zeroAt p 4 88 = true) →
    (t.life.state = .returned → (p.drop 4).take 16 = (List.range 16).map Config.moduleId ∧ u64 p 20 = t.life.nonce.toNat ∧
      Config.ecdsaVerify Config.planuvalKey (p.take 28) ((p.drop 28).take 64) = true) →
    exec (.lifeAdvance h p) s = .next (answered .lifeAdvance h .ok []
      { t with life := { t.life with lifeDue := some (x, t.sysCnt + 400000) } })) ∧
  (ready .eventMask h p s = true → p.length = 4 → h.timed = none → u8 p 1 ≤ 1 → u16 p 2 = 0 →
    let t := during .eventMask h p s
    let l : Landing := ⟨.eventMask, h, p, false, arrivalOf t, false⟩
    exec (.eventMask h p) s = .next (answered .eventMask h .ok []
      { t with cmd := { t.cmd with landing := t.cmd.landing ++ [l] } }) ∧
    ∀ u : State, (landCommand u l).cfg = { u.cfg with event := ⟨BitVec.ofNat 8 (u8 p 0) ||| 1, u8 p 1 == 1⟩ } ∧
      (h.rq = .spi → (landCommand u l).cmd = u.cmd) ∧
      (h.rq ≠ .spi → (landCommand u l).cmd.listener =
        if u8 p 1 = 1 ∧ (sessionAt u.cmd h.rq).isSome = true then some h.rq else none)) ∧
  (ready .netAuthSet h p s = true → p.length = 8 → u8 p 0 ≤ 1 → u8 p 1 = 0 → u32 p 4 = 0 →
    (∀ ip udp i, h.rq = .net ip udp (some i) → (BitVec.ofNat 16 (u16 p 2)).getLsbD i = true) →
    let t := during .netAuthSet h p s
    let l : Landing := ⟨.netAuthSet, h, p, false, arrivalOf t, false⟩
    exec (.netAuthSet h p) s = .next (answered .netAuthSet h .ok [] { t with
      cfg := { t.cfg with netAuth := { t.cfg.netAuth with keyEnable := BitVec.ofNat 16 (u16 p 2) } }
      cmd := { t.cmd with landing := t.cmd.landing ++ [l] } }) ∧
    ∀ u : State, landCommand u l =
      { u with cfg := { u.cfg with netAuth := { u.cfg.netAuth with unauthRead := u8 p 0 == 1 } } }))

/-- TEST_SELF answers only when TEST_SELF_COMPLETE comes: then with the tests that passed and those that failed, the time they
took and the first failure; each test asked for is in exactly one of the two masks. A firmware image is erased, written in
order, verified and selected: FW_BEGIN opens the target and answers after FW_ERASE_COMPLETE, FW_DATA appends at its offset,
FW_END verifies, FW_SELECT marks a bootable image for a trial or confirms the trial that is running. -/
def Obligations.SelfTestAndFirmware : Prop :=
  ((∀ (h : Hdr) (p : Bytes) (s : State), ready .testSelf h p s = true → p.length = 8 → u32 p 0 ≠ 0 → u32 p 0 ≤ 31 →
    u32 p 4 = 0 → (during .testSelf h p s).life.testSelf = none →
    exec (.testSelf h p) s = .next (unanswered (awaitReply .testSelf h []
      { during .testSelf h p s with life := { (during .testSelf h p s).life with
        testSelf := some (BitVec.ofNat 32 (u32 p 0)) } }))) ∧
  (∀ (dt us : Nat) (s : State) (w : Word), (advance dt s).life.testSelf = some w →
    ∃ pass fail detail : Nat,
      exec (.testSelfComplete dt us) s = .next (lateReply .testSelf .ok
        (le 4 pass ++ le 4 fail ++ le 4 us ++ le 4 detail)
        { advance dt s with life := { (advance dt s).life with testSelf := none } }) ∧
      pass &&& fail = 0 ∧ pass ||| fail = w.toNat % 32 ∧ (fail = 0 ↔ detail = 0xFF))) ∧
  ((∀ (h : Hdr) (p : Bytes) (s : State), ready .fwBegin h p s = true → p.length = 8 → 256 ≤ u32 p 0 → u32 p 0 ≤ 7340032 →
    u8 p 4 ≤ 1 → zeroAt p 5 3 = true → (during .fwBegin h p s).life.image ≠ some (Fin.ofNat 2 (u8 p 4)) →
    (during .fwBegin h p s).life.fwErasing = false →
    let t := during .fwBegin h p s
    exec (.fwBegin h p) s = .next (unanswered (awaitReply .fwBegin h []
      { t with life := { setImage t.life (Fin.ofNat 2 (u8 p 4)) (.loaded [] false) with
        fwTarget := some (Fin.ofNat 2 (u8 p 4), u32 p 0), fwErasing := true } }))) ∧
  (∀ (dt : Nat) (s : State), (advance dt s).life.fwErasing = true →
    exec (.fwEraseComplete dt) s = .next (lateReply .fwBegin .ok []
      { advance dt s with life := { (advance dt s).life with fwErasing := false } })) ∧
  (∀ (h : Hdr) (p : Bytes) (s : State) (i : Fin 2) (n : Nat) (d : Bytes) (ok : Bool), ready .fwData h p s = true →
    4 ≤ p.length → (during .fwData h p s).life.fwTarget = some (i, n) →
    imageOf (during .fwData h p s).life i = .loaded d ok → u32 p 0 = d.length → d.length + (p.length - 4) ≤ n →
    (during .fwData h p s).life.fwErasing = false →
    exec (.fwData h p) s = .next (answered .fwData h .ok []
      { during .fwData h p s with
        life := setImage (during .fwData h p s).life i (.loaded (d ++ p.drop 4) false) })) ∧
  (∀ (h : Hdr) (p : Bytes) (s : State) (i : Fin 2) (n : Nat) (d : Bytes) (ok : Bool), ready .fwEnd h p s = true →
    p.length = 0 → (during .fwEnd h p s).life.fwTarget = some (i, n) →
    imageOf (during .fwEnd h p s).life i = .loaded d ok → (during .fwEnd h p s).life.fwErasing = false →
    let t := during .fwEnd h p s
    let st := verifyImage d t.life.minSec
    exec (.fwEnd h p) s = .next (answered .fwEnd h st []
      { t with life := { setImage t.life i (.loaded d (st == .ok)) with fwTarget := none } })) ∧
  (∀ (h : Hdr) (p : Bytes) (s : State), ready .fwSelect h p s = true → p.length = 4 → u8 p 1 ≤ 1 → u16 p 2 = 0 →
    let t := during .fwSelect h p s
    let i : Fin 2 := Fin.ofNat 2 (u8 p 1)
    (u8 p 0 = 0 → imageVerified (imageOf t.life i) = true → imageBoots (imageOf t.life i) t.life.minSec = true →
      exec (.fwSelect h p) s = .next (answered .fwSelect h .ok [] { t with life := { t.life with trialMark := some i } })) ∧
    (u8 p 0 = 1 → t.life.trialBoot = true → t.life.image = some i →
      exec (.fwSelect h p) s = .next (answered .fwSelect h .ok []
        { t with life := { t.life with
          defaultImage := i
          minSec := if t.life.minSec < imageSec (imageOf t.life i) then imageSec (imageOf t.life i) else t.life.minSec } }))))

/-- One expert session is open at most: EXPERT_OPEN opens it or restarts its owner's, and answers BUSY to any other requester;
EXPERT_CLOSE by its owner and EXPERT_IDLE_TIMEOUT close it; freeing the owner's network session closes it too. KEY_INSTALL
answers first and then installs: a network key's sessions end, the integrator key replaces the one before. -/
def Obligations.ExpertAndKeys : Prop :=
  ((∀ (h : Hdr) (p : Bytes) (s : State), ready .expertOpen h p s = true → p.length = 4 →
    (u16 p 0 = 0 ∨ 10 ≤ u16 p 0 ∧ u16 p 0 ≤ 3600) → u16 p 2 = 0 →
    let t := during .expertOpen h p s
    ((∀ e, t.cmd.expert = some e → e.owner = h.rq) →
      exec (.expertOpen h p) s = .next (answered .expertOpen h .ok []
        { t with cmd := { t.cmd with expert := some ⟨h.rq, if u16 p 0 = 0 then 300 else u16 p 0, t.sysCnt⟩ } })) ∧
    (∀ e, t.cmd.expert = some e → e.owner ≠ h.rq →
      exec (.expertOpen h p) s = .next (answered .expertOpen h .busy [] t))) ∧
  (∀ (h : Hdr) (p : Bytes) (s : State) (e : Expert), ready .expertClose h p s = true → p.length = 0 →
    (during .expertClose h p s).cmd.expert = some e → e.owner = h.rq →
    exec (.expertClose h p) s = .next (answered .expertClose h .ok [] (closeExpert (during .expertClose h p s)))) ∧
  (∀ (dt : Nat) (s : State) (e : Expert), (advance dt s).cmd.expert = some e →
    e.last + e.idleS * secCounts ≤ (advance dt s).sysCnt →
    exec (.expertIdleTimeout dt) s = .next (closeExpert (advance dt s))) ∧
  (∀ (dt : Nat) (i : Fin 8) (s : State) (x : Session), (advance dt s).cmd.sessions.getD i none = some x →
    x.last + 60 * secCounts ≤ (advance dt s).sysCnt →
    exec (.sessionTimeout dt i) s = .next (freeSession i (advance dt s))) ∧
  (∀ s : State, (closeExpert s).cmd.expert = none)) ∧
  (∀ (h : Hdr) (p : Bytes) (s : State), ready .keyInstall h p s = true →
    checkKeyInstall p (during .keyInstall h p s) = .ok →
    let t := reply (opCode .keyInstall) h .ok [] (during .keyInstall h p s)
    let key := (p.drop 4).take (u16 p 2)
    (u8 p 0 = 1 → exec (.keyInstall h p) s = .next (unanswered
      (setNetKey (u8 p 1) (if u16 p 2 = 0 then none else some key) t))) ∧
    (u8 p 0 ≠ 1 → exec (.keyInstall h p) s = .next (unanswered
      { t with life := { t.life with integratorKey := some key } })))


/-! ### Transport: SPI frames, datagrams, the queue -/

/-- A WRITE_CMD frame of one packet that passes every check puts the packet at the end of the command queue, and the control
core selects again; a frame of one packet that fails the version, the CRC or the queue's room is refused with that status. A
frame whose first byte is not an operation is ignored, with 0x5A and zeros on HMISO. -/
def Obligations.PacketAdmitted : Prop := (∀ (dt : Nat) (f : Bytes) (s : State) (o : Op), let k := parsePacket f
    let h := hdrOf k .spi .neta
    let t := { advance dt s with cmd := { (advance dt s).cmd with miso := 0x5A :: zeros f.length } }
    accepting (advance dt s) = true → (advance dt s).cmd.inBuf = [] → (advance dt s).cmd.holding.length < 64 →
    f.length = 16 + paddedLen k.plen → k.plen ≤ 4096 → u8 f 0 = 0xCE →
    (u8 f 1 ≠ 2 → exec (.writeCmd dt (1 :: f)) s = .next (refuseSpi k .badVersion t)) ∧
    (u8 f 1 = 2 → packetCrc f k.plen ≠ k.hcrc → exec (.writeCmd dt (1 :: f)) s = .next (refuseSpi k .crcError t)) ∧
    (u8 f 1 = 2 → packetCrc f k.plen = k.hcrc → opOfCode k.opcode = some o → check7 k true (some o) = true →
      check9and10 o h t = .ok → k.flags % 2 = 0 →
      (t.cmd.queue.length < (if h.cls = 3 then 64 else 60) →
        exec (.writeCmd dt (1 :: f)) s = .next
          { touchExpert o .spi t with cmd := select { (touchExpert o .spi t).cmd with
              queue := t.cmd.queue ++ [⟨o, h, payloadOf k, t.sysCnt, false, t.cmd.arrivals⟩]
              arrivals := t.cmd.arrivals + 1 } }) ∧
      ((if h.cls = 3 then 64 else 60) ≤ t.cmd.queue.length →
        exec (.writeCmd dt (1 :: f)) s = .next (refuseSpi k .queueFull t)))) ∧
  (∀ (dt b : Nat) (f : Bytes) (s : State), accepting (advance dt s) = true → b ≠ 1 → b ≠ 2 → b ≠ 3 →
    exec (.writeCmd dt (b :: f)) s =
      .next { advance dt s with cmd := { (advance dt s).cmd with miso := 0x5A :: zeros f.length } })

/-- READ_REPLY clocks out the oldest reply of the store after the ready byte; clocked out whole it leaves the store and
replies of the holding list enter; an empty store gives zero bytes. READ_STATUS clocks out the replies stored, the events
pending and the room in the input buffer. A reply over SPI enters the store of 16: class 3 whenever a place is free, and is
discarded where none is; another class only where nothing is held back and fewer than 15 places are taken by these classes,
and it is held back otherwise. -/
def Obligations.RepliesOverSpi : Prop :=
  (∀ (dt n : Nat) (s : State), accepting (advance dt s) = true →
    let t := advance dt s
    (t.cmd.store = [] → exec (.readReply dt n) s = .next { t with cmd := { t.cmd with miso := 0x5A :: zeros n } }) ∧
    (∀ r l, t.cmd.store = r :: l → n < (encodeReply r).length →
      exec (.readReply dt n) s = .next { t with cmd := { t.cmd with miso := 0x5A :: (encodeReply r).take n } }) ∧
    (∀ r l, t.cmd.store = r :: l → (encodeReply r).length ≤ n → t.cmd.inBuf = [] →
      exec (.readReply dt n) s = .next
        { t with cmd := select (spiPromote t.cmd.holding { t.cmd with
            miso := 0x5A :: (encodeReply r ++ zeros (n - (encodeReply r).length)), store := l }) }) ∧
    exec (.readStatus dt) s = .next { t with cmd := { t.cmd with
      miso := 0x5A :: (le 1 t.cmd.store.length ++ le 1 (eventsNow t).toNat ++ le 2 (8192 - inBufUsed t.cmd)) } }) ∧
  (∀ (r : Reply) (c : Cmd),
    (r.cls = 3 → c.store.length < 16 → spiPut r c = { c with store := c.store ++ [r] }) ∧
    (r.cls = 3 → 16 ≤ c.store.length → spiPut r c = c) ∧
    (r.cls ≠ 3 → c.holding = [] → lowPlaces c.store < 15 → c.store.length < 16 →
      spiPut r c = { c with store := c.store ++ [r] }) ∧
    (r.cls ≠ 3 → (c.holding ≠ [] ∨ 15 ≤ lowPlaces c.store ∨ 16 ≤ c.store.length) →
      spiPut r c = { c with holding := c.holding ++ [r] }))

/-- A datagram at a declared port whose link is up meets the checks of R132: it is dropped without a sign where it is too
short or its first byte is wrong, refused where a check up to the fifth fails (an authentication failure is recorded), and
otherwise goes on to the later checks under its source and the key that signed it, whose highest counter it becomes. -/
def Obligations.DatagramsChecked : Prop := ∀ (dt : Nat) (l : LinkPort) (ip : BitVec 32) (udp : BitVec 16) (b : Bytes) (s : State),
    accepting (advance dt s) = true → modeUp (advance dt s).life.mode = true → linkDeclared (advance dt s) l = true →
    linkIsUp (advance dt s) l = true → (l = .hostnet → (netCfg (advance dt s)).switched = true) →
    let t := countRx l (advance dt s)
    let k := parsePacket b
    let h := fun key => hdrOf k (.net ip udp key) l
    let go := exec (.commandDatagram dt l ip udp b) s
    (b.length < 16 ∨ u8 b 0 ≠ 0xCE → go = .next t) ∧
    (16 ≤ b.length → u8 b 0 = 0xCE →
      (u8 b 1 ≠ 2 → go = .next (refuseAt k.opcode (h none) .badVersion t)) ∧
      (u8 b 1 = 2 → 1400 < k.plen → go = .next (refuseAt k.opcode (h none) .badLength t)) ∧
      (u8 b 1 = 2 → k.plen ≤ 1400 → b.length = 16 + paddedLen k.plen + (if k.flags / 4 % 2 = 1 then 25 else 0) →
        (packetCrc b k.plen ≠ k.hcrc → go = .next (refuseAt k.opcode (h none) .crcError t)) ∧
        (packetCrc b k.plen = k.hcrc →
          (∀ st d, authCheck t b k = .refused st d →
            go = .next (refuseAt k.opcode (h none) st (raise .authFail 0 0 (BitVec.ofNat 32 d) t))) ∧
          (authCheck t b k = .open → go = .next (admitNet k (h none) t)) ∧
          (∀ id n, authCheck t b k = .key id n → go =
            .next (admitNet k (h (some id)) { t with cmd := { t.cmd with keyHigh := tset 0 t.cmd.keyHigh id n } })))))

/-- A packet is taken as signed by a key only if the key is installed and enabled, the tag over the packet, the session nonce
and its counter verifies, and the counter is above the highest accepted before; an unsigned packet passes only with one of the
four opcodes that may be read without authentication, while such reads are enabled. -/
def Obligations.AuthenticationRequired : Prop := ∀ (s : State) (b : Bytes) (k : Packet),
    (∀ id n, authCheck s b k = .key id n → k.flags / 4 % 2 = 1 ∧ s.cfg.netAuth.keyEnable.getLsbD id = true ∧
      tget 0 s.cmd.keyHigh id < n ∧ ∃ key, s.life.netKeys.getD id none = some key ∧
        (hmacSha256 key (b.take (16 + paddedLen k.plen) ++ le 8 s.life.nonce.toNat
          ++ (b.drop (16 + paddedLen k.plen)).take 9)).take 16 = (b.drop (16 + paddedLen k.plen + 9)).take 16) ∧
    (authCheck s b k = .open → k.flags / 4 % 2 = 0 ∧ s.cfg.netAuth.unauthRead = true ∧
      ∃ o, opOfCode k.opcode = some o ∧ (o = .nop ∨ o = .devInfo ∨ o = .devState ∨ o = .lifeState))

/-- While IRQ_N is low a source that its mask lets through is pending; the fault source is always let through, and follows the
fault queue (R163, R164). -/
def Obligations.InterruptLine : Prop := ∀ s : State,
    (irqLow s = true ↔ modeUp s.life.mode = true ∧ (eventsNow s &&& (s.cfg.event.irqMask ||| 1)) ≠ 0) ∧
    ((eventsNow s).getLsbD 0 = true ↔ s.flt.queue ≠ []) ∧ ((eventsNow s).getLsbD 1 = true ↔ s.cmd.store ≠ []) ∧
    (∀ i : Fin 6, (eventsNow s).getLsbD (i + 2) = s.cmd.events.getLsbD (i + 2))


/-! ### Faults, temperature and supply voltage -/

/-- FAULT_READ answers the whole queue, the conditions in force or the log, behind its header, and changes nothing; FAULT_ACK
takes the listed records out of the queue and nothing else, and each acknowledged record is one that was queued; the log is
written newest first, with the time of detection, and keeps 2048 records. Acknowledged records leave the queue and no others:
what is left is a part of the queue, in order, its length is what it was less the number removed, and no more are removed than
were listed. -/
def Obligations.FaultRecords : Prop :=
  ((∀ (h : Hdr) (p : Bytes) (s : State), ready .faultRead h p s = true → p.length = 4 → 1 ≤ u8 p 1 → u8 p 1 ≤ 32 →
    let t := during .faultRead h p s
    (u8 p 0 = 0 → exec (.faultRead h p) s = .next (answered .faultRead h .ok
      (faultHeader t 0 t.flt.queue.length t.flt.queue.length ++ t.flt.queue.flatMap queueEntry) t)) ∧
    (u8 p 0 = 1 → let l := (t.flt.active.drop (u16 p 2)).take (u8 p 1)
      exec (.faultRead h p) s = .next (answered .faultRead h .ok
        (faultHeader t 1 l.length t.flt.active.length ++ l.flatMap conditionBytes) t)) ∧
    (u8 p 0 = 2 → let l := (t.flt.log.drop (u16 p 2)).take (u8 p 1)
      exec (.faultRead h p) s = .next (answered .faultRead h .ok
        (faultHeader t 2 l.length t.flt.log.length ++ l.flatMap logBytes) t))) ∧
  (∀ (h : Hdr) (p : Bytes) (s : State), ready .faultAck h p s = true → 1 ≤ u8 p 0 → u8 p 0 ≤ 32 → zeroAt p 1 3 = true →
    p.length = 4 + paddedLen (u8 p 0) → zeroAt p (4 + u8 p 0) (paddedLen (u8 p 0) - u8 p 0) = true →
    let t := during .faultAck h p s
    let a := ackAll ((List.range (u8 p 0)).map (fun i => u8 p (4 + i))) t.flt.queue
    exec (.faultAck h p) s = .next (answered .faultAck h .ok
      (le 1 a.2 ++ le 1 (u8 p 0 - a.2) ++ le 1 a.1.length ++ zeros 1) { t with flt := { t.flt with queue := a.1 } })) ∧
  (∀ (dt : Nat) (s : State) (r : FaultRec) (l : List FaultRec), (advance dt s).flt.logPending = r :: l →
    ∃ e : LogRec, e.code = r.code ∧ e.cls = r.cls ∧ e.object = r.object ∧ e.detail = r.detail ∧
      e.boot = (advance dt s).flt.boot ∧ e.injected = r.injected ∧
      ((advance dt s).clk.taiValid = false → e.time = BitVec.ofNat 32 (r.stamp / 200000000) ||| 0x80000000) ∧
      ((advance dt s).clk.taiValid = true → e.time = BitVec.ofInt 32 (taiAt (advance dt s).clk r.stamp / 1000000000)) ∧
      exec (.faultLogWrite dt) s = .next { advance dt s with flt := { (advance dt s).flt with
        logPending := l, log := (e :: (advance dt s).flt.log).take 2048 } })) ∧
  (∀ (l : List Nat) (q : List FaultRec),
    List.Sublist (ackAll l q).1 q ∧ (ackAll l q).1.length + (ackAll l q).2 = q.length ∧ (ackAll l q).2 ≤ l.length ∧
    (∀ r ∈ q, r.seq.toNat ∉ l → r ∈ (ackAll l q).1))

/-- A condition in force is not detected again; a further detection of a queued record's identity coalesces into it, adding no
record; a fault that is an event makes a record at each detection without one queued. A release takes its condition out of
force and no other, and marks its record as released. -/
def Obligations.Conditions : Prop :=
  (∀ (code : FaultCode) (object : BitVec 16) (index : Nat) (detail : Word) (s : State),
    (isCondition code = true → inForce code object index s = true → raise code object index detail s = s) ∧
    ((isCondition code = false ∨ inForce code object index s = false) →
      (∀ r, queuedRec code object index s = some r →
        (raise code object index detail s).flt.queue.length = s.flt.queue.length ∧
        (raise code object index detail s).flt.nextSeq = s.flt.nextSeq ∧
        ∀ x ∈ (raise code object index detail s).flt.queue, x.seq = r.seq → x.code = r.code →
          x.lastStamp = s.sysCnt ∧ 1 ≤ x.repeats) ∧
      (isCondition code = true → inForce code object index (raise code object index detail s) = true))) ∧
  (∀ (code : FaultCode) (object : BitVec 16) (index : Nat) (s : State),
    inForce code object index (release code object index s) = false ∧
    (∀ c o i, (c ≠ code ∨ o ≠ object ∨ i ≠ index) → inForce c o i (release code object index s) = inForce c o i s) ∧
    (release code object index s).flt.queue.length = s.flt.queue.length ∧
    (release code object index s).flt.log = s.flt.log ∧ (release code object index s).flt.lost = s.flt.lost ∧
    (∀ c, s.flt.active.find? (fun x => x.code == code && x.object == object && x.index == index) = some c →
      ∀ r ∈ (release code object index s).flt.queue, r.seq = c.seq → r.code = code → r.released = true))

/-- A record finds a place, or takes the place of one record of the lowest class that is not above its own and is never a
FAULT_OVERFLOW record; otherwise it is lost itself. -/
def Obligations.OverflowOrder : Prop := ∀ (k : FaultClass) (r : FaultRec) (q : List FaultRec), r.cls = k → queueFits q →
    queueFits (enqueue k r q).1 ∧
    (placeOpen k q = true → enqueue k r q = (q ++ [r], true, 0)) ∧
    (placeOpen k q = false → (enqueue k r q).2.2 = 1) ∧
    ((enqueue k r q).2.1 = false → (enqueue k r q).1 = q) ∧
    (∀ x ∈ q, x ∉ (enqueue k r q).1 → classCode x.cls ≤ classCode k ∧ x.code ≠ .faultOverflow ∧ x.cls ≠ .safety ∧
      ∀ y ∈ q, y.code ≠ .faultOverflow → classCode x.cls ≤ classCode y.cls)

/-- The temperature report; each reading of the eight sensors is stored with its peak and its counts of consecutive readings
over the thresholds, and at the fourth reading at 105 °C THERMAL_WARN is recorded, at the fourth at 125 °C THERMAL_TRIP with
its actions, and at the fourth at 135 °C the module is reset; the fault of a warning ends after 10 s below 100 °C, that of a
trip after 60 s below 110 °C; the hold of a thermal reset ends after 60 s below 110 °C, and then the module starts where
RESET_N is high. Adaptive voltage scaling: a step moves each rail by its slack; a negative slack raises the rail by 5 mV, not
above 0.90 V, and a rail at 0.90 V whose slack is still negative gives AVS_MARGIN; 10 s of slack at 3 % or above release it,
and the cores it stopped start again where audio runs. -/
def Obligations.TemperatureAndSupply : Prop :=
  ((∀ (h : Hdr) (p : Bytes) (s : State), ready .thermalStatus h p s = true → p.length = 0 →
    let u := during .thermalStatus h p s
    let t := u.flt.th
    exec (.thermalStatus h p) s = .next (answered .thermalStatus h .ok
      (le 8 u.sysCnt ++ le 1 (flag 0 (anyInForce .thermalWarn u) + flag 1 (anyInForce .thermalTrip u)
          + flag 2 (anyInForce .avsMargin u) + flag 3 t.reset135)
        ++ le 1 (hottest t.temp).1 ++ zeros 2 ++ (List.range 8).flatMap (fun i => leI 4 (t.temp.getD i 0)) ++ leI 4 t.peak
        ++ le 2 t.avsBlend ++ le 2 t.avsCoop ++ leI 2 (freeDiv 52 t.slackBlend 10) ++ leI 2 (freeDiv 52 t.slackCoop 10)
        ++ leI 4 t.warnCeiling ++ zeros 4) u)) ∧
  (∀ (dt : Nat) (t : List Int) (s : State), let u := settleReset (advance dt s)
    u.pwr.aoOn = true → u.pwr.loss = none → t.length = 8 →
    let v := takeTemps t u
    v.flt.th.temp = t ∧ v.flt.th.peak = max u.flt.th.peak (hottest t).2 ∧
    v.flt.th.over105 = (if 105000 ≤ (hottest t).2 then min 4 (u.flt.th.over105 + 1) else 0) ∧
    v.flt.th.over125 = (if 125000 ≤ (hottest t).2 then min 4 (u.flt.th.over125 + 1) else 0) ∧
    v.flt.th.over135 = (if 135000 ≤ (hottest t).2 then min 4 (u.flt.th.over135 + 1) else 0) ∧
    v.flt.th.below100 = (if (hottest t).2 < 100000 then some (u.flt.th.below100.getD u.sysCnt) else none) ∧
    v.flt.th.below110 = (if (hottest t).2 < 110000 then some (u.flt.th.below110.getD u.sysCnt) else none) ∧
    (v.flt.th.over105 < 4 ∨ anyInForce .thermalWarn v = true → warnNow v = v) ∧
    (4 ≤ v.flt.th.over105 → anyInForce .thermalWarn v = false →
      warnNow v = raise .thermalWarn 0 0 (thermalDetail t) (withTh { v.flt.th with warnStep := v.sysCnt } v)) ∧
    (∀ x, x.flt.th.over125 < 4 ∨ anyInForce .thermalTrip x = true → tripNow x = x) ∧
    (∀ x, 4 ≤ x.flt.th.over125 → anyInForce .thermalTrip x = false →
      tripNow x = tripAction (raise .thermalTrip 0 0 (thermalDetail x.flt.th.temp) x)) ∧
    let w := warnNow v
    (w.flt.th.over135 ≠ 4 → exec (.thermalSensorRead dt t) s = .next (tripNow w)) ∧
    (w.flt.th.over135 = 4 → thermalReset w.life.phase = false → resettable w = true →
      exec (.thermalSensorRead dt t) s = .next (resetHot w))) ∧
  (∀ (dt : Nat) (s : State) (since : Nat), let u := advance dt s
    inForce .thermalWarn 0 0 u = true → u.flt.th.below100 = some since → since + 10 * secCounts ≤ u.sysCnt →
    exec (.thermalWarnRelease dt) s = .next (release .thermalWarn 0 0
      { u with flt := { u.flt with th := { u.flt.th with warnStep := u.sysCnt } } })) ∧
  (∀ (dt : Nat) (s : State) (since : Nat), let u := advance dt s
    inForce .thermalTrip 0 0 u = true → u.flt.th.below110 = some since → since + 60 * secCounts ≤ u.sysCnt →
    exec (.thermalTripRelease dt) s = .next (release .thermalTrip 0 0 u)) ∧
  (∀ (dt : Nat) (hold : Bool) (s : State) (since : Nat), let u := settleReset (advance dt s)
    u.life.phase = .thermal → (u.life.mode = .reset ∨ u.life.mode = .start) → u.pwr.loss = none →
    u.flt.th.below110 = some since → since + 60 * secCounts ≤ u.sysCnt →
    (u.pads.resetN = true → exec (.thermalResetHoldEnd dt hold) s = .next (beginStart hold u)) ∧
    (u.pads.resetN = false → exec (.thermalResetHoldEnd dt hold) s =
      .next { u with life := { u.life with phase := .waiting } }))) ∧
  ((∀ (dt : Nat) (b c : Int) (mb mc : Fin 16) (s : State), let t := settleReset (advance dt s)
    railsRun t = true →
    let t1 := avsMargin .blend (railMv t .blend) b mb (setRail .blend (avsRail (railMv t .blend) b) b t)
    exec (.avsStep dt b c mb mc) s = .next
      (avsMargin .coop (railMv t1 .coop) c mc (setRail .coop (avsRail (railMv t1 .coop) c) c t1))) ∧
  (∀ (dt : Nat) (r : AvsRail) (x : Int) (m : Fin 16) (s : State), let t := settleReset (advance dt s)
    railsRun t = true → x < 0 →
    (railMv t r < 900 → exec (.avsNegativeSlack dt r x m) s = .next (setRail r (min 900 (railMv t r + 5)) x t)) ∧
    (railMv t r = 900 → exec (.avsNegativeSlack dt r x m) s =
      .next (avsMargin r 900 x m (setRail r 900 x t)))) ∧
  (∀ (dt : Nat) (r : AvsRail) (s : State) (since : Nat), let t := settleReset (advance dt s)
    inForce .avsMargin 0 (railIdx r) t = true →
    (match r with | .blend => t.flt.th.blendOk | .coop => t.flt.th.coopOk) = some since → since + 10 * secCounts ≤ t.sysCnt →
    let u := release .avsMargin 0 (railIdx r) t
    (r = .coop → modeLive t.life.mode = true → exec (.avsMarginRelease dt r) s =
      .next ((bitsOf 4 u.flt.markedAvs.toNat).foldl (restartCore (nextFrame u)) u)) ∧
    (r = .blend ∨ modeLive t.life.mode = false → exec (.avsMarginRelease dt r) s = .next u)))


/-! ### Clocks -/

/-- PTP: a Sync gives its port an offset, adjusts the TAI servo where the port is the one in use, locks the port at the 16th
offset in a row below 100 ns and loses it at the 8th in a row above 1 µs; an Announce becomes the port's master and the best
master is chosen again; without Announces the port has no master; a delay response is stored; TAI time stops being valid 600 s
after the last Sync; the module sends Announce and Sync as grandmaster and delay requests as slave, and this changes nothing
else. -/
def Obligations.PtpEvents : Prop := (∀ (dt : Nat) (x : NetPort) (m : SyncMsg) (s : State), let t := countRx (linkPortOf x) (advance dt s)
    ptpRuns t x = true → t.clk.grandmaster = false → slaves t x = true →
    let q := ptpPortOf t.clk x
    let off : Int := taiNow t - m.taiNs
    let q1 := { q with
      offset := off * 65536, syncs := q.syncs + 1, gmId := m.gmId, gmClass := m.gmClass, steps := m.steps
      goodRun := if -100 < off ∧ off < 100 then q.goodRun + 1 else 0
      badRun := if 1000 < off ∨ off < -1000 then q.badRun + 1 else 0 }
    let mon : Monitor := { tget {} t.clk.monitors (9 + portIdx x) with seen := true, lost := false, lastEdge := t.sysCnt }
    let c := { setPtpPort t.clk x q1 with monitors := tset {} t.clk.monitors (9 + portIdx x) mon }
    let u := if activePort c = none ∨ activePort c = some x then servo off m { t with clk := { c with ptpPort := some x } }
      else { t with clk := { c with lastSync := t.sysCnt } }
    ((q.locked = false → q1.goodRun < 16) → (q.locked = true → q1.badRun < 8) → exec (.ptpSync dt x m) s = .next u) ∧
    (q.locked = true → 8 ≤ q1.badRun → exec (.ptpSync dt x m) s = .next (ptpLose x 2 u)) ∧
    (q.locked = false → 16 ≤ q1.goodRun →
      let v := release .ptpUnlocked 0 (portIdx x)
        { u with clk := { setPtpPort u.clk x { q1 with locked := true, badRun := 0 } with taiValid := true } }
      exec (.ptpSync dt x m) s = .next (updatePtpQual (if u.clk.taiValid = true then v else postEvent 4 v)))) ∧
  (∀ (dt : Nat) (x : NetPort) (m : AnnounceMsg) (s : State), let t := countRx (linkPortOf x) (advance dt s)
    ptpRuns t x = true →
    let q := { ptpPortOf t.clk x with
      master := some m, announceAt := t.sysCnt, gmId := m.gmId, gmClass := m.gmClass, steps := m.steps }
    exec (.ptpAnnounce dt x m) s =
      .next (runBmca (moveSlave (slavePort t.clk) { t with clk := setPtpPort { t.clk with utcOffset := m.utcOffset } x q }))) ∧
  (∀ (dt : Nat) (x : NetPort) (s : State), let t := advance dt s
    ptpRuns t x = true → (ptpPortOf t.clk x).announceAt
      + t.cfg.clock.ptp.announceTimeout * logCounts (ptpLogAnnounce t.cfg.clock.ptp) ≤ t.sysCnt →
    let u := { t with clk := setPtpPort t.clk x { ptpPortOf t.clk x with master := none } }
    ((tget {} t.clk.monitors (9 + portIdx x) : Monitor).seen = true → t.clk.grandmaster = false →
      exec (.announceReceiptTimeout dt x) s = .next (runBmca (ptpLose x 1 (ptpMonitorLost x u)))) ∧
    ((tget {} t.clk.monitors (9 + portIdx x) : Monitor).seen = false ∨ t.clk.grandmaster = true →
      exec (.announceReceiptTimeout dt x) s = .next (runBmca u))) ∧
  (∀ (dt : Nat) (x : NetPort) (d : Int) (s : State), let t := countRx (linkPortOf x) (advance dt s)
    ptpRuns t x = true → exec (.ptpDelayResponse dt x d) s =
      .next { t with clk := setPtpPort t.clk x { ptpPortOf t.clk x with pathNs := d } }) ∧
  (∀ (dt : Nat) (s : State), let t := advance dt s
    t.clk.taiValid = true → t.clk.grandmaster = false → t.clk.lastSync + 120000000000 ≤ t.sysCnt →
    exec (.taiTimeout dt) s = .next (postEvent 4 { t with clk := { t.clk with taiValid := false } })) ∧
  (∀ (dt : Nat) (x : NetPort) (k : PtpKind) (s : State), let t := advance dt s
    let c := t.cfg.clock.ptp
    let q := ptpPortOf t.clk x
    t.clk.grandmaster = true → ptpRuns t x = true →
    (k = .announce → sendDue t q.sentAnnounce (ptpLogAnnounce c) = true →
      exec (.ptpMasterTransmit dt x k) s = .next (sendOut (linkPortOf x)
        (.ptp x k (taiNow t) (ptpDomain c) (ptpLogAnnounce c) (ptpOverUdp c) (ownSet c))
        { t with clk := setPtpPort t.clk x { q with sentAnnounce := some t.sysCnt } })) ∧
    (k ≠ .announce → sendDue t q.sentSync (ptpLogSync c) = true →
      exec (.ptpMasterTransmit dt x k) s = .next (sendOut (linkPortOf x)
        (.ptp x k (taiNow t) (ptpDomain c) (ptpLogSync c) (ptpOverUdp c) (ownSet c))
        { t with clk := setPtpPort t.clk x { q with sentSync := some t.sysCnt } }))) ∧
  (∀ (dt : Nat) (x : NetPort) (s : State), let t := advance dt s
    let c := t.cfg.clock.ptp
    let q := ptpPortOf t.clk x
    t.clk.grandmaster = false → ptpRuns t x = true → slaves t x = true → q.master.isSome = true →
    sendDue t q.sentDelay (ptpLogDelay c) = true →
    exec (.ptpDelayRequest dt x) s = .next (sendOut (linkPortOf x)
      (.ptpDelay x (ptpDomain c) (ptpLogDelay c) (ptpOverUdp c) (ptpPeerDelay c))
      { t with clk := setPtpPort t.clk x { q with sentDelay := some t.sysCnt } }))

/-- What happens to the audio clock: the PLL locks, loses its lock, changes its bandwidth, ends a phase move; a reference
qualifies; no reference at all is a fault after its grace; an input clock is lost or resumes; a rate converter locks again; an
edge of WCLK_IN is monitored and stamped. -/
def Obligations.ClockEvents : Prop := (∀ (dt : Nat) (s : State), let t := advance dt s
    (t.clk.pll.active.isSome = true → t.clk.pll.state = .acquiring → 256 ≤ t.clk.pll.good →
      exec (.pllLock dt) s =
        .next (postEvent 4 { t with clk := { t.clk with pll := { t.clk.pll with state := .locked, bad := 0 } } })) ∧
    (t.clk.pll.state = .locked → 16 ≤ t.clk.pll.bad →
      exec (.pllLockLost dt) s = .next (postEvent 4 { t with clk := { t.clk with pll := { t.clk.pll with
        state := .acquiring, bw := t.clk.pll.forcedBw.getD 0, good := 0, bad := 0, errs := [] } } })) ∧
    (t.clk.pll.forcedBw = none → t.clk.pll.state = .acquiring ∨ t.clk.pll.state = .locked →
      (t.clk.pll.errs ≠ [] → 200000 < t.clk.pll.phase.natAbs → exec (.pllBandwidthStep dt true) s =
        .next { t with clk := { t.clk with pll := { t.clk.pll with bw := t.clk.pll.bw - 1, errs := [] } } }) ∧
      (quietFor8Tau t = true → exec (.pllBandwidthStep dt false) s =
        .next { t with clk := { t.clk with pll := { t.clk.pll with bw := min 20 (t.clk.pll.bw + 1), errs := [] } } })) ∧
    (t.clk.pll.state = .moving → t.clk.pll.dir ≠ 0 →
      exec (.phaseMoveComplete dt) s = .next (postEvent 4 { t with clk := { t.clk with
        pll := { t.clk.pll with state := .acquiring, dir := 0, good := 0, bad := 0, errs := [] }
        rebase := t.clk.rebase || t.clk.pll.active == some ⟨1, 0⟩ } })) ∧
    (modeUp t.life.mode = true → t.clk.pll.anyQualified = false →
      t.clk.pll.restoredAt + 60 * secCounts ≤ t.sysCnt →
      exec (.refLostGraceEnd dt) s = .next (raise .refLost 0 0 0 t))) ∧
  (∀ (dt : Nat) (i : Fin 8) (e : RefEntry) (s : State), let t := advance dt s
    t.cfg.clock.refs.entries[i.val]? = some e → modeUp t.life.mode = true → refUsable t e = true →
    let m : Monitor := tget {} t.clk.monitors (refMonitor e)
    m.seen = true → m.lost = false → m.meanOk = true → m.cleanSince + secCounts ≤ t.sysCnt →
    exec (.referenceQualified dt i) s = .next (qualify e t)) ∧
  (∀ (dt : Nat) (c : ClockIn) (r : Fin 4) (s : State), let t := advance dt s
    let k := clockInKey c
    let m : Monitor := tget {} t.clk.monitors k
    let why := if r = 0 then 1 else r.val
    m.seen = true → m.lost = false → modeUp t.life.mode = true → (why = 1 → clockOverdue t c = true) →
    (c = .wclk → exec (.clockLost dt c r) s = .next (raise .portClockLost 0 0 (wclkDetail why) (monitorLose 8 why
      { t with clk := { t.clk with wclkStamp := { t.clk.wclkStamp with valid := false, lost := true } } }))) ∧
    (∀ p, c = .ptp p → t.clk.grandmaster = false → exec (.clockLost dt c r) s = .next (ptpLose p 1 (ptpMonitorLost p t))) ∧
    (c ≠ .wclk → (∀ p, c ≠ .ptp p) → portRuns t k = true → exec (.clockLost dt c r) s =
      .next (if why = 3 then rateChange k t else portLose k why t))) ∧
  (∀ (dt : Nat) (p : PortId) (s : State), let t := advance dt s
    let k := portKey p
    let m : Monitor := tget {} t.clk.monitors k
    k < 8 → (m.lost = true ∨ inForce .portClockLost (portSrc0 k) 0 t = true) → 64 ≤ m.good → portDecKeys t k = [] →
    exec (.clockResumed dt p) s = .next (release .portClockLost (portSrc0 k) 0 { t with clk := { t.clk with
      monitors := tset {} t.clk.monitors k { m with lost := false, reason := 0 } } })) ∧
  (∀ (dt : Nat) (d : DecantTarget) (rate : Nat) (s : State), let t := advance dt s
    isDecant t.cfg.clock.decant (decantKey d) = true → targetRuns t (decantKey d / 64) (decantKey d % 64) = true →
    decantMeasured t d = true → 31500000 ≤ rate → rate ≤ 194000000 →
    let u := release .decantUnlocked (targetFault t d).1 0
      { t with clk := { t.clk with decant := tset {} t.clk.decant (decantKey d) ⟨true, rate⟩ } }
    (targetMonitor d = none → exec (.decantRelock dt d rate) s = .next u) ∧
    (∀ k, targetMonitor d = some k →
      exec (.decantRelock dt d rate) s = .next (release .portClockLost (portSrc0 k) 0 { u with clk := { u.clk with
        monitors := tset {} u.clk.monitors k
          { tget ({} : Monitor) u.clk.monitors k with lost := false, reason := 0, periods := [], glitches := [], secSum := 0, secCount := 0 } } }))) ∧
  (∀ (dt period : Nat) (s : State), let t := advance dt s
    modeUp t.life.mode = true → t.cfg.board.miscWired.getLsbD 0 = true →
    let e := monitorEdge 8 (fsNow t * 1000 / t.cfg.clock.wclk.inDiv) period false t
    let u := { e.2 with clk := { e.2.clk with wclkStamp := stampEdge t.sysCnt e.2.clk.wclkStamp } }
    (e.1.lost = 0 → (tget {} (if e.1.glitch = true then raise .portGlitch 0 0 (wclkDetail 0) u else u).clk.monitors 8
        : Monitor).lost = false →
      exec (.wclkInEdge dt period) s = .next (if e.1.glitch = true then raise .portGlitch 0 0 (wclkDetail 0) u else u)) ∧
    (e.1.lost ≠ 0 → exec (.wclkInEdge dt period) s = .next (raise .portClockLost 0 0 (wclkDetail e.1.lost)
      (monitorLose 8 e.1.lost (if e.1.glitch = true then raise .portGlitch 0 0 (wclkDetail 0) u else u)))))

/-- The clock's commands, each under the conditions its rule puts on its fields: fields that need a stopped clock or group are
stored at once, and the others wait for the next tick, which stores them; FS_SET waits for its tick; CLOCK_EXPERT acts at
once; CLOCK_STATUS reports what the latest tick latched. -/
def Obligations.ClockCommands : Prop := ∀ (h : Hdr) (p : Bytes) (s : State),
  (ready .clockRefs h p s = true → p.length = 36 →
    let t := during .clockRefs h p s
    let n := u8 p 0
    let es := (List.range n).map (refOf p)
    1 ≤ n → n ≤ 8 → u8 p 1 ≤ 1 → 10 ≤ u16 p 2 → u16 p 2 ≤ 3600 →
    (∀ i < 8, u16 p (6 + 4 * i) = 0 ∧ (n ≤ i → u32 p (4 + 4 * i) = 0)) → (∀ e ∈ es, refInRange e = true) →
    hasRepeat es = false → (∀ e ∈ es, refDeclared t.cfg.board e = true ∧ refDecant t.cfg.clock.decant e = false) →
    exec (.clockRefs h p) s = .next (answered .clockRefs h .ok [] (prepare .clockRefs h p t)) ∧
    ∀ u : State, landClockRefs p u = { u with
      cfg := { u.cfg with clock := { u.cfg.clock with refs := ⟨u8 p 1 == 1, u16 p 2, es⟩ } }
      clk := { u.clk with refsChanged := true } }) ∧
  (ready .ptpSet h p s = true → p.length = 16 → checkPtpSet p (during .ptpSet h p s) = .ok →
    let t := during .ptpSet h p s
    let n := ptpOf p
    let o := t.cfg.clock.ptp
    let u := { t with cfg := { t.cfg with clock := { t.cfg.clock with
      ptp := { o with profile := n.profile, domain := n.domain, ports := n.ports, delayMech := n.delayMech } } } }
    exec (.ptpSet h p) s = .next (answered .ptpSet h .ok [] (prepare .ptpSet h p (ptpStopped p t))) ∧
    (n.profile ≠ o.profile ∨ n.domain ≠ o.domain → ptpStopped p t = runBmca (restartPtp u)) ∧
    (n.profile = o.profile → n.domain = o.domain → n.ports = o.ports → ptpStopped p t = u) ∧
    (n.profile = o.profile → n.domain = o.domain → n.ports ≠ o.ports → ptpStopped p t = runBmca (updatePtpQual
      ([NetPort.a, NetPort.b].foldl (fun a x => if n.ports.getLsbD (portIdx x) = true then a else dropSlave a x) u))) ∧
    ∀ v : State, let w := landPtpSet p v
      w.cfg.clock.ptp = { n with profile := v.cfg.clock.ptp.profile, domain := v.cfg.clock.ptp.domain
                                 ports := v.cfg.clock.ptp.ports, delayMech := v.cfg.clock.ptp.delayMech }) ∧
  (ready .wclkSet h p s = true → p.length = 4 →
    let t := during .wclkSet h p s
    (u8 p 0 = 1 ∨ u8 p 0 = 2 ∨ u8 p 0 = 4) → u8 p 1 ≤ 1 → u8 p 2 ≤ 3 → u8 p 3 ≤ 3 →
    (u8 p 2 ≠ 0 → t.cfg.board.miscWired.getLsbD 1 = true) → (u8 p 3 ≠ 0 → t.cfg.board.miscWired.getLsbD 2 = true) →
    (clockStopped t = false → u8 p 0 = t.cfg.clock.wclk.inDiv ∧ (u8 p 1 == 1) = t.cfg.clock.wclk.inEdge) →
    exec (.wclkSet h p) s = .next (answered .wclkSet h .ok [] (prepare .wclkSet h p
      { t with cfg := { t.cfg with clock := { t.cfg.clock with
        wclk := { t.cfg.clock.wclk with inDiv := u8 p 0, inEdge := u8 p 1 == 1 } } } })) ∧
    ∀ u : State, landWclkSet p u = { u with cfg := { u.cfg with clock := { u.cfg.clock with
      wclk := { u.cfg.clock.wclk with wclkOut := u8 p 2, mclkOut := u8 p 3 } } } }) ∧
  (ready .clockStatus h p s = true → p.length = 0 →
    let t := during .clockStatus h p s
    let v := latchView t
    let c := v.clk
    let l := c.pll
    let q : PtpPort := match c.ptpPort with
      | some x => ptpPortOf c x
      | none => {}
    let gm := c.grandmaster
    let f := flag 0 c.taiValid + flag 1 (c.portA.locked || c.portB.locked) + flag 2 gm + flag 3 c.arb
      + flag 4 (inForce .refLost 0 0 v) + flag 5 c.taiStepped
    exec (.clockStatus h p) s = .next (answered .clockStatus h .ok
      (le 1 (activeEntry v) ++ le 1 (pllCode l.state) ++ le 1 l.bw ++ le 1 f ++ le 1 c.fs.val
        ++ le 1 (match c.ptpPort with | some x => portIdx x | none => 0xFF)
        ++ le 1 (entryBits v (refQualified c)) ++ le 1 (entryBits v (refPresent v))
        ++ leI 4 (clampI (-2147483648) 2147483647 l.phase) ++ leI 4 (ppbOf l.freq)
        ++ leI 4 (clampI (-2147483648) 2147483647 (freeDiv 41 c.ptpOffset 65536)) ++ leI 4 (clampI 0 4294967295 q.pathNs)
        ++ le 8 (if gm then Config.macBase.toNat * 65536 else q.gmId.toNat)
        ++ le 1 (if gm then 248 else q.gmClass.toNat) ++ le 1 (if gm then 0 else q.steps.toNat)
        ++ le 2 c.utcOffset.toNat
        ++ le 4 (match l.holdSince with | some x => sat32 (freeDiv 43 ((v.sysCnt - x : Nat) : Int) msCounts).toNat | none => 0)
        ++ le 2 (decantUsed v) ++ le 2 (decantOpen v) ++ zeros 4 ++ le 8 l.lastSwitch ++ le 8 t.sysCnt)
      (clearEvent 4 { t with
        clk := { t.clk with taiStepped := t.clk.taiStepped && !c.taiStepped }
        latch := { t.latch with clk := { t.latch.clk with taiStepped := false } } }))) ∧
  (ready .clockExpert h p s = true → p.length = 4 → u16 p 2 = 0 →
    let t := during .clockExpert h p s
    (u8 p 0 = 0 → exec (.clockExpert h p) s = .next (answered .clockExpert h .ok [] (releaseForcedClock t))) ∧
    (u8 p 0 = 1 → u8 p 1 ≤ 20 → exec (.clockExpert h p) s = .next (answered .clockExpert h .ok []
      { t with clk := { t.clk with pll := { t.clk.pll with forcedBw := some (u8 p 1), bw := u8 p 1 } } })) ∧
    (u8 p 0 = 2 → exec (.clockExpert h p) s = .next (answered .clockExpert h .ok []
      (forceHold { t with clk := { t.clk with pll := { t.clk.pll with forcedHold := true } } }))) ∧
    (∀ x : NetPort, u8 p 0 = 3 → u8 p 1 = portIdx x → (ptpPortOf t.clk x).locked = true →
      let c := { t.clk with pll := { t.clk.pll with forcedPort := some x } }
      exec (.clockExpert h p) s = .next (answered .clockExpert h .ok [] { t with clk := { c with ptpPort := some x } }))) ∧
  (ready .fsSet h p s = true → p.length = 4 →
    let t := during .fsSet h p s
    let f : Fin 3 := Fin.ofNat 3 (u8 p 0)
    checkFsSet (anyCoreRuns t) p t = .ok →
    (f = t.clk.fs → exec (.fsSet h p) s = .next (answered .fsSet h .ok [] t)) ∧
    (f ≠ t.clk.fs → exec (.fsSet h p) s = .next (unanswered (awaitReply .fsSet h []
      { t with clk := { t.clk with fsPending := some f }
               cfg := { t.cfg with clock := { t.cfg.clock with fs := f } } })))) ∧
  (ready .decantSet h p s = true → p.length = 4 →
    let t := during .decantSet h p s
    let on := u8 p 2 == 1
    let u := withDecant (assignDecant t.cfg.clock.decant (u8 p 0) (u8 p 1) on) t
    1 ≤ u8 p 0 → u8 p 0 ≤ 6 → u8 p 1 < targetCount (u8 p 0) → u8 p 2 ≤ 1 → u8 p 3 = 0 →
    (targetRuns t (u8 p 0) (u8 p 1) = true → isDecant t.cfg.clock.decant (64 * u8 p 0 + u8 p 1) = on) →
    targetConflict t (u8 p 0) (u8 p 1) on = false → (on = true → targetIsRef t (u8 p 0) (u8 p 1) = false) →
    targetGroup t (u8 p 0) (u8 p 1) on = false → decantUsed u ≤ 320 →
    exec (.decantSet h p) s = .next (answered .decantSet h .ok (le 2 (decantUsed u) ++ zeros 2)
      (if isDecant t.cfg.clock.decant (64 * u8 p 0 + u8 p 1) = on then u else decantAnew (64 * u8 p 0 + u8 p 1) u))) ∧
  (ready .alignGroupSet h p s = true → p.length = 8 →
    let t := during .alignGroupSet h p s
    let g := u8 p 0
    let o := tget ({} : AlignGroup) t.cfg.clock.align g
    g ≤ 15 → u8 p 1 ≤ 2 → u8 p 2 ≤ 64 → u8 p 3 = 0 → (u8 p 1 ≠ 2 → 250 ≤ u32 p 4 ∧ u32 p 4 ≤ 20000) →
    (groupRuns t g = true → u8 p 1 = o.kind ∧ (u8 p 1 ≠ 2 → u32 p 4 = o.linkUs)) → (u8 p 1 = 0 → groupMembers t g = []) →
    exec (.alignGroupSet h p) s = .next (answered .alignGroupSet h .ok [] (prepare .alignGroupSet h p
      { t with cfg := { t.cfg with clock := { t.cfg.clock with
        align := tset {} t.cfg.clock.align g { o with kind := u8 p 1, linkUs := u32 p 4 } } } })) ∧
    ∀ u : State, landAlignGroup p u = { u with cfg := { u.cfg with clock := { u.cfg.clock with
      align := tset {} u.cfg.clock.align g
        { tget ({} : AlignGroup) u.cfg.clock.align g with repeatLimit := u8 p 2 } } } })


/-! ### Starting, modes, lifecycle -/

/-- RESET_N low, a watchdog expiry and DEV_RESET's end reset the module from START on, not during a power loss: found in START
it starts again from step 4; from HOLD on it goes to RESET, mutes for 2 ms, and then every island but AO is reset: what AO
keeps stays (SYSCNT, the fault log and queue, the vintages in store, the keys, the hold outputs' records), all else starts
anew; with RESET_N high it goes on to START. -/
def Obligations.WarmResets : Prop := (∀ (dt : Nat) (s : State), let t := settleReset (advance dt s)
    exec (.resetNLow dt) s = .next (warmReset 1 false true false { t with pads := { t.pads with resetN := false } })) ∧
  (∀ (dt : Nat) (hold : Bool) (s : State), let t := settleReset (advance dt s)
    let u := { t with pads := { t.pads with resetN := true } }
    (waitsReset u = true → exec (.resetNHigh dt hold) s = .next (beginStart hold u)) ∧
    (∀ n h thermal, u.life.phase = .muting n h thermal → exec (.resetNHigh dt hold) s =
      .next { u with life := { u.life with phase := .muting n hold thermal } }) ∧
    (waitsReset u = false → (∀ n h thermal, u.life.phase ≠ .muting n h thermal) →
      exec (.resetNHigh dt hold) s = .next u)) ∧
  (∀ (dt : Nat) (hold : Bool) (s : State), let t := settleReset (advance dt s)
    t.life.watchdog = true → exec (.watchdogExpiry dt hold) s = .next (warmReset 3 false hold false t)) ∧
  (∀ (dt : Nat) (hold stay : Bool) (due : Nat) (s : State), let t := settleReset (advance dt s)
    t.life.resetDue = some (stay, due) → due ≤ t.sysCnt →
    exec (.devResetStart dt hold) s = .next (warmReset 2 stay hold false t)) ∧
  (∀ (cause : Nat) (stay hold thermal : Bool) (s : State),
    (resettable s = false → warmReset cause stay hold thermal s = s) ∧
    (resettable s = true → s.life.mode = .start → warmReset cause stay hold thermal s =
      afterReset hold thermal (resetIslands { s with life := { s.life with cause := cause, stayHold := stay } })) ∧
    (resettable s = true → s.life.mode ≠ .start → warmReset cause stay hold thermal s = beginReset cause stay hold thermal s ∧
      (beginReset cause stay hold thermal s).life.mode = .reset ∧ (beginReset cause stay hold thermal s).life.cause = cause ∧
      (beginReset cause stay hold thermal s).life.stayHold = stay ∧
      (beginReset cause stay hold thermal s).life.phase = .muting s.sysCnt hold thermal)) ∧
  (∀ (n : Nat) (hold thermal : Bool) (s : State), s.life.phase = .muting n hold thermal → s.life.mode = .reset →
    s.pwr.loss = none →
    (n + 400000 ≤ s.sysCnt → settleReset s =
      { afterReset hold thermal (resetIslands { s with sysCnt := n + 400000 }) with sysCnt := s.sysCnt }) ∧
    (s.sysCnt < n + 400000 → settleReset s = s)) ∧
  (∀ (hold : Bool) (s : State),
    afterReset hold true s = { s with life := { s.life with phase := .thermal } } ∧
    (s.pads.resetN = true → afterReset hold false s = beginStart hold s) ∧
    (s.pads.resetN = false → afterReset hold false s = { s with life := { s.life with phase := .waiting } })) ∧
  (∀ s : State, let t := resetIslands s
    t.pending = s.pending ∧ t.sysCnt = s.sysCnt ∧ t.life.cause = s.life.cause ∧ t.life.stayHold = s.life.stayHold ∧
    t.life.state = s.life.state ∧ t.life.phase = .waiting ∧ t.vint.slotA = s.vint.slotA ∧ t.vint.slotB = s.vint.slotB ∧
    t.flt.log = s.flt.log ∧ t.flt.queue = s.flt.queue ∧ t.life.netKeys = s.life.netKeys ∧ t.outp.safe = s.outp.safe ∧
    t.cmd.expert = none ∧ t.cmd.store = [] ∧ t.cmd.sessions.all Option.isNone = true)

/-- From the AUX rails in regulation to SERVICE, in order: PWR_GOOD, the crystal with SYSCNT at 0 and the hold outputs' safe
record (START), the purge of the lees with one repeat, the boot image, the restored configuration (HOLD), and at the first
tick with the PLL locked SERVICE, when DEV_RUN or AUTO_RUN asked for it. -/
def Obligations.StartSequence : Prop := (∀ (dt : Nat) (s : State), let t := advance dt s
    t.pwr.auxOn = true → t.pwr.auxReg = false → t.pwr.loss = none →
    exec (.auxRailsInRegulation dt) s =
      .next (notePads { t with pwr := { t.pwr with auxReg := true } })) ∧
  (∀ (dt : Nat) (hold : Bool) (s : State), let t := advance dt s
    t.life.mode = .reset → t.pwr.auxReg = true → t.life.crystal = false → t.pwr.loss = none →
    let u := holdRefreshAll 64 (readSafe (enterMode .start
      { t with sysCnt := 0, life := { t.life with crystal := true, holdPad := !hold } }))
    (u.pads.resetN = true → exec (.aoReady dt hold) s = .next (beginStart hold u)) ∧
    (u.pads.resetN = false → exec (.aoReady dt hold) s = .next { u with life := { u.life with phase := .waiting } })) ∧
  (∀ (dt : Nat) (s : State), let t := settleReset (advance dt s)
    starting t = true → t.life.purgeDone = false → t.life.held ≠ .purge →
    exec (.leesPurgeComplete dt true) s = .next { t with life := { t.life with purgeDone := true } } ∧
    (t.life.purgeTries = 0 → exec (.leesPurgeComplete dt false) s = .next { t with life := { t.life with purgeTries := 1 } }) ∧
    (t.life.purgeTries ≠ 0 →
      exec (.leesPurgeComplete dt false) s = .next { t with life := { t.life with purgeTries := 2, held := .purge } })) ∧
  (∀ (dt : Nat) (s : State), let t := settleReset (advance dt s)
    starting t = true → t.life.fwDone = false → t.life.held = .no →
    (∀ i trial, bootChoice t.life = some (i, trial) → exec (.bootImageVerified dt) s = .next { t with life := { t.life with
      image := some i, trialBoot := trial, trialMark := none, fwDone := true, watchdog := true } }) ∧
    (bootChoice t.life = none → exec (.bootImageVerified dt) s = .next { t with life := { t.life with
      image := none, trialBoot := false, trialMark := none, held := .boot } })) ∧
  (∀ (dt : Nat) (s : State), let t := settleReset (advance dt s)
    starting t = true → t.life.purgeDone = true → t.life.fwDone = true → t.life.held = .no →
    let s1 := restoreGraph (restoreClocks (applySlot t))
    let s2 := policyLldp t.cfg.policy s1.cfg.policy .b (policyLldp t.cfg.policy s1.cfg.policy .a s1)
    let s3 := (List.range 32).foldl phApply (restoreTasters (restoreChains (restoreMix s2)))
    exec (.restore dt) s = .next (holdRefreshAll 64 (enterMode .hold ((List.range 4).foldl restoreCore (restoreOutputs s3))))) ∧
  (∀ (dt f : Nat) (s : State), let t := advance dt s
    t.life.runPending = some f → t.life.mode = .hold → t.clk.pll.state = .locked → t.clk.ticks = true →
    t.pwr.loss = none →
    let n := usFrames t (if f = 0 then t.cfg.vint.restoreFade else f)
    exec (.serviceEntry dt) s = .next (startRunning (holdRefreshAll n (enterMode .service
      (closeExpert { t with life := { t.life with runPending := none }, mix := { t.mix with fadeN := n } })))))

/-- DEV_MODE accepts the transitions of R90 that a command asks for and refuses every other; RECOVERY is left only when
nothing keeps the module in it; the transition takes place at the next frame tick; RECOVERY is entered from HOLD, SERVICE or
MAINTENANCE, and answers WRONG_MODE to what waited. DEV_MODE cannot name a time: TimedPrepared says how it is then refused.
LIFE_ADVANCE promises a transition of R119 whose conditions hold; 2 ms later the transition takes place, with a warm reset of
cause 4, and that to RETURNED wipes the vintages, the keys and the log. A BOARD_DESCRIBE that passes its checks waits for its
tick, at which the declaration comes into force. -/
def Obligations.ModesAndLifecycle : Prop :=
  ((∀ (h : Hdr) (p : Bytes) (s : State), ready .devMode h p s = true → p.length = 4 → zeroAt p 1 3 = true →
    h.timed = none →
    let t := during .devMode h p s
    ((t.life.mode = .service ∧ (u8 p 0 = 5 ∨ u8 p 0 = 3)) ∨ (t.life.mode = .maintenance ∧ (u8 p 0 = 4 ∨ u8 p 0 = 3)) ∨
        (t.life.mode = .recovery ∧ u8 p 0 = 3 ∧ mayLeaveRecovery t = true) →
      exec (.devMode h p) s = .next (answered .devMode h .ok [] { t with cmd := { t.cmd with
        landing := t.cmd.landing ++ [⟨.devMode, h, p, false, arrivalOf t, false⟩] } })) ∧
    (t.life.mode = .recovery → u8 p 0 = 3 → mayLeaveRecovery t = false →
      exec (.devMode h p) s = .next (answered .devMode h .busy [] t)) ∧
    (u8 p 0 ≤ 2 ∨ u8 p 0 = 6 ∨ t.life.mode = .hold → u8 p 0 ≤ 6 →
      exec (.devMode h p) s = .next (answered .devMode h .wrongMode [] t))) ∧
  (∀ (p : Bytes) (s : State), zeroAt p 1 3 = true →
    (s.life.mode = .service → u8 p 0 = 5 → landDevMode p s = enterMode .maintenance s) ∧
    (s.life.mode = .maintenance → u8 p 0 = 4 → landDevMode p s = enterMode .service (closeExpert s)) ∧
    (s.life.mode = .service ∨ s.life.mode = .maintenance ∨ (s.life.mode = .recovery ∧ mayLeaveRecovery s = true) →
      u8 p 0 = 3 → landDevMode p s = toHold s) ∧
    (s.life.mode = .hold ∨ (s.life.mode = .recovery ∧ mayLeaveRecovery s = false) → landDevMode p s = s)) ∧
  (∀ (l : Landing) (s : State), l.op = .devMode → l.completion = false → landCommand s l = landDevMode l.payload s) ∧
  (∀ (dt : Nat) (q : BitVec 8) (s : State), let t := advance dt s
    t.flt.recoveryDue = some q →
    ((t.life.mode = .hold ∨ t.life.mode = .service ∨ t.life.mode = .maintenance) →
      exec (.recoveryEntry dt) s = .next (holdRefreshAll 64 (enterMode .recovery (cancelTriggers (dropWaiting { t with
        flt := { t.flt with recoveryDue := none, recoverySeq := some q }
        life := { t.life with runPending := none } }))))) ∧
    (t.life.mode = .off ∨ t.life.mode = .reset ∨ t.life.mode = .start ∨ t.life.mode = .recovery →
      exec (.recoveryEntry dt) s = .next { t with flt := { t.flt with recoveryDue := none } }))) ∧
  ((∀ (h : Hdr) (p : Bytes) (s : State), ready .lifeAdvance h p s = true → p.length = 92 →
    let t := during .lifeAdvance h p s
    (checkLifeAdvance p t = .ok → lifeStep t.life.state (lifeOf (u8 p 0)) = true ∧
      exec (.lifeAdvance h p) s = .next (answered .lifeAdvance h .ok []
        { t with life := { t.life with lifeDue := some (lifeOf (u8 p 0), t.sysCnt + 400000) } })) ∧
    (checkLifeAdvance p t ≠ .ok →
      exec (.lifeAdvance h p) s = .next (answered .lifeAdvance h (checkLifeAdvance p t) [] t))) ∧
  (∀ (dt due : Nat) (hold : Bool) (x : LifeState) (s : State), let t := settleReset (advance dt s)
    t.life.lifeDue = some (x, due) → due ≤ t.sysCnt → t.pwr.loss = none →
    let u := if x = .returned then wipeReturned t else t
    exec (.lifeTransitionStart dt hold) s =
      .next (warmReset 4 false hold false { u with life := { u.life with state := x, lifeDue := none } })) ∧
  (∀ s : State, let t := wipeReturned s
    t.flt.log = [] ∧ t.life.integratorKey = none ∧ t.life.netKeys.all Option.isNone = true ∧ t.vint.slotA.blank = true ∧
    t.vint.slotB.blank = true ∧ t.vint.pool = [] ∧ (∀ e ∈ t.outp.safe, e = {})) ∧
  (∀ (h : Hdr) (p : Bytes) (s : State), ready .boardDescribe h p s = true → p.length = 48 →
    checkBoard p (during .boardDescribe h p s) = .ok →
    h.timed = none → let t := during .boardDescribe h p s
    exec (.boardDescribe h p) s = .next (answered .boardDescribe h .ok [] { t with cmd := { t.cmd with
      landing := t.cmd.landing ++ [⟨.boardDescribe, h, p, false, arrivalOf t, false⟩] } })) ∧
  (∀ (l : Landing) (s : State), l.op = .boardDescribe → l.completion = false → landCommand s l = landBoard l.payload s) ∧
  (∀ (p : Bytes) (s : State), let b := boardOf p
    (boardStored b (declareHold b s)).cfg.board = b ∧
    landBoard p s = undeclare (checkNewSpk s.cfg.board.spkWired (checkNewSpk s.cfg.board.spkWired
      ((List.range 32).foldl phApply (boardStored b (declareHold b s))) 0) 1)))


/-! ### Power -/

/-- A port is granted its class, supplies, and counts in the budget after its delay; the AUX rails and the hold-up follow; a
port lost while the other counts is a fault, the loss of the last that counts begins the power-loss sequence, and when the
hold-up is exhausted everything not stored is gone. -/
def Obligations.PowerEvents : Prop := (∀ (dt : Nat) (x : NetPort) (g : Fin 9) (s : State), let t := advance dt s
    (pdPort t x).supplying = false → g ≠ 0 →
    exec (.powerApplied dt x g) s = .next (setPd x { granted := g, applied := true } t)) ∧
  (∀ (dt : Nat) (x : NetPort) (s : State), let t := advance dt s
    (pdPort t x).applied = true → (pdPort t x).supplying = false → t.pwr.loss = none →
    let u := if t.life.mode = .off then startAo t else t
    exec (.inputPowerGood dt x) s = .next
      (setPd x { pdPort t x with
        applied := false, supplying := true, goodAt := u.pwr.aoCnt, lldp := hostLldp u.cfg.policy x } u)) ∧
  (∀ (dt : Nat) (x : NetPort) (s : State), let t := advance dt s
    (pdPort t x).supplying = true → (pdPort t x).counting = false → t.pwr.loss = none →
    (pdPort t x).goodAt + 80 * msCounts ≤ t.pwr.aoCnt →
    let u := setPd x { pdPort t x with counting := true } t
    exec (.powerUpDelayEnd dt x) s = .next (notePads (tryAux { u with pwr := { u.pwr with
      budget := budgetMw u, hupCharging := u.pwr.hupCharging || !u.pwr.hupReady } }))) ∧
  (∀ (dt mw : Nat) (x : NetPort) (s : State), let t := advance dt s
    (pdPort t x).supplying = true → t.cfg.policy.lldpMode = 0 →
    exec (.lldpAllocation dt x mw) s = .next (setPd x { pdPort t x with lldpNext := some (some mw) } t)) ∧
  (∀ (dt : Nat) (s : State), let t := advance dt s
    (t.pwr.hupCharging = true → t.pwr.loss = none →
      exec (.hupReady dt) s = .next { t with pwr := { t.pwr with hupReady := true, hupCharging := false } }) ∧
    (t.pwr.auxOn = true →
      exec (.auxFault dt .aux3v3) s = .next (notePads
        { t with pwr := { t.pwr with auxFault3 := true, auxTry3 := t.pwr.aoCnt } }) ∧
      exec (.auxFault dt .aux5v0) s = .next (notePads
        { t with pwr := { t.pwr with auxFault5 := true, auxTry5 := t.pwr.aoCnt } })) ∧
    (∀ ok, t.pwr.auxFault3 = true → t.pwr.auxTry3 + 500 * msCounts ≤ t.pwr.aoCnt → exec (.auxRetry dt .aux3v3 ok) s =
      .next (notePads { t with pwr := { t.pwr with auxFault3 := !ok, auxTry3 := t.pwr.aoCnt } })) ∧
    (∀ ok, t.pwr.auxFault5 = true → t.pwr.auxTry5 + 500 * msCounts ≤ t.pwr.aoCnt → exec (.auxRetry dt .aux5v0 ok) s =
      .next (notePads { t with pwr := { t.pwr with auxFault5 := !ok, auxTry5 := t.pwr.aoCnt } }))) ∧
  (∀ (dt : Nat) (x : NetPort) (s : State), let t := advance dt s
    let y : NetPort := match x with | .a => .b | .b => .a
    let go := match x with | .a => exec (.portSupplyStopped dt true false) s | .b => exec (.portSupplyStopped dt false true) s
    let u := setPd x {} t
    t.pwr.loss = none → (pdPort t x).counting = true →
    ((pdPort t y).counting = true → go = .next (notePads
      (raise .powerPortLost 0 (portIdx x) (BitVec.ofNat 32 (portIdx x)) u))) ∧
    ((pdPort t y).counting = false → go = .next (powerLoss u))) ∧
  (∀ (dt : Nat) (s : State), let t := advance dt s
    t.pwr.loss.isSome = true → exec (.holdUpExhausted dt) s = .next (regain (regain (powerOff t) .a) .b)) ∧
  (∀ s : State, let t := powerOff s
    t.life.mode = .off ∧ t.sysCnt = 0 ∧ t.cmd = {} ∧ t.cfg = {} ∧ t.flt.queue = [] ∧ t.flt.log = s.flt.log ∧
    t.life.state = s.life.state ∧ t.life.netKeys = s.life.netKeys ∧ t.vint.slotA = (settleMark s).vint.slotA ∧
    t.vint.slotB = (settleMark s).vint.slotB ∧ t.pending = s.pending)

/-- A period of the governor measures, compares and sheds; a step of restoring is taken while the draw allows it; POWER_BUDGET
is released 2 s after the budget covers what is needed with 2 W to spare; POWER_STATUS reports and clears the POWER event;
POWER_POLICY waits for its tick, which stores its policy. -/
def Obligations.Governor : Prop := (∀ (dt : Nat) (m : PowerMeas) (s : State), let t := advance dt s
    t.pwr.aoOn = true → t.pwr.loss = none →
    (takeMeas m t).pwr.meas = m ∧ exec (.governorPeriod dt m) s = .next (sendLldp .b (sendLldp .a
      (noteFlags (portsBack (governStep (takeMeas m t))))))) ∧
  (∀ (dt : Nat) (s : State), let t := advance dt s
    shedActive t = true → anyInForce .powerBudget t = false → anyInForce .thermalTrip t = false → t.pwr.loss = none →
    restoreDue t = true → (drawMw t : Int) ≤ (if t.pwr.restoring = true then govTarget t else govTarget t - 3000) →
    let u := restoreStep { t with pwr := { t.pwr with restoring := true, restoreAt := t.pwr.aoCnt, hard := false } }
    exec (.shedRestore dt) s = .next { u with pwr := { u.pwr with restoring := shedActive u } }) ∧
  (∀ (dt since : Nat) (s : State), let t := advance dt s
    t.pwr.fitSince = some since → since + 2 * secCounts ≤ t.pwr.aoCnt →
    exec (.powerBudgetRelease dt) s = .next (release .powerBudget 0 0 t)) ∧
  (∀ (h : Hdr) (p : Bytes) (s : State), ready .powerStatus h p s = true → p.length = 0 →
    let t := during .powerStatus h p s
    let w := t.pwr
    let m := w.meas
    exec (.powerStatus h p) s = .next (answered .powerStatus h .ok
      (le 1 (flag 0 w.portA.counting + flag 1 w.portB.counting + flag 2 (w.portA.supplying && !w.portA.counting)
          + flag 3 (w.portB.supplying && !w.portB.counting))
        ++ le 1 (if w.portA.supplying then w.portA.granted else 0) ++ le 1 (if w.portB.supplying then w.portB.granted else 0)
        ++ le 1 w.flags.toNat ++ le 4 (effAlloc w.portA) ++ le 4 (effAlloc w.portB)
        ++ le 4 w.budget ++ le 4 (rnsMw t) ++ le 4 (drawMw t) ++ le 4 m.drawA ++ le 4 m.drawB ++ le 4 m.vpdA
        ++ le 4 m.vpdB ++ le 4 m.hupMv ++ le 2 m.aux3Ma ++ le 2 m.aux5Ma ++ leI 4 (spkGoverning t) ++ leI 4 w.hsLevel
        ++ le 4 w.phShed.toNat ++ le 4 m.dissMw ++ le 8 t.sysCnt) (clearEvent 3 t))) ∧
  (∀ (h : Hdr) (p : Bytes) (s : State), ready .powerPolicy h p s = true → p.length = 12 →
    let t := during .powerPolicy h p s
    let c := policyOf p
    u8 p 0 ≤ 1 → u8 p 1 ≤ 2 → 1 ≤ c.guardW → c.guardW ≤ 10 → u8 p 3 = 0 → c.lldpA ≤ 71300 → c.lldpB ≤ 71300 →
    (c.onePort = true → rnsUw t ≤ 1000 * smallerAlloc t) →
    (h.timed = none →
      exec (.powerPolicy h p) s = .next (answered .powerPolicy h .ok [] (prepare .powerPolicy h p t))) ∧
    ∀ u : State, landPowerPolicy p u =
      policyLldp u.cfg.policy c .b (policyLldp u.cfg.policy c .a { u with cfg := { u.cfg with policy := c } })) ∧
  (∀ v : Int, -40000 < v → v ≤ 0 → levelDown v = max (-40000) (v - 1000) ∧ levelDown v < v) ∧
  levelDown (-40000) = -144000 ∧ levelUp (-144000) = -40000 ∧
  (∀ v : Int, -40000 ≤ v → v < 0 → levelUp v = min 0 (v + 1000) ∧ v < levelUp v)


/-! ### Effects that wait for a tick -/

/-- A command whose effects wait for a tick and that is not timed is checked at once: refused with its check's status and no
effect, or answered OK and put at the end of the prepared commands; where its ramps find no slots it waits deferred, with
OK_DEFERRED, or is refused with NO_RESOURCE when 64 wait. A command with live fields changes what belongs to a stopped block
at once and waits with its live fields. -/
def Obligations.CommandsPrepared : Prop := (∀ (c : Instr) (op : Op) (h : Hdr) (p : Bytes) (check : State → Status) (s : State), landingOf c = some (op, h, p, check) →
    ready op h p s = true → h.timed = none → (∀ n, payloadLen op = some n → p.length = n) →
    let t := during op h p s
    let l : Landing := ⟨op, h, p, false, arrivalOf t, false⟩
    (check t ≠ .ok → exec c s = .next (answered op h (check t) [] t)) ∧
    (check t = .ok → (mayDefer op = true → deferReason op p t = 0) →
      exec c s = .next (answered op h .ok [] { t with cmd := { t.cmd with landing := t.cmd.landing ++ [l] } })) ∧
    (check t = .ok → mayDefer op = true → deferReason op p t ≠ 0 →
      (t.mix.deferred.length < 64 → exec c s = .next (answered op h .okDeferred [] (deferCommand (deferReason op p t) l t))) ∧
      (64 ≤ t.mix.deferred.length → exec c s = .next (answered op h .noResource [] t)))) ∧
  (∀ (c : Instr) (op : Op) (h : Hdr) (p : Bytes) (check : State → Status) (now : State → State) (s : State),
    liveOf c = some (op, h, p, check, now) → ready op h p s = true → (∀ n, payloadLen op = some n → p.length = n) →
    let t := during op h p s
    (check t ≠ .ok → exec c s = .next (answered op h (check t) [] t)) ∧
    (check t = .ok → exec c s = .next (answered op h .ok [] { now t with cmd := { (now t).cmd with
      landing := (now t).cmd.landing ++ [⟨op, h, p, false, arrivalOf (now t), false⟩] } })))

/-- A timed command waits for its apply time with OK_DEFERRED, in order of arrival, or lands at the next tick where that has
passed; it is refused where 256 wait, where TAI time is not valid, more than 24 h ahead, or by its own checks. Where its
opcode cannot be timed it is refused when it comes in. -/
def Obligations.TimedPrepared : Prop := (∀ (c : Instr) (op : Op) (h : Hdr) (p : Bytes) (check : State → Status) (s : State) (at' : BitVec 64),
    landingOf c = some (op, h, p, check) → ready op h p s = true → h.timed = some at' →
    (∀ n, payloadLen op = some n → p.length = n) →
    let t := during op h p s
    let waits (past : Bool) : State :=
      { t with cmd := { t.cmd with timed := insertTimed ⟨op, h, p, true, arrivalOf t, past⟩ t.cmd.timed } }
    (256 ≤ t.cmd.timed.length → exec c s = .next (answered op h .queueFull [] t)) ∧
    (t.cmd.timed.length < 256 →
      (t.clk.taiValid = false → exec c s = .next (answered op h .wrongMode [] t)) ∧
      (t.clk.taiValid = true →
        (taiNow t + 86400000000000 < at'.toNat → exec c s = .next (answered op h .outOfRange [] t)) ∧
        ((at'.toNat : Int) ≤ taiNow t + 86400000000000 →
          (check t ≠ .ok → exec c s = .next (answered op h (check t) [] t)) ∧
          (check t = .ok → taiNow t < at'.toNat → exec c s = .next (answered op h .okDeferred [] (waits false))) ∧
          (check t = .ok → (at'.toNat : Int) ≤ taiNow t → exec c s = .next (unanswered (waits true))))))) ∧
  (∀ (l : Landing) (q : List Landing), q.Pairwise (fun x y => x.arr ≤ y.arr) →
    (insertTimed l q).Pairwise (fun x y => x.arr ≤ y.arr) ∧ (insertTimed l q).Perm (l :: q)) ∧
  (∀ (c : Instr) (op : Op) (h : Hdr) (p : Bytes) (s : State), packetOf c = some (op, h, p) → opTimed op = false →
    h.timed.isSome = true → h.rq = .spi → accepting (advance h.dt s) = true → isQueued op h p (advance h.dt s).cmd = false →
    exec c s = .next (refuseAt (opCode op) h .badParam (advance h.dt s)))

/-- At a tick the timed commands that are due land first, each checked again, then those that waited for ramp slots, as far as
slots are free, then the prepared ones in the order of their replies, each with its own effect; a timed one gets its
completion reply with the tick's time and number; a vintage commit then captures. The ticks number the frames from 0. Where a
timed or a deferred command lands the tick is taken ahead of its FRAME_TICK. -/
def Obligations.FramesAndLanding : Prop := (∀ (dt : Nat) (i : TickIn) (s : State), let t := settleReset (advance dt s)
    framesRun t = true →
    let u := if t.clk.tickBegun = true then t else beginTick t
    let v := { u with clk := { u.clk with tickBegun := false } }
    (v.clk.fsPending = none → exec (.frameTick dt i) s = .next (frameEnd (frameIn i v))) ∧
    (v.clk.fsPending.isSome = true → exec (.frameTick dt i) s = .next (lastFrame i v))) ∧
  (∀ s : State, (takeTick s).clk.frame = nextFrame s ∧ (takeTick s).clk.stamp = s.sysCnt ∧
    (s.clk.rebase = false → s.clk.started = true → nextFrame s = s.clk.frame + 1) ∧
    (s.clk.rebase = false → s.clk.started = false → nextFrame s = 0)) ∧
  (∀ s : State, let t := nextTick s
    let u := (t.cmd.timed.filter (timedDue t.clk.tickTai)).foldl landTimed
      { t with cmd := { t.cmd with timed := t.cmd.timed.filter (fun l => !timedDue t.clk.tickTai l) } }
    beginTick s = landDeferred u.mix.deferred u) ∧
  (∀ (s : State) (l m : List Landing), s.cmd.landing = l ++ m →
    landWaiting s = takeCommit (m.foldl landCommand (l.foldl landCommand { s with cmd := { s.cmd with landing := [] } }))) ∧
  (∀ (s : State) (l : Landing),
    (check10 l.op l.hdr.rq s ≠ .ok → landTimed s l = reply (opCode l.op) l.hdr (check10 l.op l.hdr.rq s) [] s) ∧
    (check10 l.op l.hdr.rq s = .ok → landCheck l s ≠ .ok → landTimed s l = reply (opCode l.op) l.hdr (landCheck l s) [] s) ∧
    (check10 l.op l.hdr.rq s = .ok → landCheck l s = .ok → deferReason l.op l.payload s = 0 →
      landTimed s l = landCommand s l)) ∧
  (∀ (s : State) (l : Landing), l.op ≠ .graphCommit → l.op ≠ .routeSet → l.op ≠ .filtSync →
    landCommand s l = if l.completion = true then
      reply (opCode l.op) l.hdr .ok (le 8 s.clk.tickTai.toNat ++ le 8 s.clk.frame) (landEffect l s) else landEffect l s) ∧
  (∀ (s : State) (l : Landing) (m : List Landing),
    (slotsFree s l = true → landDeferred (l :: m) s = landDeferred m (landCommand s l)) ∧
    (slotsFree s l = false → landDeferred (l :: m) s = { s with mix := { s.mix with deferred := l :: m } })) ∧
  (∀ (dt : Nat) (s : State), let t := settleReset (advance dt s)
    framesRun t = true → t.clk.tickBegun = false →
    (t.cmd.timed.any (timedDue (nextTick t).clk.tickTai) = true → ∀ tai, exec (.timedCommandApply dt tai) s = .next (tickAhead t)) ∧
    (∀ l m, t.mix.deferred = l :: m → slotsFree t l = true → exec (.deferredCommandLands dt) s = .next (tickAhead t)))

/-- Frame by frame: a settling chain counts down, a running one fades in by 1/64 from its release, one that fades before its
stop or its reload by 1/32; a ramping mute moves by 1/32, and a corked one at a crossing or, once it has waited too long, by
1/32; the override's weight is k/8 in frame k; an output whose move to its clear code has ended presents it, and one that has
returned presents its own value; a closed gate passes nothing. -/
def Obligations.FadesInFrames : Prop := (∀ (n stamp : Nat) (x : FChain), x.state = .settling → x.stampDue = false →
    (iter (stepChain stamp) n x).left = x.left - n ∧ (iter (stepChain stamp) n x).state = .settling) ∧
  (∀ (n stamp : Nat) (x : FChain), x.state = .running → x.back = false → x.w ≤ 64 →
    (iter (stepChain stamp) n x).w = min 64 (x.w + n) ∧ (iter (stepChain stamp) n x).state = .running) ∧
  (∀ (n stamp : Nat) (x : FChain), x.state = .fadingStop ∨ x.state = .fadingReload →
    (iter (stepChain stamp) n x).w = x.w - 2 * n ∧ (iter (stepChain stamp) n x).state = x.state) ∧
  (∀ (n : Nat) (ov : Nat → Bool) (m : MuteSt), m.stage = .ramping → m.muted = true → n ≤ m.w → (iter (moveMute ov false) n m).w = m.w - n) ∧
  (∀ (n : Nat) (ov : Nat → Bool) (m : MuteSt), m.stage = .ramping → m.muted = false → m.w + n ≤ 32 → (iter (moveMute ov false) n m).w = m.w + n) ∧
  (∀ (ov : Nat → Bool) (m : MuteSt), m.stage = .waiting → (moveMute ov true m).w = (if m.muted = true then 0 else 32) ∧
    (ov m.since = false → (moveMute ov false m).w = m.w) ∧
    (ov m.since = true → (moveMute ov false m).w = if m.muted = true then m.w - 1 else min 32 (m.w + 1))) ∧
  (∀ k : Nat, k ≤ 8 → moveVal (iter stepMove k ⟨0, wOne, 0, 8⟩) = wOne / 8 * k) ∧
  (∀ (x : OutRt) (v : Int), (moveVal x.w = wOne → clearMix x v = moveVal x.code) ∧ (moveVal x.w = 0 → clearMix x v = v)) ∧
  (∀ v : Int, rampW 0 v = 0 ∧ rampW 32 v = v)

/-- The limiter's applied gain never exceeds the required gain of the sample that leaves, nor the release from the frame
before, and by the frame in which any sample of its window leaves, the line it follows has reached that sample's required
gain. -/
def Obligations.LimiterHolds : Prop := ∀ (last release : Int) (window : Nat) (need : Nat → Int), let g := limGain last release window need
    g ≤ need 0 ∧ g ≤ release ∧
    (∀ j : Nat, j ≤ window → g ≤ last + (need j - last) / ((j : Int) + 1)) ∧
    (g = release ∨ ∃ j : Nat, j ≤ window ∧ g = last + (need j - last) / ((j : Int) + 1))

/-- METER_READ reports the meters of its handles and clears them where it asks for that; LATENCY_QUERY reports and changes
nothing; RAMP_DEFAULTS waits for the tick that stores its defaults; the end of a one-shot sweep stops the generator; the
override and GPIO input pins are sampled; a cork that waited too long ramps. -/
def Obligations.MixingEvents : Prop := (∀ (h : Hdr) (p : Bytes) (s : State), ready .meterRead h p s = true →
    let t := during .meterRead h p s
    let l := handlesAt p 4 (u8 p 1)
    4 ≤ p.length → u8 p 0 ≤ 1 → 1 ≤ u8 p 1 → u8 p 1 ≤ 48 → u16 p 2 = 0 → p.length = handleLen 4 (u8 p 1) →
    (∀ x ∈ l, isSrcT (fsOf t) x = true ∨ isSink (fsOf t) x = true) → handlePad p 4 (u8 p 1) = true →
    exec (.meterRead h p) s = .next (answered .meterRead h .ok
      (le 1 (u8 p 1) ++ zeros 3 ++ le 8 t.clk.stamp ++ l.flatMap (meterEntry t))
      (if u8 p 0 = 1 then l.foldl clearMeter t else t))) ∧
  (∀ (h : Hdr) (p : Bytes) (s : State), ready .latencyQuery h p s = true → p.length = 8 → u32 p 4 = 0 →
    let t := during .latencyQuery h p s
    (handleAt p 0 = 0 ∨ isSrc (fsOf t) (handleAt p 0) = true) → isSink (fsOf t) (handleAt p 2) = true →
    let k := handleAt p 2
    let begin := if handleAt p 0 = 0 then none else some (handleAt p 0)
    let g := t.gr.prog.prog
    let a := addTerm 3 128 (edgePaths t begin (pathNodes t begin g) (sinkEdges g k))
    let pad := padOf t k
    let st := sinkTerms t k
    let extra := st.foldl (· + ·) 0 + 128 * (pad : Int)
    let group := t.cfg.graph.groups.find? (fun x => x.members.contains k)
    let mis := match group with
      | some x => t.gr.misaligned.contains x.num
      | none => false
    let analog := a.analog + if isAnalogue k then 1600 else 0
    let v (x : Int) : Bytes := leI 4 (if a.n == 0 then 0 else x)
    exec (.latencyQuery h p) s = .next (answered .latencyQuery h .ok
      (le 2 (min a.n 65535) ++ le 2 (flag 0 a.coop + flag 1 group.isSome + flag 2 mis + flag 3 (a.n == 0))
        ++ v (a.mn + extra) ++ v (a.mx + extra) ++ le 4 pad ++ v (q7Ns t (a.mx + extra) + (analog : Int)) ++ v (analog : Int)
        ++ v (a.terms.getD 0 0) ++ v (a.terms.getD 1 0) ++ v (a.terms.getD 2 0) ++ v (a.terms.getD 3 0)
        ++ v (a.terms.getD 4 0) ++ v (st.getD 0 0) ++ v (128 * (pad : Int)) ++ v (st.getD 1 0) ++ v (st.getD 2 0)
        ++ v (st.getD 3 0)) t)) ∧
  (∀ (h : Hdr) (p : Bytes) (s : State), ready .rampDefaults h p s = true → p.length = 12 → 100 ≤ u32 p 0 →
    u32 p 0 ≤ 10000000 → (u8 p 4 = 1 ∨ u8 p 4 = 2) → zeroAt p 5 3 = true → 1000 ≤ u32 p 8 → u32 p 8 ≤ 100000 →
    let t := during .rampDefaults h p s
    exec (.rampDefaults h p) s = .next (answered .rampDefaults h .ok [] (prepare .rampDefaults h p t)) ∧
    ∀ u : State, landRampDefaults p u =
      withMix { u.cfg.mix with rampUs := u32 p 0, shapeLog := u8 p 4 == 2, corkUs := u32 p 8 } u) ∧
  (∀ (dt : Nat) (g : Fin 4) (s : State), let t := advance dt s
    let c : GenCfg := tget {} t.cfg.mix.gens g
    c.type = 4 → c.rpt = false → c.durMs * fsNow t ≤ 1000 * (tget ({} : Gen) t.mix.gens g).t → exec (.sweepEnd dt g) s =
      .next (withMix { t.cfg.mix with gens := tset {} t.cfg.mix.gens g { c with type := 0 } }
        { t with mix := { t.mix with gens := tset {} t.mix.gens g {} } })) ∧
  (∀ (dt : Nat) (s : State), let t := advance dt s
    let ovr := { t.mix.ovr with arrive := if t.cfg.mix.ovr.pinEnable = true then t.sysCnt else t.mix.ovr.arrive }
    exec (.ovrNLow dt) s = .next { t with pads := { t.pads with ovrN := false }, mix := { t.mix with ovr := ovr } } ∧
    exec (.ovrNHigh dt) s = .next { t with pads := { t.pads with ovrN := true } }) ∧
  (∀ (dt : Nat) (g : Fin 16) (v : Bool) (s : State), ∃ w : BitVec 16,
    exec (.gpioMuteInput dt g v) s = .next { advance dt s with pads := { (advance dt s).pads with gpioIn := w } } ∧
    w.getLsbD g = v ∧ ∀ k : Fin 16, k ≠ g → w.getLsbD k = (advance dt s).pads.gpioIn.getLsbD k) ∧
  (∀ (dt : Nat) (a b : Handle) (s : State), let t := advance dt s
    let late (m : GainObj × MuteSt) : Bool :=
      m.1 == .xpoint a b && (m.2.stage == .waiting && decide (m.2.since + t.cfg.mix.corkUs * 200 ≤ t.sysCnt))
    exec (.corkTimeout dt (.xpoint a b)) s = .next { t with mix := { t.mix with
      mutes := t.mix.mutes.map (fun m => if late m = true then (m.1, { m.2 with stage := .ramping }) else m)
      corkTimeouts := t.mix.corkTimeouts + bit (t.mix.mutes.any late) } })


/-! ### Vintages -/

/-- A commit captures at the next tick, waits for a running one and is dropped behind a waiting one; complete and read back
good, its slot holds the capture and becomes the current one; a bad read-back is repeated once and then is a fault, and at
power loss leaves a slot that is not valid; the status, policy and clear commands do what their rules say. -/
def Obligations.Vintages : Prop := (∀ (h : Hdr) (p : Bytes) (s : State), ready .vintCommit h p s = true → p.length = 4 →
    let t := during .vintCommit h p s
    let label := BitVec.ofNat 32 (u32 p 0)
    (t.vint.pendingReq.isSome = true →
      exec (.vintCommit h p) s = .next (answered .vintCommit h .busy [] (dropCommit t))) ∧
    (t.vint.pendingReq = none → commitRuns t.vint = true → exec (.vintCommit h p) s = .next (unanswered
      (awaitReply .vintCommit h [] { t with vint := { t.vint with pendingReq := some ⟨label, .command⟩ } }))) ∧
    (t.vint.pendingReq = none → commitRuns t.vint = false →
      (commitRefused t = true → exec (.vintCommit h p) s = .next (answered .vintCommit h .noResource [] t)) ∧
      (commitRefused t = false → exec (.vintCommit h p) s = .next (unanswered
        (awaitReply .vintCommit h [] { t with vint := { t.vint with armed := some ⟨label, .command⟩ } }))))) ∧
  (∀ (s : State) (q : CommitReq), s.vint.armed = some q →
    let u := { s with vint := { s.vint with armed := none } }
    (commitRefused u = false → takeCommit s = beginVint (commitTarget s.vint (runningImage s))
      (if s.clk.taiValid = true then s.clk.tickTai.toNat else 0) q.label q.kind u) ∧
    (commitRefused u = true → q.kind = .command → takeCommit s = lateReply .vintCommit .noResource [] u)) ∧
  (∀ (t : Fin 2) (tai : Nat) (label : Word) (kind : CommitKind) (s : State), let c := (beginVint t tai label kind s).vint.running
    c = some ⟨t, commitSeq s.vint (runningImage s), tai, label, kind, s.cfg, s.vint.bulkNow, false⟩ ∧
    (slotOf (beginVint t tai label kind s).vint t).interrupted = true ∧
    slotOf (beginVint t tai label kind s).vint (otherSlot t) = slotOf s.vint (otherSlot t)) ∧
  (∀ (dt : Nat) (s : State), let t := advance dt s
    commitRuns t.vint = false → exec (.pendingCommitStart dt) s =
      .next { t with vint := { t.vint with armed := t.vint.pendingReq, pendingReq := none } }) ∧
  (∀ (dt : Nat) (s : State), let t := advance dt s
    let due := t.vint.autoSince + t.cfg.vint.autoCommitS * secCounts
    let u := { t with vint := { t.vint with autoSince := due } }
    t.cfg.vint.autoCommitS ≠ 0 → modeUp t.life.mode = true → t.pwr.loss = none → due ≤ t.sysCnt →
    (t.vint.lastContent = some t.cfg → exec (.autoCommit dt) s = .next u) ∧
    (t.vint.lastContent ≠ some t.cfg →
      (t.vint.pendingReq.isSome = true → exec (.autoCommit dt) s = .next (dropCommit u)) ∧
      (t.vint.pendingReq = none → commitRuns t.vint = true → exec (.autoCommit dt) s =
        .next { u with vint := { u.vint with pendingReq := some ⟨0, .periodic⟩ } }) ∧
      (t.vint.pendingReq = none → commitRuns t.vint = false → exec (.autoCommit dt) s =
        .next { u with vint := { u.vint with armed := some ⟨0, .periodic⟩ } }))) ∧
  (∀ (dt us : Nat) (c : Commit) (s : State), let t := advance dt s
    t.vint.running = some c → bulkComplete t.vint c.refs = true →
    (exec (.vintCommitComplete dt .good us) s = .next
      (if c.kind = .command then lateReply .vintCommit .ok (le 1 c.target ++ zeros 3 ++ le 4 us ++ le 8 c.seq) (finishVint c t)
       else finishVint c t)) ∧
    (slotOf (finishVint c t).vint c.target).content = c.content ∧ (finishVint c t).vint.current = some c.target ∧
    slotOf (finishVint c t).vint (otherSlot c.target) = slotOf t.vint (otherSlot c.target) ∧
    (∀ rb, rb ≠ .good → c.kind ≠ .powerLoss → c.repeated = false → exec (.vintCommitComplete dt rb us) s =
      .next { t with vint := { t.vint with running := some { c with repeated := true } } }) ∧
    (∀ rb, rb ≠ .good → c.kind = .powerLoss → exec (.vintCommitComplete dt rb us) s = .next (spoilSlot rb c t) ∧
      slotValid (spoilSlot rb c t).vint (runningImage t) (slotOf (spoilSlot rb c t).vint c.target) = false) ∧
    (∀ rb, rb ≠ .good → c.kind ≠ .powerLoss → c.repeated = true →
      let u := raise .vintCommitFail 0 0 (BitVec.ofNat 32 (c.target.val + 1536 + 65536 * readBackCode rb))
        { t with vint := poolTidy { t.vint with running := none } }
      exec (.vintCommitComplete dt rb us) s =
        .next (if c.kind = .command then lateReply .vintCommit .internal [] u else u))) ∧
  (∀ (dt : Nat) (id : BulkId) (s : State), exec (.bulkRecordStored dt id) s = .next
    { advance dt s with vint := { (advance dt s).vint with pool := storeFirst id (advance dt s).vint.pool } }) ∧
  (∀ (h : Hdr) (p : Bytes) (s : State), ready .vintStatus h p s = true → p.length = 0 →
    let t := during .vintStatus h p s
    let v := t.vint
    exec (.vintStatus h p) s = .next (answered .vintStatus h .ok
      (le 1 (if commitRuns v then 1 + bit v.pendingReq.isSome else bit v.pendingReq.isSome) ++ le 1 (slotCode t.life.slot)
        ++ le 1 (commitTarget v (runningImage t)) ++ le 1 (flag 0 v.safeA.valid + flag 1 v.safeB.valid)
        ++ le 4 v.overruns ++ le 4 (freeDiv 53 (poolLines - poolUsed v.pool : Nat) 16).toNat
        ++ le 4 (min 131008 (Config.stateSize t.sysCnt).toNat) ++ slotEntry t v.slotA ++ slotEntry t v.slotB) t)) ∧
  (∀ (h : Hdr) (p : Bytes) (s : State), ready .vintPolicy h p s = true → p.length = 12 → u8 p 0 ≤ 1 → u8 p 1 ≤ 1 →
    u16 p 2 = 0 → 10000 ≤ u32 p 4 → u32 p 4 ≤ 10000000 → (u32 p 8 = 0 ∨ 10 ≤ u32 p 8 ∧ u32 p 8 ≤ 86400) → h.timed = none →
    let t := during .vintPolicy h p s
    exec (.vintPolicy h p) s = .next (answered .vintPolicy h .ok [] (prepare .vintPolicy h p t)) ∧
    ∀ u : State, (landVintPolicy p u).cfg = { u.cfg with vint := ⟨u8 p 0 == 1, u8 p 1 == 1, u32 p 4, u32 p 8⟩ } ∧
      (landVintPolicy p u).vint.autoSince = if u32 p 8 = u.cfg.vint.autoCommitS then u.vint.autoSince else u.sysCnt) ∧
  (∀ (h : Hdr) (p : Bytes) (s : State), ready .vintClear h p s = true → p.length = 4 →
    let t := during .vintClear h p s
    (u32 p 0 ≠ 0x56494E54 → exec (.vintClear h p) s = .next (answered .vintClear h .badParam [] t)) ∧
    (u32 p 0 = 0x56494E54 → commitRuns t.vint = true ∨ t.vint.pendingReq.isSome = true →
      exec (.vintClear h p) s = .next (answered .vintClear h .busy [] t)) ∧
    (u32 p 0 = 0x56494E54 → commitRuns t.vint = false → t.vint.pendingReq = none →
      let v := { t.vint with slotA := {}, slotB := {}, current := none }
      exec (.vintClear h p) s = .next (answered .vintClear h .ok []
        { t with vint := poolTidy { v with pool := poolAgain v } })))


/-! ### Registers -/

/-- REG_READ answers its words in order and no other register changes; a word where no register is reads 0; of a 64-bit
register the read of the low word keeps the high word for the read that follows, and a high word without its low word is
stale. REG_WRITE writes its words in order or none of them, all at one tick: where the first word is refused nothing changes,
and otherwise they wait for their tick with the write shadow; a write that is no longer permitted there changes nothing, and
one that finds the expert session closed reverts with it. -/
def Obligations.Registers : Prop :=
  ((∀ (h : Hdr) (p : Bytes) (s : State), ready .regRead h p s = true → p.length = 8 → u32 p 0 % 4 = 0 → 1 ≤ u16 p 4 →
    u16 p 4 ≤ 256 → u16 p 6 = 0 →
    let r := readWords h.rq (u16 p 4) (u32 p 0) (during .regRead h p s)
    exec (.regRead h p) s = .next (answered .regRead h (if r.2.1 = true then .shadowStale else .ok) r.1 r.2.2)) ∧
  (∀ (rq : Requester) (n a : Nat) (s : State), ∃ sh : List (Requester × ReadShadow),
    (readWords rq n a s).2.2 = { s with cmd := { s.cmd with readShadow := sh } } ∧ (readWords rq n a s).1.length = 4 * n) ∧
  (∀ (rq : Requester) (a : Nat) (s : State),
    (regAt s a = .absent → readWord rq a s = (0, false, s)) ∧
    (∀ v, regAt s a = .word v → readWord rq a s = (v % 4294967296, false, s)) ∧
    (∀ v w, regAt s a = .low v → a < 4294967296 → let r := readWord rq a s
      r.1 = v % 4294967296 ∧ r.2.1 = false ∧ (regAt r.2.2 (a + 4) = .high w →
        (readWord rq (a + 4) r.2.2).1 = v / 4294967296 % 4294967296 ∧ (readWord rq (a + 4) r.2.2).2.1 = false ∧
        (regAt (readWord rq (a + 4) r.2.2).2.2 (a + 4) = .high w →
          (readWord rq (a + 4) (readWord rq (a + 4) r.2.2).2.2).2.1 = true))))) ∧
  ((∀ (h : Hdr) (p : Bytes) (s : State), ready .regWrite h p s = true → p.length = 8 + 4 * u16 p 4 → u32 p 0 % 4 = 0 →
    1 ≤ u16 p 4 → u16 p 4 ≤ 256 → u16 p 6 = 0 →
    let t := during .regWrite h p s
    (∀ i < u16 p 4, regReadOnly (u32 p 0 + 4 * i) t = false) →
    (∀ u, writeWords h.rq (u32 p 0) (regWords p) t = .ok u → exec (.regWrite h p) s = .next (answered .regWrite h .ok []
      (prepare .regWrite h (shadowBytes (writeShadowOf t h.rq) ++ p) (setWriteShadow h.rq (writeShadowOf u h.rq) t)))) ∧
    (∀ st, writeWords h.rq (u32 p 0) (regWords p) t = .error st →
      exec (.regWrite h p) s = .next (answered .regWrite h st [] t))) ∧
  (∀ (h : Hdr) (p : Bytes) (x : WriteShadow) (u : State), let w := setWriteShadow h.rq x u
    (∀ z, writeWords h.rq (u32 p 0) (regWords p) w = .ok z →
      let z1 := { z with cmd := { z.cmd with writeShadow := u.cmd.writeShadow } }
      (z.cmd.expert.isSome = true → landRegWrite h (shadowBytes x ++ p) u = z1) ∧
      (z.cmd.expert = none → landRegWrite h (shadowBytes x ++ p) u = revertTests z1)) ∧
    (∀ st, writeWords h.rq (u32 p 0) (regWords p) w = .error st → landRegWrite h (shadowBytes x ++ p) u = u)))

/-- The registers whose write is a command of its own, each in the mode and with the values its rule permits: the write is
answered and lands at a tick, where it stores the value and does what the register is for, and nothing else. -/
def Obligations.RegistersNamed : Prop := ∀ (h : Hdr) (v : Word) (s : State),
  writesAt (.govTest h v) h 0x208 v
    (fun t => t.life.mode = .hold ∧ v.toNat / 2 % 32768 = 0 ∧
      (v.toNat % 2 = 1 → 20 ≤ v.toNat / 65536 ∧ v.toNat / 65536 ≤ 110))
    (fun t => { t with pwr := { t.pwr with govTest := v } }) s ∧
  (∀ n : Fin 34, writesAt (.pathForce h n v) h (0x200020 + 64 * n.val) v
    (fun t => v.toNat ≤ 3 ∧ (2 ≤ v.toNat → clockStopped t = true))
    (fun t => setChanIn n { chanIn t n with pathForce := v.toNat } t) s) ∧
  (∀ n : Fin 8, writesAt (.clampTest h n v) h (0x418 + 32 * n.val) v
    (fun t => t.life.mode = .hold ∧ v.toNat ≤ 1)
    (fun t => holdRefresh 64 n (setHoldRt n { holdRt t n with clampTest := v.toNat == 1 } t)) s) ∧
  (∀ n : Fin 2, writesAt (.trackFreeze h n v) h (0x634 + 64 * n.val) v (fun _ => v.toNat ≤ 1)
    (fun t => setHs n { hsRt t n with trackFreeze := v.toNat == 1, vIdle := some (vIdleNow t n) } t) s) ∧
  (∀ n : Fin 2, writesAt (.forceType h n v) h (0x638 + 64 * n.val) v
    (fun t => clockStopped t = true ∧ v.toNat ≤ 6) (forceHs n v.toNat) s) ∧
  (∀ n : Fin 4, writesAt (.loopback h n v) h (0x900020 + 64 * n.val) v
    (fun t => t.life.mode = .hold ∧ portRuns t n = false ∧ v.toNat ≤ 1)
    (fun t => setPort n { portRt t n with loopback := v.toNat == 1 } t) s) ∧
  (∀ l : LinkPort, writesAt (.phyLoop h l v) h (0xA00028 + 64 * linkIdx l) v
    (fun t => t.life.mode = .hold ∧ netRuns t = false ∧ v.toNat ≤ 1)
    (fun t => setLink l { linkOf t l with phyLoop := v.toNat == 1 } t) s) ∧
  (∀ k n : Fin 4, writesAt (.breakpointSet h k n v) h (0x500028 + 0x100000 * k.val + 4 * n.val) v
    (fun t => clockStopped t = true ∧ v.toNat / 16384 % 131072 = 0)
    (fun t => setCore k { coreOf t k with breaks := lset (coreOf t k).breaks n v } t) s) ∧
  (∀ (k : Fin 4) (i : Fin 16) (off : BitVec 20), off.toNat = 0x100 + 4 * i.val →
    writesAt (.coopRegisterWrite h k off v) h (0x500000 + 0x100000 * k.val + off.toNat) v
      (fun t => clockStopped t = true ∧ (coreOf t k).state = .halted)
      (fun t => setCore k { coreOf t k with regs := putD i v (coreOf t k).regs } t) s) ∧
  (∀ (k : Fin 4) (w : Fin 32768) (off : BitVec 20), off.toNat = 0x20000 + 4 * w.val →
    writesAt (.coopRegisterWrite h k off v) h (0x500000 + 0x100000 * k.val + off.toNat) v
      (fun t => clockStopped t = true ∧ (coreOf t k).state = .halted)
      (fun t => setCore k { coreOf t k with xmem := tset 0 (coreOf t k).xmem w v } t) s) ∧
  (∀ (k : Fin 4) (w : Fin 32768) (off : BitVec 20), off.toNat = 0x40000 + 4 * w.val →
    writesAt (.coopRegisterWrite h k off v) h (0x500000 + 0x100000 * k.val + off.toNat) v
      (fun t => clockStopped t = true ∧ (coreOf t k).state = .halted)
      (fun t => setCore k { coreOf t k with ymem := tset 0 (coreOf t k).ymem w v } t) s) ∧
  (∀ (k : Fin 4) (w : Fin 16384) (off : BitVec 20), off.toNat = 0x60000 + 4 * w.val →
    writesAt (.coopRegisterWrite h k off v) h (0x500000 + 0x100000 * k.val + off.toNat) v
      (fun t => clockStopped t = true ∧ t.life.state ≠ .deployed ∧ (coreOf t k).state = .halted)
      (fun t => setCore k { coreOf t k with prog := tset 0 (coreOf t k).prog w v } t) s) ∧
  (∀ (k : Fin 4) (off : BitVec 20), 0x100 ≤ off.toNat → off.toNat < 0x1F0 → off.toNat ≠ 0x1E0 → off.toNat ≠ 0x1E4 →
    writesAt (.coopRegisterWrite h k off v) h (0x500000 + 0x100000 * k.val + off.toNat) v
      (fun t => clockStopped t = true ∧ (coreOf t k).state = .halted ∧
        (filePut (off.toNat - 0x100) v.toNat (coreOf t k).regs).isSome = true ∧ coreFile (coreOf t k) (off.toNat - 0x100) ≠ .absent)
      (fun t => setCore k { coreOf t k with
        regs := (filePut (off.toNat - 0x100) v.toNat (coreOf t k).regs).getD (coreOf t k).regs } t) s) ∧
  (∀ k : Fin 4, let a := 0x5001E0 + 0x100000 * k.val
    writesAt (.coopRegisterWrite h k 0x1E0 v) h a v (fun t => clockStopped t = true ∧ (coreOf t k).state = .halted)
      (fun t => setWriteShadow h.rq ⟨BitVec.ofNat 32 a, v, true⟩ t) s ∧
    writesAt (.coopRegisterWrite h k 0x1E4 v) h (a + 4) v
      (fun t => clockStopped t = true ∧ (coreOf t k).state = .halted ∧ (writeShadowOf t h.rq).valid = true ∧
        (writeShadowOf t h.rq).addr.toNat = a)
      (fun t => setCore k { coreOf t k with regs := { (coreOf t k).regs with tb := v ++ (writeShadowOf t h.rq).low } }
        (setWriteShadow h.rq {} t)) s) ∧
  (∀ c : FaultCode, (faultNum c).toNat = v.toNat → writesAt (.injectCode h v) h 0xC00050 v (fun t => t.life.mode = .hold)
    (fun t => let u := newRecord c t.flt.injectObj 0 0 true t
      { u with flt := { u.flt with injectCode := BitVec.ofNat 16 v.toNat } }) s)


/-! ### The graph -/

/-- A graph is staged from BEGIN through EDGES and GROUP to END and aborted by GRAPH_ABORT; GRAPH_QUERY reports it and changes
nothing. -/
def Obligations.GraphStaged : Prop := (∀ (h : Hdr) (p : Bytes) (s : State), ready .graphStage h p s = true →
    let t := during .graphStage h p s
    let g := t.gr.stage
    stageOther t h.rq = false → zeroAt p 1 3 = true ∨ u8 p 0 = 0 →
    (u8 p 0 = 0 → p.length = 24 → u8 p 1 ≤ 1 → u8 p 2 ≤ 32 → u8 p 3 = 0 → u32 p 4 ≤ 65536 → 500 ≤ u32 p 8 →
      u32 p 8 ≤ 1000000 → u32 p 20 = 0 →
      exec (.graphStage h p) s = .next (answered .graphStage h .ok [] { t with gr := { t.gr with stage :=
        { state := .loading, owner := h.rq, noDip := u8 p 1 == 1, groups := u8 p 2, edges := u32 p 4, rackUs := u32 p 8
          graphId := BitVec.ofNat 32 (u32 p 12), crc := BitVec.ofNat 32 (u32 p 16) } } })) ∧
    (u8 p 0 = 1 → 12 ≤ p.length → 1 ≤ u16 p 8 → u16 p 8 ≤ (if h.rq = .spi then 340 else 115) →
      p.length = 12 + 12 * u16 p 8 → u16 p 10 = 0 → g.state = .loading → u32 p 4 = g.recv.length →
      g.recv.length + u16 p 8 ≤ g.edges →
      exec (.graphStage h p) s = .next (answered .graphStage h .ok [] { t with gr := { t.gr with stage := { g with
        recv := g.recv ++ (List.range (u16 p 8)).map (fun i => edgeAt p (12 + 12 * i))
        raw := g.raw ++ [p.drop 12] } } })) ∧
    (u8 p 0 = 2 → 12 ≤ p.length → u8 p 5 ≤ 1 → p.length = handleLen 12 (u16 p 6) →
      zeroAt p (12 + 2 * u16 p 6) (handleLen 12 (u16 p 6) - 12 - 2 * u16 p 6) = true → g.state = .loading →
      let x : EqGroup := { num := u8 p 4, follow := u8 p 5 == 1, target := u32 p 8, members := handlesAt p 12 (u16 p 6) }
      exec (.graphStage h p) s = .next (answered .graphStage h .ok [] { t with gr := { t.gr with stage := { g with
        recvGroups := g.recvGroups ++ [(x, (p.drop 4).take (8 + 2 * u16 p 6))] } } })) ∧
    (∀ st pay u, u8 p 0 = 3 → p.length = 4 → g.state = .loading → stageEnd t = .reply st pay u →
      exec (.graphStage h p) s = .next (answered .graphStage h st pay u))) ∧
  (∀ (h : Hdr) (p : Bytes) (s : State), ready .graphAbort h p s = true → p.length = 0 →
    exec (.graphAbort h p) s = .next (answered .graphAbort h .ok [] (emptyStage (during .graphAbort h p s)))) ∧
  (∀ (h : Hdr) (p : Bytes) (s : State), ready .graphQuery h p s = true → p.length = 8 → u8 p 1 ≤ 1 → u16 p 2 = 0 →
    let t := during .graphQuery h p s
    (u8 p 1 = 1 → t.gr.stage.state = .staged) →
    (u8 p 0 = 0 → exec (.graphQuery h p) s = .next (answered .graphQuery h .ok (graphSummary t) t)) ∧
    (u8 p 0 = 1 → u8 p 1 = 0 →
      let l := ((t.cfg.graph.edges.drop (u32 p 4)).take 112).map (fun e => { e with gain := edgeGainNow t e })
      exec (.graphQuery h p) s = .next (answered .graphQuery h .ok
        (le 2 l.length ++ zeros 2 ++ le 4 t.cfg.graph.edges.length ++ l.flatMap edgeBytes) t)) ∧
    (u8 p 0 = 1 → u8 p 1 = 1 → let l := (t.gr.stage.recv.drop (u32 p 4)).take 112
      exec (.graphQuery h p) s = .next (answered .graphQuery h .ok
        (le 2 l.length ++ zeros 2 ++ le 4 t.gr.stage.recv.length ++ l.flatMap edgeBytes) t)))

/-- GRAPH_COMMIT and ROUTE_SET that are not timed trigger a commit: it is armed for the next tick, waits behind a running one,
or is refused as BUSY and counted; the reply comes when the commit ends. Racking in ends after its frames, a dip switches
banks at half of them, and a waiting trigger is armed, ahead of what waits for the tick, when the commit before it has ended,
or refused where it no longer compiles. -/
def Obligations.GraphCommitted : Prop := (∀ (h : Hdr) (p : Bytes) (s : State), ready .graphCommit h p s = true → h.timed = none →
    let t := during .graphCommit h p s
    let k := (captureStage h t).2.2
    let armed (k : Captured) (u : State) : State := { u with
      gr := { u.gr with armed := some k }, cmd := { u.cmd with landing := u.cmd.landing ++ [⟨k.op, k.hdr, [], false, k.arr, false⟩] } }
    (checkGraphCommit h p t ≠ .ok →
      exec (.graphCommit h p) s = .next (answered .graphCommit h (checkGraphCommit h p t) [] (discardRefused h p t))) ∧
    (checkGraphCommit h p t = .ok →
      (t.gr.rack = .idle → t.gr.armed = none → exec (.graphCommit h p) s = .next (unanswered (emptyStage (armed k t)))) ∧
      (t.gr.rack ≠ .idle ∨ t.gr.armed.isSome = true → t.gr.pendingTrig = none → exec (.graphCommit h p) s =
        .next (unanswered (emptyStage { t with gr := { t.gr with pendingTrig := some k } }))) ∧
      (t.gr.rack ≠ .idle ∨ t.gr.armed.isSome = true → t.gr.pendingTrig.isSome = true → exec (.graphCommit h p) s = .next
        (answered .graphCommit h .busy [] { t with gr := { t.gr with overruns := sat32 (t.gr.overruns + 1) } })))) ∧
  (∀ (h : Hdr) (p : Bytes) (s : State), ready .routeSet h p s = true → h.timed = none →
    let t := during .routeSet h p s
    let k := (routeCapture h p t).2.2
    (checkRouteSet h p t ≠ .ok →
      exec (.routeSet h p) s = .next (answered .routeSet h (checkRouteSet h p t) []
        (countOverrun (checkRouteSet h p t) (noteRoute h p t)))) ∧
    (checkRouteSet h p t = .ok → t.gr.rack ≠ .idle →
      exec (.routeSet h p) s = .next (unanswered { t with gr := { t.gr with pendingTrig := some k } })) ∧
    (checkRouteSet h p t = .ok → t.gr.rack = .idle → t.gr.armed = none →
      exec (.routeSet h p) s = .next (unanswered { t with
        gr := { t.gr with armed := some k }, cmd := { t.cmd with landing := t.cmd.landing ++ [⟨k.op, k.hdr, [], false, k.arr, false⟩] } }))) ∧
  (∀ (dt : Nat) (s : State), let t := advance dt s
    let g := t.gr
    (g.rack = .rack → g.rackN ≤ g.rackK → exec (.rackComplete dt) s = .next (commitReply g.commitStatus { t with gr := { g with
      rack := .idle, oldProg := {}, newGraph := {}, frozen := [], switched := false, rackCount := g.rackCount + 1 } })) ∧
    (g.rack = .dip → g.rackN ≤ g.rackK → g.switched = true →
      exec (.rackComplete dt) s = .next (commitReply g.commitStatus { t with gr := { g with
        rack := .idle, oldProg := {}, newGraph := {}, frozen := [], switched := false, dipCount := g.dipCount + 1 } })) ∧
    (g.rack = .dip → g.switched = false → g.rackN / 2 ≤ g.rackK → exec (.dipBankSwitch dt) s =
      .next (adoptGraph g.newGraph g.oldProg { t with gr := { g with switched := true } })) ∧
    (∀ k, g.pendingTrig = some k → g.rack = .idle → g.armed = none →
      let u := { t with gr := { g with pendingTrig := none } }
      let c := recapture k u
      (c.1 = .ok → exec (.pendingGraphTrigger dt) s = .next { u with
        gr := { u.gr with armed := some c.2.2 }
        cmd := { u.cmd with landing := ⟨k.op, k.hdr, [], false, k.arr, false⟩ :: u.cmd.landing } }) ∧
      (c.1 ≠ .ok → exec (.pendingGraphTrigger dt) s =
        .next (reply (opCode k.op) k.hdr c.1 [] (noteRefusal c.1 c.2.1 u))))) ∧
  (∀ (g : GraphCfg) (c : Compiled) (s : State),
    (adoptGraph g c s).gr.prog = c ∧ (adoptGraph g c s).gr.generation = s.gr.generation + 1 ∧
    (adoptGraph g c s).gr.bank = !s.gr.bank ∧ (adoptGraph g c s).cfg.graph.groups = g.groups ∧
    (adoptGraph g c s).cfg.graph.edges.map (fun e => (e.src, e.sink)) = g.edges.map (fun e => (e.src, e.sink)))


/-! ### Inputs, phantom power, Tasters -/

/-- Phantom: the ramp's settling ends; an external supply is noted while the own is off; an overcurrent folds back and is a
fault, which a retry at 10 mA or less, 2.1 s after the one before, releases. An over-range input is counted and held.
Matching: a suspect goes first, a correction at its limit for 1 s is a fault, a return ends at the factory values. -/
def Obligations.InputEvents : Prop := (∀ (dt : Nat) (ch : Fin 32) (s : State), let t := advance dt s
    let x := phOf t ch
    (x.stage = .settling → x.endAt + 50 * msCounts ≤ t.sysCnt →
      exec (.phantomRampEnd dt ch) s = .next (setPh ch { x with stage := .idle } t)) ∧
    (∀ above, x.up = false → x.pos = 0 →
      exec (.extPhantomDetect dt ch above) s = .next (setPh ch { x with ext := above } t)) ∧
    (x.fold = false → x.up = true → x.pos ≠ 0 → exec (.phantomOvercurrent dt ch) s =
      .next (raise .phantomOvercurrent (ainHandle ch) 0 0 (setPh ch { x with fold := true, retries := 0, tryAt := t.sysCnt } t))) ∧
    (∀ i, x.fold = true → x.retries < 5 → x.tryAt + 2100 * msCounts ≤ t.sysCnt →
      (i ≤ 100 → exec (.phantomRetry dt ch i) s =
        .next (release .phantomOvercurrent (ainHandle ch) 0 (setPh ch { x with fold := false, retries := 0 } t))) ∧
      (100 < i → exec (.phantomRetry dt ch i) s = .next (setPh ch { x with retries := x.retries + 1, tryAt := t.sysCnt } t)))) ∧
  (∀ (dt : Nat) (ch : Fin 32) (s : State), let t := advance dt s
    let k := overEntry t ch
    exec (.inputOver dt ch) s = .next (setChanIn k
      { chanIn t k with overTrip := some t.sysCnt, overSticky := true, overCount := (chanIn t k).overCount + 1 } t)) ∧
  (∀ (dt : Nat) (ch : Fin 32) (r : Int) (s : State), let t := advance dt s
    let lim := t.cfg.input.taster.residualLimit
    let x := { chanIn t ch with residual := r }
    (lim < r → x.suspect = false →
      let u := setChanIn ch { x with suspect := true } t
      exec (.matchSuspect dt ch r) s = .next { u with inp := { u.inp with
        goesFirst := u.inp.goesFirst ||| chBit ch, visited := u.inp.visited &&& ~~~(chBit ch) } }) ∧
    (r < lim → exec (.matchSuspect dt ch r) s = .next (setChanIn ch { x with suspect := false } t)) ∧
    (r = lim ∨ (lim < r ∧ x.suspect = true) → exec (.matchSuspect dt ch r) s = .next (setChanIn ch x t))) ∧
  (∀ (dt : Nat) (ch : Fin 32) (s : State), let t := advance dt s
    let x := chanIn t ch
    let u := detect .convImplausible (ainHandle ch) 0 0xFF05 (setChanIn ch
      { x with matchLimit := true, verdict := 6, verdictBy := 0xFF, lastVisit := t.sysCnt } t)
    (x.matchLimit = false → x.returning = false → matchPinned x ch = true → fsNow t ≤ x.pinned →
      u.cfg.input.taster.autoSubst = false →
      exec (.matchLimit dt ch) s = .next (failAction ch u)) ∧
    (x.returning = true → x.gain = 0 → x.delay = 0 → exec (.matchReturnComplete dt ch) s = .next (setChanIn ch { x with
      returning := false, matchLimit := false, pinned := 0
      winFrames := if x.matchLimit = true then 0 else x.winFrames
      limitClearAt := if x.matchLimit = true then t.sysCnt else x.limitClearAt } t)))

/-- The Tasters: a visit begins at the next channel, or at a new round; its settling ends in the window, whose verdict is
noted, confirmed in a second window, or taken from a pair; a substitution that has faded in is recorded; the commands
configure, run, substitute, force and report. -/
def Obligations.TasterCommands : Prop := (∀ (dt : Nat) (i : Fin 2) (s : State), let t := advance dt s
    tasterFree (tasterOf t i) = true → tasterRested t (tasterOf t i) = true → nextVisit t i ≠ .newRound →
    exec (.tasterVisitStart dt i) s = .next (beginVisit i (nextVisit t i) t)) ∧
  (∀ (dt : Nat) (i : Fin 2) (s : State), let t := advance dt s
    tasterFree (tasterOf t i) = true → tasterRested t (tasterOf t i) = true → nextVisit t i = .newRound → nextVisit (endRound t) i ≠ .newRound →
    exec (.tasterVisitStart dt i) s = .next (beginVisit i (nextVisit (endRound t) i) (endRound t))) ∧
  (∀ (dt : Nat) (i : Fin 2) (s : State), let t := advance dt s
    let x := tasterOf t i
    let u := settleEnd false (32 + i) t
    x.phase = .settling → (chainOf t false (32 + i)).left ≤ 1 →
    (x.state ≠ .parked → exec (.tasterSettleEnd dt i) s = .next (setTaster i { x with phase := .window, winLeft := windowLen t } u)) ∧
    (∀ c, x.state = .parked → x.channel = some c → exec (.tasterSettleEnd dt i) s = .next (parkSubst i c u))) ∧
  (∀ (dt : Nat) (i : Fin 2) (c : Fin 32) (m o b : TasterMeas) (s : State), let t := advance dt s
    let x := tasterOf t i
    let v := verdictOf t.cfg.input.taster m
    x.channel = some c → x.winLeft = 0 →
    (x.phase = .window → x.pair = true → exec (.tasterWindowEnd dt i m o b) s =
      .next (if x.state = .roving then endRound (pairVerdict i c m o b t) else pairVerdict i c m o b t)) ∧
    (x.phase = .window → x.pair = false →
      (v = 2 → exec (.tasterWindowEnd dt i m o b) s = .next (visitOver i (noteVerdict i c 2 m t))) ∧
      (v = 1 → exec (.tasterWindowEnd dt i m o b) s = .next (plainVerdict i c 1 m t)) ∧
      (v ≠ 1 → v ≠ 2 → exec (.tasterWindowEnd dt i m o b) s = .next (setTaster i { x with phase := .second, winLeft := windowLen t } t))) ∧
    (x.phase = .second →
      (3 ≤ v → exec (.tasterWindowEnd dt i m o b) s = .next (confirmFail i c v m t)) ∧
      (v < 3 → exec (.tasterWindowEnd dt i m o b) s = .next (plainVerdict i c v m t)))) ∧
  (∀ (dt : Nat) (c : Fin 32) (i : Fin 2) (s : State), let t := advance dt s
    t.inp.substStage = .fading → t.inp.substCh = some c → t.inp.substBy = some i → t.inp.substLen ≤ t.inp.substPos →
    exec (.tasterSubstituted dt) s = .next (postEvent 6 (raise .tasterSubstituted (ainHandle c) 0
      (BitVec.ofNat 32 (256 * i.val)) { t with inp := { t.inp with substStage := .held, substPos := t.inp.substLen } }))) ∧
  (∀ (h : Hdr) (p : Bytes) (s : State), ready .tasterSubstitute h p s = true → p.length = 4 → u16 p 2 = 0 →
    u8 p 1 ≤ 31 →
    let t := during .tasterSubstitute h p s
    let i := t.inp
    let c : Fin 32 := Fin.ofNat 32 (u8 p 1)
    let n := max 1 (usFrames t t.cfg.input.taster.rackUs)
    (u8 p 0 = 0 → i.substStage = .held → i.substCh = some c → exec (.tasterSubstitute h p) s =
      .next (answered .tasterSubstitute h .ok [] { t with
        cfg := { t.cfg with input := { t.cfg.input with subst := none } }
        inp := { i with substStage := .releasing, substPos := n, substLen := n } })) ∧
    (u8 p 0 = 1 → ainWired t c = true → i.substStage = .none → tasterRoves i.t0 = true → tasterRoves i.t1 = true →
      i.t0.phase = .none → (i.t1.phase = .none ∨ i.t1.channel ≠ some c) → exec (.tasterSubstitute h p) s =
      .next (answered .tasterSubstitute h .okDeferred [] (goSubst 0 c t)))) ∧
  (∀ (h : Hdr) (p : Bytes) (s : State), ready .tasterConfig h p s = true → p.length = 28 →
    let t := during .tasterConfig h p s
    let c := tasterCfgOf p
    u8 p 0 ≤ 1 → u8 p 1 ≤ 1 → u8 p 2 ≤ 1 → u8 p 3 ≤ 1 → 10 ≤ c.windowMs → c.windowMs ≤ 1000 → 10 ≤ c.levelTol →
    c.levelTol ≤ 1000 → 1 ≤ c.corrPpm → c.corrPpm ≤ 10000 → 500 ≤ c.noiseTol → c.noiseTol ≤ 20000 → 500 ≤ c.rackUs →
    c.rackUs ≤ 1000000 → -120000 ≤ c.residualLimit → c.residualLimit ≤ -40000 → c.pauseMs ≤ 60000 → u16 p 26 = 0 →
    exec (.tasterConfig h p) s = .next (answered .tasterConfig h .ok [] { t with cmd := { t.cmd with
      landing := t.cmd.landing ++ [⟨.tasterConfig, h, p, false, arrivalOf t, false⟩] } })) ∧
  (∀ (h : Hdr) (p : Bytes) (arr : Nat) (s : State), landEffect ⟨.tasterConfig, h, p, false, arr, false⟩ s =
    restTaster (restTaster { s with cfg := { s.cfg with input := { s.cfg.input with taster := tasterCfgOf p } } } 0) 1) ∧
  (∀ (h : Hdr) (p : Bytes) (s : State), ready .tasterRun h p s = true → p.length = 4 → u32 p 0 ≠ 0 →
    let t := during .tasterRun h p s
    let m := BitVec.ofNat 32 (u32 p 0) &&& t.cfg.board.ainWired
    (t.inp.seqRunning = none → exec (.tasterRun h p) s = .next (answered .tasterRun h .ok []
      (seqEnd { t with inp := { t.inp with seqRunning := some m, seqPair := false } }))) ∧
    (t.inp.seqRunning.isSome = true → t.inp.seqPending = none → exec (.tasterRun h p) s =
      .next (answered .tasterRun h .okDeferred [] { t with inp := { t.inp with seqPending := some (m, false) } })) ∧
    (t.inp.seqRunning.isSome = true → t.inp.seqPending.isSome = true → exec (.tasterRun h p) s =
      .next (answered .tasterRun h .busy []
        { t with inp := { t.inp with seqOverruns := sat32 (t.inp.seqOverruns + 1) } }))) ∧
  (∀ (h : Hdr) (p : Bytes) (s : State), ready .inputStatus h p s = true → p.length = 4 → zeroAt p 1 3 = true →
    let t := during .inputStatus h p s
    let v := latchView t
    let i := v.inp
    let sub := if i.substStage = .fading ∨ i.substStage = .held ∨ i.substStage = .releasing then i.substCh else none
    let seq := match i.seqRunning, i.seqPending with
      | none, _ => 0
      | some _, none => 1
      | some _, some _ => 2
    let pay := le 1 (tstCode i.t0.state) ++ le 1 (chByte i.t0.channel) ++ le 1 (tstCode i.t1.state)
        ++ le 1 (chByte i.t1.channel) ++ le 1 (chByte sub) ++ le 1 seq ++ zeros 2 ++ le 4 i.seqOverruns
        ++ le 4 (sat32 i.roundMs) ++ le 4 (sat32 i.rounds) ++ zeros 4 ++ le 8 v.clk.stamp
        ++ (List.range 32).flatMap (inEntry v)
    (u8 p 0 = 0 → exec (.inputStatus h p) s = .next (answered .inputStatus h .ok pay (clearEvent 6 t))) ∧
    (u8 p 0 = 1 → exec (.inputStatus h p) s = .next (answered .inputStatus h .ok pay (clearEvent 6
      { t with
        inp := { t.inp with ch := clearOver i.ch t.inp.ch }
        latch := { t.latch with inp := { t.latch.inp with ch := clearOver i.ch t.latch.inp.ch } } })))) ∧
  (∀ (h : Hdr) (p : Bytes) (s : State), ready .inputExpert h p s = true → p.length = 4 → u8 p 3 = 0 →
    let t := during .inputExpert h p s
    let c := u8 p 2
    (u8 p 0 = 0 → exec (.inputExpert h p) s = .next (answered .inputExpert h .ok [] (releaseInputs t))) ∧
    (∀ i : Fin 2, u8 p 0 = 1 → u8 p 1 = i → c ≤ 31 → (tasterOf t i).state ≠ .parked → (tasterOf t i).state ≠ .withdrawn →
      t.inp.substStage ≠ .pending → tasterRoves (tasterOf t (otherT i)) = true →
      exec (.inputExpert h p) s = .next (answered .inputExpert h .ok [] (forceTaster i c t))) ∧
    (u8 p 0 = 2 → c ≤ 31 → exec (.inputExpert h p) s =
      .next (answered .inputExpert h .ok [] (setChanIn c { chanIn t c with returning := true } t))) ∧
    (u8 p 0 = 3 → c ≤ 31 → t.inp.seqRunning = none → exec (.inputExpert h p) s = .next (answered .inputExpert h .ok []
      (seqEnd { t with inp := { t.inp with seqRunning := some (chBit c &&& t.cfg.board.ainWired), seqPair := true } }))))


/-! ### Outputs -/

/-- CLEAR_N is sampled; shorts of line and hold outputs are faults that their probes release; a servo at its limit is noted; a
range change ends at 0 V in the new range; a speaker's load check gives its verdict, is repeated while the load is bad, and a
short in operation clamps it; a hot stage is a fault until it has been below 110 °C for 10 s. OUTPUT_STATUS reports every
output and clears the held flags where it asks for that; OUTPUT_EXPERT frees the test settings, asks for a load check, or
starts a servo anew; HOLD_SAFE_SET waits for the tick that stores a safe value and its slew, lets the output follow and
replies. -/
def Obligations.Outputs : Prop :=
  ((∀ (dt : Nat) (s : State), let t := advance dt s
    exec (.clearNLow dt) s = .next { t with pads := { t.pads with clearN := false } } ∧
    exec (.clearNHigh dt) s = .next { t with pads := { t.pads with clearN := true } }) ∧
  (∀ (dt : Nat) (n : Fin 32) (s : State), let t := advance dt s
    let h := mkHandle 0x81 n
    let x := outRt t h
    (∀ a b, x.clamped = false → (a = true ∨ b = true) → exec (.outputShort dt n a b) s = .next
      (raise .outputShort h 0 (BitVec.ofNat 32 (flag 0 a + flag 1 b))
        (setOutRt h { x with ilimLive := true, ilimSticky := true, probeAt := t.sysCnt } t))) ∧
    (∀ i, inForce .outputShort h 0 t = true → x.probeAt + secCounts ≤ t.sysCnt →
      (i < 200 → exec (.outputShortProbe dt n i) s =
        .next (release .outputShort h 0 (setOutRt h { x with ilimLive := false } t))) ∧
      (200 ≤ i → exec (.outputShortProbe dt n i) s = .next (setOutRt h { x with probeAt := t.sysCnt } t))) ∧
    (10 * fsNow t ≤ x.servoPinned → servoAtLimit n x = true →
      exec (.servoLimit dt n) s = .next (setOutRt h { x with servoLimit := true } t))) ∧
  (∀ (dt : Nat) (n : Fin 8) (s : State), let t := advance dt s
    let h := mkHandle 0x82 n
    let x := holdRt t n
    ((safeOf t n).declared = true →
      exec (.holdShort dt n) s = .next (raise .holdShort h 0 0 (setHoldRt n { x with ilimit := true } t))) ∧
    exec (.holdShortRelease dt n) s = .next (release .holdShort h 0 (setHoldRt n { x with ilimit := false } t)) ∧
    (∀ g, x.rc = some g → 4000 ≤ (rcUs x t.sysCnt).getD 0 →
      let z : HoldRt := { x with
        range := g, rc := none, step5 := true, audio := false, start := 0, dest := 0, t0 := t.sysCnt
        slew := (tget ({} : HoldCfg) t.cfg.outp.hold n).slew }
      exec (.rangeChangeComplete dt n) s =
        .next (holdRefresh 64 n (setSafe n { safeOf t n with range := g } (setHoldRt n z t))))) ∧
  (∀ (dt : Nat) (n : Fin 2) (s : State), let t := advance dt s
    let h := mkHandle 0x84 n
    let r := spkRt t n
    (∀ z, r.checking = true → r.checkAt + 61 * msCounts ≤ t.sysCnt →
      let v := loadVerdict (spkLoad t n) z
      let u := setSpkRt n { r with checking := false, result := v, mohm := z, loadClamp := v == 2 || v == 3, faultAt := t.sysCnt } t
      (v = 1 → exec (.loadCheckVerdict dt n z) s = .next (release .speakerLoad h 0 u)) ∧
      (v ≠ 1 → exec (.loadCheckVerdict dt n z) s = .next (raise .speakerLoad h 0 (loadDetail v z) u))) ∧
    (r.loadClamp = true → r.checking = false → (tget ({} : SpkCfg) t.cfg.outp.spk n).enable = true →
      t.cfg.board.spkWired.getLsbD n = true → modeUp t.life.mode = true → r.faultAt + 2 * secCounts ≤ t.sysCnt →
      exec (.loadCheckRepeat dt n) s = .next (setSpkRt n { r with checking := true, checkAt := t.sysCnt } t)) ∧
    (spkCarries t n = true →
      let u := setSpkRt n { r with loadClamp := true, result := 6, limitCount := (r.limitCount + 1) % 4294967296, faultAt := t.sysCnt } t
      exec (.speakerShortInOperation dt n) s = .next (raise .speakerLoad h 0 (loadDetail 6 r.mohm)
        (setOutRt h { outRt u h with clamped := true } (shutGate h u))))) ∧
  (∀ (dt : Nat) (i : Fin 4) (z : Int) (s : State), let t := advance dt s
    let x := { stageTherm t i with cool := if z < 110000 then some ((stageTherm t i).cool.getD t.sysCnt) else none }
    (z ≤ 120000 → exec (.outputThermal dt i z) s = .next (setStage i { x with temp := z } t)) ∧
    (120000 < z → inForce .outputThermal 0 i t = false → exec (.outputThermal dt i z) s = .next
      (raise .outputThermal 0 i (BitVec.ofNat 32 i) (setStage i { x with temp := z, at_ := t.sysCnt } t))) ∧
    (120000 < z → inForce .outputThermal 0 i t = true →
      exec (.outputThermal dt i z) s = .next (setStage i { x with temp := z } t)) ∧
    (∀ c, inForce .outputThermal 0 i t = true → (stageTherm t i).cool = some c → c + 10 * secCounts ≤ t.sysCnt →
      exec (.outputThermalRelease dt i) s =
        .next (release .outputThermal 0 i (setStage i { stageTherm t i with at_ := t.sysCnt } t))))) ∧
  (∀ (h : Hdr) (p : Bytes) (s : State),
  (ready .outputStatus h p s = true → p.length = 4 → u8 p 0 ≤ 1 → zeroAt p 1 3 = true →
    let t := during .outputStatus h p s
    let v := latchView t
    let pay := le 8 v.clk.stamp ++ le 1 (flag 0 (!v.pads.clearN) + flag 1 v.outp.clearOn + flag 2 (releaseRuns v)) ++ zeros 7
      ++ allOuts.flatMap (outEntry v)
    (u8 p 0 = 0 → exec (.outputStatus h p) s = .next (answered .outputStatus h .ok pay t)) ∧
    (u8 p 0 = 1 → exec (.outputStatus h p) s = .next (answered .outputStatus h .ok pay { t with
      outp := clearOutFlags v.outp t.outp, latch := { t.latch with outp := clearOutFlags v.outp t.latch.outp } }))) ∧
  (ready .outputExpert h p s = true → p.length = 4 → u16 p 2 = 0 →
    let t := during .outputExpert h p s
    let n := u8 p 1
    (u8 p 0 = 0 → exec (.outputExpert h p) s = .next (answered .outputExpert h .ok [] { t with outp := { t.outp with
      out := t.outp.out.foldl (fun a e => tset {} a e.1 { e.2 with servoTc := 0 }) []
      hold := t.outp.hold.foldl (fun a e => tset {} a e.1 { e.2 with clampTest := false }) [] } })) ∧
    (u8 p 0 = 1 → n ≤ 1 → t.cfg.board.spkWired.getLsbD n = true →
      ((tget ({} : SpkCfg) t.cfg.outp.spk n).enable = false ∨ clockStopped t = true ∨ (spkRt t n).loadClamp = true) →
      exec (.outputExpert h p) s = .next (answered .outputExpert h .ok [] (setSpkRt n { spkRt t n with checking := true, checkAt := t.sysCnt } t))) ∧
    (u8 p 0 = 2 → n ≤ 31 → exec (.outputExpert h p) s = .next (answered .outputExpert h .ok []
      (setOutRt (mkHandle 0x81 n) { outRt t (mkHandle 0x81 n) with servoReturn := true, servoLimit := false, servoPinned := 0 } t)))) ∧
  (ready .holdSafeSet h p s = true → p.length = 12 →
    let t := during .holdSafeSet h p s
    let n := u8 p 0
    n ≤ 7 → zeroAt p 1 3 = true → 1 ≤ u32 p 8 → u32 p 8 ≤ 10000000 → (safeOf t n).declared = true →
    inRange (holdRt t n).range (i32 p 4) = true → (∀ g, (holdRt t n).rc = some g → inRange g (i32 p 4) = true) →
    exec (.holdSafeSet h p) s = .next (unanswered { t with cmd := { t.cmd with
      landing := t.cmd.landing ++ [⟨.holdSafeSet, h, p, false, arrivalOf t, false⟩] } })) ∧
  (∀ arr : Nat, landEffect ⟨.holdSafeSet, h, p, false, arr, false⟩ s = reply (opCode .holdSafeSet) h .ok []
    (holdRefresh 64 (u8 p 0) (setSafe (u8 p 0) { safeOf s (u8 p 0) with value := i32 p 4, slew := u32 p 8 } s))))


/-! ### Filter chains -/

/-- A chain that fades out stops, a reloaded one is cleared with its new response, settling ends; SYNC_IN is counted and
stamped; the first waiting FILT_SYNC clears its chains and is answered; a capture is complete. FILT_SYNC of modes 0 and 1
waits for its tick without a reply; FILT_PHASE stores the phase of stopped chains; FILT_COEF_LOAD begins, continues or removes
a set; FILT_STATUS reports; FILT_EXPERT closes the gates, opens one or starts a capture. -/
def Obligations.Chains : Prop :=
  ((∀ (dt : Nat) (ch : Chain) (s : State), let t := advance dt s
    let pour := chainPour ch
    let c := chainNum ch
    let x := chainOf t pour c
    let y := if x.reload = true then adoptResp t pour c x else x
    (x.state = .fadingStop → x.left = 0 → exec (.filtStopComplete dt ch) s =
      .next (setChain pour c { y with state := .stopped, left := 0, w := 0, back := false } t)) ∧
    (x.state = .fadingReload → x.reload = true → x.left = 0 → exec (.filtReloadClear dt ch) s =
      .next (clearAt pour c (setChain pour c (adoptResp t pour c x) t))) ∧
    exec (.settlingEnd dt ch) s = .next (settleEnd pour c t)) ∧
  (∀ (dt : Nat) (s : State), let t := advance dt s
    modeUp t.life.mode = true → exec (.syncInEdge dt) s = .next { t with filt := { t.filt with
      syncInCount := (t.filt.syncInCount + 1) % 4294967296, syncInStamp := t.sysCnt, syncEdge := some t.sysCnt } }) ∧
  (∀ (dt : Nat) (s : State) (r : SyncRun) (l : List SyncRun), let t := advance dt s
    t.filt.syncs = r :: l → r.left = 0 →
    let u := clearMasks r.press.toNat r.pour.toNat { t with filt := { t.filt with syncs := l } }
    exec (.filtSyncClear dt) s = .next (reply (opCode .filtSync) r.hdr .ok (r.pre ++ le 8 (nextFrame u)) u)) ∧
  (∀ (dt : Nat) (s : State), let t := advance dt s
    t.filt.capture = 1 → t.filt.captureGot.length = 512 → ∀ v, exec (.captureComplete dt v) s = .next { t with filt := { t.filt with
      capture := 2, captureGot := [], captureBuf := t.filt.captureGot.map (fun v => BitVec.ofInt 32 (satS 32 (freeDiv 63 v 64))) } })) ∧
  (∀ (h : Hdr) (p : Bytes) (s : State),
  (ready .filtSync h p s = true → h.timed = none → u8 p 16 ≠ 2 →
    let t := during .filtSync h p s
    (checkFiltSync h p t = .ok → exec (.filtSync h p) s = .next (unanswered
      { t with cmd := { t.cmd with landing := t.cmd.landing ++ [⟨.filtSync, h, p, false, arrivalOf t, false⟩] } })) ∧
    (checkFiltSync h p t ≠ .ok →
      exec (.filtSync h p) s = .next (answered .filtSync h (checkFiltSync h p t) [] t))) ∧
  (ready .filtPhase h p s = true → p.length = 12 →
    let t := during .filtPhase h p s
    let pour := u8 p 0 == 1
    u8 p 0 ≤ 1 → u8 p 2 ≤ 127 → u8 p 3 = 0 → u64 p 4 ≠ 0 → maskBad pour (u64 p 4) = false →
    (∀ c ∈ bitsOf 46 (u64 p 4), chainRuns t pour c = false) →
    exec (.filtPhase h p) s = .next (answered .filtPhase h .ok [] ((bitsOf 46 (u64 p 4)).foldl (fun a c =>
      storeChain pour c { chainStored a pour c with coarse := u8 p 1, fine := u8 p 2 } a) t))) ∧
  (ready .filtCoefLoad h p s = true →
    let t := during .filtCoefLoad h p s
    let pour := u8 p 0 == 1
    let k := u8 p 1
    checkCoefLoad p = .ok →
    (u16 p 4 = 0 → setUsers t pour k = [] → exec (.filtCoefLoad h p) s = .next (answered .filtCoefLoad h .ok []
      (poolDrop (.coefSet pour (Fin.ofNat 8 k)) (noteLoad pour k none (storeSet pour k none t))))) ∧
    (u16 p 4 ≠ 0 → u16 p 6 = 0 → (setUsers t pour k).any (chainRuns t pour) = true →
      exec (.filtCoefLoad h p) s = .next (answered .filtCoefLoad h .busy [] t)) ∧
    (∀ st pay u, u16 p 4 ≠ 0 → u16 p 6 = 0 → (setUsers t pour k).any (chainRuns t pour) = false →
      coefPart pour k p [] t = .reply st pay u →
      exec (.filtCoefLoad h p) s = .next (answered .filtCoefLoad h st pay u)) ∧
    (∀ l st pay u, u16 p 4 ≠ 0 → u16 p 6 ≠ 0 → tget none t.filt.loads (bit pour * 8 + k) = some l → l.taps = u16 p 4 →
      l.symmetric = (u8 p 2 % 2 == 1) → l.words.length = u16 p 6 → coefPart pour k p l.words t = .reply st pay u →
      exec (.filtCoefLoad h p) s = .next (answered .filtCoefLoad h st pay u))) ∧
  (ready .filtStatus h p s = true → p.length = 0 →
    let t := during .filtStatus h p s
    let v := latchView t
    exec (.filtStatus h p) s = .next (answered .filtStatus h .ok (le 8 v.clk.stamp ++ le 4 v.filt.syncInCount ++ zeros 4
      ++ (List.range 36).flatMap (filtEntry v false) ++ (List.range 46).flatMap (filtEntry v true)
      ++ (List.range 8).flatMap (setEntry v false) ++ (List.range 8).flatMap (setEntry v true)) t)) ∧
  (ready .filtExpert h p s = true → p.length = 4 → u8 p 3 = 0 →
    let t := during .filtExpert h p s
    let pour := u8 p 1 == 1
    let c := u8 p 2
    (u8 p 0 = 0 → let u := closeGates t
      exec (.filtExpert h p) s = .next (answered .filtExpert h .ok []
        { u with filt := { u.filt with capture := if u.filt.capture = 1 then 0 else u.filt.capture } })) ∧
    (u8 p 0 = 1 → u8 p 1 ≤ 1 → c < chainCount pour → t.life.mode ≠ .maintenance → exec (.filtExpert h p) s =
      .next (answered .filtExpert h .ok [] (setChain pour c { chainOf t pour c with gateOpen := true } t))) ∧
    (u8 p 0 = 2 → u8 p 1 ≤ 1 → c < chainCount pour → t.filt.capture ≠ 1 → exec (.filtExpert h p) s =
      .next (answered .filtExpert h .ok []
        { t with filt := { t.filt with capture := 1, captureChain := c, captureDir := pour, captureGot := [] } }))))


/-! ### Headset ports -/

/-- A plug or a poll asks for a measurement cycle, the cycle measures, the verdict identifies what is plugged in or is a
fault, which is retried; removal empties the port; a side at its limit is a fault; the buttons are pressed, held, repeated and
released, each with its event. HS_STATUS reports both ports; HS_EVENTS takes the oldest events out of the list, and the
HEADSET event with the last of them; HS_EXPERT frees a port, asks for a cycle, or takes the present idle voltage. -/
def Obligations.Headsets : Prop :=
  ((∀ (dt : Nat) (n : Fin 2) (s : State), let t := advance dt s
    let r := hsRt t n
    hsRuns t n = true →
    (hsXlr t n = false →
      exec (.hsPlugInsertion dt n) s = .next (hsTrigger n (setHs n { r with present := true } t))) ∧
    (∀ zL zMic, hsXlr t n = true → r.state = .empty → r.due = false → (r.pollAt = 0 ∨ r.pollAt + 250 * msCounts ≤ t.sysCnt) →
      let x := { r with pollAt := t.sysCnt }
      (zL < 5000000 ∨ zMic < 5000000 → 1 ≤ r.polls → exec (.hsXlrPoll dt n zL zMic) s =
        .next (hsTrigger n (setHs n { x with present := true, polls := 0 } t))) ∧
      (zL < 5000000 ∨ zMic < 5000000 → r.polls = 0 →
        exec (.hsXlrPoll dt n zL zMic) s = .next (setHs n { x with polls := 1 } t)) ∧
      (5000000 ≤ zL → 5000000 ≤ zMic →
        exec (.hsXlrPoll dt n zL zMic) s = .next (setHs n { x with polls := 0 } t))) ∧
    (r.due = true → exec (.hsMeasurementCycle dt n) s = .next (setHs n { r with
      state := .measuring, due := false, bias := false, cycleAt := t.sysCnt, vIdle := some (vIdleNow t n)
      left := false, right := false, button := 0, longDone := false } t)) ∧
    (r.state = .fault → r.present = true → r.faultAt + 2 * secCounts ≤ t.sysCnt → exec (.hsFaultRetry dt n) s = .next (hsTrigger n t)) ∧
    (r.present = true →
      let u := release .hsFault (hsHandle n) 0 (setHs n
        { hsRt (buttonUp n t.sysCnt t) n with present := false, polls := 0 } (buttonUp n t.sysCnt t))
      exec (.hsRemoval dt n) s =
        .next (hsEvent ⟨n, 2, 0, 0, 0, t.sysCnt⟩ (if r.state = .measuring then u else hsEmpty n u)))) ∧
  (∀ (dt : Nat) (n : Fin 2) (m : HsMeas) (s : State), let t := advance dt s
    let r := hsRt t n
    let r1 := { r with zL := m.zL, zR := m.zR, zMic := m.zMic, cycles := (r.cycles + 1) % 4294967296 }
    r.state = .measuring → r.cycleAt + verdictMs (hsXlr t n) m * msCounts ≤ t.sysCnt →
    (r.present = false ∨ hsRuns t n = false →
      exec (.hsVerdict dt n m) s = .next (hsEnd n (setHs n { r1 with state := .empty, type := 0 } t))) ∧
    (r.present = true → hsRuns t n = true → ∃ y : HsRt,
      let v := hsVerdict (hsXlr t n) m
      y.type = v.1 ∧ y.reason = v.2.1 ∧ (v.1 = 7 → y.state = .fault) ∧ (v.1 ≠ 7 → y.state = .identified) ∧
      y.present = true ∧ y.identStamp = t.sysCnt ∧ y.cycles = r1.cycles ∧ y.zL = m.zL ∧ y.zR = m.zR ∧ y.zMic = m.zMic ∧
      exec (.hsVerdict dt n m) s = .next (hsEnd n (
        if v.1 = 7 then hsEvent ⟨n, 7, 0, v.2.1, 0, t.sysCnt⟩ (raise .hsFault (hsHandle n) 0
          (BitVec.ofNat 32 (v.2.1 + if v.2.1 = 1 ∨ outWindow m.zL then 0 else 256)) (setHs n y t))
        else hsEvent ⟨n, 1, 0, v.1, 0, t.sysCnt⟩ (release .hsFault (hsHandle n) 0 (setHs n y t)))))) ∧
  (∀ (dt : Nat) (n : Fin 2) (right : Bool) (s : State), let t := advance dt s
    let r := hsRt t n
    hsDriven t n right = true → exec (.hsSideAtLimit dt n right) s = .next (hsEvent ⟨n, 7, 0, 3, 0, t.sysCnt⟩
      (raise .hsFault (hsHandle n) 0 (BitVec.ofNat 32 (3 + 256 * bit right))
        (clampSoon (mkHandle 0x83 (2 * n + bit right))
          (setHs n { r with state := .fault, reason := 3, faultAt := t.sysCnt, left := r.left && right, right := r.right && !right, limSide := some right } t))))) ∧
  (∀ (dt uv ago : Nat) (n : Fin 2) (s : State), let t := advance dt s
    let r := hsRt t n
    let b := buttonOf uv (vIdleNow t n)
    (buttonsOn t n = true → b ≠ 0 → b ≠ r.button → 20 * msCounts ≤ ago →
      let u := buttonUp n (t.sysCnt - ago) t
      exec (.buttonPress dt n uv ago) s = .next (hsEvent ⟨n, 3, b, 0, 0, t.sysCnt - ago⟩ (setHs n
        { hsRt u n with
          button := b, pressAt := t.sysCnt - ago, longDone := false, repeats := 0, vIdle := some (vIdleNow t n) } u))) ∧
    (r.button ≠ 0 → r.longDone = false → (hsCfg t n).longMs * msCounts ≤ t.sysCnt - r.pressAt → exec (.buttonLongPress dt n) s =
      .next (hsEvent ⟨n, 5, r.button, 0, heldMs t r, r.pressAt⟩ (setHs n { r with longDone := true } t))) ∧
    (r.button ≠ 0 → r.longDone = true → (hsCfg t n).repeatMs ≠ 0 →
      r.pressAt + ((hsCfg t n).longMs + (r.repeats + 1) * (hsCfg t n).repeatMs) * msCounts ≤ t.sysCnt →
      exec (.buttonRepeat dt n) s = .next (hsEvent ⟨n, 6, r.button, 0, heldMs t r, r.pressAt⟩
        (setHs n { r with repeats := r.repeats + 1 } t))) ∧
    (20 * msCounts ≤ ago → exec (.buttonRelease dt n ago) s = .next (buttonUp n (t.sysCnt - ago) t)))) ∧
  (∀ (h : Hdr) (p : Bytes) (s : State),
  (ready .hsStatus h p s = true → p.length = 0 →
    let t := during .hsStatus h p s
    exec (.hsStatus h p) s = .next (answered .hsStatus h .ok (le 8 t.sysCnt ++ hsEntry t 0 ++ hsEntry t 1) t)) ∧
  (ready .hsEvents h p s = true → p.length = 4 → 1 ≤ u8 p 0 → u8 p 0 ≤ 32 → zeroAt p 1 3 = true →
    let t := during .hsEvents h p s
    let l := t.hs.events.take (u8 p 0)
    let u := { t with hs := { t.hs with events := t.hs.events.drop (u8 p 0), lost := 0 } }
    exec (.hsEvents h p) s = .next (answered .hsEvents h .ok
      (le 1 l.length ++ zeros 1 ++ le 2 (min t.hs.lost 65535) ++ l.flatMap hsEventBytes)
      (if t.hs.events.length ≤ u8 p 0 then clearEvent 2 u else u))) ∧
  (∀ n : Fin 2, ready .hsExpert h p s = true → p.length = 4 → u8 p 1 = n → u16 p 2 = 0 →
    let t := during .hsExpert h p s
    (u8 p 0 = 0 → exec (.hsExpert h p) s = .next (answered .hsExpert h .ok [] (unforceHs n t))) ∧
    (u8 p 0 = 1 → t.cfg.board.hsWired.getLsbD n = true →
      exec (.hsExpert h p) s = .next (answered .hsExpert h .ok [] (hsTrigger n t))) ∧
    (u8 p 0 = 2 → t.cfg.board.hsWired.getLsbD n = true → (hsRt t n).button = 0 →
      exec (.hsExpert h p) s = .next (answered .hsExpert h .ok [] (setHs n { hsRt t n with
        vIdle := some (clampI 1200000 2900000 (micUv t n)).toNat, idleFine := 0, holdUntil := t.sysCnt } t)))))


/-! ### Ports, network, streams -/

/-- TDM_SET and AES_SET store the settings that pass their checks and leave the run state as it was; AES_CS_READ, PORT_STAMP
and PORT_STATUS report, PORT_STAMP of a target without a valid stamp with zeros throughout. A port that is starting runs once
its clock is there; one that is stopping stops once it has sent its last silence. A received TDM or AES3 frame advances its
port's frame count and, on a port that uses it, waits for its presentation, or is discarded as late or early; channel status
is taken over by R402; a transmitted AES3 frame carries the sink's values, zeros while its receiver is down. -/
def Obligations.Ports : Prop :=
  (∀ (h : Hdr) (p : Bytes) (s : State),
  (ready .tdmSet h p s = true → p.length = 24 → let t := during .tdmSet h p s
    (checkTdmSet p t = .ok → exec (.tdmSet h p) s = .next (answered .tdmSet h .ok [] (withPorts { t.cfg.port with
      tdm := tset {} t.cfg.port.tdm (u8 p 0) (tdmOf p (tdmCfg t (u8 p 0)).run) } t))) ∧
    (checkTdmSet p t ≠ .ok → exec (.tdmSet h p) s = .next (answered .tdmSet h (checkTdmSet p t) [] t))) ∧
  (ready .aesSet h p s = true → p.length = 16 → let t := during .aesSet h p s
    let c := t.cfg.port
    let x := u8 p 1
    let waits (u : State) : State :=
      { u with cmd := { u.cmd with landing := u.cmd.landing ++ [⟨.aesSet, h, p, false, arrivalOf u, false⟩] } }
    (checkAesSet p t = .ok →
      (u8 p 0 = 0 → exec (.aesSet h p) s = .next (answered .aesSet h .ok [] (waits (withPorts { c with
        rx := tset {} c.rx x { rxCfg t x with word := u8 p 3, group := u8 p 5 } } t)))) ∧
      (u8 p 0 ≠ 0 → exec (.aesSet h p) s = .next (answered .aesSet h .ok [] (waits (withPorts { c with
        tx := tset {} c.tx x { txCfg t x with word := u8 p 3, txClock := u8 p 4, synthRate := u32 p 8 } } t))))) ∧
    (checkAesSet p t ≠ .ok → exec (.aesSet h p) s = .next (answered .aesSet h (checkAesSet p t) [] t))) ∧
  (∀ arr : Nat, u8 p 0 = 0 → landEffect ⟨.aesSet, h, p, false, arr, false⟩ s = withPorts { s.cfg.port with
    rx := tset {} s.cfg.port.rx (u8 p 1) { rxCfg s (u8 p 1) with validity := u8 p 2 } } s) ∧
  (ready .aesCsRead h p s = true → p.length = 4 → u8 p 1 ≤ 3 → u8 p 2 ≤ 1 → u8 p 3 = 0 →
    let t := during .aesCsRead h p s
    let x := u8 p 1
    (u8 p 0 = 0 → let r := portRt t (4 + x)
      let u := if u8 p 2 = 0 then r.subA else r.subB
      exec (.aesCsRead h p) s = .next (answered .aesCsRead h .ok (u.cs ++ u.user
        ++ le 1 (flag 0 ((u.cs.getD 0 0).getLsbD 0) + flag 1 u.passed + flag 2 u.rejected + flag 3 (nonAudio u.cs)
          + flag 4 u.await.isSome) ++ zeros 3 ++ le 4 u.age) t)) ∧
    (u8 p 0 = 1 → let r := portRt t (8 + x)
      let c := txCfg t x
      let b := if r.state = .stopped then (if u8 p 2 = 0 then c.csA else c.csB)
        else if u8 p 2 = 0 then r.csA else r.csB
      exec (.aesCsRead h p) s = .next (answered .aesCsRead h .ok (csSent b ++ zeros 24
        ++ le 1 (flag 0 ((b.getD 0 0).getLsbD 0) + flag 3 (nonAudio b)) ++ zeros 7) t))) ∧
  (ready .portStamp h p s = true → p.length = 4 → u8 p 0 = 1 ∨ u8 p 0 = 2 ∨ u8 p 0 = 3 ∨ u8 p 0 = 4 ∨ u8 p 0 = 7 →
    u8 p 1 ≤ (if u8 p 0 = 7 then 0 else 3) → u16 p 2 = 0 →
    let t := during .portStamp h p s
    let b := (stampOf t (u8 p 0) (u8 p 1)).1
    (b.valid = false → exec (.portStamp h p) s = .next (answered .portStamp h .ok (zeros 40) t)) ∧
    (b.valid = true → exec (.portStamp h p) s = .next (answered .portStamp h .ok
      (le 8 b.block ++ le 8 b.stamp ++ le 8 (if t.clk.taiValid then (taiAt t.clk b.stamp).toNat else 0)
        ++ le 4 (stampRate b)
        ++ le 4 (1 + flag 1 b.lost + flag 2 (isDecant t.cfg.clock.decant (stampOf t (u8 p 0) (u8 p 1)).2)) ++ le 8 b.prev)
      (stampRead t (u8 p 0) (u8 p 1))))) ∧
  (ready .portStatus h p s = true → p.length = 4 → u8 p 0 ≤ 1 → zeroAt p 1 3 = true →
    let t := during .portStatus h p s
    let v := latchView t
    let pay := le 8 v.clk.stamp ++ zeros 8
      ++ (List.range 4).flatMap (fun k => portEntry v k true) ++ (List.range 4).flatMap (fun k => portEntry v k false)
      ++ (List.range 4).flatMap (fun k => portEntry v (4 + k) true)
      ++ (List.range 4).flatMap (fun k => portEntry v (8 + k) false)
    (u8 p 0 = 0 → exec (.portStatus h p) s = .next (answered .portStatus h .ok pay t)) ∧
    (u8 p 0 = 1 → exec (.portStatus h p) s = .next (answered .portStatus h .ok pay { t with
      port := clearPortCounts v.port t.port, latch := { t.latch with port := clearPortCounts v.port t.latch.port } })))) ∧
  ((∀ (dt : Nat) (p : PortId) (s : State), let t := advance dt s
    let k := portKey p
    let x := portRt t k
    (x.state = .starting → startDone t k = true →
      exec (.portStartComplete dt p) s = .next (setPort k { x with state := .running, presented := true } t)) ∧
    (x.state = .stopping → stopDone t k = true → exec (.portStopComplete dt p) s = .next (startMonitor k (setPort k { x with
      state := .stopped, presented := false, frames := 0, queue := [], cur := [], curFade := [], w := [], reps := 0
      rxW := 32, txq := [], sent := [], sdo := [], vOut := false, txReps := 0, txW := 32, blockPos := 0, started := false
      fallback := false, rxStamp := {}, txStamp := {}, missed := 0, silentAt := none } t)))) ∧
  (∀ (dt : Nat) (p : Fin 4) (f : TdmFrame) (s : State), let t := advance dt s
    let c := tdmCfg t p
    (portRt t p).state ≠ .stopped →
    let e := inputEdge p f.period ((decide (f.bclks ≠ c.frameBclks) || decide (50500000 < f.bclkHz)) && !c.master) t
    let x := portRt e.2 p
    let slots := if x.loopback = true then loopSlots p t x.sdo else f.slots
    let vals := (List.range 32).map (fun i =>
      if c.rx.getLsbD i = true ∧ i < c.slots then slotValue c.word (slots.getD i 0) else 0)
    let cap := captureTime (stampEdge (t.sysCnt - f.period) x.rxStamp) (t.sysCnt - f.period)
    let dec := isDecant t.cfg.clock.decant (rxDecant p)
    let late := e.2.clk.started && eighths (fsNow e.2) 15 cap (tickAt e.2)
    let early := decide (t.sysCnt + 20 * msCounts < cap)
    ∃ u, exec (.tdmFrameReceived dt p f) s = .next u ∧ (portRt u p).frames = x.frames + 1 ∧
      (portRt u p).bclksLast = f.bclks ∧ (portRt u p).sdo = sdoOf c (portRt u p) ∧
      (e.1 = true →
        (dec = true ∨ (late = false ∧ early = false) → (portRt u p).queue = x.queue ++ [⟨cap, vals, []⟩]) ∧
        (dec = false → late = true → (portRt u p).queue = x.queue ∧ (portRt u p).rxUnder = sat32 (x.rxUnder + 1)) ∧
        (dec = false → late = false → early = true →
          (portRt u p).queue = x.queue ∧ (portRt u p).rxOver = sat32 (x.rxOver + 1))) ∧
      (e.1 = false → (portRt u p).queue = x.queue)) ∧
  (∀ (dt : Nat) (x : Fin 4) (f : AesFrame) (s : State), let t := advance dt s
    let k := 4 + x.val
    let c := rxCfg t x
    (portRt t k).state ≠ .stopped →
    let e := inputEdge k f.period false t
    let y := portRt e.2 k
    let a := subframe c (repeatLimit t c.group) y.subA f.subA
    let b := subframe c (repeatLimit t c.group) y.subB f.subB
    let cap := captureTime (stampEdge (t.sysCnt - f.period) y.rxStamp) (t.sysCnt - f.period)
    let dec := isDecant t.cfg.clock.decant (rxDecant k)
    let late := e.2.clk.started && eighths (fsNow e.2) 15 cap (tickAt e.2)
    let early := decide (t.sysCnt + 20 * msCounts < cap)
    ∃ u, exec (.aes3FrameReceived dt x f) s = .next u ∧ (portRt u k).frames = y.frames + 1 ∧ (portRt u k).subA = a.1 ∧
      (portRt u k).subB = b.1 ∧ (portRt u k).parityCount = y.parityCount + bit (!f.subA.parityOk) + bit (!f.subB.parityOk) ∧
      (e.1 = true → dec = true ∨ (late = false ∧ early = false) →
        (portRt u k).queue = y.queue ++ [⟨cap, [a.2.1, b.2.1], [a.1.fade, b.1.fade]⟩]) ∧
      (e.1 = true → dec = false → late = true ∨ early = true → (portRt u k).queue = y.queue) ∧
      (e.1 = false → (portRt u k).queue = y.queue)) ∧
  (∀ (dt : Nat) (x : Fin 4) (sub : Fin 2) (cs user : Bytes) (n : Nat) (s : State), let t := advance dt s
    let k := 4 + x.val
    let r := portRt t k
    let b := csBlock (if sub = 0 then r.subA else r.subB) cs user n
    r.state ≠ .stopped → ∃ u, exec (.aesCsBlockComplete dt x sub cs user n) s = .next u ∧
      (if sub = 0 then (portRt u k).subA else (portRt u k).subB) = b.1 ∧
      (if sub = 0 then (portRt u k).subB else (portRt u k).subA) = (if sub = 0 then r.subB else r.subA) ∧
      (portRt u k).csCrcCount = r.csCrcCount + bit b.2.1 ∧
      (b.2.2 = false → u.flt = t.flt)) ∧
  (∀ (u : SubRt) (cs user : Bytes), cs.length = 24 →
    let b := (csBlock u cs user 192).1
    ((cs.getD 0 0).getLsbD 0 = true →
      b.passed = decide (crcc (cs.take 23) = u8 cs 23) ∧ b.cs = if crcc (cs.take 23) = u8 cs 23 then cs else u.cs) ∧
    ((cs.getD 0 0).getLsbD 0 = false → b.passed = false ∧
      b.cs = (if u.await = some cs then cs else u.cs) ∧ (u.await ≠ some cs → b.await = some cs))) ∧
  (∀ (dt : Nat) (x : Fin 4) (s : State), let t := advance dt s
    let k := 8 + x.val
    let r := portRt t k
    let c := txCfg t x
    r.state ≠ .stopped → r.started = true ∨ c.txClock ≠ 0 →
    ∃ u, exec (.aes3TransmitFrame dt x) s = .next u ∧ (portRt u k).started = true ∧ (portRt u k).frames = r.frames + 1 ∧
      (portRt u k).blockPos = (r.blockPos + 1) % 192 ∧
      (r.started = false ∨ r.blockPos = 0 → (portRt u k).csA = c.csA ∧ (portRt u k).csB = c.csB) ∧
      (txReceiverDown t x = true → (portRt u k).fallback = true ∧ (portRt u k).vOut = true ∧
        (portRt u k).sdo = [some 0, some 0]) ∧
      (txReceiverDown t x = false → r.fallback = false → (portRt u k).fallback = false ∧
        (portRt u k).sdo = [some (aesOutWord c (rampW (portRt u k).txW ((portRt u k).sent.getD 0 0))),
          some (aesOutWord c (rampW (portRt u k).txW ((portRt u k).sent.getD 1 0)))])))

/-- NET_SET puts settings that pass its checks in force, the live ones at a tick, restarting the links whose mode or speed it
changes and forgetting what the switch has learned where the mode changes; NET_STATUS reports and clears what it reads. A link
that comes up or goes down is noted and posts the NETWORK event; the module answers ARP and ICMP for its own addresses and
queries for its groups; in SWITCHED mode a frame is learned from and forwarded, in REDUNDANT mode HOSTNET is bridged to one
port; frames over 1522 bytes are dropped; an address not seen for 300 s is forgotten. -/
def Obligations.Network : Prop :=
  (∀ (h : Hdr) (p : Bytes) (s : State),
  (ready .netSet h p s = true → p.length = 36 → let t := during .netSet h p s
    let o := netCfg t
    let c := netOf p
    (checkNetSet p t = .ok → ∃ u : State,
      exec (.netSet h p) s = .next (answered .netSet h .ok [] { u with cmd := { u.cmd with
        landing := u.cmd.landing ++ [⟨.netSet, h, p, false, arrivalOf u, false⟩] } }) ∧
      u.cfg.net.net = { c with ctrlPcp := o.ctrlPcp, ctrlDscp := o.ctrlDscp, ptpDscp := o.ptpDscp, ptpPcp := o.ptpPcp
                               stormMbps := o.stormMbps, igmpV2 := o.igmpV2 } ∧
      u.cfg.net.rx = t.cfg.net.rx ∧ u.cfg.net.tx = t.cfg.net.tx ∧
      u.net.a.link = (if o.switched = c.switched ∧ o.speedA = c.speedA then t.net.a.link else 0) ∧
      u.net.b.link = (if o.switched = c.switched ∧ o.speedB = c.speedB then t.net.b.link else 0) ∧
      u.net.host.link = (if o.switched = c.switched then t.net.host.link else 0) ∧
      u.net.fdb = (if o.switched = c.switched then t.net.fdb else []) ∧
      u.net.hostGroups = if o.switched = c.switched then t.net.hostGroups else []) ∧
    (checkNetSet p t ≠ .ok → exec (.netSet h p) s = .next (answered .netSet h (checkNetSet p t) [] t))) ∧
  (∀ arr : Nat, let c := netOf p
    landEffect ⟨.netSet, h, p, false, arr, false⟩ s = withNet { s.cfg.net with net := { netCfg s with
      ctrlPcp := c.ctrlPcp, ctrlDscp := c.ctrlDscp, ptpDscp := c.ptpDscp, ptpPcp := c.ptpPcp, stormMbps := c.stormMbps
      igmpV2 := c.igmpV2 } } s) ∧
  (ready .netStatus h p s = true → p.length = 0 → let t := during .netStatus h p s
    exec (.netStatus h p) s = .next (answered .netStatus h .ok
      (le 8 t.sysCnt ++ le 1 (bit (netCfg t).switched) ++ le 1 ((List.range 64).filter (rxActive t)).length
        ++ le 1 (txEnabled t).length ++ zeros 5 ++ linkEntry t .neta ++ linkEntry t .netb ++ linkEntry t .hostnet)
      (clearStorm (clearEvent 5 t))))) ∧
  ((∀ (dt : Nat) (l : LinkPort) (fast : Bool) (s : State), let t := advance dt s
    spiAlive t = true → linkDeclared t l = true → speedOk t l fast = true →
    let x := { linkOf t l with link := if fast then 2 else 1, noCommon := false, ups := min 65535 ((linkOf t l).ups + 1),
                               lastUp := t.sysCnt }
    let u := postEvent 5 (release .linkDown 0 (linkIdx l) (setLink l x t))
    exec (.linkUp dt l fast) s = .next (match l with
      | .neta => resuspend false u
      | .netb => resuspend true u
      | .hostnet => u)) ∧
  (∀ (dt : Nat) (l : LinkPort) (none : Bool) (s : State), let t := advance dt s
    spiAlive t = true → linkDeclared t l = true →
    let u := postEvent 5 (raise .linkDown 0 (linkIdx l) (streamDetail (linkIdx l) 0 2)
      (setLink l { linkOf t l with
        link := 0, noCommon := none, queue := [], free := 0, sending := 8, creditA := 0, creditB := 0 } t))
    (l = .hostnet → exec (.linkDown dt l none) s = .next u) ∧
    (l = .neta → exec (.linkDown dt l none) s =
      .next (linkPathLost false (if u.clk.portA.locked = true then ptpLose .a 1 u else u))) ∧
    (l = .netb → exec (.linkDown dt l none) s =
      .next (linkPathLost true (if u.clk.portB.locked = true then ptpLose .b 1 u else u)))) ∧
  (∀ (dt : Nat) (l : LinkPort) (ip from_ : BitVec 32) (mac : BitVec 48) (data : Bytes) (s : State), let t := advance dt s
    modeUp t.life.mode = true → linkIsUp t l = true → (ownAddr t l).1 = ip → ip ≠ 0 →
    exec (.arpRequest dt l ip from_ mac) s =
      .next (sendOut l (.arpReply l ip (ownAddr t l).2 from_ mac) (countRx l t)) ∧
    exec (.icmpEcho dt l ip from_ data) s = .next (sendOut l (.icmpReply l from_ data) (countRx l t))) ∧
  (∀ (dt : Nat) (l : LinkPort) (v2 : Bool) (group : BitVec 32) (s : State), let t := advance dt s
    modeUp t.life.mode = true → linkIsUp t l = true → l ≠ .hostnet →
    let u := countRx l t
    let b := !(netCfg t).switched && l == .netb
    exec (.igmpQuery dt l v2 group) s = .next ((List.range 64).foldl (fun (a : State) i =>
      match slotGroup a i b with
      | some (g, _) => if rxActive a i && (group == 0 || group == g) then igmpSend i false a b else a
      | none => a) (if v2 then setLink l { linkOf u l with v2Heard := true, v2At := u.sysCnt } u else u))) ∧
  (∀ (dt : Nat) (l : LinkPort) (f : EthFrame) (s : State), let t := advance dt s
    modeUp t.life.mode = true → (netCfg t).switched = true → linkIsUp t l = true →
    let u := countRx l t
    (1522 < f.len → exec (.switchForward dt l f) s =
      .next (setLink l { linkOf u l with longDrops := sat32 ((linkOf u l).longDrops + 1) } u)) ∧
    (f.len ≤ 1522 → stormFrame u f = false →
      let v := { u with net := { u.net with fdb := learn l f u.sysCnt u.net.fdb, hostGroups := snoop l f u.net.hostGroups } }
      exec (.switchForward dt l f) s = .next ((fwdPorts v l f).foldl (forwardTo l f) v))) ∧
  (∀ (s : State) (l : LinkPort) (f : EthFrame), l ∉ fwdPorts s l f ∧
    (f.bpdu = false → f.dst = macBroadcast → f.dst ≠ (ownAddr s l).2 →
      ∀ x, x ∈ fwdPorts s l f ↔ x ≠ l)) ∧
  (∀ (dt : Nat) (fromHost toModule : Bool) (f : EthFrame) (s : State), let t := advance dt s
    let net : LinkPort := if (netCfg t).bridge = 1 then .neta else .netb
    let l := if fromHost then LinkPort.hostnet else net
    let x := if fromHost then net else LinkPort.hostnet
    modeUp t.life.mode = true → (netCfg t).switched = false → (netCfg t).bridge ≠ 0 → linkIsUp t l = true →
    let u := countRx l t
    f.len ≤ 1522 → stormFrame u f = false → exec (.hostnetBridgeFrame dt fromHost toModule f) s =
      .next (if toModule then u else forwardTo l f u x)) ∧
  (∀ (dt : Nat) (mac : BitVec 48) (vlan : BitVec 12) (s : State), let t := advance dt s
    exec (.fdbAgeOut dt mac vlan) s =
      .next { t with net := { t.net with fdb := t.net.fdb.filter (fun e =>
          !(e.mac == mac && e.vlan == vlan && decide (e.at_ + 300 * secCounts ≤ t.sysCnt))) } }))

/-- STREAM_RX_SET and STREAM_TX_SET store settings that pass their checks and charge them to the bulk memory, and with
TRANSPORT 0 free the slot; STREAM_STATUS reports a run of slots and clears their counters where asked. Every enabled slot that
a media packet is addressed to takes it where it is valid, and counts a discard where it is not; a transmit slot sends the
packet its buffer holds on its paths and advances its sequence number; lost streams and lost paths are recorded once, and a
lost stream's reports repeated every second. -/
def Obligations.Streams : Prop :=
  (∀ (h : Hdr) (p : Bytes) (s : State),
  (ready .streamRxSet h p s = true → p.length = 64 → let t := during .streamRxSet h p s
    let i := u8 p 0
    let id : BulkId := .streamRx (Fin.ofNat 64 i)
    (checkRxSet p t = .ok → exec (.streamRxSet h p) s = .next (answered .streamRxSet h .ok []
      (if u8 p 1 = 0 then poolDrop id (putRx i {} t) else poolPut id 128 (putRx i (rxOf p) t)))) ∧
    (checkRxSet p t ≠ .ok → exec (.streamRxSet h p) s = .next (answered .streamRxSet h (checkRxSet p t) [] t))) ∧
  (ready .streamTxSet h p s = true → p.length = 64 → let t := during .streamTxSet h p s
    let i := u8 p 0
    let id : BulkId := .streamTx (Fin.ofNat 64 i)
    (checkTxSet p t = .ok → exec (.streamTxSet h p) s = .next (answered .streamTxSet h .ok []
      (if u8 p 1 = 0 then poolDrop id (putTx i {} t) else poolPut id 128 (putTx i (txOf p) t)))) ∧
    (checkTxSet p t ≠ .ok → exec (.streamTxSet h p) s = .next (answered .streamTxSet h (checkTxSet p t) [] t))) ∧
  (ready .streamStatus h p s = true → p.length = 4 → u8 p 0 ≤ 1 → 1 ≤ u8 p 2 → u8 p 2 ≤ 32 → u8 p 3 ≤ 1 →
    u8 p 1 ≤ 63 → u8 p 1 + u8 p 2 ≤ 64 →
    let t := during .streamStatus h p s
    let l := (List.range (u8 p 2)).map (u8 p 1 + ·)
    let v := latchView t
    let u := if u8 p 3 = 0 then t else { t with
      net := clearStreams (u8 p 0 == 1) l v.net t.net
      latch := { t.latch with net := clearStreams (u8 p 0 == 1) l v.net t.latch.net } }
    exec (.streamStatus h p) s = .next (answered .streamStatus h .ok
      (le 8 v.clk.stamp ++ le 1 (u8 p 0) ++ le 1 (u8 p 1) ++ le 1 (u8 p 2) ++ zeros 5
        ++ (if u8 p 0 = 1 then l.flatMap (txEntry v) else l.flatMap (rxEntry v))) (clearEvent 5 u)))) ∧
  ((∀ (dt : Nat) (m : MediaPacket) (s : State), let t := advance dt s
    let l := linkPortOf m.port
    modeUp t.life.mode = true → linkIsUp t l = true →
    exec (.mediaPacketReceived dt m) s = .next ((List.range 64).foldl (fun (a : State) i =>
      if rxActive a i = true ∧ addressed a (rxSlotCfg a i) m = true then
        (if packetValid a (rxSlotCfg a i) m = true then takePacket i m a
         else setRxSlot i { rxSlot a i with discards := sat32 ((rxSlot a i).discards + 1) } a)
      else a) (countRx l t))) ∧
  (∀ (i : Nat) (m : MediaPacket) (s : State), let x := rxSlot s i
    let y := rxSlot (takePacket i m s) i
    (packetPath s m = false → y.packetsA = sat32 (x.packetsA + 1) ∧ y.packetsB = x.packetsB ∧ y.lastA = some s.sysCnt) ∧
    (packetPath s m = true → y.packetsB = sat32 (x.packetsB + 1) ∧ y.packetsA = x.packetsA ∧ y.lastB = some s.sysCnt) ∧
    ∀ j, j ≠ i → rxSlot (takePacket i m s) j = rxSlot s j) ∧
  (∀ (dt : Nat) (slot : Fin 64) (s : State), let t := advance dt s
    let i := slot.val
    let c := txSlotCfg t i
    let x := txSlot t i
    let p := max 1 (packetSamples c.rate c.ptime)
    modeUp t.life.mode = true → x.state ≠ .off →
    ∀ m l w last, nextPacket t i = some (m, l, w, last) →
    let u := [false, true].foldl (sendMedia i m (l.flatMap (frameOut c))) t
    let y := txSlot u i
    let v := setTxSlot i { y with
      seq := y.seq + 1, w := w, last := last, buf := if txDec t i = true then y.buf else y.buf.filter (fun e => decide (m + p ≤ e.1))
      state := if y.state = .starting then .running else y.state } u
    (y.state = .running → exec (.streamPacketSend dt slot) s = .next v) ∧
    (y.state = .starting → exec (.streamPacketSend dt slot) s = .next (postEvent 5 v)) ∧
    (∀ q, y.state = .stopping → y.silentAt = some q → q < m + p → exec (.streamPacketSend dt slot) s = .next (txEnd i v))) ∧
  (∀ (dt : Nat) (slot : Fin 64) (s : State), let t := advance dt s
    let i := slot.val
    let c := rxSlotCfg t i
    (rxSlot t i).state ≠ .off →
    let x := rxSlot t i
    ((rxSlot t i).state ≠ .stopping → inForce .streamLost (rxObject t i) 0 t = false →
      x.lastA.isSome = true ∨ x.lastB.isSome = true → delivering t x.lastA = false → delivering t x.lastB = false →
      let down := [false, true].all (fun b => !c.paths.getLsbD (bit b) || !linkIsUp t (linkPortOf (if b then .b else .a)))
      exec (.streamLost dt slot) s = .next (postEvent 5 (raise .streamLost (rxObject t i) 0
        (streamDetail i (pathsCode c.paths) (if down then 2 else 1)) (setRxSlot i { x with reportAt := t.sysCnt } t)))) ∧
    (inForce .streamLost (rxObject t i) 0 t = true → exec (.streamLost dt slot) s = .next t ∧
      (x.reportAt + secCounts ≤ t.sysCnt → exec (.streamReportRepeat dt slot) s =
        .next (igmpReports slot (setRxSlot i { x with reportAt := t.sysCnt } t))))) ∧
  (∀ (dt : Nat) (slot : Fin 64) (path : NetPort) (s : State), let t := advance dt s
    let i := slot.val
    (rxSlot t i).state ≠ .off → (rxSlot t i).state ≠ .stopping → (rxSlotCfg t i).paths = 3 →
    pathGone t (rxSlot t i) path = true →
    (inForce .pathLost (rxObject t i) 0 t = false → exec (.pathLost dt slot path) s =
      .next (postEvent 5 (raise .pathLost (rxObject t i) 0
        (streamDetail i (portIdx path) (if linkIsUp t (linkPortOf path) then 1 else 2)) t))) ∧
    (inForce .pathLost (rxObject t i) 0 t = true → exec (.pathLost dt slot path) s = .next t)))


/-! ### Cooper cores as the module runs them -/

/-- COOP_LOAD begins, continues, ends and removes an image; COOP_PARAM reads parameters and read-back words; COOP_STATUS
reports and clears its peaks and counts where asked; COOP_DEBUG releases, halts, steps and resumes a core. -/
def Obligations.CoopCommands : Prop := ∀ (h : Hdr) (p : Bytes) (s : State),
  (ready .coopLoad h p s = true → 8 ≤ p.length → u8 p 0 ≤ 3 → u16 p 2 = 0 →
    let t := during .coopLoad h p s
    let k := u8 p 0
    let c := coreOf t k
    (∀ l, c.load = some l → l.owner = h.rq) →
    (u8 p 1 = 0 → p.length = 8 → 256 ≤ u32 p 4 → u32 p 4 ≤ 332032 → coreRuns c = false →
      exec (.coopLoad h p) s = .next (answered .coopLoad h .ok []
        (setCore k { coreOf (emptyCore k t) k with state := .loading, load := some ⟨h.rq, u32 p 4, []⟩ } (emptyCore k t)))) ∧
    (u8 p 1 = 1 → c.state = .loading → 12 ≤ p.length → p.length ≤ 8 + (if h.rq = .spi then 4088 else 1388) →
      p.length % 4 = 0 → ∀ l, c.load = some l → u32 p 4 = l.data.length → l.data.length + (p.length - 8) ≤ l.len →
      exec (.coopLoad h p) s = .next (answered .coopLoad h .ok []
        (setCore k { c with load := some { l with data := l.data ++ p.drop 8 } } t))) ∧
    (u8 p 1 = 2 → p.length = 8 → u32 p 4 = 0 → c.state = .loading →
      ∀ l v, c.load = some l → l.data.length = l.len → headerCheck l.data = .ok → imageSigned t l.data = some v →
      u32 l.data 24 + caskKibUsed t k ≤ 32768 →
      let u := installCore k l.data v t
      exec (.coopLoad h p) s = .next (answered .coopLoad h .ok ((l.data.drop 8).take 4 ++ le 1 (bit v) ++ zeros 3)
        (poolPut (.image (Fin.ofNat 4 k)) (64 + l.len)
          (setCoopCfg k { coopCfg u k with image := l.data, params := imageParams l.data } u)))) ∧
    (u8 p 1 = 2 → p.length = 8 → u32 p 4 = 0 → c.state = .loading →
      ∀ l, c.load = some l → l.data.length = l.len → headerCheck l.data = .ok → imageSigned t l.data = none →
      exec (.coopLoad h p) s = .next (answered .coopLoad h .authFail [] (emptyCore k t))) ∧
    (u8 p 1 = 3 → p.length = 8 → u32 p 4 = 0 → coreRuns c = false →
      exec (.coopLoad h p) s = .next (answered .coopLoad h .ok [] (emptyCore k t)))) ∧
  (ready .coopParam h p s = true → u8 p 1 ≠ 0 →
    let t := during .coopParam h p s
    let c := coreOf t (u8 p 0)
    checkCoopParam h.timed.isSome p t = .ok →
    let words := fun (x : Tab Word) => (List.range (u16 p 4)).flatMap (fun i => le 4 (tget (0 : Word) x (u16 p 2 + i)).toNat)
    (u8 p 1 = 1 → exec (.coopParam h p) s =
      .next (answered .coopParam h .ok (le 8 c.paramBlock ++ words (coopCfg t (u8 p 0)).params) t)) ∧
    (u8 p 1 = 2 → exec (.coopParam h p) s = .next (answered .coopParam h .ok (le 8 c.rbBlock ++ words c.rbHost) t))) ∧
  (ready .coopStatus h p s = true → p.length = 4 → u8 p 0 ≤ 1 → zeroAt p 1 3 = true →
    let t := during .coopStatus h p s
    let v := latchView t
    let pay := le 8 v.clk.stamp ++ zeros 8 ++ (List.range 4).flatMap (coopEntry v)
    (u8 p 0 = 0 → exec (.coopStatus h p) s = .next (answered .coopStatus h .ok pay t)) ∧
    (u8 p 0 = 1 → exec (.coopStatus h p) s = .next (answered .coopStatus h .ok pay { t with
      coop := clearCores v.coop t.coop, latch := { t.latch with coop := clearCores v.coop t.latch.coop } }))) ∧
  (ready .coopDebug h p s = true → p.length = 8 → u8 p 1 ≤ 3 → u16 p 2 = 0 →
    let t := during .coopDebug h p s
    let k := u8 p 1
    let c := coreOf t k
    (u8 p 0 = 0 → exec (.coopDebug h p) s = .next (answered .coopDebug h .ok [] (debugRelease k t))) ∧
    (clockStopped t = true →
      (u8 p 0 = 1 → (c.state = .starting ∨ c.state = .running ∨ c.state = .stopping) →
        exec (.coopDebug h p) s = .next (answered .coopDebug h .ok []
          (if c.active = true ∨ c.state = .starting then setCore k { c with haltReq := true } t else debugHalt k t))) ∧
      (u8 p 0 = 2 → c.state = .halted → 1 ≤ u32 p 4 → u32 p 4 ≤ 65535 →
        exec (.coopDebug h p) s = .next (answered .coopDebug h .ok [] (debugStep k (u32 p 4) t))) ∧
      (u8 p 0 = 3 → c.state = .halted → exec (.coopDebug h p) s = .next (answered .coopDebug h .ok []
        (setCore k { c with state := .running, steps := 0, skipBreak := true, presented := false } t)))))

/-- A start's initialisation gives the core its image's data, and registers, allocation and output of zeros; a block boundary
presents the block of two boundaries before and starts the next one, leaves it pending behind a late one, or drops it;
overruns are recorded one by one; a block four periods old traps; 1 s after its trap a core restarts, up to three times until
it has run for 60 s; a DMA transfer arrives whole. -/
def Obligations.CoopEvents : Prop := (∀ (dt : Nat) (k : Fin 4) (s : State), let t := advance dt s
    let c := coreOf t k
    c.state = .starting → c.inited = false → exec (.coopInitComplete dt k) s = .next (setCore k { c with
      inited := true, xmem := wordTab 0 c.image.xinit, ymem := wordTab 0 c.image.yinit, cask := [], out := [],
      regs := {}, dma := List.replicate 4 {}, param := (coopCfg t k).params, pc := c.image.entry } t)) ∧
  (∀ (dt : Nat) (k : Fin 4) (s : State), let t := advance dt s
    let c := coreOf t k
    let n := c.bnd + 1
    let b : InBlock := ⟨c.bnd, c.nextNum - c.image.block, c.collect⟩
    let d := { c with bnd := n, collect := [], latest := some b, noted := false }
    coreRuns c = true → c.inited = true → c.image.block ≠ 0 → c.image.block ≤ c.collect.length → c.noted = false →
    (c.state = .running → lateAt c n = false →
      exec (.coopBlockTrigger dt k) s = .next (boundaryTrigger k b (boundaryPresent k n (setCore k d t)))) ∧
    (c.state = .running → lateAt c n = true →
      exec (.coopBlockTrigger dt k) s =
        .next (boundaryTrigger k b (boundaryPresent k n (setCore k { d with unrec := c.unrec ++ [1] } t)))) ∧
    (c.state = .stopping → c.stopIn = 0 → c.w = 0 → lateAt c n = false →
      exec (.coopBlockTrigger dt k) s = .next (stopCore k (setCore k d t))) ∧
    (c.state = .halted → exec (.coopBlockTrigger dt k) s = .next (setCore k { d with present := [], ready := none } t))) ∧
  (∀ (k : Fin 4) (b : InBlock) (s : State), let c := coreOf s k
    (c.active = false → boundaryTrigger k b s = startBlock k b false s) ∧
    (c.active = true → c.waiting = none → boundaryTrigger k b s = setCore k { c with waiting := some b } s) ∧
    (∀ w, c.active = true → c.waiting = some w → boundaryTrigger k b s = setCore k { c with unrec := c.unrec ++ [2] } s)) ∧
  (∀ (dt : Nat) (k : Fin 4) (s : State), let t := advance dt s
    let c := coreOf t k
    (∀ x l, c.unrec = x :: l → exec (.coopOverrun dt k) s = .next (recordOverrun k x (setCore k { c with unrec := l } t))) ∧
    (c.unrec = [] → c.state = .running → c.noted = false → c.image.block ≤ c.collect.length → lateAt c (c.bnd + 1) = true →
      exec (.coopOverrun dt k) s = .next (recordOverrun k 1 (setCore k { c with noted := true } t))) ∧
    (c.active = true → c.state ≠ .halted → c.state ≠ .trapped → c.cur.num + 4 ≤ c.bnd →
      exec (.coopRunaway dt k) s = .next (coreTrap k 5 c.pc t)) ∧
    (c.state = .trapped → (coopCfg t k).restart = true → (coopCfg t k).run = true → c.trapReason ≠ 8 → c.restarts < 3 →
      c.trapAt + secCounts ≤ t.sysCnt → c.image.cyclesMax ≤ cycleBudget t.clk.fs c.image.block →
      (coresHeld t = false → exec (.coopRestart dt k) s =
        .next (unmarkCore k (beginCore k (nextFrame t) (setCore k { c with restarts := c.restarts + 1 } t)))) ∧
      (coresHeld t = true → exec (.coopRestart dt k) s = .next (markCore k t))) ∧
    (c.state = .trapped → 3 ≤ c.restarts → exec (.coopRestart dt k) s = .next t) ∧
    (c.state = .running → c.runAt + 60 * secCounts ≤ t.sysCnt →
      exec (.coopRestartCountReset dt k) s = .next (setCore k { c with restarts := 0, exhausted := false } t))) ∧
  (∀ (dt : Nat) (k ch : Fin 4) (s : State), let t := advance dt s
    let c := coreOf t k
    ∀ ca lo n out, (c.dma.getD ch {}).now = some (ca, lo, n, out) →
    let d := { c with dma := c.dma.set ch { c.dma.getD ch {} with now := none, doneBit := true } }
    (lo < 0x40000 → let j := (lo - 0x20000) / 4
      exec (.dmaDone dt k ch) s = .next (setCore k
        (if out then { d with cask := copyWords c.xmem j c.cask (ca / 4) (n / 4) }
         else { d with xmem := copyWords c.cask (ca / 4) c.xmem j (n / 4) }) t)) ∧
    (0x40000 ≤ lo → let j := (lo - 0x40000) / 4
      exec (.dmaDone dt k ch) s = .next (setCore k
        (if out then { d with cask := copyWords c.ymem j c.cask (ca / 4) (n / 4) }
         else { d with ymem := copyWords c.cask (ca / 4) c.ymem j (n / 4) }) t)))


/-! ### Cooper instructions -/

/-- A Cooper instruction does nothing on a core that does not execute or whose next instruction is another; before an enabled
breakpoint the core halts instead; a flow instruction that ends a repeat body traps with reason 1. -/
def Obligations.CooperIssue : Prop := ∀ (i : Instr) (k : Fin 4) (op : CoopOp) (s : State), coopOf i = some (k, op) →
    let c := coreOf s k
    (executing c = false ∨ fetched c ≠ some op → exec i s = .next s) ∧
    (executing c = true → fetched c = some op → atBreak c = true → exec i s = .next (debugHalt k s)) ∧
    (executing c = true → fetched c = some op → atBreak c = false → endsFlow op = true → (∃ l ∈ c.reps, l.last = c.pc) →
      exec i s = .next (coreTrap k 1 c.pc s))

/-- MAC, MSU and MPY work on exact products and write one accumulator or two; an accumulator result wraps modulo 2^72 or
clamps by ASAT, setting AOV and SOV; ADD, SUB and CMP set their flags from the exact result, data results wrapping or clamping
by DSAT. -/
def Obligations.CooperArithmetic : Prop := (∀ (k : Fin 4) (f : MulFields) (s : State) (i : Instr) (op : CoopOp) (g : Int → Int → Int),
    (i, op, g) ∈ multiplies k f → issues k op s = true → f.mv = .none →
    let c := coreOf s k
    exec i s = .next (retired k 1 { c with regs := multiplied g f c.regs } s)) ∧
  (∀ (r : BitVec 13) (a : Fin 4) (x : Int), let v := (accResult r a x).1
    let q := (accResult r a x).2
    (-2361183241434822606848 ≤ x → x ≤ 2361183241434822606847 → v.toInt = x ∧ q = r) ∧
    (x < -2361183241434822606848 ∨ 2361183241434822606847 < x → srBit q a = true ∧
      (srBit r bitAsat = false → v = BitVec.ofInt 72 x ∧ srBit q bitSov = srBit r bitSov) ∧
      (srBit r bitAsat = true → srBit q bitSov = true ∧
        v.toInt = if x < 0 then -2361183241434822606848 else 2361183241434822606847))) ∧
  (∀ (r : BitVec 13) (x : Int), let y := dataResult r x
    (-2147483648 ≤ x → x ≤ 2147483647 → y = (x, r)) ∧
    (x < -2147483648 ∨ 2147483647 < x →
      (srBit r bitDsat = false → y = ((BitVec.ofInt 32 x).toInt, r)) ∧
      (srBit r bitDsat = true → y = (if x < 0 then -2147483648 else 2147483647, srPut r bitSov true)))) ∧
  (∀ (k : Fin 4) (d a : Fin 16) (b : AluB) (s : State), let c := coreOf s k
    let g := c.regs
    let x := regD g a
    let y := bSigned g b
    (issues k (.add (.data d a b)) s = true → let r := dataResult g.sr (x.toInt + y.toInt)
      exec (.add k (.data d a b)) s = .next (retired k 1 { c with regs := { putD d (BitVec.ofInt 32 r.1) g with
        sr := srZNVC r.2 r.1 (over32 (x.toInt + y.toInt)) (decide (2 ^ 32 ≤ x.toNat + y.toNat)) } } s)) ∧
    (issues k (.sub (.data d a b)) s = true → let r := dataResult g.sr (x.toInt - y.toInt)
      exec (.sub k (.data d a b)) s = .next (retired k 1 { c with regs := { putD d (BitVec.ofInt 32 r.1) g with
        sr := srZNVC r.2 r.1 (over32 (x.toInt - y.toInt)) (decide (y.toNat ≤ x.toNat)) } } s)) ∧
    (issues k (.cmp (.data a b)) s = true →
      exec (.cmp k (.data a b)) s = .next (retired k 1 { c with regs := { g with
        sr := srZNVC g.sr (x - y).toInt (over32 (x.toInt - y.toInt)) (decide (y.toNat ≤ x.toNat)) } } s))) ∧
  (∀ (k : Fin 4) (d a b : Fin 4) (s : State), let c := coreOf s k
    let g := c.regs
    let x := regA g a
    let y := regA g b
    (issues k (.add (.acc d a b)) s = true → let r := accResult g.sr d (x.toInt + y.toInt)
      exec (.add k (.acc d a b)) s =
        .next (retired k 1 { c with regs := { putA d r.1 g with sr := srZN r.2 r.1.toInt } } s)) ∧
    (issues k (.sub (.acc d a b)) s = true → let r := accResult g.sr d (x.toInt - y.toInt)
      exec (.sub k (.acc d a b)) s =
        .next (retired k 1 { c with regs := { putA d r.1 g with sr := srZN r.2 r.1.toInt } } s)) ∧
    (issues k (.cmp (.acc a b)) s = true → exec (.cmp k (.acc a b)) s = .next (retired k 1 { c with regs := { g with
      sr := srZNVC g.sr (x.toInt - y.toInt) false (decide (y.toNat ≤ x.toNat)) } } s)))

/-- AND, OR and XOR clear V and C; SHL and ASR leave the last bit out in C, a free value after a shift by 0; NORM counts
redundant sign bits; RND and SAT round and clamp by RNONE and NSAT. -/
def Obligations.CooperLogic : Prop := (∀ (k : Fin 4) (f : LogicForm) (s : State), let c := coreOf s k
    let x := regD c.regs f.a
    let y := bZero c.regs f.b
    let put := fun (v : Word) =>
      retired k 1 { c with regs := { putD f.d v c.regs with sr := srZNVC c.regs.sr v.toInt false false } } s
    (issues k (.and f) s = true → exec (.and k f) s = .next (put (x &&& y))) ∧
    (issues k (.or f) s = true → exec (.or k f) s = .next (put (x ||| y))) ∧
    (issues k (.xor f) s = true → exec (.xor k f) s = .next (put (x ^^^ y)))) ∧
  (∀ (k : Fin 4) (d a : Fin 16) (b : ShCount) (s : State), let c := coreOf s k
    let g := c.regs
    let n := shCount g b
    let x := regD g a
    (issues k (.shl (.data d a b)) s = true → let e := x.toInt * (2 ^ n : Nat)
      let r := dataResult g.sr e
      let cy := if n = 0 then Config.shiftC (coreDraw c) else decide (n ≤ 32) && x.getLsbD (32 - n)
      exec (.shl k (.data d a b)) s = .next (retired k 1 { c with regs := { putD d (BitVec.ofInt 32 r.1) g with
        sr := srZNVC r.2 r.1 (over32 e) cy } } s)) ∧
    (issues k (.asr (.data d a b)) s = true →
      let cy := if n = 0 then Config.shiftC (coreDraw c) else x.getLsbD (min (n - 1) 31)
      exec (.asr k (.data d a b)) s = .next (retired k 1 { c with regs := { putD d (x.sshiftRight n) g with
        sr := srZNVC g.sr (x.sshiftRight n).toInt false cy } } s))) ∧
  (∀ (k : Fin 4) (d a : Fin 4) (b : ShCount) (s : State), let c := coreOf s k
    let g := c.regs
    let n := shCount g b
    let x := regA g a
    (issues k (.shl (.acc d a b)) s = true → let r := accResult g.sr d (x.toInt * (2 ^ n : Nat))
      let cy := if n = 0 then Config.shiftC (coreDraw c) else decide (n ≤ 72) && x.getLsbD (72 - n)
      exec (.shl k (.acc d a b)) s = .next (retired k 1 { c with regs := { putA d r.1 g with
        sr := srPut (srZN r.2 r.1.toInt) bitC cy } } s)) ∧
    (issues k (.asr (.acc d a b)) s = true →
      let cy := if n = 0 then Config.shiftC (coreDraw c) else x.getLsbD (min (n - 1) 71)
      exec (.asr k (.acc d a b)) s = .next (retired k 1 { c with regs := { putA d (x.sshiftRight n) g with
        sr := srZNVC g.sr (x.sshiftRight n).toInt false cy } } s))) ∧
  (∀ (k : Fin 4) (d a : Fin 16) (b : Fin 4) (s : State), let c := coreOf s k
    let g := c.regs
    (issues k (.norm (.data d a)) s = true → exec (.norm k (.data d a)) s = .next (retired k 1 { c with
      regs := { putD d (BitVec.ofNat 32 (normD (regD g a))) g with sr := srZN g.sr (normD (regD g a)) } } s)) ∧
    (issues k (.norm (.acc d b)) s = true → exec (.norm k (.acc d b)) s = .next (retired k 1 { c with
      regs := { putD d (BitVec.ofInt 32 (normA (regA g b))) g with sr := srZN g.sr (normA (regA g b)) } } s))) ∧
  (∀ x : Word, normD x ≤ 31 ∧ (∀ i, i < normD x → x.getLsbD (30 - i) = x.msb) ∧
    (normD x < 31 → x.getLsbD (30 - normD x) = !x.msb)) ∧
  (∀ x : BitVec 72, -9 ≤ normA x ∧ normA x ≤ 62 ∧
    (∀ i : Nat, (i : Int) < normA x + 9 → x.getLsbD (70 - i) = x.msb) ∧
    (normA x < 62 → x.getLsbD (70 - (normA x + 9).toNat) = !x.msb)) ∧
  (∀ (k : Fin 4) (d a : Fin 16) (b : Fin 4) (w : Fin 32) (s : State), let c := coreOf s k
    let g := c.regs
    (issues k (.rnd (.narrow d b)) s = true → let r := narrowTo g.sr 32 (roundDrop g.sr (regA g b).toInt 31)
      let v := BitVec.ofInt 32 r.1
      exec (.rnd k (.narrow d b)) s =
        .next (retired k 1 { c with regs := { putD d v g with sr := srZN r.2 v.toInt } } s)) ∧
    (issues k (.rnd (.data d a w)) s = true → let n := 32 - w.val
      let r := narrowTo g.sr w (roundDrop g.sr (regD g a).toInt n)
      let v := r.1 * (2 ^ n : Nat)
      exec (.rnd k (.data d a w)) s =
        .next (retired k 1 { c with regs := { putD d (BitVec.ofInt 32 v) g with sr := srZN r.2 v } } s)) ∧
    (∀ e : Fin 4, issues k (.sat (.acc e b)) s = true → let x := (regA g b).toInt
      let v := max (-(2 : Int) ^ 62) (min ((2 : Int) ^ 62 - 2 ^ 31) x)
      exec (.sat k (.acc e b)) s = .next (retired k 1 { c with regs := { putA e (BitVec.ofInt 72 v) g with
        sr := srStick g.sr bitSov (v != x) } } s)) ∧
    (issues k (.sat (.data d a w)) s = true → let x := (regD g a).toInt
      let v := max (-(2 : Int) ^ 31) (min (((2 : Int) ^ (w.val - 1) - 1) * 2 ^ (32 - w.val)) x)
      exec (.sat k (.data d a w)) s = .next (retired k 1 { c with regs := { putD d (BitVec.ofInt 32 v) g with
        sr := srStick g.sr bitSov (v != x) } } s))) ∧
  (∀ (r : BitVec 13) (w : Nat) (x : Int), 1 ≤ w →
    (-(2 : Int) ^ (w - 1) ≤ x → x < 2 ^ (w - 1) → narrowTo r w x = (x, r)) ∧
    (x < -(2 : Int) ^ (w - 1) → srBit r bitNsat = true → narrowTo r w x = (-(2 : Int) ^ (w - 1), srPut r bitSov true)) ∧
    ((2 : Int) ^ (w - 1) ≤ x → srBit r bitNsat = true → narrowTo r w x = ((2 : Int) ^ (w - 1) - 1, srPut r bitSov true)) ∧
    (x < -(2 : Int) ^ (w - 1) ∨ (2 : Int) ^ (w - 1) ≤ x → srBit r bitNsat = false →
      narrowTo r w x = ((BitVec.ofInt w x).toInt, r))) ∧
  (∀ (r : BitVec 13) (x : Int) (n : Nat), srBit r bitRnone = true → roundDrop r x n * 2 ^ n ≤ x ∧
    x < (roundDrop r x n + 1) * 2 ^ n)

/-- ACS takes, for each of two pairs, the candidate that the 16-bit signed difference prefers, ties to the first, and shifts
its two decisions into TB; BEXP leaves in BE the least redundancy of the words it scans, before a region check fails too. -/
def Obligations.CooperTrellis : Prop := (∀ (k : Fin 4) (f : AcsForm) (s : State), let c := coreOf s k
    let g := c.regs
    let h := fun (i : Nat) (hi : Bool) => if hi then (regD g i).toNat / 65536 else (regD g i).toNat % 65536
    let pick := fun (a b : Nat) => if (BitVec.ofNat 16 b - BitVec.ofNat 16 a).msb then (b % 65536, 1) else (a % 65536, 0)
    let pa := h f.a f.ha
    let pb := h f.b f.hb
    let l0 := h f.l f.sw
    let l1 := h f.l (!f.sw)
    let r0 := pick (pa + l0) (pb + l1)
    let r1 := pick (pa + l1) (pb + l0)
    issues k (.acs f) s = true → exec (.acs k f) s = .next (retired k 1 { c with
      regs := { putD f.d (BitVec.ofNat 32 (r1.1 * 65536 + r0.1)) g with
        tb := (g.tb <<< 2) ||| BitVec.ofNat 64 (r0.2 * 2 + r1.2) } } s)) ∧
  (∀ (k : Fin 4) (f : BexpForm) (s : State), issues k (.bexp f) s = true →
    let c := coreOf s k
    let c0 := if f.clr then { c with regs := { c.regs with be := 31 } } else c
    let r := bexpLoop k f f.n.toNat c0
    (r.2 = true → exec (.bexp k f) s = .next (went k (afterInstr c.pc r.1) s)) ∧
    (r.2 = false → exec (.bexp k f) s = .next (trappedAs k 2 r.1 s))) ∧
  (∀ (k : Nat) (f : BexpForm) (n : Nat) (c : Core), let r := (bexpLoop k f n c).1
    r.regs.be.toNat ≤ c.regs.be.toNat ∧ r.xmem = c.xmem ∧ r.ymem = c.ymem ∧ r.regs.d = c.regs.d ∧ r.regs.a = c.regs.a ∧
    r.regs.sr = c.regs.sr) ∧
  (∀ (k : Nat) (f : BexpForm) (c : Core) (x y : Word), loadAt k c f.pa = some x →
    loadAt k (beMerge x c) f.pb = some y → (bexpLoop k f 1 c).2 = true ∧
      (bexpLoop k f 1 c).1.regs.be.toNat = min (min c.regs.be.toNat (normD x)) (normD y) ∧
      (bexpLoop k f 1 c).1.cycles = c.cycles + 1 + bankClash c.regs f.pa f.pb)

/-- Words are read and written by region and only at multiples of 4: an access outside the regions, a load from PROG and a
store to a read-only region trap with reason 2. LD, LDD, ST and the moves beside a multiply take their address before they
modify the pointer, and the moves take their operands from before the instruction. -/
def Obligations.CooperMemory : Prop := (∀ (k draw : Nat) (c : Core) (a : Nat) (v : Word),
    (a % 4 ≠ 0 ∨ a < 0x20000 ∨ (0x65000 ≤ a ∧ a < 0x70000) ∨ (0x74400 ≤ a ∧ a < 0x7F000) ∨ 0x7F100 ≤ a →
      coreLoad k draw c a = none ∧ coreStore c a v = .error 2) ∧
    (0x60000 ≤ a → a < 0x65000 → coreStore c a v = .error 2) ∧
    (a % 4 = 0 →
      (0x20000 ≤ a → a < 0x40000 → coreLoad k draw c a = some (tget 0 c.xmem ((a - 0x20000) / 4)) ∧
        coreStore c a v = .ok { c with xmem := tset 0 c.xmem ((a - 0x20000) / 4) v }) ∧
      (0x40000 ≤ a → a < 0x60000 → coreLoad k draw c a = some (tget 0 c.ymem ((a - 0x40000) / 4)) ∧
        coreStore c a v = .ok { c with ymem := tset 0 c.ymem ((a - 0x40000) / 4) v }) ∧
      (0x64000 ≤ a → a < 0x65000 → coreLoad k draw c a = some (tget 0 c.param ((a - 0x64000) / 4))) ∧
      (0x74000 ≤ a → a < 0x74400 → coreLoad k draw c a = some (tget 0 c.rb ((a - 0x74000) / 4)) ∧
        coreStore c a v = .ok { c with rb := tset 0 c.rb ((a - 0x74000) / 4) v }))) ∧
  (∀ (k : Fin 4) (d : Fin 16) (p : Fin 8) (ad : Addr) (s : State), let c := coreOf s k
    let e := effAddr c.regs p ad
    issues k (.ld (.mem d p ad)) s = true →
    (∀ x, coreLoad k (coreDraw c) c e.1 = some x → exec (.ld k (.mem d p ad)) s =
      .next (retired k 1 { c with regs := putP p e.2 (putD d x c.regs) } s)) ∧
    (coreLoad k (coreDraw c) c e.1 = none → exec (.ld k (.mem d p ad)) s = .next (trappedAs k 2 c s))) ∧
  (∀ (k : Fin 4) (s : State), let c := coreOf s k
    (∀ (r : Fin 42) (v : BitVec 16),
      (issues k (.ld (.immLow r v)) s = true → exec (.ld k (.immLow r v)) s =
        .next (retired k 1 { c with regs := writeCode r (v.signExtend 32) c.regs } s)) ∧
      (issues k (.ld (.immHigh r v)) s = true → exec (.ld k (.immHigh r v)) s =
        .next (retired k 1 { c with regs := writeCode r (v ++ (readCode c r).setWidth 16) c.regs } s))) ∧
    (∀ (d : Fin 48) (q : Fin 44), issues k (.ld (.reg d q)) s = true → exec (.ld k (.reg d q)) s =
      .next (retired k 1 { c with regs := writeCode d (readCode c q) c.regs } s))) ∧
  (∀ (k : Fin 4) (f : LddFields) (s : State), let c := coreOf s k
    let g := c.regs
    issues k (.ldd f) s = true →
    (∀ x y, loadAt k c f.pa = some x → loadAt k c f.pb = some y → exec (.ldd k f) s =
      .next (retired k (1 + bankClash g f.pa f.pb) { c with
        regs := putP f.pb (postMod g f.pb f.mb) (putP f.pa (postMod g f.pa f.ma) (putD f.db y (putD f.da x g))) } s)) ∧
    (loadAt k c f.pa = none ∨ loadAt k c f.pb = none → exec (.ldd k f) s = .next (trappedAs k 2 c s))) ∧
  (∀ (k : Fin 4) (f : StForm) (s : State), let c := coreOf s k
    let g := c.regs
    let e := effAddr g f.p f.ad
    let v := stValue g g.sr f.src
    issues k (.st f) s = true →
    (∀ c1, coreStore c e.1 v.1 = .ok c1 → exec (.st k f) s =
      .next (retired k 1 { c1 with regs := putP f.p e.2 { g with sr := v.2 } } s)) ∧
    (∀ r, coreStore c e.1 v.1 = .error r → exec (.st k f) s = .next (trappedAs k r c s))) ∧
  (∀ (k : Fin 4) (f : MulFields) (s : State) (i : Instr) (op : CoopOp) (o : Int → Int → Int),
    (i, op, o) ∈ multiplies k f → issues k op s = true →
    let c := coreOf s k
    let g := c.regs
    let g1 := multiplied o f g
    (∀ m x y, f.mv = .ldd m → loadAt k c m.pa = some x → loadAt k c m.pb = some y → exec i s =
      .next (retired k (1 + bankClash g m.pa m.pb) { c with
        regs := putP m.pb (postMod g m.pb m.mb) (putP m.pa (postMod g m.pa m.ma) (putD m.db y (putD m.da x g1))) } s)) ∧
    (∀ d p m x, f.mv = .ld d p m → loadAt k c p = some x → exec i s =
      .next (retired k 1 { c with regs := putP p (postMod g p m) (putD d x g1) } s)) ∧
    (∀ src p m c1, f.mv = .st src p m → coreStore c (regP g p).toNat (stValue g g1.sr src).1 = .ok c1 → exec i s =
      .next (retired k 1 { c1 with regs := putP p (postMod g p m) { g1 with sr := (stValue g g1.sr src).2 } } s)) ∧
    (∀ d p m, f.mv = .ld d p m → loadAt k c p = none → exec i s = .next (trappedAs k 2 c s))) ∧
  (∀ (g : CoopRegs) (p : Nat),
    postMod g p .none = regP g p ∧ postMod g p .inc = regP g p + 4 ∧ postMod g p .off = regP g p + regN g p ∧
    (regM g p = 0 → postMod g p .modulo = regP g p + regN g p))

/-- BR takes its target where its condition, one of thirteen, holds, and leaves the repeat bodies it jumps out of; CALL and
RET push and pop a stack of 16; REP pushes a level of at most 4, with nested bodies, and skips its body for a count of 0;
ENDREP leaves a level; WAIT waits for its channels; BLKDONE ends the block; HALT, an illegal word, a fetch beyond the program
and a stack that overflows or underflows trap. -/
def Obligations.CooperControl : Prop := (∀ (k : Fin 4) (cc : Cond) (t : BrTarget) (s : State), let c := coreOf s k
    let n := match t with | .imm v => v.toNat | .reg d => (regD c.regs d).toNat % 16384
    (issues k (.br cc t) s = true →
      (condHolds c.regs.sr cc = true →
        exec (.br k cc t) s = .next (went k (jumpTo n { c with cycles := c.cycles + 2 }) s)) ∧
      (condHolds c.regs.sr cc = false → exec (.br k cc t) s = .next (retired k 1 c s))) ∧
    (issues k (.call t) s = true →
      (c.rstack.length < 16 → exec (.call k t) s =
        .next (went k { c with pc := n, rstack := (c.pc + 1) :: c.rstack, cycles := c.cycles + 2 } s)) ∧
      (16 ≤ c.rstack.length → exec (.call k t) s = .next (trappedAs k 7 c s)))) ∧
  (∀ (c : Core) (t : Nat), (jumpTo t c).pc = t ∧ ∃ l, c.reps = l ++ (jumpTo t c).reps ∧
    (∀ x ∈ l, t < x.first ∨ x.last < t) ∧ (∀ x ∈ (jumpTo t c).reps.head?, x.first ≤ t ∧ t ≤ x.last)) ∧
  (∀ r : BitVec 13, let z := srBit r bitZ
    let n := srBit r bitN
    let v := srBit r bitV
    let c := srBit r bitC
    condHolds r 0 = true ∧ (condHolds r 1 = true ↔ z = true) ∧ (condHolds r 2 = true ↔ z = false) ∧
    (condHolds r 3 = true ↔ n ≠ v) ∧ (condHolds r 4 = true ↔ n = v) ∧ (condHolds r 5 = true ↔ z = false ∧ n = v) ∧
    (condHolds r 6 = true ↔ z = true ∨ n ≠ v) ∧ (condHolds r 7 = true ↔ c = true) ∧ (condHolds r 8 = true ↔ c = false) ∧
    (condHolds r 9 = true ↔ v = true) ∧ (condHolds r 10 = true ↔ v = false) ∧ (condHolds r 11 = true ↔ n = true) ∧
    (condHolds r 12 = true ↔ n = false)) ∧
  (∀ w : Word, (fld w 31 26 = 0x10 ∨ fld w 31 26 = 0x14) → 13 ≤ fld w 25 22 → coopDecode w = none) ∧
  (∀ (k : Fin 4) (s : State), let c := coreOf s k
    (issues k .ret s = true →
      (∀ t l, c.rstack = t :: l → exec (.ret k) s =
        .next (went k (jumpTo t { c with rstack := l, cycles := c.cycles + 2 }) s)) ∧
      (c.rstack = [] → exec (.ret k) s = .next (trappedAs k 7 c s))) ∧
    (issues k .halt s = true → exec (.halt k) s = .next (trappedAs k 6 c s)) ∧
    (issues k .blkdone s = true → exec (.blkdone k) s = .next (blockDone k s)) ∧
    (∀ m, issues k (.wait m) s = true →
      ((∀ d, d < 4 → m.getLsbD d = true → (c.dma.getD d {}).now = none) → exec (.wait k m) s = .next (retired k 1 c s)) ∧
      ((∃ d, d < 4 ∧ m.getLsbD d = true ∧ (c.dma.getD d {}).now ≠ none) →
        exec (.wait k m) s = .next (went k { c with steps := c.steps + 1 } s))) ∧
    (executing c = true → fetched c = none → atBreak c = false →
      (c.image.progWords ≤ c.pc → exec (.illegalInstruction k) s = .next (coreTrap k 4 c.pc s)) ∧
      (c.pc < c.image.progWords → exec (.illegalInstruction k) s = .next (coreTrap k 1 c.pc s)))) ∧
  (∀ (k : Fin 4) (len : Fin 1024) (i : Instr) (op : CoopOp) (count : Nat) (s : State), let c := coreOf s k
    ((∃ n, i = .rep k len n ∧ op = .rep len n ∧ count = n.toNat) ∨
      (∃ d, i = .repRegisterCount k len d ∧ op = .repReg len d ∧ count = (regD c.regs d).toNat % 65536)) →
    issues k op s = true →
    let last := c.pc + len.val + 1
    ((∃ l ∈ c.reps, l.last < last) → exec i s = .next (trappedAs k 1 c s)) ∧
    ((∀ l ∈ c.reps, last ≤ l.last) →
      (count = 0 → exec i s = .next (went k (afterInstr last { c with cycles := c.cycles + 2 }) s)) ∧
      (count ≠ 0 → c.reps.length < 4 → exec i s = .next (went k { c with
        pc := c.pc + 1, reps := ⟨c.pc + 1, last, count⟩ :: c.reps, cycles := c.cycles + 1 } s)) ∧
      (count ≠ 0 → 4 ≤ c.reps.length → exec i s = .next (trappedAs k 7 c s)))) ∧
  (∀ (k : Fin 4) (cc : Cond) (s : State), let c := coreOf s k
    issues k (.endrep cc) s = true →
    (condHolds c.regs.sr cc = false → exec (.endrep k cc) s = .next (retired k 1 c s)) ∧
    (condHolds c.regs.sr cc = true → c.reps = [] → exec (.endrep k cc) s = .next (trappedAs k 7 c s)) ∧
    (∀ l t, condHolds c.regs.sr cc = true → c.reps = l :: t → exec (.endrep k cc) s =
      .next (went k (afterInstr l.last { c with reps := t, cycles := c.cycles + 2 }) s))) ∧
  (∀ (pc : Nat) (c : Core),
    ((∀ l ∈ c.reps.head?, l.last ≠ pc) → afterInstr pc c = { c with pc := pc + 1 }) ∧
    (∀ l t, c.reps = l :: t → l.last = pc → 1 < l.left →
      afterInstr pc c = { c with pc := l.first, reps := { l with left := l.left - 1 } :: t }) ∧
    (∀ l t, c.reps = l :: t → l.last = pc → l.left ≤ 1 → afterInstr pc c = afterInstr pc { c with reps := t })) ∧
  (∀ (k reason pc : Nat) (s : State), let c := coreOf s k
    let t := coreTrap k reason pc s
    t.sysCnt = s.sysCnt ∧ t.cfg = s.cfg ∧ t.pending = s.pending ∧
      (coreOf t k).state = .trapped ∧ (coreOf t k).active = false ∧ (coreOf t k).trapReason = reason ∧
      (coreOf t k).trapPc = 4 * pc ∧ (coreOf t k).image = c.image ∧ (coreOf t k).xmem = c.xmem ∧ (coreOf t k).ymem = c.ymem ∧
      (coreOf t k).cask = c.cask ∧ (∀ x ∈ (coreOf t k).dma, x.now = none))

/-- Every Cooper instruction that has an encoding is decoded from it with every field as it was. -/
def Obligations.CooperRoundTrip : Prop := ∀ op : CoopOp, op.wf = true → coopDecode (coopEncode op) = some op

/-- A Cooper instruction keeps the memories of its core in their canonical form and leaves every other core as it was. -/
def Obligations.CooperMemoryForm : Prop := ∀ (s t : State) (i : Instr) (k : Fin 4) (op : CoopOp), coopOf i = some (k, op) →
    MemoriesWf (coreOf s k) → exec i s = .next t → (∀ j : Nat, j ≠ k.val → coreOf t j = coreOf s j) ∧ MemoriesWf (coreOf t k)
end

