-- ==== Sys2Proof/Laws/Protocol.lean ====
section
/-! SUPPORT. What `opcode` does with a packet: each way it can go, said once. -/

namespace Sys2Proof.Machine

open Sys2Proof.Safety

/-- What a selected packet does. -/
theorem serve_reply {op : Op} {h : Hdr} {p pay : Bytes} {body : State → Ans} {s t : State} {st : Status}
    (hs : selected op h p (select s.cmd) = true) (hc : check9and10 op h { s with cmd := select s.cmd } = .ok)
    (hb : body { s with cmd := select s.cmd } = .reply st pay t) : serve op h p body s = answered op h st pay t := by
  unfold selected at hs
  unfold serve
  split at hs
  · rename_i q hq
    simp [hq, hs, hc, hb, answered]
  · simp at hs

theorem serve_late {op : Op} {h : Hdr} {p : Bytes} {body : State → Ans} {s t : State}
    (hs : selected op h p (select s.cmd) = true) (hc : check9and10 op h { s with cmd := select s.cmd } = .ok)
    (hb : body { s with cmd := select s.cmd } = .late t) : serve op h p body s = unanswered t := by
  unfold selected at hs
  unfold serve
  split at hs
  · rename_i q hq
    simp [hq, hs, hc, hb, unanswered]
  · simp at hs

/-- An executed packet is served. -/
theorem opcode_served {op : Op} {h : Hdr} {p : Bytes} {body : State → Ans} {s : State} (hr : ready op h p s = true) :
    opcode op h p body s = .next (serve op h p body (entered op h p s)) := by
  simp only [ready, Bool.and_eq_true] at hr
  obtain ⟨⟨⟨ha, hq⟩, -⟩, -⟩ := hr
  unfold opcode entered
  by_cases hi : isQueued op h p (advance h.dt s).cmd = true
  · simp [ha, hi]
  · rw [Bool.not_eq_true] at hi
    simp only [hi, Bool.false_or, beq_iff_eq] at hq
    simp only [ha, hi, Bool.not_true, Bool.false_eq_true, if_false]
    split
    · rename_i s1 h1; simp [h1]
    · rename_i st s1 hne h1; simp [h1] at hq; exact absurd hq hne

/-- An executed packet whose body replies. -/
theorem opcode_reply {op : Op} {h : Hdr} {p pay : Bytes} {body : State → Ans} {s t : State} {st : Status}
    (hr : ready op h p s = true) (hb : body (during op h p s) = .reply st pay t) :
    opcode op h p body s = .next (answered op h st pay t) := by
  rw [opcode_served hr]
  simp only [ready, Bool.and_eq_true, beq_iff_eq] at hr
  rw [serve_reply hr.1.2 hr.2 hb]

/-- An executed packet whose reply comes later. -/
theorem opcode_late {op : Op} {h : Hdr} {p : Bytes} {body : State → Ans} {s t : State}
    (hr : ready op h p s = true) (hb : body (during op h p s) = .late t) :
    opcode op h p body s = .next (unanswered t) := by
  rw [opcode_served hr]
  simp only [ready, Bool.and_eq_true, beq_iff_eq] at hr
  rw [serve_late hr.1.2 hr.2 hb]

/-- Where commands are not accepted a packet does nothing but let its time pass (R80, R87). -/
theorem opcode_deaf {op : Op} {h : Hdr} {p : Bytes} {body : State → Ans} {s : State}
    (ha : accepting (advance h.dt s) = false) : opcode op h p body s = .next (advance h.dt s) := by
  simp [opcode, ha]

/-- A packet always answers a next state: no opcode stops the block. -/
theorem opcode_next (op : Op) (h : Hdr) (p : Bytes) (body : State → Ans) (s : State) :
    ∃ t, opcode op h p body s = .next t := by
  unfold opcode
  dsimp only
  repeat' split
  all_goals exact ⟨_, rfl⟩

theorem opcodeN_next (op : Op) (n : Nat) (h : Hdr) (p : Bytes) (body : State → Ans) (s : State) :
    ∃ t, opcodeN op n h p body s = .next t := opcode_next op h p _ s

/-- An executed packet of the right length whose body replies. -/
theorem opcodeN_reply {op : Op} {n : Nat} {h : Hdr} {p pay : Bytes} {body : State → Ans} {s t : State} {st : Status}
    (hr : ready op h p s = true) (hn : p.length = n) (hb : body (during op h p s) = .reply st pay t) :
    opcodeN op n h p body s = .next (answered op h st pay t) :=
  opcode_reply hr (by simp only [hn, if_true]; exact hb)

/-- An executed packet of the right length whose reply comes later. -/
theorem opcodeN_late {op : Op} {n : Nat} {h : Hdr} {p : Bytes} {body : State → Ans} {s t : State}
    (hr : ready op h p s = true) (hn : p.length = n) (hb : body (during op h p s) = .late t) :
    opcodeN op n h p body s = .next (unanswered t) :=
  opcode_late hr (by simp only [hn, if_true]; exact hb)

/-- A packet of the wrong length is refused and changes nothing (R17, R538). -/
theorem opcodeN_length {op : Op} {n : Nat} {h : Hdr} {p : Bytes} {body : State → Ans} {s : State}
    (hr : ready op h p s = true) (hn : p.length ≠ n) :
    opcodeN op n h p body s = .next (answered op h .badLength [] (during op h p s)) :=
  opcode_reply hr (by simp only [hn, if_false];)

/-- The body of a landing command that is not timed, its checks passed: it waits for the next tick. -/
theorem landing_ok {op : Op} {h : Hdr} {p : Bytes} {check : State → Status} {s : State}
    (ht : h.timed = none) (hc : check s = .ok) :
    landing op h p check s =
      done { s with cmd := { s.cmd with landing := s.cmd.landing ++ [⟨op, h, p, false, arrivalOf s, false⟩] } } := by
  simp [landing, ht, hc, prepare]

/-- A landing command refused by its checks changes nothing. -/
theorem landing_refused {op : Op} {h : Hdr} {p : Bytes} {check : State → Status} {s : State}
    (ht : h.timed = none) (hc : check s ≠ .ok) : landing op h p check s = refuse (check s) s := by
  simp [landing, ht, hc]

/-- The state an opcode's body leaves. -/
def ansState : Ans → State
  | .reply _ _ s => s
  | .late s => s

@[simp] theorem ansState_reply (a b s) : ansState (.reply a b s) = s := Eq.trans rfl rfl

@[simp] theorem ansState_late (s) : ansState (.late s) = s := Eq.trans rfl rfl

@[simp] theorem ansState_ite (c : Prop) [Decidable c] (a b : Ans) : ansState (if c then a else b) =
    if c then ansState a else ansState b := apply_ite ansState c a b

end Sys2Proof.Machine
end

