-- ==== Sys2Proof/Laws/Bounds.lean ====
section
/-! SUPPORT. The lists whose length the spec bounds stay within their bounds. One lemma per operation. -/

set_option linter.unusedSimpArgs false

namespace Sys2Proof.Machine

theorem full_mk (a : List Instr) (b c : Nat) (d e f g h : _) (i : Cmd) (j : Flt) (k l m n o p q r t u v : _) :
    State.Full ⟨a, b, c, d, e, f, g, h, i, j, k, l, m, n, o, p, q, r, t, u, v⟩ =
      (i.store.length ≤ 16 ∧ i.queue.length ≤ 64 ∧ i.timed.length ≤ 256 ∧ j.log.length ≤ 2048 ∧ queueFits j.queue) := propext Iff.rfl

@[simp] theorem full_fold (s : State) : (s.cmd.store.length ≤ 16 ∧ s.cmd.queue.length ≤ 64 ∧ s.cmd.timed.length ≤ 256 ∧
    s.flt.log.length ≤ 2048 ∧ queueFits s.flt.queue) = s.Full := propext Iff.rfl

@[simp] theorem ite_full (c : Prop) [Decidable c] (a b : State) :
    (if c then a else b).Full = if c then a.Full else b.Full := apply_ite State.Full c a b

/-- A fold keeps what each of its steps keeps. -/
@[simp] theorem foldl_full {α : Type} {g : State → α → State} (hg : ∀ s a, s.Full → (g s a).Full) (l : List α) (s : State)
    (h : s.Full) : (l.foldl g s).Full := by
  induction l generalizing s with
  | nil => exact h
  | cons x t ih => exact ih _ (hg _ _ h)

theorem pairFold_full {α β : Type} {g : State × β → α → State × β} (hg : ∀ a c, a.1.Full → (g a c).1.Full) (l : List α)
    (a : State × β) (h : a.1.Full) : (l.foldl g a).1.Full := by
  induction l generalizing a with
  | nil => exact h
  | cons x t ih => exact ih _ (hg _ _ h)

@[simp] theorem iter_full {f : State → State} (hf : ∀ s, s.Full → (f s).Full) (n : Nat) (s : State) (h : s.Full) :
    (iter f n s).Full := by
  induction n generalizing s with
  | zero => exact h
  | succ n ih => exact ih _ (hf _ h)



@[simp] theorem advance_full (dt : Nat) (s : State) (hf : s.Full) : (advance dt s).Full := by
  unfold advance
  (repeat' split) <;> simp (maxDischargeDepth := 12) +contextual [full_mk, hf]

@[simp] theorem setLink_full (l : LinkPort) (x : LinkRt) (s : State) (hf : s.Full) : (setLink l x s).Full := by
  unfold setLink
  (repeat' split) <;> simp (maxDischargeDepth := 12) +contextual [full_mk, hf]

@[simp] theorem countRx_full (l : LinkPort) (s : State) (hf : s.Full) : (countRx l s).Full := by
  unfold countRx
  (repeat' split) <;> simp (maxDischargeDepth := 12) +contextual [full_mk, hf]

@[simp] theorem serveLink_full (l : LinkPort) (s : State) (hf : s.Full) : (serveLink l s).Full := by
  unfold serveLink
  (repeat' split) <;> simp (maxDischargeDepth := 12) +contextual [full_mk, hf]

@[simp] theorem serveLinks_full (s : State) (hf : s.Full) : (serveLinks s).Full := by
  unfold serveLinks
  (repeat' split) <;> simp (maxDischargeDepth := 12) +contextual [full_mk, hf]

@[simp] theorem sendFrame_full (l : LinkPort) (o : NetOut) (len : Nat) (s : State) (hf : s.Full) : (sendFrame l o len s).Full := by
  unfold sendFrame
  (repeat' split) <;> simp (maxDischargeDepth := 12) +contextual [full_mk, hf]

@[simp] theorem fresh_full (s : State) (hf : s.Full) : (fresh s).2.Full := by
  unfold fresh
  (repeat' split) <;> simp (maxDischargeDepth := 12) +contextual [full_mk, hf]

@[simp] theorem latchTick_full (s : State) (hf : s.Full) : (latchTick s).Full := by
  unfold latchTick
  (repeat' split) <;> simp (maxDischargeDepth := 12) +contextual [full_mk, hf]

@[simp] theorem sendDatagram_full (l : LinkPort) (ip : BitVec 32) (udp : BitVec 16) (key : Option (Fin 16)) (r : Reply) (s : State) (hf : s.Full) : (sendDatagram l ip udp key r s).Full := by
  unfold sendDatagram
  (repeat' split) <;> simp (maxDischargeDepth := 12) +contextual [full_mk, hf]

@[simp] theorem sendNotice_full (s : State) (hf : s.Full) : (sendNotice s).Full := by
  unfold sendNotice
  (repeat' split) <;> simp (maxDischargeDepth := 12) +contextual [full_mk, hf]

@[simp] theorem spiPut_queue (r : Reply) (c : Cmd) : (spiPut r c).queue = c.queue := by
  unfold spiPut
  (repeat' split) <;> rfl

@[simp] theorem spiPut_timed (r : Reply) (c : Cmd) : (spiPut r c).timed = c.timed := by
  unfold spiPut
  (repeat' split) <;> rfl

/-- A reply enters the store only where a place is free (R137). -/
theorem spiPut_store (r : Reply) (c : Cmd) (h : c.store.length ≤ 16) : (spiPut r c).store.length ≤ 16 := by
  unfold spiPut
  (repeat' split) <;> simp_all <;> omega

/-- Replies leave the holding list only where a place is free (R137). -/
theorem spiPromote_store (l : List Reply) (c : Cmd) (h : c.store.length ≤ 16) : (spiPromote l c).store.length ≤ 16 := by
  induction l generalizing c with
  | nil => exact h
  | cons r t ih =>
    unfold spiPromote
    split
    · rename_i g
      apply ih
      simp at g ⊢
      omega
    · exact h

@[simp] theorem spiPromote_queue (l : List Reply) (c : Cmd) : (spiPromote l c).queue = c.queue := by
  induction l generalizing c with
  | nil => rfl
  | cons r t ih =>
    unfold spiPromote
    split
    · exact ih _
    · rfl

@[simp] theorem spiPromote_timed (l : List Reply) (c : Cmd) : (spiPromote l c).timed = c.timed := by
  induction l generalizing c with
  | nil => rfl
  | cons r t ih =>
    unfold spiPromote
    split
    · exact ih _
    · rfl

theorem mix_full (m : Mix) (s : State) (h : s.Full) : State.Full { s with mix := m } := h

@[simp] theorem noticed_full (s0 s1 : State) (hf : s1.Full) : (noticed s0 s1).Full := by
  unfold noticed
  (repeat' split) <;> simp (maxDischargeDepth := 12) +contextual [full_mk, hf]

@[simp] theorem postEvent_full (src : Nat) (s : State) (hf : s.Full) : (postEvent src s).Full := by
  unfold postEvent
  (repeat' split) <;> simp (maxDischargeDepth := 12) +contextual [full_mk, hf]

@[simp] theorem clearEvent_full (src : Nat) (s : State) (hf : s.Full) : (clearEvent src s).Full := by
  unfold clearEvent
  (repeat' split) <;> simp (maxDischargeDepth := 12) +contextual [full_mk, hf]

@[simp] theorem reply_full (code : BitVec 16) (h : Hdr) (st : Status) (pay : Bytes) (s : State) (hf : s.Full) : (reply code h st pay s).Full := by
  unfold reply
  split
  · exact hf
  split
  · exact hf
  dsimp only
  split
  · exact noticed_full _ _ ⟨spiPut_store _ _ hf.1, by simpa using hf.2.1, by simpa using hf.2.2.1, hf.2.2.2⟩
  · exact sendDatagram_full _ _ _ _ _ _ hf

@[simp] theorem enterMode_full (m : Mode) (s : State) (hf : s.Full) : (enterMode m s).Full := by
  unfold enterMode
  (repeat' split) <;> simp (maxDischargeDepth := 12) +contextual [full_mk, hf]

/-- Changing records without changing their class keeps the queue within its bounds. -/
theorem queueFits_map (g : FaultRec → FaultRec) (hg : ∀ r, (g r).cls = r.cls) (q : List FaultRec) (h : queueFits q) :
    queueFits (q.map g) := by
  refine ⟨by simpa using h.1, ?_⟩
  have e : (q.map g).filter (fun r => r.cls != .safety) = (q.filter (fun r => r.cls != .safety)).map g := by
    rw [List.filter_map]
    congr 1
    apply List.filter_congr
    intro r _
    simp [hg]
  rw [e]
  simpa using h.2

/-- A record enters the queue only where a place is open to its class (R505). -/
theorem enqueue_fits (k : FaultClass) (r : FaultRec) (q : List FaultRec) (hn : k = .safety → r.cls = .safety)
    (h : queueFits q) : queueFits (enqueue k r q).1 := by
  have hp : ∀ q', placeOpen k q' = true → (q'.filter (fun r => r.cls != .safety)).length ≤ 28 →
      queueFits (q' ++ [r]) := by
    intro q' ho h28
    simp only [placeOpen, Bool.and_eq_true, decide_eq_true_eq, Bool.or_eq_true, beq_iff_eq] at ho
    refine ⟨by simp; omega, ?_⟩
    rw [List.filter_append, List.length_append]
    by_cases hr : r.cls = .safety
    · simp [hr]; simpa using h28
    · have hk' : k ≠ .safety := fun e => hr (hn e)
      rcases ho.2 with ho2 | ho2
      · exact absurd ho2 hk'
      · simp [hr]; omega
  have hd : ∀ (c : FaultRec → Bool) (l l' : List FaultRec), dropFirst c l = some l' →
      (l'.filter (fun r => r.cls != .safety)).length ≤ (l.filter (fun r => r.cls != .safety)).length := by
    intro c l
    induction l with
    | nil => intro l' h; simp [dropFirst] at h
    | cons x t ih =>
      intro l' h
      unfold dropFirst at h
      split at h
      · cases h
        simp only [List.filter_cons]
        split <;> simp
      · cases hx : dropFirst c t with
        | none => simp [hx] at h
        | some y =>
          simp only [hx, Option.map_some, Option.some.injEq] at h
          subst h
          have := ih y hx
          simp only [List.filter_cons]
          split <;> simp <;> omega
  have hm : ∀ q', makeRoom k q = some q' → (q'.filter (fun r => r.cls != .safety)).length ≤ 28 := by
    intro q' e
    unfold makeRoom at e
    simp only [] at e
    have h28 := h.2
    have hi : ∀ (p : Prop) [Decidable p] (c : FaultRec → Bool), (if p then dropFirst c q else none) = some q' →
        (q'.filter (fun r => r.cls != .safety)).length ≤ 28 := by
      intro p _ c e
      split at e
      · exact Nat.le_trans (hd _ _ _ e) h28
      · cases e
    split at e
    · rename_i h1; cases e; exact hi _ _ h1
    split at e
    · rename_i h1; cases e; exact hi _ _ h1
    split at e
    · rename_i h1; cases e; exact hi _ _ h1
    · exact hi _ _ e
  unfold enqueue
  split
  · exact hp q ‹_› h.2
  split
  · split
    · exact hp _ ‹_› (hm _ ‹_›)
    · exact h
  · exact h

theorem addLosses_fits (n now : Nat) (q : List FaultRec) (h : queueFits q) : queueFits (addLosses n now q) := by
  unfold addLosses
  refine queueFits_map _ (fun r => ?_) q h
  split <;> rfl

@[simp] theorem recordLosses_full (n : Nat) (s : State) (hf : s.Full) : (recordLosses n s).Full := by
  unfold recordLosses
  dsimp only
  split
  · exact hf
  split
  · exact ⟨hf.1, hf.2.1, hf.2.2.1, hf.2.2.2.1, addLosses_fits _ _ _ hf.2.2.2.2⟩
  · refine ⟨hf.1, hf.2.1, hf.2.2.1, hf.2.2.2.1, ?_⟩
    dsimp only
    split
    · exact addLosses_fits _ _ _ (enqueue_fits _ _ _ (by simp) hf.2.2.2.2)
    · exact enqueue_fits _ _ _ (by simp) hf.2.2.2.2

@[simp] theorem newRecord_full (code : FaultCode) (object : BitVec 16) (index : Nat) (detail : Word) (injected : Bool) (s : State) (hf : s.Full) : (newRecord code object index detail injected s).Full := by
  unfold newRecord
  dsimp only
  apply noticed_full
  apply recordLosses_full
  exact ⟨hf.1, hf.2.1, hf.2.2.1, hf.2.2.2.1, enqueue_fits _ _ _ (fun h => h) hf.2.2.2.2⟩

@[simp] theorem coalesce_full (r : FaultRec) (detail : Word) (s : State) (hf : s.Full) : (coalesce r detail s).Full := by
  unfold coalesce
  refine ⟨hf.1, hf.2.1, hf.2.2.1, hf.2.2.2.1, queueFits_map _ (fun x => ?_) _ hf.2.2.2.2⟩
  split <;> rfl

@[simp] theorem detect_full (code : FaultCode) (object : BitVec 16) (index : Nat) (detail : Word) (s : State) (hf : s.Full) : (detect code object index detail s).Full := by
  unfold detect
  (repeat' split) <;> simp (maxDischargeDepth := 12) +contextual [full_mk, hf]

@[simp] theorem raise_full (code : FaultCode) (object : BitVec 16) (index : Nat) (detail : Word) (s : State) (hf : s.Full) : (raise code object index detail s).Full := by
  unfold raise
  (repeat' split) <;> simp (maxDischargeDepth := 12) +contextual [full_mk, hf]

@[simp] theorem release_full (code : FaultCode) (object : BitVec 16) (index : Nat) (s : State) (hf : s.Full) : (release code object index s).Full := by
  unfold release
  split
  · exact hf
  · refine ⟨hf.1, hf.2.1, hf.2.2.1, hf.2.2.2.1, queueFits_map _ (fun x => ?_) _ hf.2.2.2.2⟩
    split <;> rfl

@[simp] theorem callRecovery_full (code : FaultCode) (object : BitVec 16) (index : Nat) (s : State) (hf : s.Full) : (callRecovery code object index s).Full := by
  unfold callRecovery
  (repeat' split) <;> simp (maxDischargeDepth := 12) +contextual [full_mk, hf]

@[simp] theorem touchExpert_full (op : Op) (rq : Requester) (s : State) (hf : s.Full) : (touchExpert op rq s).Full := by
  unfold touchExpert
  (repeat' split) <;> simp (maxDischargeDepth := 12) +contextual [full_mk, hf]

theorem erase_length_le (q : Queued) (l : List Queued) : (l.erase q).length ≤ l.length := by
  rw [List.length_erase]
  split <;> omega

theorem select_queue (c : Cmd) : (select c).queue.length ≤ c.queue.length := by
  unfold select
  (repeat' split) <;> first | exact Nat.le_refl _ | exact erase_length_le _ _

@[simp] theorem select_store (c : Cmd) : (select c).store = c.store := by
  unfold select
  (repeat' split) <;> rfl

@[simp] theorem select_timed (c : Cmd) : (select c).timed = c.timed := by
  unfold select
  (repeat' split) <;> rfl

/-- The control core takes a command from the queue or leaves it (R147). -/
theorem select_full (s : State) (h : s.Full) : State.Full { s with cmd := select s.cmd } :=
  ⟨by simpa using h.1, Nat.le_trans (select_queue _) h.2.1, by simpa using h.2.2.1, h.2.2.2⟩

theorem touchExpert_queue (op : Op) (rq : Requester) (s : State) : (touchExpert op rq s).cmd.queue = s.cmd.queue := by
  unfold touchExpert
  (repeat' split) <;> rfl

@[simp] theorem queueCommand_full (op : Op) (h : Hdr) (p : Bytes) (s : State) (hf : s.Full) : (queueCommand op h p s).2.Full := by
  unfold queueCommand
  dsimp only
  (repeat' split) <;> (try exact hf)
  all_goals
    have g := touchExpert_full op h.rq s hf
    refine ⟨by simpa using g.1, Nat.le_trans (select_queue _) ?_, by simpa using g.2.2.1, g.2.2.2⟩
    simp only [touchExpert_queue, List.length_append, List.length_singleton]
    omega

theorem holdSession_full (h : Hdr) (s t : State) (e : holdSession h s = some t) (hf : s.Full) : t.Full := by
  unfold holdSession at e
  split at e
  · cases e; exact hf
  · dsimp only at e
    split at e
    all_goals
      simp only [Option.map_eq_some_iff] at e
      obtain ⟨i, -, rfl⟩ := e
      exact hf

@[simp] theorem admission_full (op : Op) (h : Hdr) (p : Bytes) (s : State) (hf : s.Full) : (admission op h p s).2.Full := by
  unfold admission
  dsimp only
  split
  · exact raise_full _ _ _ _ _ hf
  · split
    · exact hf
    · rename_i s1 e
      have g := holdSession_full h s s1 e hf
      split
      · exact g
      · exact queueCommand_full _ _ _ _ g

@[simp] theorem refuseAt_full (code : BitVec 16) (h : Hdr) (st : Status) (s : State) (hf : s.Full) : (refuseAt code h st s).Full := by
  unfold refuseAt
  (repeat' split) <;> simp (maxDischargeDepth := 12) +contextual [full_mk, hf]

@[simp] theorem finish_full (s : State) (hf : s.Full) : (finish s).Full := by
  exact select_full { s with cmd := { s.cmd with running := none } } hf

@[simp] theorem lateReply_full (op : Op) (st : Status) (pay : Bytes) (s : State) (hf : s.Full) : (lateReply op st pay s).Full := by
  unfold lateReply
  (repeat' split) <;> simp (maxDischargeDepth := 12) +contextual [full_mk, hf]

@[simp] theorem awaitReply_full (op : Op) (h : Hdr) (pre : Bytes) (s : State) (hf : s.Full) : (awaitReply op h pre s).Full := by
  unfold awaitReply
  (repeat' split) <;> simp (maxDischargeDepth := 12) +contextual [full_mk, hf]

/-- A served packet keeps the bounds where its body does. -/
theorem serve_full (op : Op) (h : Hdr) (p : Bytes) (body : State → Ans) (hb : ∀ s, s.Full → (ansState (body s)).Full)
    (s : State) (hf : s.Full) : (serve op h p body s).Full := by
  unfold serve
  have h1 : State.Full { s with cmd := select s.cmd } := select_full s hf
  dsimp only
  split
  · exact h1
  · split
    · split
      · have g := hb _ h1
        split
        · rename_i e; rw [e] at g; exact finish_full _ (reply_full _ _ _ _ _ g)
        · rename_i e; rw [e] at g; exact finish_full _ g
      · exact finish_full _ (reply_full _ _ _ _ _ h1)
    · exact h1

@[simp] theorem prepare_full (op : Op) (h : Hdr) (p : Bytes) (s : State) (hf : s.Full) : (prepare op h p s).Full := by
  unfold prepare
  (repeat' split) <;> simp (maxDischargeDepth := 12) +contextual [full_mk, hf]

@[simp] theorem admitQueue_full (k : Packet) (h : Hdr) (s : State) (hf : s.Full) : (admitQueue k h s).2.Full := by
  unfold admitQueue
  dsimp only
  (repeat' split) <;> (try simp (maxDischargeDepth := 12) +contextual [full_mk, hf]) <;> (repeat' split) <;> simp (maxDischargeDepth := 12) +contextual [full_mk, hf]

@[simp] theorem refuseSpi_full (k : Packet) (st : Status) (s : State) (hf : s.Full) : (refuseSpi k st s).Full := by
  unfold refuseSpi
  (repeat' split) <;> simp (maxDischargeDepth := 12) +contextual [full_mk, hf]

theorem admitFrame_full (n : Nat) (b : Bytes) (s : State) (hf : s.Full) : (admitFrame n b s).Full := by
  induction n generalizing b s with
  | zero => exact hf
  | succ n ih =>
    unfold admitFrame
    dsimp only
    generalize hv : admitQueue (parsePacket b) _ s = y
    obtain ⟨st, s1⟩ := y
    have h1 : s1.Full := by
      have g := admitQueue_full (parsePacket b) (hdrOf (parsePacket b) .spi .neta) s hf
      rw [hv] at g
      exact g
    have hr : ∀ st t, t.Full → (refuseSpi (parsePacket b) st t).Full := fun st t h => refuseSpi_full _ _ _ h
    split
    · exact hf
    split
    · exact hf
    split
    · exact hf
    split
    · exact ih _ _ (hr _ _ hf)
    split
    · exact hr _ _ hf
    split
    · exact hr _ _ hf
    split
    · exact ih _ _ (hr _ _ hf)
    split
    · rename_i h; cases h; exact ih _ _ h1
    · rename_i h; cases h; exact ih _ _ (hr _ _ h1)

@[simp] theorem readmit_full (s : State) (hf : s.Full) : (readmit s).Full := by
  unfold readmit
  split
  · exact hf
  · exact foldl_full (fun a b h => admitFrame_full 600 b a h) _ _ hf

@[simp] theorem shiftOut_full (n : Nat) (out : Bytes) (s : State) (hf : s.Full) : (shiftOut n out s).Full := by
  unfold shiftOut
  (repeat' split) <;> simp (maxDischargeDepth := 12) +contextual [full_mk, hf]

@[simp] theorem writeFrame_full (b : Bytes) (s : State) (hf : s.Full) : (writeFrame b s).Full := by
  unfold writeFrame
  exact admitFrame_full _ _ _ (shiftOut_full _ _ _ hf)

@[simp] theorem readFrame_full (n : Nat) (s : State) (hf : s.Full) : (readFrame n s).Full := by
  unfold readFrame
  split
  · exact shiftOut_full _ _ _ hf
  · rename_i r t e
    dsimp only
    split
    · exact shiftOut_full _ _ _ hf
    · have g := shiftOut_full n (encodeReply r) s hf
      have ht : t.length ≤ 16 := by have := hf.1; rw [e] at this; simp at this; omega
      exact select_full _ (readmit_full _ ⟨spiPromote_store _ _ ht, by simpa using g.2.1, by simpa using g.2.2.1, g.2.2.2⟩)

@[simp] theorem spiFrame_full (frame : Bytes) (s : State) (hf : s.Full) : (spiFrame frame s).Full := by
  unfold spiFrame
  (repeat' split) <;> simp (maxDischargeDepth := 12) +contextual [full_mk, hf]

@[simp] theorem setCore_full (k : Nat) (c : Core) (s : State) (hf : s.Full) : (setCore k c s).Full := by
  unfold setCore
  (repeat' split) <;> simp (maxDischargeDepth := 12) +contextual [full_mk, hf]

@[simp] theorem setCoopCfg_full (k : Nat) (c : CoopCfg) (s : State) (hf : s.Full) : (setCoopCfg k c s).Full := by
  unfold setCoopCfg
  (repeat' split) <;> simp (maxDischargeDepth := 12) +contextual [full_mk, hf]

@[simp] theorem coreTrap_full (k reason pc : Nat) (s : State) (hf : s.Full) : (coreTrap k reason pc s).Full := by
  unfold coreTrap
  (repeat' split) <;> simp (maxDischargeDepth := 12) +contextual [full_mk, hf]

@[simp] theorem debugHalt_full (k : Nat) (s : State) (hf : s.Full) : (debugHalt k s).Full := by
  unfold debugHalt
  (repeat' split) <;> simp (maxDischargeDepth := 12) +contextual [full_mk, hf]

@[simp] theorem startBlock_full (k : Nat) (b : InBlock) (late : Bool) (s : State) (hf : s.Full) : (startBlock k b late s).Full := by
  unfold startBlock
  (repeat' split) <;> simp (maxDischargeDepth := 12) +contextual [full_mk, hf]

@[simp] theorem blockDone_full (k : Nat) (s0 : State) (hf : s0.Full) : (blockDone k s0).Full := by
  unfold blockDone
  dsimp only
  (repeat' split) <;> (try simp (maxDischargeDepth := 12) +contextual [full_mk, hf]) <;> (repeat' split) <;> simp (maxDischargeDepth := 12) +contextual [full_mk, hf]

@[simp] theorem withMix_full (m : MixCfg) (s : State) (hf : s.Full) : (withMix m s).Full := by
  unfold withMix
  (repeat' split) <;> simp (maxDischargeDepth := 12) +contextual [full_mk, hf]

@[simp] theorem startRamp_full (o : RampObj) (g : Int) (log : Bool) (m : Nat) (s : State) (hf : s.Full) : (startRamp o g log m s).Full := by
  unfold startRamp
  (repeat' split) <;> simp (maxDischargeDepth := 12) +contextual [full_mk, hf]

@[simp] theorem stepRamps_full (s : State) (hf : s.Full) : (stepRamps s).Full := by
  unfold stepRamps
  (repeat' split) <;> simp (maxDischargeDepth := 12) +contextual [full_mk, hf]

@[simp] theorem deferCommand_full (why : Nat) (l : Landing) (s : State) (hf : s.Full) : (deferCommand why l s).Full := by
  unfold deferCommand
  (repeat' split) <;> simp (maxDischargeDepth := 12) +contextual [full_mk, hf]

@[simp] theorem landGainEntry_full (p : Bytes) (s : State) (i : Nat) (hf : s.Full) : (landGainEntry p s i).Full := by
  unfold landGainEntry
  (repeat' split) <;> simp (maxDischargeDepth := 12) +contextual [full_mk, hf]

@[simp] theorem landGainSet_full (p : Bytes) (s : State) (hf : s.Full) : (landGainSet p s).Full := by
  unfold landGainSet
  (repeat' split) <;> simp (maxDischargeDepth := 12) +contextual [full_mk, hf]

@[simp] theorem landRampDefaults_full (p : Bytes) (s : State) (hf : s.Full) : (landRampDefaults p s).Full := by
  unfold landRampDefaults
  (repeat' split) <;> simp (maxDischargeDepth := 12) +contextual [full_mk, hf]

@[simp] theorem landMuteEntry_full (p : Bytes) (s : State) (i : Nat) (hf : s.Full) : (landMuteEntry p s i).Full := by
  unfold landMuteEntry
  (repeat' split) <;> simp (maxDischargeDepth := 12) +contextual [full_mk, hf]

@[simp] theorem landMuteSet_full (p : Bytes) (s : State) (hf : s.Full) : (landMuteSet p s).Full := by
  unfold landMuteSet
  (repeat' split) <;> simp (maxDischargeDepth := 12) +contextual [full_mk, hf]

@[simp] theorem landSink_full (p : Bytes) (s : State) (h : Handle) (hf : s.Full) : (landSink p s h).Full := by
  unfold landSink
  (repeat' split) <;> simp (maxDischargeDepth := 12) +contextual [full_mk, hf]

@[simp] theorem landSinkSet_full (p : Bytes) (s : State) (hf : s.Full) : (landSinkSet p s).Full := by
  unfold landSinkSet
  (repeat' split) <;> simp (maxDischargeDepth := 12) +contextual [full_mk, hf]

@[simp] theorem landGenSet_full (p : Bytes) (s : State) (hf : s.Full) : (landGenSet p s).Full := by
  unfold landGenSet
  dsimp only
  (repeat' split) <;> (try simp (maxDischargeDepth := 12) +contextual [full_mk, hf]) <;> (repeat' split) <;> simp (maxDischargeDepth := 12) +contextual [full_mk, hf]

@[simp] theorem landOverride_full (p : Bytes) (s : State) (hf : s.Full) : (landOverride p s).Full := by
  unfold landOverride
  (repeat' split) <;> simp (maxDischargeDepth := 12) +contextual [full_mk, hf]

@[simp] theorem landOverrideConfig_full (p : Bytes) (s : State) (hf : s.Full) : (landOverrideConfig p s).Full := by
  unfold landOverrideConfig
  (repeat' split) <;> simp (maxDischargeDepth := 12) +contextual [full_mk, hf]

@[simp] theorem poolPut_full (id : BulkId) (size : Nat) (s : State) (hf : s.Full) : (poolPut id size s).Full := by
  unfold poolPut
  (repeat' split) <;> simp (maxDischargeDepth := 12) +contextual [full_mk, hf]

@[simp] theorem poolDrop_full (id : BulkId) (s : State) (hf : s.Full) : (poolDrop id s).Full := by
  unfold poolDrop
  (repeat' split) <;> simp (maxDischargeDepth := 12) +contextual [full_mk, hf]

@[simp] theorem takeTick_full (s : State) (hf : s.Full) : (takeTick s).Full := by
  unfold takeTick
  (repeat' split) <;> simp (maxDischargeDepth := 12) +contextual [full_mk, hf]

@[simp] theorem becomeGrandmaster_full (s : State) (hf : s.Full) : (becomeGrandmaster s).Full := by
  unfold becomeGrandmaster
  (repeat' split) <;> simp (maxDischargeDepth := 12) +contextual [full_mk, hf]

@[simp] theorem resignGrandmaster_full (s : State) (hf : s.Full) : (resignGrandmaster s).Full := by
  unfold resignGrandmaster
  (repeat' split) <;> simp (maxDischargeDepth := 12) +contextual [full_mk, hf]

@[simp] theorem forceHold_full (s : State) (hf : s.Full) : (forceHold s).Full := by
  unfold forceHold
  (repeat' split) <;> simp (maxDischargeDepth := 12) +contextual [full_mk, hf]

@[simp] theorem holdOver_full (s : State) (hf : s.Full) : (holdOver s).Full := by
  unfold holdOver
  (repeat' split) <;> simp (maxDischargeDepth := 12) +contextual [full_mk, hf]

@[simp] theorem qualify_full (e : RefEntry) (s : State) (hf : s.Full) : (qualify e s).Full := by
  unfold qualify
  (repeat' split) <;> simp (maxDischargeDepth := 12) +contextual [full_mk, hf]

@[simp] theorem loseActive_full (s : State) (hf : s.Full) : (loseActive s).Full := by
  unfold loseActive
  (repeat' split) <;> simp (maxDischargeDepth := 12) +contextual [full_mk, hf]

@[simp] theorem disqualify_full (e : RefEntry) (s : State) (hf : s.Full) : (disqualify e s).Full := by
  unfold disqualify
  (repeat' split) <;> simp (maxDischargeDepth := 12) +contextual [full_mk, hf]

@[simp] theorem updatePtpQual_full (s : State) (hf : s.Full) : (updatePtpQual s).Full := by
  unfold updatePtpQual
  (repeat' split) <;> simp (maxDischargeDepth := 12) +contextual [full_mk, hf]

@[simp] theorem ptpLose_full (x : NetPort) (reason : Nat) (s : State) (hf : s.Full) : (ptpLose x reason s).Full := by
  unfold ptpLose
  (repeat' split) <;> simp (maxDischargeDepth := 12) +contextual [full_mk, hf]

@[simp] theorem ptpMonitorLost_full (x : NetPort) (s : State) (hf : s.Full) : (ptpMonitorLost x s).Full := by
  unfold ptpMonitorLost
  (repeat' split) <;> simp (maxDischargeDepth := 12) +contextual [full_mk, hf]

@[simp] theorem servo_full (off : Int) (m : SyncMsg) (s : State) (hf : s.Full) : (servo off m s).Full := by
  unfold servo
  dsimp only
  (repeat' split) <;> (try simp (maxDischargeDepth := 12) +contextual [full_mk, hf]) <;> (repeat' split) <;> simp (maxDischargeDepth := 12) +contextual [full_mk, hf]

@[simp] theorem runBmca_full (s : State) (hf : s.Full) : (runBmca s).Full := by
  unfold runBmca
  (repeat' split) <;> simp (maxDischargeDepth := 12) +contextual [full_mk, hf]

@[simp] theorem moveSlave_full (before : Option NetPort) (s : State) (hf : s.Full) : (moveSlave before s).Full := by
  unfold moveSlave
  (repeat' split) <;> simp (maxDischargeDepth := 12) +contextual [full_mk, hf]

@[simp] theorem switchTo_full (i : Nat) (e : RefEntry) (record : Bool) (s : State) (hf : s.Full) : (switchTo i e record s).Full := by
  unfold switchTo
  (repeat' split) <;> simp (maxDischargeDepth := 12) +contextual [full_mk, hf]

@[simp] theorem selectReference_full (s0 : State) (hf : s0.Full) : (selectReference s0).Full := by
  unfold selectReference
  dsimp only
  (repeat' split) <;> (try simp (maxDischargeDepth := 12) +contextual [full_mk, hf]) <;> (repeat' split) <;> simp (maxDischargeDepth := 12) +contextual [full_mk, hf]

@[simp] theorem pllFrame_full (phasePs freq : Int) (s : State) (hf : s.Full) : (pllFrame phasePs freq s).Full := by
  unfold pllFrame
  (repeat' split) <;> simp (maxDischargeDepth := 12) +contextual [full_mk, hf]

@[simp] theorem monitorEdge_full (i rate period : Nat) (bad : Bool) (s : State) (hf : s.Full) : (monitorEdge i rate period bad s).2.Full := by
  unfold monitorEdge
  (repeat' split) <;> simp (maxDischargeDepth := 12) +contextual [full_mk, hf]

@[simp] theorem monitorLose_full (i reason : Nat) (s : State) (hf : s.Full) : (monitorLose i reason s).Full := by
  unfold monitorLose
  (repeat' split) <;> simp (maxDischargeDepth := 12) +contextual [full_mk, hf]

@[simp] theorem dropSlave_full (s : State) (x : NetPort) (hf : s.Full) : (dropSlave s x).Full := by
  unfold dropSlave
  (repeat' split) <;> simp (maxDischargeDepth := 12) +contextual [full_mk, hf]

@[simp] theorem restartPtp_full (s : State) (hf : s.Full) : (restartPtp s).Full := by
  unfold restartPtp
  (repeat' split) <;> simp (maxDischargeDepth := 12) +contextual [full_mk, hf]

@[simp] theorem ptpStopped_full (p : Bytes) (s : State) (hf : s.Full) : (ptpStopped p s).Full := by
  unfold ptpStopped
  (repeat' split) <;> simp (maxDischargeDepth := 12) +contextual [full_mk, hf]

@[simp] theorem landPtpSet_full (p : Bytes) (s : State) (hf : s.Full) : (landPtpSet p s).Full := by
  unfold landPtpSet
  (repeat' split) <;> simp (maxDischargeDepth := 12) +contextual [full_mk, hf]

@[simp] theorem wclkStopped_full (p : Bytes) (s : State) (hf : s.Full) : (wclkStopped p s).Full := by
  unfold wclkStopped
  (repeat' split) <;> simp (maxDischargeDepth := 12) +contextual [full_mk, hf]

@[simp] theorem landWclkSet_full (p : Bytes) (s : State) (hf : s.Full) : (landWclkSet p s).Full := by
  unfold landWclkSet
  (repeat' split) <;> simp (maxDischargeDepth := 12) +contextual [full_mk, hf]

@[simp] theorem stepWclk_full (s : State) (hf : s.Full) : (stepWclk s).Full := by
  unfold stepWclk
  (repeat' split) <;> simp (maxDischargeDepth := 12) +contextual [full_mk, hf]

@[simp] theorem stepMclk_full (s : State) (hf : s.Full) : (stepMclk s).Full := by
  unfold stepMclk
  (repeat' split) <;> simp (maxDischargeDepth := 12) +contextual [full_mk, hf]

@[simp] theorem stopClockOuts_full (s : State) (hf : s.Full) : (stopClockOuts s).Full := by
  unfold stopClockOuts
  (repeat' split) <;> simp (maxDischargeDepth := 12) +contextual [full_mk, hf]

@[simp] theorem landClockRefs_full (p : Bytes) (s : State) (hf : s.Full) : (landClockRefs p s).Full := by
  unfold landClockRefs
  (repeat' split) <;> simp (maxDischargeDepth := 12) +contextual [full_mk, hf]

@[simp] theorem releaseForcedClock_full (s : State) (hf : s.Full) : (releaseForcedClock s).Full := by
  unfold releaseForcedClock
  (repeat' split) <;> simp (maxDischargeDepth := 12) +contextual [full_mk, hf]

@[simp] theorem setChain_full (pour : Bool) (c : Nat) (x : FChain) (s : State) (hf : s.Full) : (setChain pour c x s).Full := by
  unfold setChain
  (repeat' split) <;> simp (maxDischargeDepth := 12) +contextual [full_mk, hf]

@[simp] theorem storeChain_full (pour : Bool) (c : Nat) (x : FiltChainCfg) (s : State) (hf : s.Full) : (storeChain pour c x s).Full := by
  unfold storeChain
  (repeat' split) <;> simp (maxDischargeDepth := 12) +contextual [full_mk, hf]

@[simp] theorem clearChain_full (pour : Bool) (c : Nat) (s : State) (hf : s.Full) : (clearChain pour c s).Full := by
  unfold clearChain
  dsimp only
  (repeat' split) <;> (try simp (maxDischargeDepth := 12) +contextual [full_mk, hf]) <;> (repeat' split) <;> simp (maxDischargeDepth := 12) +contextual [full_mk, hf]

@[simp] theorem clearTaster_full (ch : Nat) (t : Fin 2) (s : State) (hf : s.Full) : (clearTaster ch t s).Full := by
  unfold clearTaster
  dsimp only
  (repeat' split) <;> (try simp (maxDischargeDepth := 12) +contextual [full_mk, hf]) <;> (repeat' split) <;> simp (maxDischargeDepth := 12) +contextual [full_mk, hf]

@[simp] theorem clearAt_full (pour : Bool) (c : Nat) (s : State) (hf : s.Full) : (clearAt pour c s).Full := by
  unfold clearAt
  (repeat' split) <;> simp (maxDischargeDepth := 12) +contextual [full_mk, hf]

@[simp] theorem clearMasks_full (press pour : Nat) (s : State) (hf : s.Full) : (clearMasks press pour s).Full := by
  unfold clearMasks
  (repeat' split) <;> simp (maxDischargeDepth := 12) +contextual [full_mk, hf]

@[simp] theorem startChain_full (pour : Bool) (c : Nat) (s : State) (hf : s.Full) : (startChain pour c s).Full := by
  unfold startChain
  (repeat' split) <;> simp (maxDischargeDepth := 12) +contextual [full_mk, hf]

@[simp] theorem arriveChain_full (t : Fin 2) (ch : Nat) (s : State) (hf : s.Full) : (arriveChain t ch s).Full := by
  unfold arriveChain
  (repeat' split) <;> simp (maxDischargeDepth := 12) +contextual [full_mk, hf]

@[simp] theorem restartWindow_full (ch : Nat) (s : State) (hf : s.Full) : (restartWindow ch s).Full := by
  unfold restartWindow
  (repeat' split) <;> simp (maxDischargeDepth := 12) +contextual [full_mk, hf]

@[simp] theorem landRun_full (pour start : Bool) (s0 : State) (c : Nat) (hf : s0.Full) : (landRun pour start s0 c).Full := by
  unfold landRun
  dsimp only
  (repeat' split) <;> (try simp (maxDischargeDepth := 12) +contextual [full_mk, hf]) <;> (repeat' split) <;> simp (maxDischargeDepth := 12) +contextual [full_mk, hf]

@[simp] theorem landFiltRun_full (p : Bytes) (s : State) (hf : s.Full) : (landFiltRun p s).Full := by
  unfold landFiltRun
  (repeat' split) <;> simp (maxDischargeDepth := 12) +contextual [full_mk, hf]

@[simp] theorem landResp_full (pour : Bool) (c : Nat) (s : State) (hf : s.Full) : (landResp pour c s).Full := by
  unfold landResp
  dsimp only
  (repeat' split) <;> (try simp (maxDischargeDepth := 12) +contextual [full_mk, hf]) <;> (repeat' split) <;> simp (maxDischargeDepth := 12) +contextual [full_mk, hf]

@[simp] theorem landHpf_full (c : Nat) (corner slope : Nat) (s : State) (hf : s.Full) : (landHpf c corner slope s).Full := by
  unfold landHpf
  (repeat' split) <;> simp (maxDischargeDepth := 12) +contextual [full_mk, hf]

@[simp] theorem landConfigChain_full (p : Bytes) (s0 : State) (c : Nat) (hf : s0.Full) : (landConfigChain p s0 c).Full := by
  unfold landConfigChain
  (repeat' split) <;> simp (maxDischargeDepth := 12) +contextual [full_mk, hf]

@[simp] theorem landFiltConfig_full (p : Bytes) (s : State) (hf : s.Full) : (landFiltConfig p s).Full := by
  unfold landFiltConfig
  (repeat' split) <;> simp (maxDischargeDepth := 12) +contextual [full_mk, hf]

@[simp] theorem settleEnd_full (pour : Bool) (c : Nat) (s : State) (hf : s.Full) : (settleEnd pour c s).Full := by
  unfold settleEnd
  (repeat' split) <;> simp (maxDischargeDepth := 12) +contextual [full_mk, hf]

@[simp] theorem syncInTick_full (s : State) (hf : s.Full) : (syncInTick s).Full := by
  unfold syncInTick
  (repeat' split) <;> simp (maxDischargeDepth := 12) +contextual [full_mk, hf]

@[simp] theorem preFade_full (pour : Bool) (s : State) (c : Nat) (hf : s.Full) : (preFade pour s c).Full := by
  unfold preFade
  (repeat' split) <;> simp (maxDischargeDepth := 12) +contextual [full_mk, hf]

@[simp] theorem syncReply_full (h : Hdr) (pre : Bytes) (n : Nat) (s : State) (hf : s.Full) : (syncReply h pre n s).Full := by
  unfold syncReply
  (repeat' split) <;> simp (maxDischargeDepth := 12) +contextual [full_mk, hf]

@[simp] theorem landFiltSync_full (h : Hdr) (p pre : Bytes) (n : Nat) (s : State) (hf : s.Full) : (landFiltSync h p pre n s).Full := by
  unfold landFiltSync
  (repeat' split) <;> simp (maxDischargeDepth := 12) +contextual [full_mk, hf]

@[simp] theorem storeSet_full (pour : Bool) (k : Nat) (c : Option CoefSet) (s : State) (hf : s.Full) : (storeSet pour k c s).Full := by
  unfold storeSet
  (repeat' split) <;> simp (maxDischargeDepth := 12) +contextual [full_mk, hf]

@[simp] theorem noteLoad_full (pour : Bool) (k : Nat) (l : Option CoefLoad) (s : State) (hf : s.Full) : (noteLoad pour k l s).Full := by
  unfold noteLoad
  (repeat' split) <;> simp (maxDischargeDepth := 12) +contextual [full_mk, hf]

@[simp] theorem closeGates_full (s : State) (hf : s.Full) : (closeGates s).Full := by
  unfold closeGates
  (repeat' split) <;> simp (maxDischargeDepth := 12) +contextual [full_mk, hf]

@[simp] theorem stepChains_full (s : State) (hf : s.Full) : (stepChains s).Full := by
  unfold stepChains
  (repeat' split) <;> simp (maxDischargeDepth := 12) +contextual [full_mk, hf]

@[simp] theorem setOutRt_full (h : Handle) (x : OutRt) (s : State) (hf : s.Full) : (setOutRt h x s).Full := by
  unfold setOutRt
  (repeat' split) <;> simp (maxDischargeDepth := 12) +contextual [full_mk, hf]

@[simp] theorem withOut_full (c : OutputCfg) (s : State) (hf : s.Full) : (withOut c s).Full := by
  unfold withOut
  (repeat' split) <;> simp (maxDischargeDepth := 12) +contextual [full_mk, hf]

@[simp] theorem setSpkRt_full (n : Nat) (x : SpkRt) (s : State) (hf : s.Full) : (setSpkRt n x s).Full := by
  unfold setSpkRt
  (repeat' split) <;> simp (maxDischargeDepth := 12) +contextual [full_mk, hf]

@[simp] theorem landOutput_full (p : Bytes) (s0 : State) (i : Nat) (hf : s0.Full) : (landOutput p s0 i).Full := by
  unfold landOutput
  (repeat' split) <;> simp (maxDischargeDepth := 12) +contextual [full_mk, hf]

@[simp] theorem landOutputSet_full (p : Bytes) (s : State) (hf : s.Full) : (landOutputSet p s).Full := by
  unfold landOutputSet
  (repeat' split) <;> simp (maxDischargeDepth := 12) +contextual [full_mk, hf]

@[simp] theorem landClearConfig_full (p : Bytes) (s : State) (hf : s.Full) : (landClearConfig p s).Full := by
  unfold landClearConfig
  (repeat' split) <;> simp (maxDischargeDepth := 12) +contextual [full_mk, hf]

@[simp] theorem setHoldRt_full (n : Nat) (x : HoldRt) (s : State) (hf : s.Full) : (setHoldRt n x s).Full := by
  unfold setHoldRt
  (repeat' split) <;> simp (maxDischargeDepth := 12) +contextual [full_mk, hf]

@[simp] theorem holdRefresh_full (m n : Nat) (s : State) (hf : s.Full) : (holdRefresh m n s).Full := by
  unfold holdRefresh
  dsimp only
  (repeat' split) <;> (try simp (maxDischargeDepth := 12) +contextual [full_mk, hf]) <;> (repeat' split) <;> simp (maxDischargeDepth := 12) +contextual [full_mk, hf]

@[simp] theorem holdRefreshAll_full (m : Nat) (s : State) (hf : s.Full) : (holdRefreshAll m s).Full := by
  unfold holdRefreshAll
  (repeat' split) <;> simp (maxDischargeDepth := 12) +contextual [full_mk, hf]

@[simp] theorem stepHold_full (s : State) (n : Nat) (hf : s.Full) : (stepHold s n).Full := by
  unfold stepHold
  (repeat' split) <;> simp (maxDischargeDepth := 12) +contextual [full_mk, hf]

@[simp] theorem landHoldSet_full (p : Bytes) (s : State) (hf : s.Full) : (landHoldSet p s).Full := by
  unfold landHoldSet
  (repeat' split) <;> simp (maxDischargeDepth := 12) +contextual [full_mk, hf]

@[simp] theorem writeSafe_full (s : State) (hf : s.Full) : (writeSafe s).Full := by
  unfold writeSafe
  (repeat' split) <;> simp (maxDischargeDepth := 12) +contextual [full_mk, hf]

@[simp] theorem setSafe_full (n : Nat) (e : SafeEntry) (s : State) (hf : s.Full) : (setSafe n e s).Full := by
  unfold setSafe
  (repeat' split) <;> simp (maxDischargeDepth := 12) +contextual [full_mk, hf]

@[simp] theorem landHoldSafeSet_full (h : Hdr) (p : Bytes) (s : State) (hf : s.Full) : (landHoldSafeSet h p s).Full := by
  unfold landHoldSafeSet
  (repeat' split) <;> simp (maxDischargeDepth := 12) +contextual [full_mk, hf]

@[simp] theorem startCheck_full (n : Nat) (s : State) (hf : s.Full) : (startCheck n s).Full := by
  unfold startCheck
  (repeat' split) <;> simp (maxDischargeDepth := 12) +contextual [full_mk, hf]

@[simp] theorem checkFromTick_full (n : Nat) (s : State) (hf : s.Full) : (checkFromTick n s).Full := by
  unfold checkFromTick
  (repeat' split) <;> simp (maxDischargeDepth := 12) +contextual [full_mk, hf]

@[simp] theorem spkEnable_full (on was : Bool) (n : Nat) (s : State) (hf : s.Full) : (spkEnable on was n s).Full := by
  unfold spkEnable
  (repeat' split) <;> simp (maxDischargeDepth := 12) +contextual [full_mk, hf]

@[simp] theorem landSpk_full (p : Bytes) (s0 : State) (n : Nat) (hf : s0.Full) : (landSpk p s0 n).Full := by
  unfold landSpk
  (repeat' split) <;> simp (maxDischargeDepth := 12) +contextual [full_mk, hf]

@[simp] theorem landSpeakerSet_full (p : Bytes) (s : State) (hf : s.Full) : (landSpeakerSet p s).Full := by
  unfold landSpeakerSet
  (repeat' split) <;> simp (maxDischargeDepth := 12) +contextual [full_mk, hf]

@[simp] theorem shutGate_full (h : Handle) (s : State) (hf : s.Full) : (shutGate h s).Full := by
  unfold shutGate
  (repeat' split) <;> simp (maxDischargeDepth := 12) +contextual [full_mk, hf]

@[simp] theorem setStage_full (k : Nat) (x : StageTherm) (s : State) (hf : s.Full) : (setStage k x s).Full := by
  unfold setStage
  (repeat' split) <;> simp (maxDischargeDepth := 12) +contextual [full_mk, hf]

@[simp] theorem stepStage_full (s : State) (k : Nat) (hf : s.Full) : (stepStage s k).Full := by
  unfold stepStage
  (repeat' split) <;> simp (maxDischargeDepth := 12) +contextual [full_mk, hf]

@[simp] theorem stepPeak_full (s : State) (h : Handle) (hf : s.Full) : (stepPeak s h).Full := by
  unfold stepPeak
  (repeat' split) <;> simp (maxDischargeDepth := 12) +contextual [full_mk, hf]

@[simp] theorem setPort_full (k : Nat) (x : PortRt) (s : State) (hf : s.Full) : (setPort k x s).Full := by
  unfold setPort
  (repeat' split) <;> simp (maxDischargeDepth := 12) +contextual [full_mk, hf]

@[simp] theorem withPorts_full (c : PortCfg) (s : State) (hf : s.Full) : (withPorts c s).Full := by
  unfold withPorts
  (repeat' split) <;> simp (maxDischargeDepth := 12) +contextual [full_mk, hf]

@[simp] theorem aesStopped_full (p : Bytes) (s : State) (hf : s.Full) : (aesStopped p s).Full := by
  unfold aesStopped
  (repeat' split) <;> simp (maxDischargeDepth := 12) +contextual [full_mk, hf]

@[simp] theorem landAesSet_full (p : Bytes) (s : State) (hf : s.Full) : (landAesSet p s).Full := by
  unfold landAesSet
  (repeat' split) <;> simp (maxDischargeDepth := 12) +contextual [full_mk, hf]

@[simp] theorem landAesCsSet_full (p : Bytes) (s : State) (hf : s.Full) : (landAesCsSet p s).Full := by
  unfold landAesCsSet
  (repeat' split) <;> simp (maxDischargeDepth := 12) +contextual [full_mk, hf]

@[simp] theorem storeRun_full (k : Nat) (on : Bool) (s : State) (hf : s.Full) : (storeRun k on s).Full := by
  unfold storeRun
  (repeat' split) <;> simp (maxDischargeDepth := 12) +contextual [full_mk, hf]

@[simp] theorem startMonitor_full (k : Nat) (s : State) (hf : s.Full) : (startMonitor k s).Full := by
  unfold startMonitor
  (repeat' split) <;> simp (maxDischargeDepth := 12) +contextual [full_mk, hf]

@[simp] theorem beginPort_full (k : Nat) (s : State) (hf : s.Full) : (beginPort k s).Full := by
  unfold beginPort
  (repeat' split) <;> simp (maxDischargeDepth := 12) +contextual [full_mk, hf]

@[simp] theorem landStart_full (s0 : State) (k : Nat) (hf : s0.Full) : (landStart s0 k).Full := by
  unfold landStart
  dsimp only
  (repeat' split) <;> (try simp (maxDischargeDepth := 12) +contextual [full_mk, hf]) <;> (repeat' split) <;> simp (maxDischargeDepth := 12) +contextual [full_mk, hf]

@[simp] theorem landStop_full (s0 : State) (k : Nat) (hf : s0.Full) : (landStop s0 k).Full := by
  unfold landStop
  dsimp only
  (repeat' split) <;> (try simp (maxDischargeDepth := 12) +contextual [full_mk, hf]) <;> (repeat' split) <;> simp (maxDischargeDepth := 12) +contextual [full_mk, hf]

@[simp] theorem landPortStart_full (p : Bytes) (s : State) (hf : s.Full) : (landPortStart p s).Full := by
  unfold landPortStart
  (repeat' split) <;> simp (maxDischargeDepth := 12) +contextual [full_mk, hf]

@[simp] theorem landPortStop_full (p : Bytes) (s : State) (hf : s.Full) : (landPortStop p s).Full := by
  unfold landPortStop
  (repeat' split) <;> simp (maxDischargeDepth := 12) +contextual [full_mk, hf]

@[simp] theorem placeFrame_full (k : Nat) (f : RxFrame) (s : State) (hf : s.Full) : (placeFrame k f s).Full := by
  unfold placeFrame
  (repeat' split) <;> simp (maxDischargeDepth := 12) +contextual [full_mk, hf]

@[simp] theorem portEdge_full (k edge : Nat) (s : State) (hf : s.Full) : (portEdge k edge s).Full := by
  unfold portEdge
  (repeat' split) <;> simp (maxDischargeDepth := 12) +contextual [full_mk, hf]

@[simp] theorem unlock_full (key : Nat) (s : State) (hf : s.Full) : (unlock key s).Full := by
  unfold unlock
  (repeat' split) <;> simp (maxDischargeDepth := 12) +contextual [full_mk, hf]

@[simp] theorem decantLose_full (key : Nat) (obj : Handle) (detail : Word) (s : State) (hf : s.Full) : (decantLose key obj detail s).Full := by
  unfold decantLose
  (repeat' split) <;> simp (maxDischargeDepth := 12) +contextual [full_mk, hf]

@[simp] theorem portLose_full (k reason : Nat) (s : State) (hf : s.Full) : (portLose k reason s).Full := by
  unfold portLose
  (repeat' split) <;> simp (maxDischargeDepth := 12) +contextual [full_mk, hf]

@[simp] theorem rateChange_full (k : Nat) (s : State) (hf : s.Full) : (rateChange k s).Full := by
  unfold rateChange
  (repeat' split) <;> simp (maxDischargeDepth := 12) +contextual [full_mk, hf]

@[simp] theorem trackRate_full (k mean : Nat) (s : State) (hf : s.Full) : (trackRate k mean s).Full := by
  unfold trackRate
  (repeat' split) <;> simp (maxDischargeDepth := 12) +contextual [full_mk, hf]

@[simp] theorem portGlitch_full (k : Nat) (s : State) (hf : s.Full) : (portGlitch k s).Full := by
  unfold portGlitch
  (repeat' split) <;> simp (maxDischargeDepth := 12) +contextual [full_mk, hf]

@[simp] theorem inputEdge_full (k period : Nat) (bad : Bool) (s : State) (hf : s.Full) : (inputEdge k period bad s).2.Full := by
  unfold inputEdge
  split
  · exact hf
  · split
    · exact hf
    · rename_i rate _
      dsimp only
      have h := monitorEdge_full k rate period bad s hf
      (repeat' split) <;> simp (maxDischargeDepth := 12) [h]

@[simp] theorem takeDecant_full (k n : Nat) (s : State) (hf : s.Full) : (takeDecant k n s).Full := by
  unfold takeDecant
  (repeat' split) <;> simp (maxDischargeDepth := 12) +contextual [full_mk, hf]

@[simp] theorem takeTx_full (k : Nat) (s : State) (hf : s.Full) : (takeTx k s).Full := by
  unfold takeTx
  dsimp only
  (repeat' split) <;> (try simp (maxDischargeDepth := 12) +contextual [full_mk, hf]) <;> (repeat' split) <;> simp (maxDischargeDepth := 12) +contextual [full_mk, hf]

@[simp] theorem presentSync_full (k : Nat) (s : State) (hf : s.Full) : (presentSync k s).Full := by
  unfold presentSync
  dsimp only
  (repeat' split) <;> (try simp (maxDischargeDepth := 12) +contextual [full_mk, hf]) <;> (repeat' split) <;> simp (maxDischargeDepth := 12) +contextual [full_mk, hf]

@[simp] theorem presentDecant_full (k : Nat) (s : State) (hf : s.Full) : (presentDecant k s).Full := by
  unfold presentDecant
  (repeat' split) <;> simp (maxDischargeDepth := 12) +contextual [full_mk, hf]

@[simp] theorem presentPorts_full (s : State) (hf : s.Full) : (presentPorts s).Full := by
  unfold presentPorts
  (repeat' split) <;> simp (maxDischargeDepth := 12) +contextual [full_mk, hf]

@[simp] theorem feedPort_full (k frame : Nat) (vals : List Int) (s : State) (hf : s.Full) : (feedPort k frame vals s).Full := by
  unfold feedPort
  (repeat' split) <;> simp (maxDischargeDepth := 12) +contextual [full_mk, hf]

@[simp] theorem stampRead_full (s : State) (target i : Nat) (hf : s.Full) : (stampRead s target i).Full := by
  unfold stampRead
  (repeat' split) <;> simp (maxDischargeDepth := 12) +contextual [full_mk, hf]

@[simp] theorem withNet_full (c : NetworkCfg) (s : State) (hf : s.Full) : (withNet c s).Full := by
  unfold withNet
  (repeat' split) <;> simp (maxDischargeDepth := 12) +contextual [full_mk, hf]

@[simp] theorem setRxSlot_full (i : Nat) (x : RxSlot) (s : State) (hf : s.Full) : (setRxSlot i x s).Full := by
  unfold setRxSlot
  (repeat' split) <;> simp (maxDischargeDepth := 12) +contextual [full_mk, hf]

@[simp] theorem setTxSlot_full (i : Nat) (x : TxSlot) (s : State) (hf : s.Full) : (setTxSlot i x s).Full := by
  unfold setTxSlot
  (repeat' split) <;> simp (maxDischargeDepth := 12) +contextual [full_mk, hf]

@[simp] theorem sendOut_full (l : LinkPort) (o : NetOut) (s : State) (hf : s.Full) : (sendOut l o s).Full := by
  unfold sendOut
  (repeat' split) <;> simp (maxDischargeDepth := 12) +contextual [full_mk, hf]

@[simp] theorem linkPathLost_full (b : Bool) (s : State) (hf : s.Full) : (linkPathLost b s).Full := by
  unfold linkPathLost
  (repeat' split) <;> simp (maxDischargeDepth := 12) +contextual [full_mk, hf]

@[simp] theorem linkFall_full (l : LinkPort) (noCommon : Bool) (s0 : State) (hf : s0.Full) : (linkFall l noCommon s0).Full := by
  unfold linkFall
  (repeat' split) <;> simp (maxDischargeDepth := 12) +contextual [full_mk, hf]

@[simp] theorem restartLink_full (l : LinkPort) (s : State) (hf : s.Full) : (restartLink l s).Full := by
  unfold restartLink
  (repeat' split) <;> simp (maxDischargeDepth := 12) +contextual [full_mk, hf]

@[simp] theorem netStopped_full (p : Bytes) (s : State) (hf : s.Full) : (netStopped p s).Full := by
  unfold netStopped
  (repeat' split) <;> simp (maxDischargeDepth := 12) +contextual [full_mk, hf]

@[simp] theorem landNetSet_full (p : Bytes) (s : State) (hf : s.Full) : (landNetSet p s).Full := by
  unfold landNetSet
  (repeat' split) <;> simp (maxDischargeDepth := 12) +contextual [full_mk, hf]

@[simp] theorem resuspend_full (b : Bool) (s : State) (hf : s.Full) : (resuspend b s).Full := by
  unfold resuspend
  (repeat' split) <;> simp (maxDischargeDepth := 12) +contextual [full_mk, hf]

@[simp] theorem igmpSend_full (i : Nat) (leave : Bool) (s : State) (b : Bool) (hf : s.Full) : (igmpSend i leave s b).Full := by
  unfold igmpSend
  (repeat' split) <;> simp (maxDischargeDepth := 12) +contextual [full_mk, hf]

@[simp] theorem igmpReports_full (i : Nat) (s : State) (hf : s.Full) : (igmpReports i s).Full := by
  unfold igmpReports
  (repeat' split) <;> simp (maxDischargeDepth := 12) +contextual [full_mk, hf]

@[simp] theorem igmpLeaves_full (i : Nat) (s : State) (hf : s.Full) : (igmpLeaves i s).Full := by
  unfold igmpLeaves
  (repeat' split) <;> simp (maxDischargeDepth := 12) +contextual [full_mk, hf]

@[simp] theorem forwardTo_full (l : LinkPort) (f : EthFrame) (s : State) (x : LinkPort) (hf : s.Full) : (forwardTo l f s x).Full := by
  unfold forwardTo
  (repeat' split) <;> simp (maxDischargeDepth := 12) +contextual [full_mk, hf]

@[simp] theorem enterCounted_full (l : LinkPort) (f : EthFrame) (s : State) (hf : s.Full) : (enterCounted l f s).1.Full := by
  unfold enterCounted
  (repeat' split) <;> simp (maxDischargeDepth := 12) +contextual [full_mk, hf]

@[simp] theorem enterFrame_full (l : LinkPort) (f : EthFrame) (s : State) (hf : s.Full) : (enterFrame l f s).1.Full := by
  unfold enterFrame
  (repeat' split) <;> simp (maxDischargeDepth := 12) +contextual [full_mk, hf]

@[simp] theorem sendPtp_full (x : NetPort) (k : PtpKind) (s : State) (hf : s.Full) : (sendPtp x k s).Full := by
  unfold sendPtp
  (repeat' split) <;> simp (maxDischargeDepth := 12) +contextual [full_mk, hf]

@[simp] theorem clearStorm_full (s : State) (hf : s.Full) : (clearStorm s).Full := by
  unfold clearStorm
  (repeat' split) <;> simp (maxDischargeDepth := 12) +contextual [full_mk, hf]

@[simp] theorem putRx_full (i : Nat) (c : RxSlotCfg) (s : State) (hf : s.Full) : (putRx i c s).Full := by
  unfold putRx
  (repeat' split) <;> simp (maxDischargeDepth := 12) +contextual [full_mk, hf]

@[simp] theorem putTx_full (i : Nat) (c : TxSlotCfg) (s : State) (hf : s.Full) : (putTx i c s).Full := by
  unfold putTx
  (repeat' split) <;> simp (maxDischargeDepth := 12) +contextual [full_mk, hf]

@[simp] theorem decantAnew_full (key : Nat) (s : State) (hf : s.Full) : (decantAnew key s).Full := by
  unfold decantAnew
  (repeat' split) <;> simp (maxDischargeDepth := 12) +contextual [full_mk, hf]

@[simp] theorem rxOn_full (s0 : State) (i : Nat) (hf : s0.Full) : (rxOn s0 i).Full := by
  unfold rxOn
  dsimp only
  (repeat' split) <;> (try simp (maxDischargeDepth := 12) +contextual [full_mk, hf]) <;> (repeat' split) <;> simp (maxDischargeDepth := 12) +contextual [full_mk, hf]

@[simp] theorem rxOff_full (s0 : State) (i : Nat) (hf : s0.Full) : (rxOff s0 i).Full := by
  unfold rxOff
  dsimp only
  (repeat' split) <;> (try simp (maxDischargeDepth := 12) +contextual [full_mk, hf]) <;> (repeat' split) <;> simp (maxDischargeDepth := 12) +contextual [full_mk, hf]

@[simp] theorem txOn_full (s0 : State) (i : Nat) (hf : s0.Full) : (txOn s0 i).Full := by
  unfold txOn
  dsimp only
  (repeat' split) <;> (try simp (maxDischargeDepth := 12) +contextual [full_mk, hf]) <;> (repeat' split) <;> simp (maxDischargeDepth := 12) +contextual [full_mk, hf]

@[simp] theorem txOff_full (s0 : State) (i : Nat) (hf : s0.Full) : (txOff s0 i).Full := by
  unfold txOff
  dsimp only
  (repeat' split) <;> (try simp (maxDischargeDepth := 12) +contextual [full_mk, hf]) <;> (repeat' split) <;> simp (maxDischargeDepth := 12) +contextual [full_mk, hf]

@[simp] theorem landStreamEnable_full (p : Bytes) (s : State) (hf : s.Full) : (landStreamEnable p s).Full := by
  unfold landStreamEnable
  (repeat' split) <;> simp (maxDischargeDepth := 12) +contextual [full_mk, hf]

@[simp] theorem placeSample_full (i : Nat) (c : RxSlotCfg) (dec : Bool) (due : Int) (m : Int) (v : StreamSample) (s : State) (hf : s.Full) : (placeSample i c dec due m v s).Full := by
  unfold placeSample
  (repeat' split) <;> simp (maxDischargeDepth := 12) +contextual [full_mk, hf]

@[simp] theorem pathBack_full (i : Nat) (b : Bool) (s : State) (hf : s.Full) : (pathBack i b s).Full := by
  unfold pathBack
  (repeat' split) <;> simp (maxDischargeDepth := 12) +contextual [full_mk, hf]

@[simp] theorem takePacket_full (i : Nat) (m : MediaPacket) (s : State) (hf : s.Full) : (takePacket i m s).Full := by
  unfold takePacket
  (repeat' split) <;> simp (maxDischargeDepth := 12) +contextual [full_mk, hf]

@[simp] theorem rxEnd_full (i : Nat) (s : State) (hf : s.Full) : (rxEnd i s).Full := by
  unfold rxEnd
  (repeat' split) <;> simp (maxDischargeDepth := 12) +contextual [full_mk, hf]

@[simp] theorem rxPresent_full (i : Nat) (v : StreamSample) (due : Nat) (s : State) (hf : s.Full) : (rxPresent i v due s).Full := by
  unfold rxPresent
  (repeat' split) <;> simp (maxDischargeDepth := 12) +contextual [full_mk, hf]

@[simp] theorem rxMissing_full (i : Nat) (due : Int) (s : State) (hf : s.Full) : (rxMissing i due s).Full := by
  unfold rxMissing
  dsimp only
  (repeat' split) <;> (try simp (maxDischargeDepth := 12) +contextual [full_mk, hf]) <;> (repeat' split) <;> simp (maxDischargeDepth := 12) +contextual [full_mk, hf]

@[simp] theorem presentStream_full (i : Nat) (s : State) (hf : s.Full) : (presentStream i s).Full := by
  unfold presentStream
  dsimp only
  (repeat' split) <;> (try simp (maxDischargeDepth := 12) +contextual [full_mk, hf]) <;> (repeat' split) <;> simp (maxDischargeDepth := 12) +contextual [full_mk, hf]

@[simp] theorem presentStreams_full (s : State) (hf : s.Full) : (presentStreams s).Full := by
  unfold presentStreams
  (repeat' split) <;> simp (maxDischargeDepth := 12) +contextual [full_mk, hf]

@[simp] theorem feedStream_full (get : Nat → Int) (s : State) (i : Nat) (hf : s.Full) : (feedStream get s i).Full := by
  unfold feedStream
  (repeat' split) <;> simp (maxDischargeDepth := 12) +contextual [full_mk, hf]

@[simp] theorem feedStreams_full (get : Nat → Int) (s : State) (hf : s.Full) : (feedStreams get s).Full := by
  unfold feedStreams
  (repeat' split) <;> simp (maxDischargeDepth := 12) +contextual [full_mk, hf]

@[simp] theorem sendMedia_full (i m : Nat) (payload : Bytes) (s : State) (b : Bool) (hf : s.Full) : (sendMedia i m payload s b).Full := by
  unfold sendMedia
  (repeat' split) <;> simp (maxDischargeDepth := 12) +contextual [full_mk, hf]

@[simp] theorem txEnd_full (i : Nat) (s : State) (hf : s.Full) : (txEnd i s).Full := by
  unfold txEnd
  (repeat' split) <;> simp (maxDischargeDepth := 12) +contextual [full_mk, hf]

@[simp] theorem renewChain_full (pour : Bool) (s : State) (c : Nat) (hf : s.Full) : (renewChain pour s c).Full := by
  unfold renewChain
  (repeat' split) <;> simp (maxDischargeDepth := 12) +contextual [full_mk, hf]

@[simp] theorem zeroAudio_full (f : Fin 3) (s : State) (hf : s.Full) : (zeroAudio f s).Full := by
  unfold zeroAudio
  (repeat' split) <;> simp (maxDischargeDepth := 12) +contextual [full_mk, hf]

@[simp] theorem fsSwitch_full (f : Fin 3) (s : State) (hf : s.Full) : (fsSwitch f s).Full := by
  unfold fsSwitch
  (repeat' split) <;> simp (maxDischargeDepth := 12) +contextual [full_mk, hf]

@[simp] theorem withDecant_full (d : DecantCfg) (s : State) (hf : s.Full) : (withDecant d s).Full := by
  unfold withDecant
  (repeat' split) <;> simp (maxDischargeDepth := 12) +contextual [full_mk, hf]

@[simp] theorem putAlign_full (g : Nat) (a : AlignGroup) (s : State) (hf : s.Full) : (putAlign g a s).Full := by
  unfold putAlign
  (repeat' split) <;> simp (maxDischargeDepth := 12) +contextual [full_mk, hf]

@[simp] theorem alignStopped_full (p : Bytes) (s : State) (hf : s.Full) : (alignStopped p s).Full := by
  unfold alignStopped
  (repeat' split) <;> simp (maxDischargeDepth := 12) +contextual [full_mk, hf]

@[simp] theorem landAlignGroup_full (p : Bytes) (s : State) (hf : s.Full) : (landAlignGroup p s).Full := by
  unfold landAlignGroup
  (repeat' split) <;> simp (maxDischargeDepth := 12) +contextual [full_mk, hf]

@[simp] theorem caskPack_full (s : State) (hf : s.Full) : (caskPack s).Full := by
  unfold caskPack
  (repeat' split) <;> simp (maxDischargeDepth := 12) +contextual [full_mk, hf]

@[simp] theorem installCore_full (k : Nat) (b : Bytes) (verified : Bool) (s : State) (hf : s.Full) : (installCore k b verified s).Full := by
  unfold installCore
  dsimp only
  (repeat' split) <;> (try simp (maxDischargeDepth := 12) +contextual [full_mk, hf]) <;> (repeat' split) <;> simp (maxDischargeDepth := 12) +contextual [full_mk, hf]

@[simp] theorem emptyCore_full (k : Nat) (s : State) (hf : s.Full) : (emptyCore k s).Full := by
  unfold emptyCore
  (repeat' split) <;> simp (maxDischargeDepth := 12) +contextual [full_mk, hf]

@[simp] theorem beginCore_full (k n : Nat) (s : State) (hf : s.Full) : (beginCore k n s).Full := by
  unfold beginCore
  (repeat' split) <;> simp (maxDischargeDepth := 12) +contextual [full_mk, hf]

@[simp] theorem markCore_full (k : Nat) (s : State) (hf : s.Full) : (markCore k s).Full := by
  unfold markCore
  (repeat' split) <;> simp (maxDischargeDepth := 12) +contextual [full_mk, hf]

@[simp] theorem unmarkCore_full (k : Nat) (s : State) (hf : s.Full) : (unmarkCore k s).Full := by
  unfold unmarkCore
  (repeat' split) <;> simp (maxDischargeDepth := 12) +contextual [full_mk, hf]

@[simp] theorem startCore_full (n : Nat) (s : State) (k : Nat) (hf : s.Full) : (startCore n s k).Full := by
  unfold startCore
  dsimp only
  (repeat' split) <;> (try simp (maxDischargeDepth := 12) +contextual [full_mk, hf]) <;> (repeat' split) <;> simp (maxDischargeDepth := 12) +contextual [full_mk, hf]

@[simp] theorem restartCore_full (n : Nat) (s : State) (k : Nat) (hf : s.Full) : (restartCore n s k).Full := by
  unfold restartCore
  (repeat' split) <;> simp (maxDischargeDepth := 12) +contextual [full_mk, hf]

@[simp] theorem landCoreStart_full (restart : Bool) (s : State) (k : Nat) (hf : s.Full) : (landCoreStart restart s k).Full := by
  unfold landCoreStart
  (repeat' split) <;> simp (maxDischargeDepth := 12) +contextual [full_mk, hf]

@[simp] theorem landCoopStart_full (p : Bytes) (s : State) (hf : s.Full) : (landCoopStart p s).Full := by
  unfold landCoopStart
  (repeat' split) <;> simp (maxDischargeDepth := 12) +contextual [full_mk, hf]

@[simp] theorem stopCore_full (k : Nat) (s : State) (hf : s.Full) : (stopCore k s).Full := by
  unfold stopCore
  (repeat' split) <;> simp (maxDischargeDepth := 12) +contextual [full_mk, hf]

@[simp] theorem fadeCore_full (s : State) (k : Nat) (hf : s.Full) : (fadeCore s k).Full := by
  unfold fadeCore
  dsimp only
  (repeat' split) <;> (try simp (maxDischargeDepth := 12) +contextual [full_mk, hf]) <;> (repeat' split) <;> simp (maxDischargeDepth := 12) +contextual [full_mk, hf]

@[simp] theorem landCoreStop_full (s : State) (k : Nat) (hf : s.Full) : (landCoreStop s k).Full := by
  unfold landCoreStop
  (repeat' split) <;> simp (maxDischargeDepth := 12) +contextual [full_mk, hf]

@[simp] theorem landCoopStop_full (p : Bytes) (s : State) (hf : s.Full) : (landCoopStop p s).Full := by
  unfold landCoopStop
  (repeat' split) <;> simp (maxDischargeDepth := 12) +contextual [full_mk, hf]

@[simp] theorem boundaryPresent_full (k n : Nat) (s : State) (hf : s.Full) : (boundaryPresent k n s).Full := by
  unfold boundaryPresent
  dsimp only
  (repeat' split) <;> (try simp (maxDischargeDepth := 12) +contextual [full_mk, hf]) <;> (repeat' split) <;> simp (maxDischargeDepth := 12) +contextual [full_mk, hf]

@[simp] theorem boundaryTrigger_full (k : Nat) (b : InBlock) (s : State) (hf : s.Full) : (boundaryTrigger k b s).Full := by
  unfold boundaryTrigger
  (repeat' split) <;> simp (maxDischargeDepth := 12) +contextual [full_mk, hf]

@[simp] theorem recordOverrun_full (k kind : Nat) (s : State) (hf : s.Full) : (recordOverrun k kind s).Full := by
  unfold recordOverrun
  (repeat' split) <;> simp (maxDischargeDepth := 12) +contextual [full_mk, hf]

@[simp] theorem landCoopParam_full (p : Bytes) (s : State) (hf : s.Full) : (landCoopParam p s).Full := by
  unfold landCoopParam
  (repeat' split) <;> simp (maxDischargeDepth := 12) +contextual [full_mk, hf]

@[simp] theorem debugRelease_full (k : Nat) (s : State) (hf : s.Full) : (debugRelease k s).Full := by
  unfold debugRelease
  (repeat' split) <;> simp (maxDischargeDepth := 12) +contextual [full_mk, hf]

@[simp] theorem debugStep_full (k n : Nat) (s : State) (hf : s.Full) : (debugStep k n s).Full := by
  unfold debugStep
  (repeat' split) <;> simp (maxDischargeDepth := 12) +contextual [full_mk, hf]

@[simp] theorem stepModeW_full (s : State) (hf : s.Full) : (stepModeW s).Full := by
  unfold stepModeW
  (repeat' split) <;> simp (maxDischargeDepth := 12) +contextual [full_mk, hf]

@[simp] theorem stepCores_full (s0 : State) (hf : s0.Full) : (stepCores s0).Full := by
  unfold stepCores
  (repeat' split) <;> simp (maxDischargeDepth := 12) +contextual [full_mk, hf]

@[simp] theorem setHs_full (n : Nat) (x : HsRt) (s : State) (hf : s.Full) : (setHs n x s).Full := by
  unfold setHs
  (repeat' split) <;> simp (maxDischargeDepth := 12) +contextual [full_mk, hf]

@[simp] theorem setHsCfg_full (n : Nat) (x : HsCfg) (s : State) (hf : s.Full) : (setHsCfg n x s).Full := by
  unfold setHsCfg
  (repeat' split) <;> simp (maxDischargeDepth := 12) +contextual [full_mk, hf]

@[simp] theorem hsEvent_full (e : HsEvent) (s : State) (hf : s.Full) : (hsEvent e s).Full := by
  unfold hsEvent
  (repeat' split) <;> simp (maxDischargeDepth := 12) +contextual [full_mk, hf]

@[simp] theorem hsTrigger_full (n : Nat) (s : State) (hf : s.Full) : (hsTrigger n s).Full := by
  unfold hsTrigger
  (repeat' split) <;> simp (maxDischargeDepth := 12) +contextual [full_mk, hf]

@[simp] theorem hsEnd_full (n : Nat) (s : State) (hf : s.Full) : (hsEnd n s).Full := by
  unfold hsEnd
  (repeat' split) <;> simp (maxDischargeDepth := 12) +contextual [full_mk, hf]

@[simp] theorem clampSoon_full (h : Handle) (s : State) (hf : s.Full) : (clampSoon h s).Full := by
  unfold clampSoon
  (repeat' split) <;> simp (maxDischargeDepth := 12) +contextual [full_mk, hf]

@[simp] theorem buttonUp_full (n : Fin 2) (at' : Nat) (s : State) (hf : s.Full) : (buttonUp n at' s).Full := by
  unfold buttonUp
  (repeat' split) <;> simp (maxDischargeDepth := 12) +contextual [full_mk, hf]

@[simp] theorem hsEmpty_full (n : Fin 2) (s : State) (hf : s.Full) : (hsEmpty n s).Full := by
  unfold hsEmpty
  (repeat' split) <;> simp (maxDischargeDepth := 12) +contextual [full_mk, hf]

@[simp] theorem landHsSet_full (p : Bytes) (s : State) (hf : s.Full) : (landHsSet p s).Full := by
  unfold landHsSet
  extract_lets n f o a b c d e s' x s1 s2 s3 r
  have g1 : s1.Full := by
    unfold s1
    split
    · exact (startRamp_full _ _ _ _ _ hf : s'.Full)
    · exact hf
  have g2 : s2.Full := by
    unfold s2
    split
    · exact hsEmpty_full _ _ (buttonUp_full _ _ _ g1)
    · exact g1
  have g3 : s3.Full := setHsCfg_full _ _ _ g2
  split
  · exact hsTrigger_full _ _ (setHs_full _ _ _ g3)
  split
  · exact g3
  · exact release_full _ _ _ _ (setHs_full _ _ _ g3)

@[simp] theorem forceHs_full (n : Fin 2) (t : Nat) (s : State) (hf : s.Full) : (forceHs n t s).Full := by
  unfold forceHs
  (repeat' split) <;> simp (maxDischargeDepth := 12) +contextual [full_mk, hf]

@[simp] theorem unforceHs_full (n : Fin 2) (s : State) (hf : s.Full) : (unforceHs n s).Full := by
  unfold unforceHs
  (repeat' split) <;> simp (maxDischargeDepth := 12) +contextual [full_mk, hf]

@[simp] theorem pourFrame_full (c : Nat) (v : Int) (s : State) (hf : s.Full) : (pourFrame c v s).Full := by
  unfold pourFrame
  (repeat' split) <;> simp (maxDischargeDepth := 12) +contextual [full_mk, hf]

@[simp] theorem setPh_full (c : Nat) (x : Phantom) (s : State) (hf : s.Full) : (setPh c x s).Full := by
  unfold setPh
  (repeat' split) <;> simp (maxDischargeDepth := 12) +contextual [full_mk, hf]

@[simp] theorem setChanIn_full (c : Nat) (x : ChanIn) (s : State) (hf : s.Full) : (setChanIn c x s).Full := by
  unfold setChanIn
  (repeat' split) <;> simp (maxDischargeDepth := 12) +contextual [full_mk, hf]

@[simp] theorem setInCfg_full (c : Nat) (x : InCfg) (s : State) (hf : s.Full) : (setInCfg c x s).Full := by
  unfold setInCfg
  (repeat' split) <;> simp (maxDischargeDepth := 12) +contextual [full_mk, hf]

@[simp] theorem setTaster_full (t : Fin 2) (x : Taster) (s : State) (hf : s.Full) : (setTaster t x s).Full := by
  unfold setTaster
  (repeat' split) <;> simp (maxDischargeDepth := 12) +contextual [full_mk, hf]

@[simp] theorem stepMic_full (s : State) (c : Nat) (hf : s.Full) : (stepMic s c).Full := by
  unfold stepMic
  (repeat' split) <;> simp (maxDischargeDepth := 12) +contextual [full_mk, hf]

@[simp] theorem phSwitch_full (c : Nat) (on : Bool) (s : State) (hf : s.Full) : (phSwitch c on s).Full := by
  unfold phSwitch
  (repeat' split) <;> simp (maxDischargeDepth := 12) +contextual [full_mk, hf]

@[simp] theorem phApply_full (s : State) (c : Nat) (hf : s.Full) : (phApply s c).Full := by
  unfold phApply
  (repeat' split) <;> simp (maxDischargeDepth := 12) +contextual [full_mk, hf]

@[simp] theorem stepPhantom_full (muted : Bool) (s : State) (c : Nat) (hf : s.Full) : (stepPhantom muted s c).Full := by
  unfold stepPhantom
  dsimp only
  (repeat' split) <;> (try simp (maxDischargeDepth := 12) +contextual [full_mk, hf]) <;> (repeat' split) <;> simp (maxDischargeDepth := 12) +contextual [full_mk, hf]

@[simp] theorem inputStored_full (p : Bytes) (s : State) (hf : s.Full) : (inputStored p s).Full := by
  unfold inputStored
  (repeat' split) <;> simp (maxDischargeDepth := 12) +contextual [full_mk, hf]

@[simp] theorem landInput_full (p : Bytes) (s0 : State) (c : Nat) (hf : s0.Full) : (landInput p s0 c).Full := by
  unfold landInput
  (repeat' split) <;> simp (maxDischargeDepth := 12) +contextual [full_mk, hf]

@[simp] theorem landInputSet_full (p : Bytes) (s : State) (hf : s.Full) : (landInputSet p s).Full := by
  unfold landInputSet
  (repeat' split) <;> simp (maxDischargeDepth := 12) +contextual [full_mk, hf]

@[simp] theorem noteCodeFs_full (k : Nat) (s : State) (hf : s.Full) : (noteCodeFs k s).Full := by
  unfold noteCodeFs
  (repeat' split) <;> simp (maxDischargeDepth := 12) +contextual [full_mk, hf]

@[simp] theorem stepWindows_full (s : State) (hf : s.Full) : (stepWindows s).Full := by
  unfold stepWindows
  (repeat' split) <;> simp (maxDischargeDepth := 12) +contextual [full_mk, hf]

@[simp] theorem endRound_full (s : State) (hf : s.Full) : (endRound s).Full := by
  unfold endRound
  (repeat' split) <;> simp (maxDischargeDepth := 12) +contextual [full_mk, hf]

@[simp] theorem connect_full (t : Fin 2) (c : Nat) (st : TState) (pair : Bool) (s : State) (hf : s.Full) : (connect t c st pair s).Full := by
  unfold connect
  (repeat' split) <;> simp (maxDischargeDepth := 12) +contextual [full_mk, hf]

@[simp] theorem markVisited_full (c : Nat) (s : State) (hf : s.Full) : (markVisited c s).Full := by
  unfold markVisited
  (repeat' split) <;> simp (maxDischargeDepth := 12) +contextual [full_mk, hf]

@[simp] theorem markPassed_full (c : Nat) (s : State) (hf : s.Full) : (markPassed c s).Full := by
  unfold markPassed
  (repeat' split) <;> simp (maxDischargeDepth := 12) +contextual [full_mk, hf]

@[simp] theorem beginVisit_full (t : Fin 2) (v : NextVisit) (s : State) (hf : s.Full) : (beginVisit t v s).Full := by
  unfold beginVisit
  (repeat' split) <;> simp (maxDischargeDepth := 12) +contextual [full_mk, hf]

@[simp] theorem parkSubst_full (t : Fin 2) (c : Fin 32) (s : State) (hf : s.Full) : (parkSubst t c s).Full := by
  unfold parkSubst
  (repeat' split) <;> simp (maxDischargeDepth := 12) +contextual [full_mk, hf]

@[simp] theorem goSubst_full (t : Fin 2) (c : Fin 32) (s : State) (hf : s.Full) : (goSubst t c s).Full := by
  unfold goSubst
  (repeat' split) <;> simp (maxDischargeDepth := 12) +contextual [full_mk, hf]

@[simp] theorem seqEnd_full (s : State) (hf : s.Full) : (seqEnd s).Full := by
  unfold seqEnd
  (repeat' split) <;> simp (maxDischargeDepth := 12) +contextual [full_mk, hf]

@[simp] theorem failAction_full (c : Nat) (s : State) (hf : s.Full) : (failAction c s).Full := by
  unfold failAction
  (repeat' split) <;> simp (maxDischargeDepth := 12) +contextual [full_mk, hf]

@[simp] theorem freeTaster_full (t : Fin 2) (s : State) (hf : s.Full) : (freeTaster t s).Full := by
  unfold freeTaster
  (repeat' split) <;> simp (maxDischargeDepth := 12) +contextual [full_mk, hf]

@[simp] theorem endVisit_full (t : Fin 2) (s : State) (hf : s.Full) : (endVisit t s).Full := by
  unfold endVisit
  (repeat' split) <;> simp (maxDischargeDepth := 12) +contextual [full_mk, hf]

@[simp] theorem stepSubst_full (s : State) (hf : s.Full) : (stepSubst s).Full := by
  unfold stepSubst
  (repeat' split) <;> simp (maxDischargeDepth := 12) +contextual [full_mk, hf]

@[simp] theorem passChannel_full (c : Nat) (s : State) (hf : s.Full) : (passChannel c s).Full := by
  unfold passChannel
  (repeat' split) <;> simp (maxDischargeDepth := 12) +contextual [full_mk, hf]

@[simp] theorem noteVerdict_full (t : Fin 2) (c v : Nat) (m : TasterMeas) (s : State) (hf : s.Full) : (noteVerdict t c v m s).Full := by
  unfold noteVerdict
  (repeat' split) <;> simp (maxDischargeDepth := 12) +contextual [full_mk, hf]

@[simp] theorem goFirst_full (c : Nat) (s : State) (hf : s.Full) : (goFirst c s).Full := by
  unfold goFirst
  (repeat' split) <;> simp (maxDischargeDepth := 12) +contextual [full_mk, hf]

@[simp] theorem visitOver_full (t : Fin 2) (s : State) (hf : s.Full) : (visitOver t s).Full := by
  unfold visitOver
  (repeat' split) <;> simp (maxDischargeDepth := 12) +contextual [full_mk, hf]

@[simp] theorem confirmFail_full (t : Fin 2) (c : Fin 32) (v : Nat) (m : TasterMeas) (s0 : State) (hf : s0.Full) : (confirmFail t c v m s0).Full := by
  unfold confirmFail
  (repeat' split) <;> simp (maxDischargeDepth := 12) +contextual [full_mk, hf]

@[simp] theorem plainVerdict_full (t : Fin 2) (c : Fin 32) (v : Nat) (m : TasterMeas) (s0 : State) (hf : s0.Full) : (plainVerdict t c v m s0).Full := by
  unfold plainVerdict
  (repeat' split) <;> simp (maxDischargeDepth := 12) +contextual [full_mk, hf]

@[simp] theorem withdraw_full (t : Fin 2) (s : State) (hf : s.Full) : (withdraw t s).Full := by
  unfold withdraw
  (repeat' split) <;> simp (maxDischargeDepth := 12) +contextual [full_mk, hf]

@[simp] theorem pairVerdict_full (t : Fin 2) (c : Fin 32) (m other between : TasterMeas) (s : State) (hf : s.Full) : (pairVerdict t c m other between s).Full := by
  unfold pairVerdict
  (repeat' split) <;> simp (maxDischargeDepth := 12) +contextual [full_mk, hf]

@[simp] theorem restTaster_full (s : State) (t : Fin 2) (hf : s.Full) : (restTaster s t).Full := by
  unfold restTaster
  (repeat' split) <;> simp (maxDischargeDepth := 12) +contextual [full_mk, hf]

@[simp] theorem landTasterConfig_full (p : Bytes) (s : State) (hf : s.Full) : (landTasterConfig p s).Full := by
  unfold landTasterConfig
  (repeat' split) <;> simp (maxDischargeDepth := 12) +contextual [full_mk, hf]

@[simp] theorem releaseInputs_full (s : State) (hf : s.Full) : (releaseInputs s).Full := by
  unfold releaseInputs
  (repeat' split) <;> simp (maxDischargeDepth := 12) +contextual [full_mk, hf]

@[simp] theorem forceTaster_full (t : Fin 2) (c : Nat) (s : State) (hf : s.Full) : (forceTaster t c s).Full := by
  unfold forceTaster
  (repeat' split) <;> simp (maxDischargeDepth := 12) +contextual [full_mk, hf]

@[simp] theorem restoreTasters_full (s : State) (hf : s.Full) : (restoreTasters s).Full := by
  unfold restoreTasters
  (repeat' split) <;> simp (maxDischargeDepth := 12) +contextual [full_mk, hf]

@[simp] theorem pressFirst_full (i : TickIn) (s : State) (c : Nat) (st : Stages) (hf : s.Full) : (pressFirst i s c st).1.Full := by
  unfold pressFirst
  (repeat' split) <;> simp (maxDischargeDepth := 12) +contextual [full_mk, hf]

@[simp] theorem pressChain_full (i : TickIn) (s0 : State) (c : Nat) (hf : s0.Full) : (pressChain i s0 c).1.Full := by
  unfold pressChain
  dsimp only
  (repeat' split) <;> (try simp (maxDischargeDepth := 12) +contextual [full_mk, hf]) <;> (repeat' split) <;> simp (maxDischargeDepth := 12) +contextual [full_mk, hf]

@[simp] theorem pressAll_full (i : TickIn) (s : State) (hf : s.Full) : (pressAll i s).1.Full := by
  unfold pressAll
  generalize List.range 36 = l
  exact pairFold_full (β := List Int) (fun a c h => pressChain_full i a.1 c h) l (s, []) hf

@[simp] theorem ainSource_full (vals : List Int) (a : State × Tab Int) (c : Nat) (hf : a.1.Full) : (ainSource vals a c).1.Full := by
  unfold ainSource
  extract_lets s h v x q y m s1
  exact (by unfold s1; split <;> exact hf : s1.Full)

@[simp] theorem stepIdle_full (s : State) (n : Nat) (hf : s.Full) : (stepIdle s n).Full := by
  unfold stepIdle
  (repeat' split) <;> simp (maxDischargeDepth := 12) +contextual [full_mk, hf]

@[simp] theorem micSource_full (vals : List Int) (a : State × Tab Int) (n : Nat) (hf : a.1.Full) : (micSource vals a n).1.Full := by
  unfold micSource
  dsimp only
  split <;> simp [hf]

@[simp] theorem genSource_full (a : State × Tab Int) (g : Nat) (hf : a.1.Full) : (genSource a g).1.Full := by
  unfold genSource
  exact hf

@[simp] theorem captureSources_full (i : TickIn) (s0 : State) (hf : s0.Full) : (captureSources i s0).Full := by
  unfold captureSources
  dsimp only
  generalize hv : pressAll i _ = y
  obtain ⟨s2, vals⟩ := y
  have h2 : s2.Full := by
    have g := congrArg (fun x => x.1.Full) hv
    exact g.mp (pressAll_full i _ (by simp (maxDischargeDepth := 12) [hf]))
  have h3 : ∀ b, (List.foldl genSource (List.foldl (micSource vals) (List.foldl (ainSource vals) (s2, b)
      (List.range 32)) (List.range 2)) (List.range 4)).1.Full := by
    generalize List.range 4 = l4
    generalize List.range 2 = l2
    generalize List.range 32 = l1
    intro b
    exact pairFold_full genSource_full _ _ (pairFold_full (micSource_full vals) _ _
      (pairFold_full (ainSource_full vals) _ _ h2))
  exact mix_full _ _ (h3 _)

@[simp] theorem followTerms_full (s : State) (hf : s.Full) : (followTerms s).Full := by
  unfold followTerms
  (repeat' split) <;> simp (maxDischargeDepth := 12) +contextual [full_mk, hf]

@[simp] theorem emptyStage_full (s : State) (hf : s.Full) : (emptyStage s).Full := by
  unfold emptyStage
  (repeat' split) <;> simp (maxDischargeDepth := 12) +contextual [full_mk, hf]

@[simp] theorem noteRefusal_full (st : Status) (i : Nat) (s : State) (hf : s.Full) : (noteRefusal st i s).Full := by
  unfold noteRefusal
  (repeat' split) <;> simp (maxDischargeDepth := 12) +contextual [full_mk, hf]

@[simp] theorem adoptGraph_full (g : GraphCfg) (c : Compiled) (s : State) (hf : s.Full) : (adoptGraph g c s).Full := by
  unfold adoptGraph
  (repeat' split) <;> simp (maxDischargeDepth := 12) +contextual [full_mk, hf]

@[simp] theorem commitReply_full (st : Status) (s : State) (hf : s.Full) : (commitReply st s).Full := by
  unfold commitReply
  dsimp only
  (repeat' split) <;> (try simp (maxDischargeDepth := 12) +contextual [full_mk, hf]) <;> (repeat' split) <;> simp (maxDischargeDepth := 12) +contextual [full_mk, hf]

@[simp] theorem beginCommit_full (s : State) (hf : s.Full) : (beginCommit s).Full := by
  unfold beginCommit
  (repeat' split) <;> simp (maxDischargeDepth := 12) +contextual [full_mk, hf]

@[simp] theorem countOverrun_full (st : Status) (s : State) (hf : s.Full) : (countOverrun st s).Full := by
  unfold countOverrun
  split <;> exact hf

@[simp] theorem armCommit_full (k : Captured) (s : State) (hf : s.Full) : (armCommit k s).Full := by
  unfold armCommit
  (repeat' split) <;> simp (maxDischargeDepth := 12) +contextual [full_mk, hf]

@[simp] theorem graphTrigger_full (k : Captured) (s : State) (hf : s.Full) : (graphTrigger k s).2.Full := by
  unfold graphTrigger
  (repeat' split) <;> simp (maxDischargeDepth := 12) +contextual [full_mk, hf]

@[simp] theorem discardRefused_full (h : Hdr) (p : Bytes) (s : State) (hf : s.Full) : (discardRefused h p s).Full := by
  unfold discardRefused
  (repeat' split) <;> simp (maxDischargeDepth := 12) +contextual [full_mk, hf]

@[simp] theorem noteRoute_full (h : Hdr) (p : Bytes) (s : State) (hf : s.Full) : (noteRoute h p s).Full := by
  unfold noteRoute
  (repeat' split) <;> simp (maxDischargeDepth := 12) +contextual [full_mk, hf]

theorem triggerNow_full (k : Captured) (fail : Status → State → State) (hg : ∀ st s, s.Full → (fail st s).Full) (s : State)
    (hf : s.Full) : (triggerNow k fail s).Full := by
  have g := graphTrigger_full k s hf
  unfold triggerNow
  split
  · exact beginCommit_full _ hf
  split <;> rename_i e <;> rw [e] at g
  · exact g
  · exact hg _ _ g

@[simp] theorem landGraphTimed_full (l : Landing) (s : State) (hf : s.Full) : (landGraphTimed l s).Full := by
  have hr : ∀ st a, a.Full → (reply (opCode l.op) l.hdr st [] a).Full := fun st a h => reply_full _ _ _ _ _ h
  have hc : ∀ (x : List Captured), ({ s with gr := { s.gr with caps := x } } : State).Full := fun _ => hf
  unfold landGraphTimed
  dsimp only
  (repeat' split) <;> first
    | exact hf
    | exact hr _ _ (noteRefusal_full _ _ _ (hc _))
    | exact hr _ _ (noteRefusal_full _ _ _ hf)
    | exact hr _ _ (countOverrun_full _ _ hf)
    | exact hr _ _ (hc _)
    | exact hr _ _ hf
    | exact triggerNow_full _ _ hr _ (hc _)
    | exact triggerNow_full _ _ hr _ hf

@[simp] theorem cancelTriggers_full (s : State) (hf : s.Full) : (cancelTriggers s).Full := by
  unfold cancelTriggers
  dsimp only
  (repeat' split) <;> (try simp (maxDischargeDepth := 12) +contextual [full_mk, hf]) <;> (repeat' split) <;> simp (maxDischargeDepth := 12) +contextual [full_mk, hf]

@[simp] theorem stepMutes_full (s : State) (hf : s.Full) : (stepMutes s).Full := by
  unfold stepMutes
  (repeat' split) <;> simp (maxDischargeDepth := 12) +contextual [full_mk, hf]

@[simp] theorem stepPortStops_full (s : State) (hf : s.Full) : (stepPortStops s).Full := by
  unfold stepPortStops
  (repeat' split) <;> simp (maxDischargeDepth := 12) +contextual [full_mk, hf]

@[simp] theorem noteSat_full (s : State) (x : Handle × Nat × Nat) (hf : s.Full) : (noteSat s x).Full := by
  unfold noteSat
  (repeat' split) <;> simp (maxDischargeDepth := 12) +contextual [full_mk, hf]

@[simp] theorem blendPass_full (s0 : State) (hf : s0.Full) : (blendPass s0).Full := by
  unfold blendPass
  (repeat' split) <;> simp (maxDischargeDepth := 12) +contextual [full_mk, hf]

@[simp] theorem landEventMask_full (h : Hdr) (p : Bytes) (s : State) (hf : s.Full) : (landEventMask h p s).Full := by
  unfold landEventMask setListener
  dsimp only
  repeat' split
  all_goals exact hf

@[simp] theorem landNetAuth_full (p : Bytes) (s : State) (hf : s.Full) : (landNetAuth p s).Full := by
  unfold landNetAuth
  (repeat' split) <;> simp (maxDischargeDepth := 12) +contextual [full_mk, hf]

@[simp] theorem keysEnabled_full (p : Bytes) (s : State) (hf : s.Full) : (keysEnabled p s).Full := by
  unfold keysEnabled
  (repeat' split) <;> simp (maxDischargeDepth := 12) +contextual [full_mk, hf]

@[simp] theorem stepOverride_full (s : State) (hf : s.Full) : (stepOverride s).Full := by
  unfold stepOverride
  (repeat' split) <;> simp (maxDischargeDepth := 12) +contextual [full_mk, hf]

@[simp] theorem stepDriver_full (s0 : State) (h : Handle) (hf : s0.Full) : (stepDriver s0 h).Full := by
  unfold stepDriver
  (repeat' split) <;> simp (maxDischargeDepth := 12) +contextual [full_mk, hf]

@[simp] theorem sinkFrame_full (ov : Int) (s0 : State) (h : Handle) (hf : s0.Full) : (sinkFrame ov s0 h).Full := by
  unfold sinkFrame
  exact mix_full _ _ (by split <;> simp [hf])

@[simp] theorem sinkStage_full (s0 : State) (hf : s0.Full) : (sinkStage s0).Full := by
  unfold sinkStage
  (repeat' split) <;> simp (maxDischargeDepth := 12) +contextual [full_mk, hf]

@[simp] theorem revertTests_full (s0 : State) (hf : s0.Full) : (revertTests s0).Full := by
  unfold revertTests
  (repeat' split) <;> simp (maxDischargeDepth := 12) +contextual [full_mk, hf]

@[simp] theorem closeExpert_full (s : State) (hf : s.Full) : (closeExpert s).Full := by
  unfold closeExpert
  (repeat' split) <;> simp (maxDischargeDepth := 12) +contextual [full_mk, hf]

@[simp] theorem toHold_full (s : State) (hf : s.Full) : (toHold s).Full := by
  unfold toHold
  (repeat' split) <;> simp (maxDischargeDepth := 12) +contextual [full_mk, hf]

@[simp] theorem landDevMode_full (p : Bytes) (s : State) (hf : s.Full) : (landDevMode p s).Full := by
  unfold landDevMode
  (repeat' split) <;> simp (maxDischargeDepth := 12) +contextual [full_mk, hf]

@[simp] theorem beginVint_full (t : Fin 2) (tai : Nat) (label : Word) (kind : CommitKind) (s : State) (hf : s.Full) : (beginVint t tai label kind s).Full := by
  unfold beginVint
  (repeat' split) <;> simp (maxDischargeDepth := 12) +contextual [full_mk, hf]

@[simp] theorem takeCommit_full (s : State) (hf : s.Full) : (takeCommit s).Full := by
  unfold takeCommit
  (repeat' split) <;> simp (maxDischargeDepth := 12) +contextual [full_mk, hf]

@[simp] theorem dropCommit_full (s : State) (hf : s.Full) : (dropCommit s).Full := by
  unfold dropCommit
  (repeat' split) <;> simp (maxDischargeDepth := 12) +contextual [full_mk, hf]

@[simp] theorem powerLossCommit_full (s : State) (hf : s.Full) : (powerLossCommit s).Full := by
  unfold powerLossCommit
  (repeat' split) <;> simp (maxDischargeDepth := 12) +contextual [full_mk, hf]

@[simp] theorem finishVint_full (c : Commit) (s : State) (hf : s.Full) : (finishVint c s).Full := by
  unfold finishVint
  (repeat' split) <;> simp (maxDischargeDepth := 12) +contextual [full_mk, hf]

@[simp] theorem spoilSlot_full (rb : ReadBack) (c : Commit) (s : State) (hf : s.Full) : (spoilSlot rb c s).Full := by
  unfold spoilSlot
  (repeat' split) <;> simp (maxDischargeDepth := 12) +contextual [full_mk, hf]

@[simp] theorem settleMark_full (s : State) (hf : s.Full) : (settleMark s).Full := by
  unfold settleMark
  (repeat' split) <;> simp (maxDischargeDepth := 12) +contextual [full_mk, hf]

@[simp] theorem landVintPolicy_full (p : Bytes) (s : State) (hf : s.Full) : (landVintPolicy p s).Full := by
  unfold landVintPolicy
  (repeat' split) <;> simp (maxDischargeDepth := 12) +contextual [full_mk, hf]

@[simp] theorem boardStored_full (b : BoardCfg) (s : State) (hf : s.Full) : (boardStored b s).Full := by
  unfold boardStored
  (repeat' split) <;> simp (maxDischargeDepth := 12) +contextual [full_mk, hf]

@[simp] theorem declareHold_full (b : BoardCfg) (s : State) (hf : s.Full) : (declareHold b s).Full := by
  unfold declareHold
  (repeat' split) <;> simp (maxDischargeDepth := 12) +contextual [full_mk, hf]

@[simp] theorem undeclareHs_full (n : Fin 2) (s : State) (hf : s.Full) : (undeclareHs n s).Full := by
  unfold undeclareHs
  (repeat' split) <;> simp (maxDischargeDepth := 12) +contextual [full_mk, hf]

@[simp] theorem undeclareLink_full (l : LinkPort) (s : State) (hf : s.Full) : (undeclareLink l s).Full := by
  unfold undeclareLink
  (repeat' split) <;> simp (maxDischargeDepth := 12) +contextual [full_mk, hf]

@[simp] theorem undeclare_full (s : State) (hf : s.Full) : (undeclare s).Full := by
  unfold undeclare
  (repeat' split) <;> simp (maxDischargeDepth := 12) +contextual [full_mk, hf]

@[simp] theorem checkNewSpk_full (old : BitVec 2) (s : State) (n : Nat) (hf : s.Full) : (checkNewSpk old s n).Full := by
  unfold checkNewSpk
  (repeat' split) <;> simp (maxDischargeDepth := 12) +contextual [full_mk, hf]

@[simp] theorem landBoard_full (p : Bytes) (s : State) (hf : s.Full) : (landBoard p s).Full := by
  unfold landBoard
  (repeat' split) <;> simp (maxDischargeDepth := 12) +contextual [full_mk, hf]

@[simp] theorem setPd_full (x : NetPort) (q : PdPort) (s : State) (hf : s.Full) : (setPd x q s).Full := by
  unfold setPd
  (repeat' split) <;> simp (maxDischargeDepth := 12) +contextual [full_mk, hf]

@[simp] theorem notePads_full (s : State) (hf : s.Full) : (notePads s).Full := by
  unfold notePads
  (repeat' split) <;> simp (maxDischargeDepth := 12) +contextual [full_mk, hf]

@[simp] theorem startAo_full (s : State) (hf : s.Full) : (startAo s).Full := by
  unfold startAo
  (repeat' split) <;> simp (maxDischargeDepth := 12) +contextual [full_mk, hf]

@[simp] theorem tryAux_full (s : State) (hf : s.Full) : (tryAux s).Full := by
  unfold tryAux
  (repeat' split) <;> simp (maxDischargeDepth := 12) +contextual [full_mk, hf]

@[simp] theorem holdPh_full (c : Nat) (on : Bool) (s : State) (hf : s.Full) : (holdPh c on s).Full := by
  unfold holdPh
  (repeat' split) <;> simp (maxDischargeDepth := 12) +contextual [full_mk, hf]

@[simp] theorem cutPh_full (s : State) (c : Nat) (hf : s.Full) : (cutPh s c).Full := by
  unfold cutPh
  (repeat' split) <;> simp (maxDischargeDepth := 12) +contextual [full_mk, hf]

@[simp] theorem shedAll_full (s : State) (hf : s.Full) : (shedAll s).Full := by
  unfold shedAll
  (repeat' split) <;> simp (maxDischargeDepth := 12) +contextual [full_mk, hf]

@[simp] theorem shedStep_full (s : State) (hf : s.Full) : (shedStep s).Full := by
  unfold shedStep
  (repeat' split) <;> simp (maxDischargeDepth := 12) +contextual [full_mk, hf]

@[simp] theorem takeBudget_full (s : State) (hf : s.Full) : (takeBudget s).Full := by
  unfold takeBudget
  (repeat' split) <;> simp (maxDischargeDepth := 12) +contextual [full_mk, hf]

@[simp] theorem takeMeas_full (m : PowerMeas) (s : State) (hf : s.Full) : (takeMeas m s).Full := by
  unfold takeMeas
  (repeat' split) <;> simp (maxDischargeDepth := 12) +contextual [full_mk, hf]

@[simp] theorem governStep_full (s : State) (hf : s.Full) : (governStep s).Full := by
  unfold governStep
  (repeat' split) <;> simp (maxDischargeDepth := 12) +contextual [full_mk, hf]

@[simp] theorem noteFlags_full (s : State) (hf : s.Full) : (noteFlags s).Full := by
  unfold noteFlags
  (repeat' split) <;> simp (maxDischargeDepth := 12) +contextual [full_mk, hf]

@[simp] theorem portsBack_full (s : State) (hf : s.Full) : (portsBack s).Full := by
  unfold portsBack
  (repeat' split) <;> simp (maxDischargeDepth := 12) +contextual [full_mk, hf]

@[simp] theorem sendLldp_full (x : NetPort) (s : State) (hf : s.Full) : (sendLldp x s).Full := by
  unfold sendLldp
  (repeat' split) <;> simp (maxDischargeDepth := 12) +contextual [full_mk, hf]

@[simp] theorem restoreStep_full (s : State) (hf : s.Full) : (restoreStep s).Full := by
  unfold restoreStep
  (repeat' split) <;> simp (maxDischargeDepth := 12) +contextual [full_mk, hf]

@[simp] theorem holdLoss_full (s : State) (n : Nat) (hf : s.Full) : (holdLoss s n).Full := by
  unfold holdLoss
  (repeat' split) <;> simp (maxDischargeDepth := 12) +contextual [full_mk, hf]

@[simp] theorem cutLoads_full (s : State) (hf : s.Full) : (cutLoads s).Full := by
  unfold cutLoads
  (repeat' split) <;> simp (maxDischargeDepth := 12) +contextual [full_mk, hf]

@[simp] theorem powerLoss_full (s0 : State) (hf : s0.Full) : (powerLoss s0).Full := by
  unfold powerLoss
  have h := powerLossCommit_full s0 hf
  refine notePads_full _ (foldl_full (fun a n ha => holdLoss_full _ _ ha) _ _ (cutLoads_full _ ?_))
  exact ⟨Nat.zero_le 16, Nat.zero_le 64, Nat.zero_le 256, h.2.2.2⟩

@[simp] theorem powerOff_full (s0 : State) (hf : s0.Full) : (powerOff s0).Full := by
  have h := settleMark_full s0 hf
  exact ⟨Nat.zero_le 16, Nat.zero_le 64, Nat.zero_le 256, h.2.2.2.1, Nat.zero_le 32, Nat.zero_le 28⟩

@[simp] theorem regain_full (s : State) (x : NetPort) (hf : s.Full) : (regain s x).Full := by
  unfold regain
  (repeat' split) <;> simp (maxDischargeDepth := 12) +contextual [full_mk, hf]

@[simp] theorem portStops_full (x : NetPort) (stops : Bool) (s : State) (hf : s.Full) : (portStops x stops s).Full := by
  unfold portStops
  (repeat' split) <;> simp (maxDischargeDepth := 12) +contextual [full_mk, hf]

@[simp] theorem policyLldp_full (old new : PowerPolicyCfg) (x : NetPort) (s : State) (hf : s.Full) : (policyLldp old new x s).Full := by
  unfold policyLldp
  (repeat' split) <;> simp (maxDischargeDepth := 12) +contextual [full_mk, hf]

@[simp] theorem landPowerPolicy_full (p : Bytes) (s : State) (hf : s.Full) : (landPowerPolicy p s).Full := by
  unfold landPowerPolicy
  (repeat' split) <;> simp (maxDischargeDepth := 12) +contextual [full_mk, hf]

@[simp] theorem setReadShadow_full (rq : Requester) (x : ReadShadow) (s : State) (hf : s.Full) : (setReadShadow rq x s).Full := by
  unfold setReadShadow
  (repeat' split) <;> simp (maxDischargeDepth := 12) +contextual [full_mk, hf]

@[simp] theorem readWord_full (rq : Requester) (a : Nat) (s : State) (hf : s.Full) : (readWord rq a s).2.2.Full := by
  unfold readWord
  dsimp only
  (repeat' split) <;> (try simp (maxDischargeDepth := 12) +contextual [full_mk, hf]) <;> (repeat' split) <;> simp (maxDischargeDepth := 12) +contextual [full_mk, hf]

@[simp] theorem setWriteShadow_full (rq : Requester) (x : WriteShadow) (s : State) (hf : s.Full) : (setWriteShadow rq x s).Full := by
  unfold setWriteShadow
  (repeat' split) <;> simp (maxDischargeDepth := 12) +contextual [full_mk, hf]

theorem writeGovTest_full (v : Nat) (s t : State) (hf : s.Full) : writeGovTest v s = .ok t → t.Full := by
  intro e
  unfold writeGovTest at e
  (try dsimp only at e)
  (repeat' split at e) <;> first | (cases e; done) | (cases e; first | exact hf | (simp (maxDischargeDepth := 12) +contextual [full_mk, hf]; done)) | skip

theorem writeMuShift_full (k v : Nat) (s t : State) (hf : s.Full) : writeMuShift k v s = .ok t → t.Full := by
  intro e
  unfold writeMuShift at e
  (try dsimp only at e)
  (repeat' split at e) <;> first | (cases e; done) | (cases e; first | exact hf | (simp (maxDischargeDepth := 12) +contextual [full_mk, hf]; done)) | skip

theorem writePathForce_full (k v : Nat) (s t : State) (hf : s.Full) : writePathForce k v s = .ok t → t.Full := by
  intro e
  unfold writePathForce at e
  (try dsimp only at e)
  (repeat' split at e) <;> first | (cases e; done) | (cases e; first | exact hf | (simp (maxDischargeDepth := 12) +contextual [full_mk, hf]; done)) | skip

theorem writeClampTest_full (n v : Nat) (s t : State) (hf : s.Full) : writeClampTest n v s = .ok t → t.Full := by
  intro e
  unfold writeClampTest at e
  (try dsimp only at e)
  (repeat' split at e) <;> first | (cases e; done) | (cases e; first | exact hf | (simp (maxDischargeDepth := 12) +contextual [full_mk, hf]; done)) | skip

theorem writeServoTc_full (n v : Nat) (s t : State) (hf : s.Full) : writeServoTc n v s = .ok t → t.Full := by
  intro e
  unfold writeServoTc at e
  (try dsimp only at e)
  (repeat' split at e) <;> first | (cases e; done) | (cases e; first | exact hf | (simp (maxDischargeDepth := 12) +contextual [full_mk, hf]; done)) | skip

theorem writeTrackFreeze_full (n : Fin 2) (v : Nat) (s t : State) (hf : s.Full) : writeTrackFreeze n v s = .ok t → t.Full := by
  intro e
  unfold writeTrackFreeze at e
  (try dsimp only at e)
  (repeat' split at e) <;> first | (cases e; done) | (cases e; first | exact hf | (simp (maxDischargeDepth := 12) +contextual [full_mk, hf]; done)) | skip

theorem writeForceType_full (n : Fin 2) (v : Nat) (s t : State) (hf : s.Full) : writeForceType n v s = .ok t → t.Full := by
  intro e
  unfold writeForceType at e
  (try dsimp only at e)
  (repeat' split at e) <;> first | (cases e; done) | (cases e; first | exact hf | (simp (maxDischargeDepth := 12) +contextual [full_mk, hf]; done)) | skip

theorem writeLoopback_full (p v : Nat) (s t : State) (hf : s.Full) : writeLoopback p v s = .ok t → t.Full := by
  intro e
  unfold writeLoopback at e
  (try dsimp only at e)
  (repeat' split at e) <;> first | (cases e; done) | (cases e; first | exact hf | (simp (maxDischargeDepth := 12) +contextual [full_mk, hf]; done)) | skip

theorem writePhyLoop_full (l : LinkPort) (v : Nat) (s t : State) (hf : s.Full) : writePhyLoop l v s = .ok t → t.Full := by
  intro e
  unfold writePhyLoop at e
  (try dsimp only at e)
  (repeat' split at e) <;> first | (cases e; done) | (cases e; first | exact hf | (simp (maxDischargeDepth := 12) +contextual [full_mk, hf]; done)) | skip

theorem writeBreak_full (k n v : Nat) (s t : State) (hf : s.Full) : writeBreak k n v s = .ok t → t.Full := by
  intro e
  unfold writeBreak at e
  (try dsimp only at e)
  (repeat' split at e) <;> first | (cases e; done) | (cases e; first | exact hf | (simp (maxDischargeDepth := 12) +contextual [full_mk, hf]; done)) | skip

theorem writeInjectCode_full (v : Nat) (s t : State) (hf : s.Full) : writeInjectCode v s = .ok t → t.Full := by
  intro e
  unfold writeInjectCode at e
  (try dsimp only at e)
  (repeat' split at e) <;> first | (cases e; done) | (cases e; first | exact hf | (simp (maxDischargeDepth := 12) +contextual [full_mk, hf]; done)) | skip

theorem writeInjectObj_full (v : Nat) (s t : State) (hf : s.Full) : writeInjectObj v s = .ok t → t.Full := by
  intro e
  unfold writeInjectObj at e
  (try dsimp only at e)
  (repeat' split at e) <;> first | (cases e; done) | (cases e; first | exact hf | (simp (maxDischargeDepth := 12) +contextual [full_mk, hf]; done)) | skip

theorem writeCore_full (rq : Requester) (k o a v : Nat) (s t : State) (hf : s.Full) : writeCore rq k o a v s = .ok t → t.Full := by
  intro e
  unfold writeCore at e
  (try dsimp only at e)
  (repeat' split at e) <;> first | (cases e; done) | (cases e; first | exact hf | (simp (maxDischargeDepth := 12) +contextual [full_mk, hf]; done)) | skip

theorem writeOther_full (a : Nat) (s t : State) (hf : s.Full) : writeOther a s = .ok t → t.Full := by
  intro e
  unfold writeOther at e
  (try dsimp only at e)
  (repeat' split at e) <;> first | (cases e; done) | (cases e; first | exact hf | (simp (maxDischargeDepth := 12) +contextual [full_mk, hf]; done)) | skip

theorem writeCoop_full (rq : Requester) (k o a v : Nat) (s t : State) (hf : s.Full) (e : writeCoop rq k o a v s = .ok t) :
    t.Full := by
  unfold writeCoop at e
  split at e
  · exact writeBreak_full _ _ _ _ _ hf e
  split at e
  · exact writeCore_full _ _ _ _ _ _ _ hf e
  · exact writeOther_full _ _ _ hf e

theorem writeWord_full (rq : Requester) (a v : Nat) (s t : State) (hf : s.Full) (e : writeWord rq a v s = .ok t) : t.Full := by
  unfold writeWord at e
  dsimp only at e
  (repeat' split at e) <;> first
    | exact writeGovTest_full _ _ _ hf e | exact writeMuShift_full _ _ _ _ hf e | exact writePathForce_full _ _ _ _ hf e
    | exact writeClampTest_full _ _ _ _ hf e | exact writeServoTc_full _ _ _ _ hf e | exact writeTrackFreeze_full _ _ _ _ hf e
    | exact writeForceType_full _ _ _ _ hf e | exact writeLoopback_full _ _ _ _ hf e | exact writePhyLoop_full _ _ _ _ hf e
    | exact writeInjectCode_full _ _ _ hf e | exact writeInjectObj_full _ _ _ hf e | exact writeCoop_full _ _ _ _ _ _ _ hf e
    | exact writeOther_full _ _ _ hf e

/-- Words that are all taken keep the bounds. -/
theorem writeWords_full (rq : Requester) (l : List Nat) (a : Nat) (s t : State) (hf : s.Full) (e : writeWords rq a l s = .ok t) :
    t.Full := by
  induction l generalizing a s with
  | nil => cases e; exact hf
  | cons v l ih =>
    unfold writeWords at e
    split at e
    · rename_i s1 h
      exact ih _ _ (writeWord_full _ _ _ _ _ hf h) e
    · cases e

@[simp] theorem landRegWrite_full (h : Hdr) (p : Bytes) (s : State) (hf : s.Full) : (landRegWrite h p s).Full := by
  unfold landRegWrite
  dsimp only
  split
  · rename_i s1 e
    have g : s1.Full := writeWords_full _ _ _ _ _ (setWriteShadow_full _ _ _ hf) e
    split
    · exact revertTests_full _ g
    · exact g
  · exact hf

@[simp] theorem resetIslands_full (s : State) (hf : s.Full) : (resetIslands s).Full := by
  have g : (s.flt.log.length ≤ 2048 ∧ queueFits s.flt.queue) →
      ((warmFlt s.flt).log.length ≤ 2048 ∧ queueFits (warmFlt s.flt).queue) := by unfold warmFlt; exact id
  exact ⟨Nat.zero_le 16, Nat.zero_le 64, Nat.zero_le 256, g hf.2.2.2⟩

@[simp] theorem beginReset_full (cause : Nat) (stay holdN thermal : Bool) (s0 : State) (hf : s0.Full) : (beginReset cause stay holdN thermal s0).Full := by
  unfold beginReset
  have h := closeExpert_full s0 hf
  exact holdRefreshAll_full _ _ (enterMode_full _ _ ⟨Nat.zero_le 16, Nat.zero_le 64, Nat.zero_le 256, h.2.2.2⟩)

@[simp] theorem beginStart_full (holdN : Bool) (s0 : State) (hf : s0.Full) : (beginStart holdN s0).Full := by
  unfold beginStart
  dsimp only
  (repeat' split) <;> (try simp (maxDischargeDepth := 12) +contextual [full_mk, hf]) <;> (repeat' split) <;> simp (maxDischargeDepth := 12) +contextual [full_mk, hf]

@[simp] theorem leaveReset_full (holdN : Bool) (s : State) (hf : s.Full) : (leaveReset holdN s).Full := by
  unfold leaveReset
  (repeat' split) <;> simp (maxDischargeDepth := 12) +contextual [full_mk, hf]

@[simp] theorem afterReset_full (holdN thermal : Bool) (s : State) (hf : s.Full) : (afterReset holdN thermal s).Full := by
  unfold afterReset
  (repeat' split) <;> simp (maxDischargeDepth := 12) +contextual [full_mk, hf]

@[simp] theorem warmReset_full (cause : Nat) (stay holdN thermal : Bool) (s : State) (hf : s.Full) : (warmReset cause stay holdN thermal s).Full := by
  unfold warmReset
  (repeat' split) <;> simp (maxDischargeDepth := 12) +contextual [full_mk, hf]

@[simp] theorem settleReset_full (s : State) (hf : s.Full) : (settleReset s).Full := by
  unfold settleReset
  (repeat' split) <;> simp (maxDischargeDepth := 12) +contextual [full_mk, hf]

@[simp] theorem landEffect_full (l : Landing) (s : State) (hf : s.Full) : (landEffect l s).Full := by
  unfold landEffect
  (repeat' split) <;> simp (maxDischargeDepth := 12) +contextual [full_mk, hf]

@[simp] theorem landCommand_full (s : State) (l : Landing) (hf : s.Full) : (landCommand s l).Full := by
  unfold landCommand
  (repeat' split) <;> simp (maxDischargeDepth := 12) +contextual [full_mk, hf]

@[simp] theorem landTimed_full (s : State) (l : Landing) (hf : s.Full) : (landTimed s l).Full := by
  unfold landTimed
  (repeat' split) <;> simp (maxDischargeDepth := 12) +contextual [full_mk, hf]

theorem landDeferred_full (l : List Landing) (s : State) (hf : s.Full) : (landDeferred l s).Full := by
  induction l generalizing s with
  | nil => exact hf
  | cons x t ih =>
    unfold landDeferred
    split
    · exact ih _ (landCommand_full _ _ hf)
    · exact hf

@[simp] theorem nextTick_full (s : State) (hf : s.Full) : (nextTick s).Full := by
  unfold nextTick
  (repeat' split) <;> simp (maxDischargeDepth := 12) +contextual [full_mk, hf]

@[simp] theorem beginTick_full (s0 : State) (hf : s0.Full) : (beginTick s0).Full := by
  unfold beginTick
  have g := nextTick_full s0 hf
  dsimp only
  refine landDeferred_full _ _ (foldl_full (fun a l ha => landTimed_full _ _ ha) _ _ ?_)
  exact ⟨g.1, g.2.1, Nat.le_trans (List.length_filter_le _ _) g.2.2.1, g.2.2.2⟩

@[simp] theorem tickAhead_full (s : State) (hf : s.Full) : (tickAhead s).Full := by
  unfold tickAhead
  (repeat' split) <;> simp (maxDischargeDepth := 12) +contextual [full_mk, hf]

@[simp] theorem stepGpio_full (s : State) (hf : s.Full) : (stepGpio s).Full := by
  unfold stepGpio
  (repeat' split) <;> simp (maxDischargeDepth := 12) +contextual [full_mk, hf]

@[simp] theorem stepClear_full (s : State) (hf : s.Full) : (stepClear s).Full := by
  unfold stepClear
  (repeat' split) <;> simp (maxDischargeDepth := 12) +contextual [full_mk, hf]

@[simp] theorem feedSinks_full (n : Nat) (s : State) (hf : s.Full) : (feedSinks n s).Full := by
  unfold feedSinks
  (repeat' split) <;> simp (maxDischargeDepth := 12) +contextual [full_mk, hf]

@[simp] theorem pourAll_full (s : State) (hf : s.Full) : (pourAll s).Full := by
  unfold pourAll
  (repeat' split) <;> simp (maxDischargeDepth := 12) +contextual [full_mk, hf]

@[simp] theorem stepPhantoms_full (s : State) (hf : s.Full) : (stepPhantoms s).Full := by
  unfold stepPhantoms
  (repeat' split) <;> simp (maxDischargeDepth := 12) +contextual [full_mk, hf]

@[simp] theorem stepMics_full (s : State) (hf : s.Full) : (stepMics s).Full := by
  unfold stepMics
  (repeat' split) <;> simp (maxDischargeDepth := 12) +contextual [full_mk, hf]

@[simp] theorem landWaiting_full (s : State) (hf : s.Full) : (landWaiting s).Full := by
  unfold landWaiting
  exact takeCommit_full _ (foldl_full (fun a l ha => landCommand_full _ _ ha) _ _ hf)

@[simp] theorem frameIn_full (i : TickIn) (s0 : State) (hf : s0.Full) : (frameIn i s0).Full := by
  unfold frameIn
  have h := landWaiting_full s0 hf
  dsimp only
  exact feedSinks_full _ _ (foldl_full (fun a n ha => stepHold_full _ _ ha) _ _ (by simp (maxDischargeDepth := 20) [h]))

@[simp] theorem frameEnd_full (s0 : State) (hf : s0.Full) : (frameEnd s0).Full := by
  unfold frameEnd
  (repeat' split) <;> simp (maxDischargeDepth := 12) +contextual [full_mk, hf]

@[simp] theorem lastFrame_full (i : TickIn) (s0 : State) (hf : s0.Full) : (lastFrame i s0).Full := by
  unfold lastFrame
  (repeat' split) <;> simp (maxDischargeDepth := 12) +contextual [full_mk, hf]

@[simp] theorem clearMeter_full (s : State) (h : Handle) (hf : s.Full) : (clearMeter s h).Full := by
  unfold clearMeter
  (repeat' split) <;> simp (maxDischargeDepth := 12) +contextual [full_mk, hf]

@[simp] theorem forget_full (rq : Requester) (s : State) (hf : s.Full) : (forget rq s).Full := by
  unfold forget setListener
  dsimp only
  have g : ∀ c : Cmd, c.store = s.cmd.store → c.queue = s.cmd.queue → c.timed = s.cmd.timed → State.Full { s with cmd := c } :=
    fun c a b d => ⟨a ▸ hf.1, b ▸ hf.2.1, d ▸ hf.2.2.1, hf.2.2.2⟩
  (repeat' split) <;> first
    | exact closeExpert_full _ (emptyStage_full _ (g _ rfl rfl rfl))
    | exact closeExpert_full _ (g _ rfl rfl rfl)
    | exact emptyStage_full _ (g _ rfl rfl rfl)
    | exact g _ rfl rfl rfl

@[simp] theorem freeSession_full (i : Fin 8) (s : State) (hf : s.Full) : (freeSession i s).Full := by
  unfold freeSession
  (repeat' split) <;> simp (maxDischargeDepth := 12) +contextual [full_mk, hf]

@[simp] theorem admitNet_full (k : Packet) (h : Hdr) (s : State) (hf : s.Full) : (admitNet k h s).Full := by
  unfold admitNet
  split
  · exact refuseAt_full _ _ _ _ hf
  · rename_i s1 e
    have g := admitQueue_full k h s1 (holdSession_full h s s1 e hf)
    split <;> rename_i hq <;> rw [hq] at g
    · exact g
    · exact refuseAt_full _ _ _ _ g

@[simp] theorem admitDatagram_full (l : LinkPort) (ip : BitVec 32) (udp : BitVec 16) (b : Bytes) (s : State) (hf : s.Full) : (admitDatagram l ip udp b s).Full := by
  unfold admitDatagram
  dsimp only
  (repeat' split) <;> (try simp (maxDischargeDepth := 12) +contextual [full_mk, hf]) <;> (repeat' split) <;> simp (maxDischargeDepth := 12) +contextual [full_mk, hf]

@[simp] theorem setNetKey_full (id : Nat) (k : Option Bytes) (s : State) (hf : s.Full) : (setNetKey id k s).Full := by
  unfold setNetKey
  refine foldl_full (fun a i ha => ?_) _ _ hf
  (repeat' split) <;> simp [ha]

@[simp] theorem readSafe_full (s : State) (hf : s.Full) : (readSafe s).Full := by
  unfold readSafe
  dsimp only
  (repeat' split) <;> (try simp (maxDischargeDepth := 12) +contextual [full_mk, hf]) <;> (repeat' split) <;> simp (maxDischargeDepth := 12) +contextual [full_mk, hf]

@[simp] theorem noteSlot_full (i : Fin 2) (s : State) (hf : s.Full) : (noteSlot i s).Full := by
  unfold noteSlot
  (repeat' split) <;> simp (maxDischargeDepth := 12) +contextual [full_mk, hf]

@[simp] theorem applySlot_full (s0 : State) (hf : s0.Full) : (applySlot s0).Full := by
  unfold applySlot
  (repeat' split) <;> simp (maxDischargeDepth := 12) +contextual [full_mk, hf]

@[simp] theorem restoreClocks_full (s : State) (hf : s.Full) : (restoreClocks s).Full := by
  unfold restoreClocks
  (repeat' split) <;> simp (maxDischargeDepth := 12) +contextual [full_mk, hf]

@[simp] theorem restoreGraph_full (s : State) (hf : s.Full) : (restoreGraph s).Full := by
  unfold restoreGraph
  (repeat' split) <;> simp (maxDischargeDepth := 12) +contextual [full_mk, hf]

@[simp] theorem restoreGen_full (s0 : State) (g : Nat) (hf : s0.Full) : (restoreGen s0 g).Full := by
  unfold restoreGen
  dsimp only
  (repeat' split) <;> (try simp (maxDischargeDepth := 12) +contextual [full_mk, hf]) <;> (repeat' split) <;> simp (maxDischargeDepth := 12) +contextual [full_mk, hf]

@[simp] theorem restoreMix_full (s : State) (hf : s.Full) : (restoreMix s).Full := by
  unfold restoreMix
  (repeat' split) <;> simp (maxDischargeDepth := 12) +contextual [full_mk, hf]

@[simp] theorem restoreChain_full (pour : Bool) (s : State) (c : Nat) (hf : s.Full) : (restoreChain pour s c).Full := by
  unfold restoreChain
  (repeat' split) <;> simp (maxDischargeDepth := 12) +contextual [full_mk, hf]

@[simp] theorem restoreChains_full (s : State) (hf : s.Full) : (restoreChains s).Full := by
  unfold restoreChains
  (repeat' split) <;> simp (maxDischargeDepth := 12) +contextual [full_mk, hf]

@[simp] theorem restoreOutputs_full (s : State) (hf : s.Full) : (restoreOutputs s).Full := by
  unfold restoreOutputs
  (repeat' split) <;> simp (maxDischargeDepth := 12) +contextual [full_mk, hf]

@[simp] theorem restoreCore_full (s : State) (k : Nat) (hf : s.Full) : (restoreCore s k).Full := by
  unfold restoreCore
  dsimp only
  (repeat' split) <;> (try simp (maxDischargeDepth := 12) +contextual [full_mk, hf]) <;> (repeat' split) <;> simp (maxDischargeDepth := 12) +contextual [full_mk, hf]

@[simp] theorem startRunning_full (s : State) (hf : s.Full) : (startRunning s).Full := by
  unfold startRunning
  (repeat' split) <;> simp (maxDischargeDepth := 12) +contextual [full_mk, hf]

@[simp] theorem dropWaiting_full (s : State) (hf : s.Full) : (dropWaiting s).Full := by
  unfold dropWaiting
  exact foldl_full (fun a x ha => reply_full _ _ _ _ _ ha) _ _ ⟨hf.1, hf.2.1, Nat.zero_le 256, hf.2.2.2⟩

@[simp] theorem wipeReturned_full (s : State) (hf : s.Full) : (wipeReturned s).Full := by
  exact ⟨hf.1, hf.2.1, hf.2.2.1, Nat.zero_le 2048, hf.2.2.2.2⟩

@[simp] theorem withTh_full (t : Thermal) (s : State) (hf : s.Full) : (withTh t s).Full := by
  unfold withTh
  (repeat' split) <;> simp (maxDischargeDepth := 12) +contextual [full_mk, hf]

@[simp] theorem stopMarked_full (s : State) (hf : s.Full) : (stopMarked s).Full := by
  unfold stopMarked
  (repeat' split) <;> simp (maxDischargeDepth := 12) +contextual [full_mk, hf]

@[simp] theorem takeTemps_full (t : List Int) (s : State) (hf : s.Full) : (takeTemps t s).Full := by
  unfold takeTemps
  (repeat' split) <;> simp (maxDischargeDepth := 12) +contextual [full_mk, hf]

@[simp] theorem warnNow_full (s : State) (hf : s.Full) : (warnNow s).Full := by
  unfold warnNow
  (repeat' split) <;> simp (maxDischargeDepth := 12) +contextual [full_mk, hf]

@[simp] theorem tripAction_full (s : State) (hf : s.Full) : (tripAction s).Full := by
  unfold tripAction
  (repeat' split) <;> simp (maxDischargeDepth := 12) +contextual [full_mk, hf]

@[simp] theorem tripNow_full (s : State) (hf : s.Full) : (tripNow s).Full := by
  unfold tripNow
  (repeat' split) <;> simp (maxDischargeDepth := 12) +contextual [full_mk, hf]

@[simp] theorem markTrip_full (s : State) (hf : s.Full) : (markTrip s).Full := by
  unfold markTrip
  refine ⟨hf.1, hf.2.1, hf.2.2.1, hf.2.2.2.1, queueFits_map _ (fun x => ?_) _ hf.2.2.2.2⟩
  split <;> rfl

@[simp] theorem resetHot_full (s : State) (hf : s.Full) : (resetHot s).Full := by
  unfold resetHot
  (repeat' split) <;> simp (maxDischargeDepth := 12) +contextual [full_mk, hf]

@[simp] theorem avsMargin_full (r : AvsRail) (mv : Nat) (slack : Int) (monitor : Fin 16) (s : State) (hf : s.Full) : (avsMargin r mv slack monitor s).Full := by
  unfold avsMargin
  (repeat' split) <;> simp (maxDischargeDepth := 12) +contextual [full_mk, hf]

@[simp] theorem setRail_full (r : AvsRail) (mv : Nat) (slack : Int) (s : State) (hf : s.Full) : (setRail r mv slack s).Full := by
  unfold setRail
  (repeat' split) <;> simp (maxDischargeDepth := 12) +contextual [full_mk, hf]

/-- The command answers a next state, and the bounded lists are within their bounds in it. -/
def NextFull (r : R) : Prop := ∃ t, r = .next t ∧ t.Full

@[simp] theorem nextFull_next (t : State) : NextFull (.next t) = t.Full := by simp [NextFull]

@[simp] theorem nextFull_ite (c : Prop) [Decidable c] (a b : R) : NextFull (if c then a else b) = if c then NextFull a else NextFull b := apply_ite NextFull c a b

@[simp] theorem guardSt_full (st s k) (h : s.Full) (g : (ansState k).Full) : (ansState (guardSt st s k)).Full := by unfold guardSt; split <;> assumption

theorem insertTimed_length (l : Landing) (t : List Landing) : (insertTimed l t).length = t.length + 1 := by
  induction t with
  | nil => rfl
  | cons x t ih => unfold insertTimed; split <;> simp [ih]

/-- A timed command is prepared only where the timed queue has room (R159). -/
@[simp] theorem landing_full (op h p check s) (hf : s.Full) : (ansState (landing op h p check s)).Full := by
  unfold landing
  split
  · dsimp only
    split
    · exact hf
    · exact hf
  · rename_i t _
    dsimp only
    split
    · exact hf
    · rename_i e
      split
      · have hn : s.cmd.timed.length < 256 := by
          simp only [ne_eq, Decidable.not_not] at e
          unfold timedStatus at e
          split at e
          · cases e
          · omega
        have g : ∀ x : Landing, State.Full { s with cmd := { s.cmd with timed := insertTimed x s.cmd.timed } } := fun x =>
          ⟨hf.1, hf.2.1, by rw [insertTimed_length]; omega, hf.2.2.2⟩
        unfold prepareTimed
        dsimp only
        split
        · exact g _
        · exact g _
      · exact hf

/-- An opcode keeps the bounds when its body does. -/
theorem opcode_full (op h p) (body : State → Ans) (s : State)
    (hb : ∀ s, s.Full → (ansState (body s)).Full) (hf : s.Full) : NextFull (opcode op h p body s) := by
  unfold opcode
  have h0 := advance_full h.dt s hf
  dsimp only
  (repeat' split) <;> refine ⟨_, rfl, ?_⟩
  · exact h0
  · exact serve_full op h p body hb _ h0
  · rename_i s1 e
    have g := admission_full op h p _ h0
    rw [e] at g
    exact serve_full op h p body hb _ g
  · rename_i st s1 _ e
    have g := admission_full op h p _ h0
    rw [e] at g
    exact refuseAt_full _ _ _ _ g

theorem opcodeN_full (op n h p) (body : State → Ans) (s : State)
    (hb : ∀ s, s.Full → (ansState (body s)).Full) (hf : s.Full) : NextFull (opcodeN op n h p body s) := by
  refine opcode_full _ _ _ _ _ (fun s h => ?_) hf
  split
  · exact hb _ h
  · exact h

theorem coopExec_full (k op) (body : Core → CoopRes) (s : State) (hf : s.Full) : NextFull (coopExec k op body s) := by
  unfold coopExec
  dsimp only
  (repeat' split) <;> simp (maxDischargeDepth := 12) [hf]

end Sys2Proof.Machine
end

