-- ==== Sys2Proof/Laws/Keeps.lean ====
section
/-! SUPPORT. What the shared operations leave alone: the queue of waiting commands, SYSCNT, the lifecycle state, a lifecycle transition that is due and the operating mode. One lemma
per operation says that its result has the core of the state it was given. -/

set_option linter.unusedSimpArgs false

namespace Sys2Proof.Machine

/-- What most operations leave alone: the queue, SYSCNT, the lifecycle state, a lifecycle transition that is due and the operating mode. -/
def State.core (s : State) : List Instr × Nat × LifeState × Option (LifeState × Nat) × Mode :=
  (s.pending, s.sysCnt, s.life.state, s.life.lifeDue, s.life.mode)

theorem core_mk (a : List Instr) (b c : Nat) (d e f : _) (g : Life) (h i j k l m n o p q r t u v : _) :
    State.core ⟨a, b, c, d, e, f, g, h, i, j, k, l, m, n, o, p, q, r, t, u, v⟩ = (a, b, g.state, g.lifeDue, g.mode) := rfl

@[simp] theorem core_fold (s : State) : (s.pending, s.sysCnt, s.life.state, s.life.lifeDue, s.life.mode) = s.core := rfl

@[simp] theorem core_ite (c : Prop) [Decidable c] (a b : State) :
    (if c then a else b).core = if c then a.core else b.core := apply_ite State.core c a b

/-- A fold keeps what each of its steps keeps. -/
@[simp] theorem foldl_core {α : Type} {g : State → α → State} (hg : ∀ s a, (g s a).core = s.core) (l : List α) (s : State) :
    (l.foldl g s).core = s.core := by
  induction l generalizing s with
  | nil => rfl
  | cons x t ih => rw [List.foldl_cons, ih, hg]

theorem pairFold_core {α β : Type} {g : State × β → α → State × β} (hg : ∀ a c, (g a c).1.core = a.1.core) (l : List α)
    (a : State × β) : (l.foldl g a).1.core = a.1.core := by
  induction l generalizing a with
  | nil => rfl
  | cons x t ih => rw [List.foldl_cons, ih, hg]

@[simp] theorem iter_core {f : State → State} (hf : ∀ s, (f s).core = s.core) (n : Nat) (s : State) :
    (iter f n s).core = s.core := by
  induction n generalizing s with
  | zero => rfl
  | succ n ih => rw [iter, ih, hf]



@[simp] theorem setLink_core (l : LinkPort) (x : LinkRt) (s : State) : (setLink l x s).core = s.core := by
  unfold setLink
  (repeat' split) <;> simp [core_mk]

@[simp] theorem countRx_core (l : LinkPort) (s : State) : (countRx l s).core = s.core := by
  unfold countRx
  (repeat' split) <;> simp [core_mk]

@[simp] theorem serveLink_core (l : LinkPort) (s : State) : (serveLink l s).core = s.core := by
  unfold serveLink
  (repeat' split) <;> simp [core_mk]

@[simp] theorem serveLinks_core (s : State) : (serveLinks s).core = s.core := by
  unfold serveLinks
  (repeat' split) <;> simp [core_mk]

@[simp] theorem sendFrame_core (l : LinkPort) (o : NetOut) (len : Nat) (s : State) : (sendFrame l o len s).core = s.core := by
  unfold sendFrame
  (repeat' split) <;> simp [core_mk]

@[simp] theorem fresh_core (s : State) : (fresh s).2.core = s.core := by
  unfold fresh
  (repeat' split) <;> simp [core_mk]

@[simp] theorem latchTick_core (s : State) : (latchTick s).core = s.core := by
  unfold latchTick
  (repeat' split) <;> simp [core_mk]

@[simp] theorem sendDatagram_core (l : LinkPort) (ip : BitVec 32) (udp : BitVec 16) (key : Option (Fin 16)) (r : Reply) (s : State) : (sendDatagram l ip udp key r s).core = s.core := by
  unfold sendDatagram
  (repeat' split) <;> simp [core_mk]

@[simp] theorem sendNotice_core (s : State) : (sendNotice s).core = s.core := by
  unfold sendNotice
  (repeat' split) <;> simp [core_mk]

@[simp] theorem noticed_core (s0 s1 : State) : (noticed s0 s1).core = s1.core := by
  unfold noticed
  (repeat' split) <;> simp [core_mk]

@[simp] theorem postEvent_core (src : Nat) (s : State) : (postEvent src s).core = s.core := by
  unfold postEvent
  (repeat' split) <;> simp [core_mk]

@[simp] theorem clearEvent_core (src : Nat) (s : State) : (clearEvent src s).core = s.core := by
  unfold clearEvent
  (repeat' split) <;> simp [core_mk]

@[simp] theorem reply_core (code : BitVec 16) (h : Hdr) (st : Status) (pay : Bytes) (s : State) : (reply code h st pay s).core = s.core := by
  unfold reply
  (repeat' split) <;> simp [core_mk]

@[simp] theorem enterMode_core (m : Mode) (s : State) : (enterMode m s).core = (s.pending, s.sysCnt, s.life.state, s.life.lifeDue, m) := by
  unfold enterMode
  exact (postEvent_core _ _).trans rfl

@[simp] theorem recordLosses_core (n : Nat) (s : State) : (recordLosses n s).core = s.core := by
  unfold recordLosses
  (repeat' split) <;> simp [core_mk]

@[simp] theorem newRecord_core (code : FaultCode) (object : BitVec 16) (index : Nat) (detail : Word) (injected : Bool) (s : State) : (newRecord code object index detail injected s).core = s.core := by
  unfold newRecord
  (repeat' split) <;> simp [core_mk]

@[simp] theorem coalesce_core (r : FaultRec) (detail : Word) (s : State) : (coalesce r detail s).core = s.core := by
  unfold coalesce
  (repeat' split) <;> simp [core_mk]

@[simp] theorem detect_core (code : FaultCode) (object : BitVec 16) (index : Nat) (detail : Word) (s : State) : (detect code object index detail s).core = s.core := by
  unfold detect
  (repeat' split) <;> simp [core_mk]

@[simp] theorem raise_core (code : FaultCode) (object : BitVec 16) (index : Nat) (detail : Word) (s : State) : (raise code object index detail s).core = s.core := by
  unfold raise
  (repeat' split) <;> simp [core_mk]

@[simp] theorem release_core (code : FaultCode) (object : BitVec 16) (index : Nat) (s : State) : (release code object index s).core = s.core := by
  unfold release
  (repeat' split) <;> simp [core_mk]

@[simp] theorem callRecovery_core (code : FaultCode) (object : BitVec 16) (index : Nat) (s : State) : (callRecovery code object index s).core = s.core := by
  unfold callRecovery
  (repeat' split) <;> simp [core_mk]

@[simp] theorem touchExpert_core (op : Op) (rq : Requester) (s : State) : (touchExpert op rq s).core = s.core := by
  unfold touchExpert
  (repeat' split) <;> simp [core_mk]

@[simp] theorem queueCommand_core (op : Op) (h : Hdr) (p : Bytes) (s : State) : (queueCommand op h p s).2.core = s.core := by
  unfold queueCommand
  (repeat' split) <;> simp [core_mk]

theorem holdSession_core (h : Hdr) (s t : State) (e : holdSession h s = some t) : t.core = s.core := by
  unfold holdSession at e
  split at e
  · cases e; rfl
  · dsimp only at e
    split at e
    all_goals
      simp only [Option.map_eq_some_iff] at e
      obtain ⟨i, -, rfl⟩ := e
      simp only [core_mk, core_fold]

@[simp] theorem admission_core (op : Op) (h : Hdr) (p : Bytes) (s : State) : (admission op h p s).2.core = s.core := by
  unfold admission
  dsimp only
  split
  · simp
  · split
    · rfl
    · rename_i s1 e
      have g := holdSession_core h s s1 e
      split
      · exact g
      · exact (queueCommand_core _ _ _ _).trans g

@[simp] theorem refuseAt_core (code : BitVec 16) (h : Hdr) (st : Status) (s : State) : (refuseAt code h st s).core = s.core := by
  unfold refuseAt
  (repeat' split) <;> simp [core_mk]

@[simp] theorem finish_core (s : State) : (finish s).core = s.core := by
  unfold finish
  (repeat' split) <;> simp [core_mk]

@[simp] theorem lateReply_core (op : Op) (st : Status) (pay : Bytes) (s : State) : (lateReply op st pay s).core = s.core := by
  unfold lateReply
  (repeat' split) <;> simp [core_mk]

@[simp] theorem awaitReply_core (op : Op) (h : Hdr) (pre : Bytes) (s : State) : (awaitReply op h pre s).core = s.core := by
  unfold awaitReply
  (repeat' split) <;> simp [core_mk]

/-- A served packet keeps the core where its body does. -/
theorem serve_core (op : Op) (h : Hdr) (p : Bytes) (body : State → Ans) (hb : ∀ s, (ansState (body s)).core = s.core)
    (s : State) : (serve op h p body s).core = s.core := by
  unfold serve
  dsimp only
  split
  · rfl
  · split
    · split
      · have g := hb { s with cmd := select s.cmd }
        split
        · rename_i e; rw [e] at g; exact (finish_core _).trans ((reply_core _ _ _ _ _).trans g)
        · rename_i e; rw [e] at g; exact (finish_core _).trans g
      · simp [core_mk]
    · rfl

@[simp] theorem prepare_core (op : Op) (h : Hdr) (p : Bytes) (s : State) : (prepare op h p s).core = s.core := by
  unfold prepare
  (repeat' split) <;> simp [core_mk]

@[simp] theorem admitQueue_core (k : Packet) (h : Hdr) (s : State) : (admitQueue k h s).2.core = s.core := by
  unfold admitQueue
  dsimp only
  (repeat' split) <;> (try simp [core_mk]) <;> (repeat' split) <;> simp [core_mk]

@[simp] theorem refuseSpi_core (k : Packet) (st : Status) (s : State) : (refuseSpi k st s).core = s.core := by
  unfold refuseSpi
  (repeat' split) <;> simp [core_mk]

@[simp] theorem admitFrame_core (n : Nat) (b : Bytes) (s : State) : (admitFrame n b s).core = s.core := by
  induction n generalizing b s with
  | zero => rfl
  | succ n ih =>
    unfold admitFrame
    dsimp only
    generalize hv : admitQueue (parsePacket b) _ s = y
    obtain ⟨st, s1⟩ := y
    have h1 : s1.core = s.core := by
      have g := congrArg (fun x => x.2.core) hv
      exact g.symm.trans (admitQueue_core _ _ _)
    split
    · rfl
    split
    · rfl
    split
    · rfl
    (repeat' split) <;> simp_all

@[simp] theorem readmit_core (s : State) : (readmit s).core = s.core := by
  unfold readmit
  split
  · rfl
  · exact foldl_core (fun a b => admitFrame_core 600 b a) _ _

@[simp] theorem shiftOut_core (n : Nat) (out : Bytes) (s : State) : (shiftOut n out s).core = s.core := by
  unfold shiftOut
  (repeat' split) <;> simp [core_mk]

@[simp] theorem writeFrame_core (b : Bytes) (s : State) : (writeFrame b s).core = s.core := by
  unfold writeFrame
  simp

@[simp] theorem readFrame_core (n : Nat) (s : State) : (readFrame n s).core = s.core := by
  unfold readFrame
  (repeat' split) <;> simp [core_mk]

@[simp] theorem spiFrame_core (frame : Bytes) (s : State) : (spiFrame frame s).core = s.core := by
  unfold spiFrame
  (repeat' split) <;> simp [core_mk]

@[simp] theorem setCore_core (k : Nat) (c : Core) (s : State) : (setCore k c s).core = s.core := by
  unfold setCore
  (repeat' split) <;> simp [core_mk]

@[simp] theorem setCoopCfg_core (k : Nat) (c : CoopCfg) (s : State) : (setCoopCfg k c s).core = s.core := by
  unfold setCoopCfg
  (repeat' split) <;> simp [core_mk]

@[simp] theorem coreTrap_core (k reason pc : Nat) (s : State) : (coreTrap k reason pc s).core = s.core := by
  unfold coreTrap
  (repeat' split) <;> simp [core_mk]

@[simp] theorem debugHalt_core (k : Nat) (s : State) : (debugHalt k s).core = s.core := by
  unfold debugHalt
  (repeat' split) <;> simp [core_mk]

@[simp] theorem startBlock_core (k : Nat) (b : InBlock) (late : Bool) (s : State) : (startBlock k b late s).core = s.core := by
  unfold startBlock
  (repeat' split) <;> simp [core_mk]

@[simp] theorem blockDone_core (k : Nat) (s0 : State) : (blockDone k s0).core = s0.core := by
  unfold blockDone
  dsimp only
  (repeat' split) <;> (try simp [core_mk]) <;> (repeat' split) <;> simp [core_mk]

@[simp] theorem withMix_core (m : MixCfg) (s : State) : (withMix m s).core = s.core := by
  unfold withMix
  (repeat' split) <;> simp [core_mk]

@[simp] theorem startRamp_core (o : RampObj) (g : Int) (log : Bool) (m : Nat) (s : State) : (startRamp o g log m s).core = s.core := by
  unfold startRamp
  (repeat' split) <;> simp [core_mk]

@[simp] theorem stepRamps_core (s : State) : (stepRamps s).core = s.core := by
  unfold stepRamps
  (repeat' split) <;> simp [core_mk]

@[simp] theorem deferCommand_core (why : Nat) (l : Landing) (s : State) : (deferCommand why l s).core = s.core := by
  unfold deferCommand
  (repeat' split) <;> simp [core_mk]

@[simp] theorem landGainEntry_core (p : Bytes) (s : State) (i : Nat) : (landGainEntry p s i).core = s.core := by
  unfold landGainEntry
  (repeat' split) <;> simp [core_mk]

@[simp] theorem landGainSet_core (p : Bytes) (s : State) : (landGainSet p s).core = s.core := by
  unfold landGainSet
  (repeat' split) <;> simp [core_mk]

@[simp] theorem landRampDefaults_core (p : Bytes) (s : State) : (landRampDefaults p s).core = s.core := by
  unfold landRampDefaults
  (repeat' split) <;> simp [core_mk]

@[simp] theorem landMuteEntry_core (p : Bytes) (s : State) (i : Nat) : (landMuteEntry p s i).core = s.core := by
  unfold landMuteEntry
  (repeat' split) <;> simp [core_mk]

@[simp] theorem landMuteSet_core (p : Bytes) (s : State) : (landMuteSet p s).core = s.core := by
  unfold landMuteSet
  (repeat' split) <;> simp [core_mk]

@[simp] theorem landSink_core (p : Bytes) (s : State) (h : Handle) : (landSink p s h).core = s.core := by
  unfold landSink
  (repeat' split) <;> simp [core_mk]

@[simp] theorem landSinkSet_core (p : Bytes) (s : State) : (landSinkSet p s).core = s.core := by
  unfold landSinkSet
  (repeat' split) <;> simp [core_mk]

@[simp] theorem landGenSet_core (p : Bytes) (s : State) : (landGenSet p s).core = s.core := by
  unfold landGenSet
  dsimp only
  (repeat' split) <;> (try simp [core_mk]) <;> (repeat' split) <;> simp [core_mk]

@[simp] theorem landOverride_core (p : Bytes) (s : State) : (landOverride p s).core = s.core := by
  unfold landOverride
  (repeat' split) <;> simp [core_mk]

@[simp] theorem landOverrideConfig_core (p : Bytes) (s : State) : (landOverrideConfig p s).core = s.core := by
  unfold landOverrideConfig
  (repeat' split) <;> simp [core_mk]

@[simp] theorem poolPut_core (id : BulkId) (size : Nat) (s : State) : (poolPut id size s).core = s.core := by
  unfold poolPut
  (repeat' split) <;> simp [core_mk]

@[simp] theorem poolDrop_core (id : BulkId) (s : State) : (poolDrop id s).core = s.core := by
  unfold poolDrop
  (repeat' split) <;> simp [core_mk]

@[simp] theorem takeTick_core (s : State) : (takeTick s).core = s.core := by
  unfold takeTick
  (repeat' split) <;> simp [core_mk]

@[simp] theorem becomeGrandmaster_core (s : State) : (becomeGrandmaster s).core = s.core := by
  unfold becomeGrandmaster
  (repeat' split) <;> simp [core_mk]

@[simp] theorem resignGrandmaster_core (s : State) : (resignGrandmaster s).core = s.core := by
  unfold resignGrandmaster
  (repeat' split) <;> simp [core_mk]

@[simp] theorem forceHold_core (s : State) : (forceHold s).core = s.core := by
  unfold forceHold
  (repeat' split) <;> simp [core_mk]

@[simp] theorem holdOver_core (s : State) : (holdOver s).core = s.core := by
  unfold holdOver
  (repeat' split) <;> simp [core_mk]

@[simp] theorem qualify_core (e : RefEntry) (s : State) : (qualify e s).core = s.core := by
  unfold qualify
  (repeat' split) <;> simp [core_mk]

@[simp] theorem loseActive_core (s : State) : (loseActive s).core = s.core := by
  unfold loseActive
  (repeat' split) <;> simp [core_mk]

@[simp] theorem disqualify_core (e : RefEntry) (s : State) : (disqualify e s).core = s.core := by
  unfold disqualify
  (repeat' split) <;> simp [core_mk]

@[simp] theorem updatePtpQual_core (s : State) : (updatePtpQual s).core = s.core := by
  unfold updatePtpQual
  (repeat' split) <;> simp [core_mk]

@[simp] theorem ptpLose_core (x : NetPort) (reason : Nat) (s : State) : (ptpLose x reason s).core = s.core := by
  unfold ptpLose
  (repeat' split) <;> simp [core_mk]

@[simp] theorem ptpMonitorLost_core (x : NetPort) (s : State) : (ptpMonitorLost x s).core = s.core := by
  unfold ptpMonitorLost
  (repeat' split) <;> simp [core_mk]

@[simp] theorem servo_core (off : Int) (m : SyncMsg) (s : State) : (servo off m s).core = s.core := by
  unfold servo
  dsimp only
  (repeat' split) <;> (try simp [core_mk]) <;> (repeat' split) <;> simp [core_mk]

@[simp] theorem runBmca_core (s : State) : (runBmca s).core = s.core := by
  unfold runBmca
  (repeat' split) <;> simp [core_mk]

@[simp] theorem moveSlave_core (before : Option NetPort) (s : State) : (moveSlave before s).core = s.core := by
  unfold moveSlave
  (repeat' split) <;> simp [core_mk]

@[simp] theorem switchTo_core (i : Nat) (e : RefEntry) (record : Bool) (s : State) : (switchTo i e record s).core = s.core := by
  unfold switchTo
  (repeat' split) <;> simp [core_mk]

@[simp] theorem selectReference_core (s0 : State) : (selectReference s0).core = s0.core := by
  unfold selectReference
  dsimp only
  (repeat' split) <;> (try simp [core_mk]) <;> (repeat' split) <;> simp [core_mk]

@[simp] theorem pllFrame_core (phasePs freq : Int) (s : State) : (pllFrame phasePs freq s).core = s.core := by
  unfold pllFrame
  (repeat' split) <;> simp [core_mk]

@[simp] theorem monitorEdge_core (i rate period : Nat) (bad : Bool) (s : State) : (monitorEdge i rate period bad s).2.core = s.core := by
  unfold monitorEdge
  (repeat' split) <;> simp [core_mk]

@[simp] theorem monitorLose_core (i reason : Nat) (s : State) : (monitorLose i reason s).core = s.core := by
  unfold monitorLose
  (repeat' split) <;> simp [core_mk]

@[simp] theorem dropSlave_core (s : State) (x : NetPort) : (dropSlave s x).core = s.core := by
  unfold dropSlave
  (repeat' split) <;> simp [core_mk]

@[simp] theorem restartPtp_core (s : State) : (restartPtp s).core = s.core := by
  unfold restartPtp
  (repeat' split) <;> simp [core_mk]

@[simp] theorem ptpStopped_core (p : Bytes) (s : State) : (ptpStopped p s).core = s.core := by
  unfold ptpStopped
  (repeat' split) <;> simp [core_mk]

@[simp] theorem landPtpSet_core (p : Bytes) (s : State) : (landPtpSet p s).core = s.core := by
  unfold landPtpSet
  (repeat' split) <;> simp [core_mk]

@[simp] theorem wclkStopped_core (p : Bytes) (s : State) : (wclkStopped p s).core = s.core := by
  unfold wclkStopped
  (repeat' split) <;> simp [core_mk]

@[simp] theorem landWclkSet_core (p : Bytes) (s : State) : (landWclkSet p s).core = s.core := by
  unfold landWclkSet
  (repeat' split) <;> simp [core_mk]

@[simp] theorem stepWclk_core (s : State) : (stepWclk s).core = s.core := by
  unfold stepWclk
  (repeat' split) <;> simp [core_mk]

@[simp] theorem stepMclk_core (s : State) : (stepMclk s).core = s.core := by
  unfold stepMclk
  (repeat' split) <;> simp [core_mk]

@[simp] theorem stopClockOuts_core (s : State) : (stopClockOuts s).core = s.core := by
  unfold stopClockOuts
  (repeat' split) <;> simp [core_mk]

@[simp] theorem landClockRefs_core (p : Bytes) (s : State) : (landClockRefs p s).core = s.core := by
  unfold landClockRefs
  (repeat' split) <;> simp [core_mk]

@[simp] theorem releaseForcedClock_core (s : State) : (releaseForcedClock s).core = s.core := by
  unfold releaseForcedClock
  (repeat' split) <;> simp [core_mk]

@[simp] theorem setChain_core (pour : Bool) (c : Nat) (x : FChain) (s : State) : (setChain pour c x s).core = s.core := by
  unfold setChain
  (repeat' split) <;> simp [core_mk]

@[simp] theorem storeChain_core (pour : Bool) (c : Nat) (x : FiltChainCfg) (s : State) : (storeChain pour c x s).core = s.core := by
  unfold storeChain
  (repeat' split) <;> simp [core_mk]

@[simp] theorem clearChain_core (pour : Bool) (c : Nat) (s : State) : (clearChain pour c s).core = s.core := by
  unfold clearChain
  dsimp only
  (repeat' split) <;> (try simp [core_mk]) <;> (repeat' split) <;> simp [core_mk]

@[simp] theorem clearTaster_core (ch : Nat) (t : Fin 2) (s : State) : (clearTaster ch t s).core = s.core := by
  unfold clearTaster
  dsimp only
  (repeat' split) <;> (try simp [core_mk]) <;> (repeat' split) <;> simp [core_mk]

@[simp] theorem clearAt_core (pour : Bool) (c : Nat) (s : State) : (clearAt pour c s).core = s.core := by
  unfold clearAt
  (repeat' split) <;> simp [core_mk]

@[simp] theorem clearMasks_core (press pour : Nat) (s : State) : (clearMasks press pour s).core = s.core := by
  unfold clearMasks
  (repeat' split) <;> simp [core_mk]

@[simp] theorem startChain_core (pour : Bool) (c : Nat) (s : State) : (startChain pour c s).core = s.core := by
  unfold startChain
  (repeat' split) <;> simp [core_mk]

@[simp] theorem arriveChain_core (t : Fin 2) (ch : Nat) (s : State) : (arriveChain t ch s).core = s.core := by
  unfold arriveChain
  (repeat' split) <;> simp [core_mk]

@[simp] theorem restartWindow_core (ch : Nat) (s : State) : (restartWindow ch s).core = s.core := by
  unfold restartWindow
  (repeat' split) <;> simp [core_mk]

@[simp] theorem landRun_core (pour start : Bool) (s0 : State) (c : Nat) : (landRun pour start s0 c).core = s0.core := by
  unfold landRun
  dsimp only
  (repeat' split) <;> (try simp [core_mk]) <;> (repeat' split) <;> simp [core_mk]

@[simp] theorem landFiltRun_core (p : Bytes) (s : State) : (landFiltRun p s).core = s.core := by
  unfold landFiltRun
  (repeat' split) <;> simp [core_mk]

@[simp] theorem landResp_core (pour : Bool) (c : Nat) (s : State) : (landResp pour c s).core = s.core := by
  unfold landResp
  dsimp only
  (repeat' split) <;> (try simp [core_mk]) <;> (repeat' split) <;> simp [core_mk]

@[simp] theorem landHpf_core (c : Nat) (corner slope : Nat) (s : State) : (landHpf c corner slope s).core = s.core := by
  unfold landHpf
  (repeat' split) <;> simp [core_mk]

@[simp] theorem landConfigChain_core (p : Bytes) (s0 : State) (c : Nat) : (landConfigChain p s0 c).core = s0.core := by
  unfold landConfigChain
  (repeat' split) <;> simp [core_mk]

@[simp] theorem landFiltConfig_core (p : Bytes) (s : State) : (landFiltConfig p s).core = s.core := by
  unfold landFiltConfig
  (repeat' split) <;> simp [core_mk]

@[simp] theorem settleEnd_core (pour : Bool) (c : Nat) (s : State) : (settleEnd pour c s).core = s.core := by
  unfold settleEnd
  (repeat' split) <;> simp [core_mk]

@[simp] theorem syncInTick_core (s : State) : (syncInTick s).core = s.core := by
  unfold syncInTick
  (repeat' split) <;> simp [core_mk]

@[simp] theorem preFade_core (pour : Bool) (s : State) (c : Nat) : (preFade pour s c).core = s.core := by
  unfold preFade
  (repeat' split) <;> simp [core_mk]

@[simp] theorem syncReply_core (h : Hdr) (pre : Bytes) (n : Nat) (s : State) : (syncReply h pre n s).core = s.core := by
  unfold syncReply
  (repeat' split) <;> simp [core_mk]

@[simp] theorem landFiltSync_core (h : Hdr) (p pre : Bytes) (n : Nat) (s : State) : (landFiltSync h p pre n s).core = s.core := by
  unfold landFiltSync
  (repeat' split) <;> simp [core_mk]

@[simp] theorem storeSet_core (pour : Bool) (k : Nat) (c : Option CoefSet) (s : State) : (storeSet pour k c s).core = s.core := by
  unfold storeSet
  (repeat' split) <;> simp [core_mk]

@[simp] theorem noteLoad_core (pour : Bool) (k : Nat) (l : Option CoefLoad) (s : State) : (noteLoad pour k l s).core = s.core := by
  unfold noteLoad
  (repeat' split) <;> simp [core_mk]

@[simp] theorem closeGates_core (s : State) : (closeGates s).core = s.core := by
  unfold closeGates
  (repeat' split) <;> simp [core_mk]

@[simp] theorem stepChains_core (s : State) : (stepChains s).core = s.core := by
  unfold stepChains
  (repeat' split) <;> simp [core_mk]

@[simp] theorem setOutRt_core (h : Handle) (x : OutRt) (s : State) : (setOutRt h x s).core = s.core := by
  unfold setOutRt
  (repeat' split) <;> simp [core_mk]

@[simp] theorem withOut_core (c : OutputCfg) (s : State) : (withOut c s).core = s.core := by
  unfold withOut
  (repeat' split) <;> simp [core_mk]

@[simp] theorem setSpkRt_core (n : Nat) (x : SpkRt) (s : State) : (setSpkRt n x s).core = s.core := by
  unfold setSpkRt
  (repeat' split) <;> simp [core_mk]

@[simp] theorem landOutput_core (p : Bytes) (s0 : State) (i : Nat) : (landOutput p s0 i).core = s0.core := by
  unfold landOutput
  (repeat' split) <;> simp [core_mk]

@[simp] theorem landOutputSet_core (p : Bytes) (s : State) : (landOutputSet p s).core = s.core := by
  unfold landOutputSet
  (repeat' split) <;> simp [core_mk]

@[simp] theorem landClearConfig_core (p : Bytes) (s : State) : (landClearConfig p s).core = s.core := by
  unfold landClearConfig
  (repeat' split) <;> simp [core_mk]

@[simp] theorem setHoldRt_core (n : Nat) (x : HoldRt) (s : State) : (setHoldRt n x s).core = s.core := by
  unfold setHoldRt
  (repeat' split) <;> simp [core_mk]

@[simp] theorem holdRefresh_core (m n : Nat) (s : State) : (holdRefresh m n s).core = s.core := by
  unfold holdRefresh
  dsimp only
  (repeat' split) <;> (try simp [core_mk]) <;> (repeat' split) <;> simp [core_mk]

@[simp] theorem holdRefreshAll_core (m : Nat) (s : State) : (holdRefreshAll m s).core = s.core := by
  unfold holdRefreshAll
  (repeat' split) <;> simp [core_mk]

@[simp] theorem stepHold_core (s : State) (n : Nat) : (stepHold s n).core = s.core := by
  unfold stepHold
  (repeat' split) <;> simp [core_mk]

@[simp] theorem landHoldSet_core (p : Bytes) (s : State) : (landHoldSet p s).core = s.core := by
  unfold landHoldSet
  (repeat' split) <;> simp [core_mk]

@[simp] theorem writeSafe_core (s : State) : (writeSafe s).core = s.core := by
  unfold writeSafe
  (repeat' split) <;> simp [core_mk]

@[simp] theorem setSafe_core (n : Nat) (e : SafeEntry) (s : State) : (setSafe n e s).core = s.core := by
  unfold setSafe
  (repeat' split) <;> simp [core_mk]

@[simp] theorem landHoldSafeSet_core (h : Hdr) (p : Bytes) (s : State) : (landHoldSafeSet h p s).core = s.core := by
  unfold landHoldSafeSet
  (repeat' split) <;> simp [core_mk]

@[simp] theorem startCheck_core (n : Nat) (s : State) : (startCheck n s).core = s.core := by
  unfold startCheck
  (repeat' split) <;> simp [core_mk]

@[simp] theorem checkFromTick_core (n : Nat) (s : State) : (checkFromTick n s).core = s.core := by
  unfold checkFromTick
  (repeat' split) <;> simp [core_mk]

@[simp] theorem spkEnable_core (on was : Bool) (n : Nat) (s : State) : (spkEnable on was n s).core = s.core := by
  unfold spkEnable
  (repeat' split) <;> simp [core_mk]

@[simp] theorem landSpk_core (p : Bytes) (s0 : State) (n : Nat) : (landSpk p s0 n).core = s0.core := by
  unfold landSpk
  (repeat' split) <;> simp [core_mk]

@[simp] theorem landSpeakerSet_core (p : Bytes) (s : State) : (landSpeakerSet p s).core = s.core := by
  unfold landSpeakerSet
  (repeat' split) <;> simp [core_mk]

@[simp] theorem shutGate_core (h : Handle) (s : State) : (shutGate h s).core = s.core := by
  unfold shutGate
  (repeat' split) <;> simp [core_mk]

@[simp] theorem setStage_core (k : Nat) (x : StageTherm) (s : State) : (setStage k x s).core = s.core := by
  unfold setStage
  (repeat' split) <;> simp [core_mk]

@[simp] theorem stepStage_core (s : State) (k : Nat) : (stepStage s k).core = s.core := by
  unfold stepStage
  (repeat' split) <;> simp [core_mk]

@[simp] theorem stepPeak_core (s : State) (h : Handle) : (stepPeak s h).core = s.core := by
  unfold stepPeak
  (repeat' split) <;> simp [core_mk]

@[simp] theorem setPort_core (k : Nat) (x : PortRt) (s : State) : (setPort k x s).core = s.core := by
  unfold setPort
  (repeat' split) <;> simp [core_mk]

@[simp] theorem withPorts_core (c : PortCfg) (s : State) : (withPorts c s).core = s.core := by
  unfold withPorts
  (repeat' split) <;> simp [core_mk]

@[simp] theorem aesStopped_core (p : Bytes) (s : State) : (aesStopped p s).core = s.core := by
  unfold aesStopped
  (repeat' split) <;> simp [core_mk]

@[simp] theorem landAesSet_core (p : Bytes) (s : State) : (landAesSet p s).core = s.core := by
  unfold landAesSet
  (repeat' split) <;> simp [core_mk]

@[simp] theorem landAesCsSet_core (p : Bytes) (s : State) : (landAesCsSet p s).core = s.core := by
  unfold landAesCsSet
  (repeat' split) <;> simp [core_mk]

@[simp] theorem storeRun_core (k : Nat) (on : Bool) (s : State) : (storeRun k on s).core = s.core := by
  unfold storeRun
  (repeat' split) <;> simp [core_mk]

@[simp] theorem startMonitor_core (k : Nat) (s : State) : (startMonitor k s).core = s.core := by
  unfold startMonitor
  (repeat' split) <;> simp [core_mk]

@[simp] theorem beginPort_core (k : Nat) (s : State) : (beginPort k s).core = s.core := by
  unfold beginPort
  (repeat' split) <;> simp [core_mk]

@[simp] theorem landStart_core (s0 : State) (k : Nat) : (landStart s0 k).core = s0.core := by
  unfold landStart
  dsimp only
  (repeat' split) <;> (try simp [core_mk]) <;> (repeat' split) <;> simp [core_mk]

@[simp] theorem landStop_core (s0 : State) (k : Nat) : (landStop s0 k).core = s0.core := by
  unfold landStop
  dsimp only
  (repeat' split) <;> (try simp [core_mk]) <;> (repeat' split) <;> simp [core_mk]

@[simp] theorem landPortStart_core (p : Bytes) (s : State) : (landPortStart p s).core = s.core := by
  unfold landPortStart
  (repeat' split) <;> simp [core_mk]

@[simp] theorem landPortStop_core (p : Bytes) (s : State) : (landPortStop p s).core = s.core := by
  unfold landPortStop
  (repeat' split) <;> simp [core_mk]

@[simp] theorem placeFrame_core (k : Nat) (f : RxFrame) (s : State) : (placeFrame k f s).core = s.core := by
  unfold placeFrame
  (repeat' split) <;> simp [core_mk]

@[simp] theorem portEdge_core (k edge : Nat) (s : State) : (portEdge k edge s).core = s.core := by
  unfold portEdge
  (repeat' split) <;> simp [core_mk]

@[simp] theorem unlock_core (key : Nat) (s : State) : (unlock key s).core = s.core := by
  unfold unlock
  (repeat' split) <;> simp [core_mk]

@[simp] theorem decantLose_core (key : Nat) (obj : Handle) (detail : Word) (s : State) : (decantLose key obj detail s).core = s.core := by
  unfold decantLose
  (repeat' split) <;> simp [core_mk]

@[simp] theorem portLose_core (k reason : Nat) (s : State) : (portLose k reason s).core = s.core := by
  unfold portLose
  (repeat' split) <;> simp [core_mk]

@[simp] theorem rateChange_core (k : Nat) (s : State) : (rateChange k s).core = s.core := by
  unfold rateChange
  (repeat' split) <;> simp [core_mk]

@[simp] theorem trackRate_core (k mean : Nat) (s : State) : (trackRate k mean s).core = s.core := by
  unfold trackRate
  dsimp only
  split
  · rfl
  split
  · exact rateChange_core _ _
  · generalize List.filter _ _ = l
    refine foldl_core ?_ l s
    intro a key
    rfl

@[simp] theorem portGlitch_core (k : Nat) (s : State) : (portGlitch k s).core = s.core := by
  unfold portGlitch
  (repeat' split) <;> simp [core_mk]

@[simp] theorem inputEdge_core (k period : Nat) (bad : Bool) (s : State) : (inputEdge k period bad s).2.core = s.core := by
  unfold inputEdge
  dsimp only
  (repeat' split) <;> (try simp [core_mk]) <;> (repeat' split) <;> simp [core_mk]

@[simp] theorem takeDecant_core (k n : Nat) (s : State) : (takeDecant k n s).core = s.core := by
  unfold takeDecant
  (repeat' split) <;> simp [core_mk]

@[simp] theorem takeTx_core (k : Nat) (s : State) : (takeTx k s).core = s.core := by
  unfold takeTx
  dsimp only
  (repeat' split) <;> (try simp [core_mk]) <;> (repeat' split) <;> simp [core_mk]

@[simp] theorem presentSync_core (k : Nat) (s : State) : (presentSync k s).core = s.core := by
  unfold presentSync
  dsimp only
  (repeat' split) <;> (try simp [core_mk]) <;> (repeat' split) <;> simp [core_mk]

@[simp] theorem presentDecant_core (k : Nat) (s : State) : (presentDecant k s).core = s.core := by
  unfold presentDecant
  (repeat' split) <;> simp [core_mk]

@[simp] theorem presentPorts_core (s : State) : (presentPorts s).core = s.core := by
  unfold presentPorts
  (repeat' split) <;> simp [core_mk]

@[simp] theorem feedPort_core (k frame : Nat) (vals : List Int) (s : State) : (feedPort k frame vals s).core = s.core := by
  unfold feedPort
  (repeat' split) <;> simp [core_mk]

@[simp] theorem stampRead_core (s : State) (target i : Nat) : (stampRead s target i).core = s.core := by
  unfold stampRead
  (repeat' split) <;> simp [core_mk]

@[simp] theorem withNet_core (c : NetworkCfg) (s : State) : (withNet c s).core = s.core := by
  unfold withNet
  (repeat' split) <;> simp [core_mk]

@[simp] theorem setRxSlot_core (i : Nat) (x : RxSlot) (s : State) : (setRxSlot i x s).core = s.core := by
  unfold setRxSlot
  (repeat' split) <;> simp [core_mk]

@[simp] theorem setTxSlot_core (i : Nat) (x : TxSlot) (s : State) : (setTxSlot i x s).core = s.core := by
  unfold setTxSlot
  (repeat' split) <;> simp [core_mk]

@[simp] theorem sendOut_core (l : LinkPort) (o : NetOut) (s : State) : (sendOut l o s).core = s.core := by
  unfold sendOut
  (repeat' split) <;> simp [core_mk]

@[simp] theorem linkPathLost_core (b : Bool) (s : State) : (linkPathLost b s).core = s.core := by
  unfold linkPathLost
  (repeat' split) <;> simp [core_mk]

@[simp] theorem linkFall_core (l : LinkPort) (noCommon : Bool) (s0 : State) : (linkFall l noCommon s0).core = s0.core := by
  unfold linkFall
  (repeat' split) <;> simp [core_mk]

@[simp] theorem restartLink_core (l : LinkPort) (s : State) : (restartLink l s).core = s.core := by
  unfold restartLink
  (repeat' split) <;> simp [core_mk]

@[simp] theorem netStopped_core (p : Bytes) (s : State) : (netStopped p s).core = s.core := by
  unfold netStopped
  (repeat' split) <;> simp [core_mk]

@[simp] theorem landNetSet_core (p : Bytes) (s : State) : (landNetSet p s).core = s.core := by
  unfold landNetSet
  (repeat' split) <;> simp [core_mk]

@[simp] theorem resuspend_core (b : Bool) (s : State) : (resuspend b s).core = s.core := by
  unfold resuspend
  (repeat' split) <;> simp [core_mk]

@[simp] theorem igmpSend_core (i : Nat) (leave : Bool) (s : State) (b : Bool) : (igmpSend i leave s b).core = s.core := by
  unfold igmpSend
  (repeat' split) <;> simp [core_mk]

@[simp] theorem igmpReports_core (i : Nat) (s : State) : (igmpReports i s).core = s.core := by
  unfold igmpReports
  (repeat' split) <;> simp [core_mk]

@[simp] theorem igmpLeaves_core (i : Nat) (s : State) : (igmpLeaves i s).core = s.core := by
  unfold igmpLeaves
  (repeat' split) <;> simp [core_mk]

@[simp] theorem forwardTo_core (l : LinkPort) (f : EthFrame) (s : State) (x : LinkPort) : (forwardTo l f s x).core = s.core := by
  unfold forwardTo
  (repeat' split) <;> simp [core_mk]

@[simp] theorem enterCounted_core (l : LinkPort) (f : EthFrame) (s : State) : (enterCounted l f s).1.core = s.core := by
  unfold enterCounted
  (repeat' split) <;> simp [core_mk]

@[simp] theorem enterFrame_core (l : LinkPort) (f : EthFrame) (s : State) : (enterFrame l f s).1.core = s.core := by
  unfold enterFrame
  (repeat' split) <;> simp [core_mk]

@[simp] theorem sendPtp_core (x : NetPort) (k : PtpKind) (s : State) : (sendPtp x k s).core = s.core := by
  unfold sendPtp
  (repeat' split) <;> simp [core_mk]

@[simp] theorem clearStorm_core (s : State) : (clearStorm s).core = s.core := by
  unfold clearStorm
  (repeat' split) <;> simp [core_mk]

@[simp] theorem putRx_core (i : Nat) (c : RxSlotCfg) (s : State) : (putRx i c s).core = s.core := by
  unfold putRx
  (repeat' split) <;> simp [core_mk]

@[simp] theorem putTx_core (i : Nat) (c : TxSlotCfg) (s : State) : (putTx i c s).core = s.core := by
  unfold putTx
  (repeat' split) <;> simp [core_mk]

@[simp] theorem decantAnew_core (key : Nat) (s : State) : (decantAnew key s).core = s.core := by
  unfold decantAnew
  (repeat' split) <;> simp [core_mk]

@[simp] theorem rxOn_core (s0 : State) (i : Nat) : (rxOn s0 i).core = s0.core := by
  unfold rxOn
  dsimp only
  (repeat' split) <;> (try simp [core_mk]) <;> (repeat' split) <;> simp [core_mk]

@[simp] theorem rxOff_core (s0 : State) (i : Nat) : (rxOff s0 i).core = s0.core := by
  unfold rxOff
  dsimp only
  (repeat' split) <;> (try simp [core_mk]) <;> (repeat' split) <;> simp [core_mk]

@[simp] theorem txOn_core (s0 : State) (i : Nat) : (txOn s0 i).core = s0.core := by
  unfold txOn
  dsimp only
  (repeat' split) <;> (try simp [core_mk]) <;> (repeat' split) <;> simp [core_mk]

@[simp] theorem txOff_core (s0 : State) (i : Nat) : (txOff s0 i).core = s0.core := by
  unfold txOff
  dsimp only
  (repeat' split) <;> (try simp [core_mk]) <;> (repeat' split) <;> simp [core_mk]

@[simp] theorem landStreamEnable_core (p : Bytes) (s : State) : (landStreamEnable p s).core = s.core := by
  unfold landStreamEnable
  (repeat' split) <;> simp [core_mk]

@[simp] theorem placeSample_core (i : Nat) (c : RxSlotCfg) (dec : Bool) (due : Int) (m : Int) (v : StreamSample) (s : State) : (placeSample i c dec due m v s).core = s.core := by
  unfold placeSample
  (repeat' split) <;> simp [core_mk]

@[simp] theorem pathBack_core (i : Nat) (b : Bool) (s : State) : (pathBack i b s).core = s.core := by
  unfold pathBack
  (repeat' split) <;> simp [core_mk]

@[simp] theorem takePacket_core (i : Nat) (m : MediaPacket) (s : State) : (takePacket i m s).core = s.core := by
  unfold takePacket
  (repeat' split) <;> simp [core_mk]

@[simp] theorem rxEnd_core (i : Nat) (s : State) : (rxEnd i s).core = s.core := by
  unfold rxEnd
  (repeat' split) <;> simp [core_mk]

@[simp] theorem rxPresent_core (i : Nat) (v : StreamSample) (due : Nat) (s : State) : (rxPresent i v due s).core = s.core := by
  unfold rxPresent
  (repeat' split) <;> simp [core_mk]

@[simp] theorem rxMissing_core (i : Nat) (due : Int) (s : State) : (rxMissing i due s).core = s.core := by
  unfold rxMissing
  dsimp only
  (repeat' split) <;> (try simp [core_mk]) <;> (repeat' split) <;> simp [core_mk]

@[simp] theorem presentStream_core (i : Nat) (s : State) : (presentStream i s).core = s.core := by
  unfold presentStream
  dsimp only
  (repeat' split) <;> (try simp [core_mk]) <;> (repeat' split) <;> simp [core_mk]

@[simp] theorem presentStreams_core (s : State) : (presentStreams s).core = s.core := by
  unfold presentStreams
  (repeat' split) <;> simp [core_mk]

@[simp] theorem feedStream_core (get : Nat → Int) (s : State) (i : Nat) : (feedStream get s i).core = s.core := by
  unfold feedStream
  (repeat' split) <;> simp [core_mk]

@[simp] theorem feedStreams_core (get : Nat → Int) (s : State) : (feedStreams get s).core = s.core := by
  unfold feedStreams
  (repeat' split) <;> simp [core_mk]

@[simp] theorem sendMedia_core (i m : Nat) (payload : Bytes) (s : State) (b : Bool) : (sendMedia i m payload s b).core = s.core := by
  unfold sendMedia
  (repeat' split) <;> simp [core_mk]

@[simp] theorem txEnd_core (i : Nat) (s : State) : (txEnd i s).core = s.core := by
  unfold txEnd
  (repeat' split) <;> simp [core_mk]

@[simp] theorem renewChain_core (pour : Bool) (s : State) (c : Nat) : (renewChain pour s c).core = s.core := by
  unfold renewChain
  (repeat' split) <;> simp [core_mk]

@[simp] theorem zeroAudio_core (f : Fin 3) (s : State) : (zeroAudio f s).core = s.core := by
  unfold zeroAudio
  (repeat' split) <;> simp [core_mk]

@[simp] theorem fsSwitch_core (f : Fin 3) (s : State) : (fsSwitch f s).core = s.core := by
  unfold fsSwitch
  (repeat' split) <;> simp [core_mk]

@[simp] theorem withDecant_core (d : DecantCfg) (s : State) : (withDecant d s).core = s.core := by
  unfold withDecant
  (repeat' split) <;> simp [core_mk]

@[simp] theorem putAlign_core (g : Nat) (a : AlignGroup) (s : State) : (putAlign g a s).core = s.core := by
  unfold putAlign
  (repeat' split) <;> simp [core_mk]

@[simp] theorem alignStopped_core (p : Bytes) (s : State) : (alignStopped p s).core = s.core := by
  unfold alignStopped
  (repeat' split) <;> simp [core_mk]

@[simp] theorem landAlignGroup_core (p : Bytes) (s : State) : (landAlignGroup p s).core = s.core := by
  unfold landAlignGroup
  (repeat' split) <;> simp [core_mk]

@[simp] theorem caskPack_core (s : State) : (caskPack s).core = s.core := by
  unfold caskPack
  (repeat' split) <;> simp [core_mk]

@[simp] theorem installCore_core (k : Nat) (b : Bytes) (verified : Bool) (s : State) : (installCore k b verified s).core = s.core := by
  unfold installCore
  dsimp only
  (repeat' split) <;> (try simp [core_mk]) <;> (repeat' split) <;> simp [core_mk]

@[simp] theorem emptyCore_core (k : Nat) (s : State) : (emptyCore k s).core = s.core := by
  unfold emptyCore
  (repeat' split) <;> simp [core_mk]

@[simp] theorem beginCore_core (k n : Nat) (s : State) : (beginCore k n s).core = s.core := by
  unfold beginCore
  (repeat' split) <;> simp [core_mk]

@[simp] theorem markCore_core (k : Nat) (s : State) : (markCore k s).core = s.core := by
  unfold markCore
  (repeat' split) <;> simp [core_mk]

@[simp] theorem unmarkCore_core (k : Nat) (s : State) : (unmarkCore k s).core = s.core := by
  unfold unmarkCore
  (repeat' split) <;> simp [core_mk]

@[simp] theorem startCore_core (n : Nat) (s : State) (k : Nat) : (startCore n s k).core = s.core := by
  unfold startCore
  dsimp only
  (repeat' split) <;> (try simp [core_mk]) <;> (repeat' split) <;> simp [core_mk]

@[simp] theorem restartCore_core (n : Nat) (s : State) (k : Nat) : (restartCore n s k).core = s.core := by
  unfold restartCore
  (repeat' split) <;> simp [core_mk]

@[simp] theorem landCoreStart_core (restart : Bool) (s : State) (k : Nat) : (landCoreStart restart s k).core = s.core := by
  unfold landCoreStart
  (repeat' split) <;> simp [core_mk]

@[simp] theorem landCoopStart_core (p : Bytes) (s : State) : (landCoopStart p s).core = s.core := by
  unfold landCoopStart
  (repeat' split) <;> simp [core_mk]

@[simp] theorem stopCore_core (k : Nat) (s : State) : (stopCore k s).core = s.core := by
  unfold stopCore
  (repeat' split) <;> simp [core_mk]

@[simp] theorem fadeCore_core (s : State) (k : Nat) : (fadeCore s k).core = s.core := by
  unfold fadeCore
  dsimp only
  (repeat' split) <;> (try simp [core_mk]) <;> (repeat' split) <;> simp [core_mk]

@[simp] theorem landCoreStop_core (s : State) (k : Nat) : (landCoreStop s k).core = s.core := by
  unfold landCoreStop
  (repeat' split) <;> simp [core_mk]

@[simp] theorem landCoopStop_core (p : Bytes) (s : State) : (landCoopStop p s).core = s.core := by
  unfold landCoopStop
  (repeat' split) <;> simp [core_mk]

@[simp] theorem boundaryPresent_core (k n : Nat) (s : State) : (boundaryPresent k n s).core = s.core := by
  unfold boundaryPresent
  dsimp only
  (repeat' split) <;> (try simp [core_mk]) <;> (repeat' split) <;> simp [core_mk]

@[simp] theorem boundaryTrigger_core (k : Nat) (b : InBlock) (s : State) : (boundaryTrigger k b s).core = s.core := by
  unfold boundaryTrigger
  (repeat' split) <;> simp [core_mk]

@[simp] theorem recordOverrun_core (k kind : Nat) (s : State) : (recordOverrun k kind s).core = s.core := by
  unfold recordOverrun
  (repeat' split) <;> simp [core_mk]

@[simp] theorem landCoopParam_core (p : Bytes) (s : State) : (landCoopParam p s).core = s.core := by
  unfold landCoopParam
  (repeat' split) <;> simp [core_mk]

@[simp] theorem debugRelease_core (k : Nat) (s : State) : (debugRelease k s).core = s.core := by
  unfold debugRelease
  (repeat' split) <;> simp [core_mk]

@[simp] theorem debugStep_core (k n : Nat) (s : State) : (debugStep k n s).core = s.core := by
  unfold debugStep
  (repeat' split) <;> simp [core_mk]

@[simp] theorem stepModeW_core (s : State) : (stepModeW s).core = s.core := by
  unfold stepModeW
  (repeat' split) <;> simp [core_mk]

@[simp] theorem stepCores_core (s0 : State) : (stepCores s0).core = s0.core := by
  unfold stepCores
  (repeat' split) <;> simp [core_mk]

@[simp] theorem setHs_core (n : Nat) (x : HsRt) (s : State) : (setHs n x s).core = s.core := by
  unfold setHs
  (repeat' split) <;> simp [core_mk]

@[simp] theorem setHsCfg_core (n : Nat) (x : HsCfg) (s : State) : (setHsCfg n x s).core = s.core := by
  unfold setHsCfg
  (repeat' split) <;> simp [core_mk]

@[simp] theorem hsEvent_core (e : HsEvent) (s : State) : (hsEvent e s).core = s.core := by
  unfold hsEvent
  (repeat' split) <;> simp [core_mk]

@[simp] theorem hsTrigger_core (n : Nat) (s : State) : (hsTrigger n s).core = s.core := by
  unfold hsTrigger
  (repeat' split) <;> simp [core_mk]

@[simp] theorem hsEnd_core (n : Nat) (s : State) : (hsEnd n s).core = s.core := by
  unfold hsEnd
  (repeat' split) <;> simp [core_mk]

@[simp] theorem clampSoon_core (h : Handle) (s : State) : (clampSoon h s).core = s.core := by
  unfold clampSoon
  (repeat' split) <;> simp [core_mk]

@[simp] theorem buttonUp_core (n : Fin 2) (at' : Nat) (s : State) : (buttonUp n at' s).core = s.core := by
  unfold buttonUp
  (repeat' split) <;> simp [core_mk]

@[simp] theorem hsEmpty_core (n : Fin 2) (s : State) : (hsEmpty n s).core = s.core := by
  unfold hsEmpty
  (repeat' split) <;> simp [core_mk]

@[simp] theorem landHsSet_core (p : Bytes) (s : State) : (landHsSet p s).core = s.core := by
  unfold landHsSet
  (repeat' split) <;> simp [core_mk]

@[simp] theorem forceHs_core (n : Fin 2) (t : Nat) (s : State) : (forceHs n t s).core = s.core := by
  unfold forceHs
  (repeat' split) <;> simp [core_mk]

@[simp] theorem unforceHs_core (n : Fin 2) (s : State) : (unforceHs n s).core = s.core := by
  unfold unforceHs
  (repeat' split) <;> simp [core_mk]

@[simp] theorem pourFrame_core (c : Nat) (v : Int) (s : State) : (pourFrame c v s).core = s.core := by
  unfold pourFrame
  (repeat' split) <;> simp [core_mk]

@[simp] theorem setPh_core (c : Nat) (x : Phantom) (s : State) : (setPh c x s).core = s.core := by
  unfold setPh
  (repeat' split) <;> simp [core_mk]

@[simp] theorem setChanIn_core (c : Nat) (x : ChanIn) (s : State) : (setChanIn c x s).core = s.core := by
  unfold setChanIn
  (repeat' split) <;> simp [core_mk]

@[simp] theorem setInCfg_core (c : Nat) (x : InCfg) (s : State) : (setInCfg c x s).core = s.core := by
  unfold setInCfg
  (repeat' split) <;> simp [core_mk]

@[simp] theorem setTaster_core (t : Fin 2) (x : Taster) (s : State) : (setTaster t x s).core = s.core := by
  unfold setTaster
  (repeat' split) <;> simp [core_mk]

@[simp] theorem stepMic_core (s : State) (c : Nat) : (stepMic s c).core = s.core := by
  unfold stepMic
  (repeat' split) <;> simp [core_mk]

@[simp] theorem phSwitch_core (c : Nat) (on : Bool) (s : State) : (phSwitch c on s).core = s.core := by
  unfold phSwitch
  (repeat' split) <;> simp [core_mk]

@[simp] theorem phApply_core (s : State) (c : Nat) : (phApply s c).core = s.core := by
  unfold phApply
  (repeat' split) <;> simp [core_mk]

@[simp] theorem stepPhantom_core (muted : Bool) (s : State) (c : Nat) : (stepPhantom muted s c).core = s.core := by
  unfold stepPhantom
  dsimp only
  (repeat' split) <;> (try simp [core_mk]) <;> (repeat' split) <;> simp [core_mk]

@[simp] theorem inputStored_core (p : Bytes) (s : State) : (inputStored p s).core = s.core := by
  unfold inputStored
  (repeat' split) <;> simp [core_mk]

@[simp] theorem landInput_core (p : Bytes) (s0 : State) (c : Nat) : (landInput p s0 c).core = s0.core := by
  unfold landInput
  (repeat' split) <;> simp [core_mk]

@[simp] theorem landInputSet_core (p : Bytes) (s : State) : (landInputSet p s).core = s.core := by
  unfold landInputSet
  (repeat' split) <;> simp [core_mk]

@[simp] theorem noteCodeFs_core (k : Nat) (s : State) : (noteCodeFs k s).core = s.core := by
  unfold noteCodeFs
  (repeat' split) <;> simp [core_mk]

@[simp] theorem stepWindows_core (s : State) : (stepWindows s).core = s.core := by
  unfold stepWindows
  (repeat' split) <;> simp [core_mk]

@[simp] theorem endRound_core (s : State) : (endRound s).core = s.core := by
  unfold endRound
  (repeat' split) <;> simp [core_mk]

@[simp] theorem connect_core (t : Fin 2) (c : Nat) (st : TState) (pair : Bool) (s : State) : (connect t c st pair s).core = s.core := by
  unfold connect
  (repeat' split) <;> simp [core_mk]

@[simp] theorem markVisited_core (c : Nat) (s : State) : (markVisited c s).core = s.core := by
  unfold markVisited
  (repeat' split) <;> simp [core_mk]

@[simp] theorem markPassed_core (c : Nat) (s : State) : (markPassed c s).core = s.core := by
  unfold markPassed
  refine foldl_core ?_ _ _
  intro a k
  rfl

@[simp] theorem beginVisit_core (t : Fin 2) (v : NextVisit) (s : State) : (beginVisit t v s).core = s.core := by
  unfold beginVisit
  (repeat' split) <;> simp [core_mk]

@[simp] theorem parkSubst_core (t : Fin 2) (c : Fin 32) (s : State) : (parkSubst t c s).core = s.core := by
  unfold parkSubst
  (repeat' split) <;> simp [core_mk]

@[simp] theorem goSubst_core (t : Fin 2) (c : Fin 32) (s : State) : (goSubst t c s).core = s.core := by
  unfold goSubst
  (repeat' split) <;> simp [core_mk]

@[simp] theorem seqEnd_core (s : State) : (seqEnd s).core = s.core := by
  unfold seqEnd
  (repeat' split) <;> simp [core_mk]

@[simp] theorem failAction_core (c : Nat) (s : State) : (failAction c s).core = s.core := by
  unfold failAction
  (repeat' split) <;> simp [core_mk]

@[simp] theorem freeTaster_core (t : Fin 2) (s : State) : (freeTaster t s).core = s.core := by
  unfold freeTaster
  (repeat' split) <;> simp [core_mk]

@[simp] theorem endVisit_core (t : Fin 2) (s : State) : (endVisit t s).core = s.core := by
  unfold endVisit
  (repeat' split) <;> simp [core_mk]

@[simp] theorem stepSubst_core (s : State) : (stepSubst s).core = s.core := by
  unfold stepSubst
  (repeat' split) <;> simp [core_mk]

@[simp] theorem passChannel_core (c : Nat) (s : State) : (passChannel c s).core = s.core := by
  unfold passChannel
  (repeat' split) <;> simp [core_mk]

@[simp] theorem noteVerdict_core (t : Fin 2) (c v : Nat) (m : TasterMeas) (s : State) : (noteVerdict t c v m s).core = s.core := by
  unfold noteVerdict
  (repeat' split) <;> simp [core_mk]

@[simp] theorem goFirst_core (c : Nat) (s : State) : (goFirst c s).core = s.core := by
  unfold goFirst
  (repeat' split) <;> simp [core_mk]

@[simp] theorem visitOver_core (t : Fin 2) (s : State) : (visitOver t s).core = s.core := by
  unfold visitOver
  (repeat' split) <;> simp [core_mk]

@[simp] theorem confirmFail_core (t : Fin 2) (c : Fin 32) (v : Nat) (m : TasterMeas) (s0 : State) : (confirmFail t c v m s0).core = s0.core := by
  unfold confirmFail
  (repeat' split) <;> simp [core_mk]

@[simp] theorem plainVerdict_core (t : Fin 2) (c : Fin 32) (v : Nat) (m : TasterMeas) (s0 : State) : (plainVerdict t c v m s0).core = s0.core := by
  unfold plainVerdict
  (repeat' split) <;> simp [core_mk]

@[simp] theorem withdraw_core (t : Fin 2) (s : State) : (withdraw t s).core = s.core := by
  unfold withdraw
  (repeat' split) <;> simp [core_mk]

@[simp] theorem pairVerdict_core (t : Fin 2) (c : Fin 32) (m other between : TasterMeas) (s : State) : (pairVerdict t c m other between s).core = s.core := by
  unfold pairVerdict
  (repeat' split) <;> simp [core_mk]

@[simp] theorem restTaster_core (s : State) (t : Fin 2) : (restTaster s t).core = s.core := by
  unfold restTaster
  (repeat' split) <;> simp [core_mk]

@[simp] theorem landTasterConfig_core (p : Bytes) (s : State) : (landTasterConfig p s).core = s.core := by
  unfold landTasterConfig
  (repeat' split) <;> simp [core_mk]

@[simp] theorem releaseInputs_core (s : State) : (releaseInputs s).core = s.core := by
  unfold releaseInputs
  (repeat' split) <;> simp [core_mk]

@[simp] theorem forceTaster_core (t : Fin 2) (c : Nat) (s : State) : (forceTaster t c s).core = s.core := by
  unfold forceTaster
  (repeat' split) <;> simp [core_mk]

@[simp] theorem restoreTasters_core (s : State) : (restoreTasters s).core = s.core := by
  unfold restoreTasters
  (repeat' split) <;> simp [core_mk]

@[simp] theorem pressFirst_core (i : TickIn) (s : State) (c : Nat) (st : Stages) : (pressFirst i s c st).1.core = s.core := by
  unfold pressFirst
  (repeat' split) <;> simp [core_mk]

@[simp] theorem pressChain_core (i : TickIn) (s0 : State) (c : Nat) : (pressChain i s0 c).1.core = s0.core := by
  unfold pressChain
  dsimp only
  (repeat' split) <;> (try simp [core_mk]) <;> (repeat' split) <;> simp [core_mk]

@[simp] theorem pressAll_core (i : TickIn) (s : State) : (pressAll i s).1.core = s.core := by
  unfold pressAll
  generalize List.range 36 = l
  exact pairFold_core (β := List Int) (fun a c => pressChain_core i a.1 c) l (s, [])

@[simp] theorem ainSource_core (vals : List Int) (a : State × Tab Int) (c : Nat) : (ainSource vals a c).1.core = a.1.core := by
  unfold ainSource
  dsimp only
  split <;> simp [core_mk]

@[simp] theorem stepIdle_core (s : State) (n : Nat) : (stepIdle s n).core = s.core := by
  unfold stepIdle
  (repeat' split) <;> simp [core_mk]

@[simp] theorem micSource_core (vals : List Int) (a : State × Tab Int) (n : Nat) : (micSource vals a n).1.core = a.1.core := by
  unfold micSource
  dsimp only
  split <;> simp

@[simp] theorem genSource_core (a : State × Tab Int) (g : Nat) : (genSource a g).1.core = a.1.core := by
  unfold genSource
  exact rfl

@[simp] theorem captureSources_core (i : TickIn) (s0 : State) : (captureSources i s0).core = s0.core := by
  unfold captureSources
  dsimp only
  generalize hv : pressAll i _ = y
  obtain ⟨s2, vals⟩ := y
  have h2 : s2.core = s0.core := by
    have g := congrArg (fun x => x.1.core) hv
    exact g.symm.trans ((pressAll_core i _).trans (by simp))
  have h3 : ∀ b, (List.foldl genSource (List.foldl (micSource vals) (List.foldl (ainSource vals) (s2, b)
      (List.range 32)) (List.range 2)) (List.range 4)).1.core = s2.core := by
    generalize List.range 4 = l4
    generalize List.range 2 = l2
    generalize List.range 32 = l1
    intro b
    rw [pairFold_core genSource_core, pairFold_core (micSource_core vals), pairFold_core (ainSource_core vals)]
  simp only [core_mk, core_fold]
  exact (h3 _).trans h2

@[simp] theorem followTerms_core (s : State) : (followTerms s).core = s.core := by
  unfold followTerms
  (repeat' split) <;> simp [core_mk]

@[simp] theorem emptyStage_core (s : State) : (emptyStage s).core = s.core := by
  unfold emptyStage
  (repeat' split) <;> simp [core_mk]

@[simp] theorem noteRefusal_core (st : Status) (i : Nat) (s : State) : (noteRefusal st i s).core = s.core := by
  unfold noteRefusal
  (repeat' split) <;> simp [core_mk]

@[simp] theorem adoptGraph_core (g : GraphCfg) (c : Compiled) (s : State) : (adoptGraph g c s).core = s.core := by
  unfold adoptGraph
  (repeat' split) <;> simp [core_mk]

@[simp] theorem commitReply_core (st : Status) (s : State) : (commitReply st s).core = s.core := by
  unfold commitReply
  dsimp only
  (repeat' split) <;> (try simp [core_mk]) <;> (repeat' split) <;> simp [core_mk]

@[simp] theorem beginCommit_core (s : State) : (beginCommit s).core = s.core := by
  unfold beginCommit
  (repeat' split) <;> simp [core_mk]

@[simp] theorem countOverrun_core (st : Status) (s : State) : (countOverrun st s).core = s.core := by
  unfold countOverrun
  split <;> rfl

@[simp] theorem armCommit_core (k : Captured) (s : State) : (armCommit k s).core = s.core := by
  unfold armCommit
  (repeat' split) <;> simp [core_mk]

@[simp] theorem graphTrigger_core (k : Captured) (s : State) : (graphTrigger k s).2.core = s.core := by
  unfold graphTrigger
  (repeat' split) <;> simp [core_mk]

@[simp] theorem discardRefused_core (h : Hdr) (p : Bytes) (s : State) : (discardRefused h p s).core = s.core := by
  unfold discardRefused
  (repeat' split) <;> simp [core_mk]

@[simp] theorem noteRoute_core (h : Hdr) (p : Bytes) (s : State) : (noteRoute h p s).core = s.core := by
  unfold noteRoute
  (repeat' split) <;> simp [core_mk]

theorem triggerNow_core (k : Captured) (fail : Status → State → State) (hf : ∀ st s, (fail st s).core = s.core) (s : State) :
    (triggerNow k fail s).core = s.core := by
  have g := graphTrigger_core k s
  unfold triggerNow
  split
  · simp [core_mk]
  split <;> rename_i e <;> rw [e] at g
  · exact g
  · exact (hf _ _).trans g

@[simp] theorem landGraphTimed_core (l : Landing) (s : State) : (landGraphTimed l s).core = s.core := by
  unfold landGraphTimed
  dsimp only
  (repeat' split) <;> first
    | rfl
    | exact (reply_core _ _ _ _ _).trans (by simp [core_mk])
    | exact triggerNow_core _ _ (fun _ _ => reply_core _ _ _ _ _) _
    | exact (triggerNow_core _ _ (fun _ _ => reply_core _ _ _ _ _) _).trans rfl

@[simp] theorem cancelTriggers_core (s : State) : (cancelTriggers s).core = s.core := by
  unfold cancelTriggers
  dsimp only
  (repeat' split) <;> (try simp [core_mk]) <;> (repeat' split) <;> simp [core_mk]

@[simp] theorem stepMutes_core (s : State) : (stepMutes s).core = s.core := by
  unfold stepMutes
  (repeat' split) <;> simp [core_mk]

@[simp] theorem stepPortStops_core (s : State) : (stepPortStops s).core = s.core := by
  unfold stepPortStops
  (repeat' split) <;> simp [core_mk]

@[simp] theorem noteSat_core (s : State) (x : Handle × Nat × Nat) : (noteSat s x).core = s.core := by
  unfold noteSat
  (repeat' split) <;> simp [core_mk]

@[simp] theorem blendPass_core (s0 : State) : (blendPass s0).core = s0.core := by
  unfold blendPass
  (repeat' split) <;> simp [core_mk]

@[simp] theorem landEventMask_core (h : Hdr) (p : Bytes) (s : State) : (landEventMask h p s).core = s.core := by
  unfold landEventMask
  (repeat' split) <;> simp [core_mk]

@[simp] theorem landNetAuth_core (p : Bytes) (s : State) : (landNetAuth p s).core = s.core := by
  unfold landNetAuth
  (repeat' split) <;> simp [core_mk]

@[simp] theorem keysEnabled_core (p : Bytes) (s : State) : (keysEnabled p s).core = s.core := by
  unfold keysEnabled
  (repeat' split) <;> simp [core_mk]

@[simp] theorem stepOverride_core (s : State) : (stepOverride s).core = s.core := by
  unfold stepOverride
  (repeat' split) <;> simp [core_mk]

@[simp] theorem stepDriver_core (s0 : State) (h : Handle) : (stepDriver s0 h).core = s0.core := by
  unfold stepDriver
  (repeat' split) <;> simp [core_mk]

@[simp] theorem sinkFrame_core (ov : Int) (s0 : State) (h : Handle) : (sinkFrame ov s0 h).core = s0.core := by
  unfold sinkFrame
  (repeat' split) <;> simp [core_mk]

@[simp] theorem sinkStage_core (s0 : State) : (sinkStage s0).core = s0.core := by
  unfold sinkStage
  (repeat' split) <;> simp [core_mk]

@[simp] theorem revertTests_core (s0 : State) : (revertTests s0).core = s0.core := by
  unfold revertTests
  (repeat' split) <;> simp [core_mk]

@[simp] theorem closeExpert_core (s : State) : (closeExpert s).core = s.core := by
  unfold closeExpert
  (repeat' split) <;> simp [core_mk]

@[simp] theorem toHold_core (s : State) : (toHold s).core = (s.pending, s.sysCnt, s.life.state, s.life.lifeDue, .hold) := by
  unfold toHold
  rw [holdRefreshAll_core, enterMode_core]

@[simp] theorem beginVint_core (t : Fin 2) (tai : Nat) (label : Word) (kind : CommitKind) (s : State) : (beginVint t tai label kind s).core = s.core := by
  unfold beginVint
  (repeat' split) <;> simp [core_mk]

@[simp] theorem takeCommit_core (s : State) : (takeCommit s).core = s.core := by
  unfold takeCommit
  (repeat' split) <;> simp [core_mk]

@[simp] theorem dropCommit_core (s : State) : (dropCommit s).core = s.core := by
  unfold dropCommit
  (repeat' split) <;> simp [core_mk]

@[simp] theorem powerLossCommit_core (s : State) : (powerLossCommit s).core = s.core := by
  unfold powerLossCommit
  (repeat' split) <;> simp [core_mk]

@[simp] theorem finishVint_core (c : Commit) (s : State) : (finishVint c s).core = s.core := by
  unfold finishVint
  (repeat' split) <;> simp [core_mk]

@[simp] theorem spoilSlot_core (rb : ReadBack) (c : Commit) (s : State) : (spoilSlot rb c s).core = s.core := by
  unfold spoilSlot
  (repeat' split) <;> simp [core_mk]

@[simp] theorem settleMark_core (s : State) : (settleMark s).core = s.core := by
  unfold settleMark
  (repeat' split) <;> simp [core_mk]

@[simp] theorem landVintPolicy_core (p : Bytes) (s : State) : (landVintPolicy p s).core = s.core := by
  unfold landVintPolicy
  (repeat' split) <;> simp [core_mk]

@[simp] theorem boardStored_core (b : BoardCfg) (s : State) : (boardStored b s).core = s.core := by
  unfold boardStored
  (repeat' split) <;> simp [core_mk]

@[simp] theorem declareHold_core (b : BoardCfg) (s : State) : (declareHold b s).core = s.core := by
  unfold declareHold
  (repeat' split) <;> simp [core_mk]

@[simp] theorem undeclareHs_core (n : Fin 2) (s : State) : (undeclareHs n s).core = s.core := by
  unfold undeclareHs
  (repeat' split) <;> simp [core_mk]

@[simp] theorem undeclareLink_core (l : LinkPort) (s : State) : (undeclareLink l s).core = s.core := by
  unfold undeclareLink
  (repeat' split) <;> simp [core_mk]

@[simp] theorem undeclare_core (s : State) : (undeclare s).core = s.core := by
  unfold undeclare
  (repeat' split) <;> simp [core_mk]

@[simp] theorem checkNewSpk_core (old : BitVec 2) (s : State) (n : Nat) : (checkNewSpk old s n).core = s.core := by
  unfold checkNewSpk
  (repeat' split) <;> simp [core_mk]

@[simp] theorem landBoard_core (p : Bytes) (s : State) : (landBoard p s).core = s.core := by
  unfold landBoard
  (repeat' split) <;> simp [core_mk]

@[simp] theorem setPd_core (x : NetPort) (q : PdPort) (s : State) : (setPd x q s).core = s.core := by
  unfold setPd
  (repeat' split) <;> simp [core_mk]

@[simp] theorem notePads_core (s : State) : (notePads s).core = s.core := by
  unfold notePads
  (repeat' split) <;> simp [core_mk]

@[simp] theorem startAo_core (s : State) : (startAo s).core = (s.pending, s.sysCnt, s.life.state, s.life.lifeDue, .reset) := by
  exact rfl

@[simp] theorem tryAux_core (s : State) : (tryAux s).core = s.core := by
  unfold tryAux
  (repeat' split) <;> simp [core_mk]

@[simp] theorem holdPh_core (c : Nat) (on : Bool) (s : State) : (holdPh c on s).core = s.core := by
  unfold holdPh
  (repeat' split) <;> simp [core_mk]

@[simp] theorem cutPh_core (s : State) (c : Nat) : (cutPh s c).core = s.core := by
  unfold cutPh
  (repeat' split) <;> simp [core_mk]

@[simp] theorem shedAll_core (s : State) : (shedAll s).core = s.core := by
  unfold shedAll
  (repeat' split) <;> simp [core_mk]

@[simp] theorem shedStep_core (s : State) : (shedStep s).core = s.core := by
  unfold shedStep
  (repeat' split) <;> simp [core_mk]

@[simp] theorem takeBudget_core (s : State) : (takeBudget s).core = s.core := by
  unfold takeBudget
  (repeat' split) <;> simp [core_mk]

@[simp] theorem takeMeas_core (m : PowerMeas) (s : State) : (takeMeas m s).core = s.core := by
  unfold takeMeas
  (repeat' split) <;> simp [core_mk]

@[simp] theorem governStep_core (s : State) : (governStep s).core = s.core := by
  unfold governStep
  (repeat' split) <;> simp [core_mk]

@[simp] theorem noteFlags_core (s : State) : (noteFlags s).core = s.core := by
  unfold noteFlags
  (repeat' split) <;> simp [core_mk]

@[simp] theorem portsBack_core (s : State) : (portsBack s).core = s.core := by
  unfold portsBack
  dsimp only
  (repeat' split) <;> simp [core_mk]

@[simp] theorem sendLldp_core (x : NetPort) (s : State) : (sendLldp x s).core = s.core := by
  unfold sendLldp
  (repeat' split) <;> simp [core_mk]

@[simp] theorem restoreStep_core (s : State) : (restoreStep s).core = s.core := by
  unfold restoreStep
  (repeat' split) <;> simp [core_mk]

@[simp] theorem holdLoss_core (s : State) (n : Nat) : (holdLoss s n).core = s.core := by
  unfold holdLoss
  (repeat' split) <;> simp [core_mk]

@[simp] theorem cutLoads_core (s : State) : (cutLoads s).core = s.core := by
  unfold cutLoads
  (repeat' split) <;> simp [core_mk]

@[simp] theorem powerLoss_core (s0 : State) : (powerLoss s0).core = s0.core := by
  unfold powerLoss
  (repeat' split) <;> simp [core_mk]

@[simp] theorem regain_core (s : State) (x : NetPort) : (regain s x).core = (s.pending, s.sysCnt, s.life.state, s.life.lifeDue,
    if (pdPort s x).applied = true ∧ s.life.mode = .off then .reset else s.life.mode) := by
  unfold regain
  dsimp only
  split
  · rename_i h
    rw [setPd_core]
    split
    · rename_i g
      rw [startAo_core, if_pos ⟨h, g⟩]
    · rename_i g
      rw [if_neg (fun e => g e.2)]
      rfl
  · rename_i h
    rw [if_neg (fun e => h e.1)]
    rfl

@[simp] theorem portStops_core (x : NetPort) (stops : Bool) (s : State) : (portStops x stops s).core = s.core := by
  unfold portStops
  (repeat' split) <;> simp [core_mk]

@[simp] theorem policyLldp_core (old new : PowerPolicyCfg) (x : NetPort) (s : State) : (policyLldp old new x s).core = s.core := by
  unfold policyLldp
  (repeat' split) <;> simp [core_mk]

@[simp] theorem landPowerPolicy_core (p : Bytes) (s : State) : (landPowerPolicy p s).core = s.core := by
  unfold landPowerPolicy
  (repeat' split) <;> simp [core_mk]

@[simp] theorem setReadShadow_core (rq : Requester) (x : ReadShadow) (s : State) : (setReadShadow rq x s).core = s.core := by
  unfold setReadShadow
  (repeat' split) <;> simp [core_mk]

@[simp] theorem readWord_core (rq : Requester) (a : Nat) (s : State) : (readWord rq a s).2.2.core = s.core := by
  unfold readWord
  dsimp only
  (repeat' split) <;> (try simp [core_mk]) <;> (repeat' split) <;> simp [core_mk]

@[simp] theorem setWriteShadow_core (rq : Requester) (x : WriteShadow) (s : State) : (setWriteShadow rq x s).core = s.core := by
  unfold setWriteShadow
  (repeat' split) <;> simp [core_mk]

theorem writeGovTest_ok (v : Nat) (s t : State) : writeGovTest v s = .ok t → t.core = s.core := by
  intro e
  unfold writeGovTest at e
  (try dsimp only at e)
  (repeat' split at e) <;> first | (cases e; simp [core_mk]; done) | exact nomatch e | skip

theorem writeMuShift_ok (k v : Nat) (s t : State) : writeMuShift k v s = .ok t → t.core = s.core := by
  intro e
  unfold writeMuShift at e
  (try dsimp only at e)
  (repeat' split at e) <;> first | (cases e; simp [core_mk]; done) | exact nomatch e | skip

theorem writePathForce_ok (k v : Nat) (s t : State) : writePathForce k v s = .ok t → t.core = s.core := by
  intro e
  unfold writePathForce at e
  (try dsimp only at e)
  (repeat' split at e) <;> first | (cases e; simp [core_mk]; done) | exact nomatch e | skip

theorem writeClampTest_ok (n v : Nat) (s t : State) : writeClampTest n v s = .ok t → t.core = s.core := by
  intro e
  unfold writeClampTest at e
  (try dsimp only at e)
  (repeat' split at e) <;> first | (cases e; simp [core_mk]; done) | exact nomatch e | skip

theorem writeServoTc_ok (n v : Nat) (s t : State) : writeServoTc n v s = .ok t → t.core = s.core := by
  intro e
  unfold writeServoTc at e
  (try dsimp only at e)
  (repeat' split at e) <;> first | (cases e; simp [core_mk]; done) | exact nomatch e | skip

theorem writeTrackFreeze_ok (n : Fin 2) (v : Nat) (s t : State) : writeTrackFreeze n v s = .ok t → t.core = s.core := by
  intro e
  unfold writeTrackFreeze at e
  (try dsimp only at e)
  (repeat' split at e) <;> first | (cases e; simp [core_mk]; done) | exact nomatch e | skip

theorem writeForceType_ok (n : Fin 2) (v : Nat) (s t : State) : writeForceType n v s = .ok t → t.core = s.core := by
  intro e
  unfold writeForceType at e
  (try dsimp only at e)
  (repeat' split at e) <;> first | (cases e; simp [core_mk]; done) | exact nomatch e | skip

theorem writeLoopback_ok (p v : Nat) (s t : State) : writeLoopback p v s = .ok t → t.core = s.core := by
  intro e
  unfold writeLoopback at e
  (try dsimp only at e)
  (repeat' split at e) <;> first | (cases e; simp [core_mk]; done) | exact nomatch e | skip

theorem writePhyLoop_ok (l : LinkPort) (v : Nat) (s t : State) : writePhyLoop l v s = .ok t → t.core = s.core := by
  intro e
  unfold writePhyLoop at e
  (try dsimp only at e)
  (repeat' split at e) <;> first | (cases e; simp [core_mk]; done) | exact nomatch e | skip

theorem writeBreak_ok (k n v : Nat) (s t : State) : writeBreak k n v s = .ok t → t.core = s.core := by
  intro e
  unfold writeBreak at e
  (try dsimp only at e)
  (repeat' split at e) <;> first | (cases e; simp [core_mk]; done) | exact nomatch e | skip

theorem writeInjectCode_ok (v : Nat) (s t : State) : writeInjectCode v s = .ok t → t.core = s.core := by
  intro e
  unfold writeInjectCode at e
  (try dsimp only at e)
  (repeat' split at e) <;> first | (cases e; simp [core_mk]; done) | exact nomatch e | skip

theorem writeInjectObj_ok (v : Nat) (s t : State) : writeInjectObj v s = .ok t → t.core = s.core := by
  intro e
  unfold writeInjectObj at e
  (try dsimp only at e)
  (repeat' split at e) <;> first | (cases e; simp [core_mk]; done) | exact nomatch e | skip

theorem writeCore_ok (rq : Requester) (k o a v : Nat) (s t : State) : writeCore rq k o a v s = .ok t → t.core = s.core := by
  intro e
  unfold writeCore at e
  (try dsimp only at e)
  (repeat' split at e) <;> first | (cases e; simp [core_mk]; done) | exact nomatch e | skip

theorem writeOther_ok (a : Nat) (s t : State) : writeOther a s = .ok t → t.core = s.core := by
  intro e
  unfold writeOther at e
  (try dsimp only at e)
  (repeat' split at e) <;> first | (cases e; simp [core_mk]; done) | exact nomatch e | skip

theorem writeCoop_ok (rq : Requester) (k o a v : Nat) (s t : State) (e : writeCoop rq k o a v s = .ok t) : t.core = s.core := by
  unfold writeCoop at e
  split at e
  · exact writeBreak_ok _ _ _ _ _ e
  split at e
  · exact writeCore_ok _ _ _ _ _ _ _ e
  · exact writeOther_ok _ _ _ e

theorem writeWord_ok (rq : Requester) (a v : Nat) (s t : State) (e : writeWord rq a v s = .ok t) : t.core = s.core := by
  unfold writeWord at e
  dsimp only at e
  (repeat' split at e) <;> first
    | exact writeGovTest_ok _ _ _ e | exact writeMuShift_ok _ _ _ _ e | exact writePathForce_ok _ _ _ _ e
    | exact writeClampTest_ok _ _ _ _ e | exact writeServoTc_ok _ _ _ _ e | exact writeTrackFreeze_ok _ _ _ _ e
    | exact writeForceType_ok _ _ _ _ e | exact writeLoopback_ok _ _ _ _ e | exact writePhyLoop_ok _ _ _ _ e
    | exact writeInjectCode_ok _ _ _ e | exact writeInjectObj_ok _ _ _ e | exact writeCoop_ok _ _ _ _ _ _ _ e
    | exact writeOther_ok _ _ _ e

/-- Words that are all taken leave the core. -/
theorem writeWords_ok (rq : Requester) (l : List Nat) (a : Nat) (s t : State) (e : writeWords rq a l s = .ok t) :
    t.core = s.core := by
  induction l generalizing a s with
  | nil => cases e; rfl
  | cons v l ih =>
    unfold writeWords at e
    split at e
    · rename_i s1 h
      exact (ih _ _ e).trans (writeWord_ok _ _ _ _ _ h)
    · cases e

@[simp] theorem landRegWrite_core (h : Hdr) (p : Bytes) (s : State) : (landRegWrite h p s).core = s.core := by
  unfold landRegWrite
  dsimp only
  split
  · rename_i s1 e
    have g : s1.core = s.core := (writeWords_ok _ _ _ _ _ e).trans (by simp)
    split
    · simpa [core_mk] using g
    · exact g
  · rfl

@[simp] theorem resetIslands_core (s : State) : (resetIslands s).core = (s.pending, s.sysCnt, s.life.state, none, s.life.mode) := by
  exact rfl

@[simp] theorem beginReset_core (cause : Nat) (stay holdN thermal : Bool) (s0 : State) : (beginReset cause stay holdN thermal s0).core = (s0.pending, s0.sysCnt, s0.life.state, none, .reset) := by
  unfold beginReset
  have h := closeExpert_core s0
  simp only [State.core, Prod.mk.injEq] at h
  dsimp only
  rw [holdRefreshAll_core, enterMode_core]
  simp only [h]

@[simp] theorem beginStart_core (holdN : Bool) (s0 : State) : (beginStart holdN s0).core = (s0.pending, s0.sysCnt, s0.life.state, s0.life.lifeDue, .start) := by
  unfold beginStart fresh
  dsimp only
  split
  · rename_i h
    show (s0.pending, s0.sysCnt, s0.life.state, s0.life.lifeDue, s0.life.mode) = _
    rw [show s0.life.mode = .start from h]
  · exact (enterMode_core _ _).trans rfl

@[simp] theorem leaveReset_core (holdN : Bool) (s : State) : (leaveReset holdN s).core = (s.pending, s.sysCnt, s.life.state, s.life.lifeDue, if s.pads.resetN = true then .start else s.life.mode) := by
  unfold leaveReset
  split
  · exact beginStart_core _ _
  · rfl

@[simp] theorem afterReset_core (holdN thermal : Bool) (s : State) : (afterReset holdN thermal s).core = (s.pending, s.sysCnt, s.life.state, s.life.lifeDue,
    if thermal = false ∧ s.pads.resetN = true then .start else s.life.mode) := by
  unfold afterReset
  cases thermal
  · simp
  · rfl

@[simp] theorem nextTick_core (s : State) : (nextTick s).core = s.core := by
  unfold nextTick
  (repeat' split) <;> simp [core_mk]

@[simp] theorem stepGpio_core (s : State) : (stepGpio s).core = s.core := by
  unfold stepGpio
  (repeat' split) <;> simp [core_mk]

@[simp] theorem stepClear_core (s : State) : (stepClear s).core = s.core := by
  unfold stepClear
  (repeat' split) <;> simp [core_mk]

@[simp] theorem feedSinks_core (n : Nat) (s : State) : (feedSinks n s).core = s.core := by
  unfold feedSinks
  (repeat' split) <;> simp [core_mk]

@[simp] theorem pourAll_core (s : State) : (pourAll s).core = s.core := by
  unfold pourAll
  (repeat' split) <;> simp [core_mk]

@[simp] theorem stepPhantoms_core (s : State) : (stepPhantoms s).core = s.core := by
  unfold stepPhantoms
  (repeat' split) <;> simp [core_mk]

@[simp] theorem stepMics_core (s : State) : (stepMics s).core = s.core := by
  unfold stepMics
  (repeat' split) <;> simp [core_mk]

@[simp] theorem frameEnd_core (s0 : State) : (frameEnd s0).core = s0.core := by
  unfold frameEnd
  (repeat' split) <;> simp [core_mk]

@[simp] theorem clearMeter_core (s : State) (h : Handle) : (clearMeter s h).core = s.core := by
  unfold clearMeter
  (repeat' split) <;> simp [core_mk]

@[simp] theorem forget_core (rq : Requester) (s : State) : (forget rq s).core = s.core := by
  unfold forget
  (repeat' split) <;> simp [core_mk]

@[simp] theorem freeSession_core (i : Fin 8) (s : State) : (freeSession i s).core = s.core := by
  unfold freeSession
  (repeat' split) <;> simp [core_mk]

@[simp] theorem admitNet_core (k : Packet) (h : Hdr) (s : State) : (admitNet k h s).core = s.core := by
  unfold admitNet
  split
  · simp
  · rename_i s1 e
    have g := holdSession_core h s s1 e
    have q := admitQueue_core k h s1
    split <;> rename_i hq <;> rw [hq] at q
    · exact q.trans g
    · exact (refuseAt_core _ _ _ _).trans (q.trans g)

@[simp] theorem admitDatagram_core (l : LinkPort) (ip : BitVec 32) (udp : BitVec 16) (b : Bytes) (s : State) : (admitDatagram l ip udp b s).core = s.core := by
  unfold admitDatagram
  dsimp only
  (repeat' split) <;> (try simp [core_mk]) <;> (repeat' split) <;> simp [core_mk]

@[simp] theorem setNetKey_core (id : Nat) (k : Option Bytes) (s : State) : (setNetKey id k s).core = s.core := by
  unfold setNetKey
  refine (foldl_core (fun a i => ?_) _ _).trans rfl
  (repeat' split) <;> simp

@[simp] theorem readSafe_core (s : State) : (readSafe s).core = s.core := by
  unfold readSafe
  dsimp only
  (repeat' split) <;> (try simp [core_mk]) <;> (repeat' split) <;> simp [core_mk]

@[simp] theorem noteSlot_core (i : Fin 2) (s : State) : (noteSlot i s).core = s.core := by
  unfold noteSlot
  (repeat' split) <;> simp [core_mk]

@[simp] theorem applySlot_core (s0 : State) : (applySlot s0).core = s0.core := by
  unfold applySlot
  (repeat' split) <;> simp [core_mk]

@[simp] theorem restoreClocks_core (s : State) : (restoreClocks s).core = s.core := by
  unfold restoreClocks
  (repeat' split) <;> simp [core_mk]

@[simp] theorem restoreGraph_core (s : State) : (restoreGraph s).core = s.core := by
  unfold restoreGraph
  (repeat' split) <;> simp [core_mk]

@[simp] theorem restoreGen_core (s0 : State) (g : Nat) : (restoreGen s0 g).core = s0.core := by
  unfold restoreGen
  dsimp only
  (repeat' split) <;> (try simp [core_mk]) <;> (repeat' split) <;> simp [core_mk]

@[simp] theorem restoreMix_core (s : State) : (restoreMix s).core = s.core := by
  unfold restoreMix
  (repeat' split) <;> simp [core_mk]

@[simp] theorem restoreChain_core (pour : Bool) (s : State) (c : Nat) : (restoreChain pour s c).core = s.core := by
  unfold restoreChain
  (repeat' split) <;> simp [core_mk]

@[simp] theorem restoreChains_core (s : State) : (restoreChains s).core = s.core := by
  unfold restoreChains
  (repeat' split) <;> simp [core_mk]

@[simp] theorem restoreOutputs_core (s : State) : (restoreOutputs s).core = s.core := by
  unfold restoreOutputs
  (repeat' split) <;> simp [core_mk]

@[simp] theorem restoreCore_core (s : State) (k : Nat) : (restoreCore s k).core = s.core := by
  unfold restoreCore
  dsimp only
  (repeat' split) <;> (try simp [core_mk]) <;> (repeat' split) <;> simp [core_mk]

@[simp] theorem startRunning_core (s : State) : (startRunning s).core = s.core := by
  unfold startRunning
  (repeat' split) <;> simp [core_mk]

@[simp] theorem dropWaiting_core (s : State) : (dropWaiting s).core = s.core := by
  unfold dropWaiting
  (repeat' split) <;> simp [core_mk]

@[simp] theorem wipeReturned_core (s : State) : (wipeReturned s).core = s.core := by
  unfold wipeReturned
  (repeat' split) <;> simp [core_mk]

@[simp] theorem withTh_core (t : Thermal) (s : State) : (withTh t s).core = s.core := by
  unfold withTh
  (repeat' split) <;> simp [core_mk]

@[simp] theorem stopMarked_core (s : State) : (stopMarked s).core = s.core := by
  unfold stopMarked
  (repeat' split) <;> simp [core_mk]

@[simp] theorem takeTemps_core (t : List Int) (s : State) : (takeTemps t s).core = s.core := by
  unfold takeTemps
  (repeat' split) <;> simp [core_mk]

@[simp] theorem warnNow_core (s : State) : (warnNow s).core = s.core := by
  unfold warnNow
  (repeat' split) <;> simp [core_mk]

@[simp] theorem tripAction_core (s : State) : (tripAction s).core = s.core := by
  unfold tripAction
  (repeat' split) <;> simp [core_mk]

@[simp] theorem tripNow_core (s : State) : (tripNow s).core = s.core := by
  unfold tripNow
  (repeat' split) <;> simp [core_mk]

@[simp] theorem markTrip_core (s : State) : (markTrip s).core = s.core := by
  unfold markTrip
  (repeat' split) <;> simp [core_mk]

@[simp] theorem avsMargin_core (r : AvsRail) (mv : Nat) (slack : Int) (monitor : Fin 16) (s : State) : (avsMargin r mv slack monitor s).core = s.core := by
  unfold avsMargin
  (repeat' split) <;> simp [core_mk]

@[simp] theorem setRail_core (r : AvsRail) (mv : Nat) (slack : Int) (s : State) : (setRail r mv slack s).core = s.core := by
  unfold setRail
  (repeat' split) <;> simp [core_mk]

/-- What a warm reset may do to the core: a lifecycle transition that was due may be dropped, and a mode from HOLD on may have gone
to RESET. -/
def State.Reset (t s : State) : Prop :=
  t.pending = s.pending ∧ t.sysCnt = s.sysCnt ∧ t.life.state = s.life.state ∧
    (t.life.lifeDue = s.life.lifeDue ∨ t.life.lifeDue = none) ∧
    (t.life.mode = s.life.mode ∨ modeUp s.life.mode = true ∧ t.life.mode = .reset)

theorem reset_of_core {t s : State} (h : t.core = s.core) : t.Reset s := by
  simp only [State.core, Prod.mk.injEq] at h
  exact ⟨h.1, h.2.1, h.2.2.1, .inl h.2.2.2.1, .inl h.2.2.2.2⟩

theorem reset_core_trans {a b c : State} (h : a.Reset b) (g : b.core = c.core) : a.Reset c := by
  simp only [State.core, Prod.mk.injEq] at g
  obtain ⟨g1, g2, g3, g4, g5⟩ := g
  simpa only [State.Reset, g1, g2, g3, g4, g5] using h

theorem resettable_mode {s : State} (h : resettable s = true) : modeUp s.life.mode = true ∨ s.life.mode = .start := by
  simp only [resettable, Bool.and_eq_true, Bool.or_eq_true, beq_iff_eq] at h
  exact h.2

/-- A warm reset begins from HOLD on in RESET, and from START in START (R100, R101). -/
theorem warmReset_reset (cause : Nat) (stay holdN thermal : Bool) (s : State) : (warmReset cause stay holdN thermal s).Reset s := by
  unfold warmReset
  split
  · exact reset_of_core rfl
  split
  · rename_i h
    have g := afterReset_core holdN thermal (resetIslands { s with life := { s.life with cause := cause, stayHold := stay } })
    rw [resetIslands] at g
    simp only [State.core, Prod.mk.injEq] at g
    refine ⟨g.1, g.2.1, g.2.2.1, .inr g.2.2.2.1, .inl ?_⟩
    rw [resetIslands, g.2.2.2.2, h]
    split <;> rfl
  · rename_i r m
    have g := beginReset_core cause stay holdN thermal s
    simp only [State.core, Prod.mk.injEq] at g
    refine ⟨g.1, g.2.1, g.2.2.1, .inr g.2.2.2.1, .inr ⟨?_, g.2.2.2.2⟩⟩
    simp only [Bool.not_eq_true', Bool.not_eq_false] at r
    rcases resettable_mode r with q | q
    · exact q
    · exact absurd q m

/-- What the end of a reset's first 2 ms may do to the core: from RESET to START. -/
def State.Settled (t s : State) : Prop :=
  t.pending = s.pending ∧ t.sysCnt = s.sysCnt ∧ t.life.state = s.life.state ∧
    (t.life.lifeDue = s.life.lifeDue ∨ t.life.lifeDue = none) ∧
    (t.life.mode = s.life.mode ∨ s.life.mode = .reset ∧ t.life.mode = .start)

theorem settleReset_settled (s : State) : (settleReset s).Settled s := by
  unfold settleReset
  split
  · rename_i t holdN thermal _
    split
    · rename_i h
      have g := afterReset_core holdN thermal (resetIslands { s with sysCnt := t + 2 * msCounts })
      simp only [State.core, Prod.mk.injEq] at g
      refine ⟨g.1, rfl, g.2.2.1, .inr g.2.2.2.1, ?_⟩
      refine (Classical.em (thermal = false ∧ (resetIslands { s with sysCnt := t + 2 * msCounts }).pads.resetN = true)).elim
        (fun c => .inr ⟨h.1, g.2.2.2.2.trans (if_pos c)⟩) (fun c => .inl (g.2.2.2.2.trans (if_neg c)))
    · exact ⟨rfl, rfl, rfl, .inl rfl, .inl rfl⟩
  · exact ⟨rfl, rfl, rfl, .inl rfl, .inl rfl⟩

theorem resetHot_reset (s : State) : (resetHot s).Reset s := by
  unfold resetHot
  exact reset_core_trans (warmReset_reset _ _ _ _ _) (by simp)

/-- What a frame tick may do to the core (R90): from SERVICE and MAINTENANCE the mode may move among the two and to HOLD, and from
RECOVERY to HOLD. -/
def State.Ticked (t s : State) : Prop :=
  t.pending = s.pending ∧ t.sysCnt = s.sysCnt ∧ t.life.state = s.life.state ∧ t.life.lifeDue = s.life.lifeDue ∧
    (t.life.mode = s.life.mode ∨
      ((s.life.mode = .service ∨ s.life.mode = .maintenance) ∧
        (t.life.mode = .service ∨ t.life.mode = .maintenance ∨ t.life.mode = .hold)) ∨
      (s.life.mode = .recovery ∧ t.life.mode = .hold))

theorem ticked_of_core {t s : State} (h : t.core = s.core) : t.Ticked s := by
  simp only [State.core, Prod.mk.injEq] at h
  exact ⟨h.1, h.2.1, h.2.2.1, h.2.2.2.1, Or.inl h.2.2.2.2⟩

theorem ticked_trans {a b c : State} (h : a.Ticked b) (g : b.Ticked c) : a.Ticked c := by
  obtain ⟨h1, h2, h3, h4, h5⟩ := h
  obtain ⟨g1, g2, g3, g4, g5⟩ := g
  refine ⟨h1.trans g1, h2.trans g2, h3.trans g3, h4.trans g4, ?_⟩
  rcases h5 with h | ⟨h, h'⟩ | ⟨h, h'⟩ <;> rcases g5 with g | ⟨g, g'⟩ | ⟨g, g'⟩ <;> simp_all

/-- A fold whose every step is a tick's. -/
theorem foldl_ticked {α : Type} {g : State → α → State} (hg : ∀ s a, (g s a).Ticked s) (l : List α) (s : State) :
    (l.foldl g s).Ticked s := by
  induction l generalizing s with
  | nil => exact ticked_of_core rfl
  | cons x t ih => rw [List.foldl_cons]; exact ticked_trans (ih _) (hg _ _)

theorem landDevMode_ticked (p : Bytes) (s : State) : (landDevMode p s).Ticked s := by
  unfold landDevMode
  split
  · rename_i h
    have hm : s.life.mode = .service ∨ s.life.mode = .maintenance ∨ (s.life.mode = .recovery ∧ u8 p 0 = 3) := by
      unfold checkDevMode at h
      split at h
      · simp at h
      · split at h <;> simp_all
    have core4 {t : State} {m : Mode} (g : t.core = (s.pending, s.sysCnt, s.life.state, s.life.lifeDue, m))
        (q : m = .hold ∨ (s.life.mode ≠ .recovery ∧ (m = .service ∨ m = .maintenance))) : t.Ticked s := by
      simp only [State.core, Prod.mk.injEq] at g
      refine ⟨g.1, g.2.1, g.2.2.1, g.2.2.2.1, Or.inr ?_⟩
      rw [g.2.2.2.2]
      rcases hm with h | h | h <;> rcases q with q | ⟨q, q' | q'⟩ <;> simp_all
    split
    · exact core4 (enterMode_core _ _) (by right; refine ⟨?_, Or.inr rfl⟩; rcases hm with h | h | h <;> simp_all)
    · split
      · have g := closeExpert_core s
        simp only [State.core, Prod.mk.injEq] at g
        refine core4 (m := .service) ?_ (by right; refine ⟨?_, Or.inl rfl⟩; rcases hm with h | h | h <;> simp_all)
        rw [enterMode_core, g.1, g.2.1, g.2.2.1, g.2.2.2.1]
      · exact core4 (toHold_core _) (Or.inl rfl)
  · exact ticked_of_core rfl

theorem landEffect_ticked (l : Landing) (s : State) : (landEffect l s).Ticked s := by
  unfold landEffect
  dsimp only
  split <;> first
    | exact landDevMode_ticked _ _
    | exact ticked_of_core (by simp)

theorem reply_ticked (c : BitVec 16) (h : Hdr) (st : Status) (p : Bytes) {t s : State} (g : t.Ticked s) :
    (reply c h st p t).Ticked s := ticked_trans (ticked_of_core (reply_core _ _ _ _ _)) g

theorem landCommand_ticked (s : State) (l : Landing) : (landCommand s l).Ticked s := by
  unfold landCommand
  dsimp only
  (repeat' split) <;> first
    | exact reply_ticked _ _ _ _ (landEffect_ticked _ _)
    | exact landEffect_ticked _ _
    | exact ticked_of_core (by simp)

theorem landTimed_ticked (s : State) (l : Landing) : (landTimed s l).Ticked s := by
  unfold landTimed
  dsimp only
  (repeat' split) <;> first
    | exact landCommand_ticked _ _
    | exact ticked_of_core (by simp)

theorem landDeferred_ticked (l : List Landing) (s : State) : (landDeferred l s).Ticked s := by
  induction l generalizing s with
  | nil => exact ticked_of_core rfl
  | cons x t ih =>
    unfold landDeferred
    split
    · exact ticked_trans (ih _) (landCommand_ticked _ _)
    · exact ticked_of_core rfl

theorem landWaiting_ticked (s : State) : (landWaiting s).Ticked s := by
  unfold landWaiting
  exact ticked_trans (ticked_of_core (takeCommit_core _)) (ticked_trans (foldl_ticked landCommand_ticked _ _) (ticked_of_core rfl))

theorem beginTick_ticked (s : State) : (beginTick s).Ticked s := by
  unfold beginTick
  dsimp only
  exact ticked_trans (landDeferred_ticked _ _)
    (ticked_trans (foldl_ticked landTimed_ticked _ _) (ticked_of_core ((rfl : State.core _ = _).trans (nextTick_core s))))

theorem tickAhead_ticked (s : State) : (tickAhead s).Ticked s := by
  unfold tickAhead
  exact ticked_trans (ticked_of_core rfl) (beginTick_ticked s)

theorem frameIn_ticked (i : TickIn) (s : State) : (frameIn i s).Ticked s := by
  have h : (frameIn i s).core = (landWaiting s).core := by
    unfold frameIn
    dsimp only
    rw [feedSinks_core, foldl_core (fun s a => stepHold_core s a)]
    simp
  exact ticked_trans (ticked_of_core h) (landWaiting_ticked _)

theorem lastFrame_ticked (i : TickIn) (s : State) : (lastFrame i s).Ticked s := by
  unfold lastFrame
  exact ticked_trans (ticked_of_core (by simp [core_mk])) (frameIn_ticked i s)

theorem guardSt_core (st s k) (g : (ansState k).core = s.core) : (ansState (guardSt st s k)).core = s.core := by
  unfold guardSt
  split
  · exact g
  · rfl

@[simp] theorem landing_core (op h p check s) : (ansState (landing op h p check s)).core = s.core := by
  unfold landing prepareTimed
  dsimp only
  (repeat' split) <;> rfl

/-- Time passing moves only SYSCNT. -/
theorem advance_pending (dt : Nat) (s : State) : (advance dt s).pending = s.pending := by
  unfold advance
  split <;> rfl

theorem advance_lifeState (dt : Nat) (s : State) : (advance dt s).life.state = s.life.state := by
  unfold advance
  split <;> rfl

theorem advance_due (dt : Nat) (s : State) : (advance dt s).life.lifeDue = s.life.lifeDue := by
  unfold advance
  split <;> rfl

theorem advance_mode (dt : Nat) (s : State) : (advance dt s).life.mode = s.life.mode := by
  unfold advance
  split <;> rfl

theorem advance_sysCnt (dt : Nat) (s : State) :
    (advance dt s).sysCnt = if s.life.crystal then s.sysCnt + dt else s.sysCnt := by
  unfold advance
  split <;> rfl


/-- An opcode keeps the core when its body does. -/
theorem opcode_core (op h p) (body : State → Ans) (s : State) (hb : ∀ s, (ansState (body s)).core = s.core) :
    ∃ t, opcode op h p body s = .next t ∧ t.core = (advance h.dt s).core := by
  unfold opcode
  dsimp only
  (repeat' split) <;> refine ⟨_, rfl, ?_⟩
  · rfl
  · exact serve_core op h p body hb _
  · rename_i s1 e
    have g := admission_core op h p (advance h.dt s)
    rw [e] at g
    exact (serve_core op h p body hb _).trans g
  · rename_i st s1 _ e
    have g := admission_core op h p (advance h.dt s)
    rw [e] at g
    exact (refuseAt_core _ _ _ _).trans g

theorem opcodeN_core (op n h p) (body : State → Ans) (s : State) (hb : ∀ s, (ansState (body s)).core = s.core) :
    ∃ t, opcodeN op n h p body s = .next t ∧ t.core = (advance h.dt s).core := by
  refine opcode_core _ _ _ _ _ (fun s => ?_)
  split
  · exact hb _
  · rfl

/-- An instruction of a Cooper core moves only what the core owns. -/
theorem coopExec_core (k op) (body : Core → CoopRes) (s : State) :
    ∃ t, coopExec k op body s = .next t ∧ t.core = s.core := by
  unfold coopExec
  dsimp only
  (repeat' split) <;> exact ⟨_, rfl, by simp⟩

end Sys2Proof.Machine
end

