-- ==== Sys2Proof/Laws/Packets.lean ====
section
/-! SUPPORT. Every command packet runs through `opcode`, and one of a fixed length through `opcodeN`. -/

namespace Sys2Proof.Machine

open Sys2Proof.Safety

/-- A command packet is an opcode with a body of its own. -/
theorem packet_exec (c : Instr) (op : Op) (h : Hdr) (p : Bytes) (hc : packetOf c = some (op, h, p)) :
    ∃ body, ∀ s, exec c s = opcode op h p body s := by
  unfold packetOf at hc
  split at hc <;> cases hc
  · exact ⟨_, fun s => by show execNop _ _ s = _; unfold execNop; rfl⟩
  · exact ⟨_, fun s => by show execDevInfo _ _ s = _; unfold execDevInfo opcodeN; rfl⟩
  · exact ⟨_, fun s => by show execDevState _ _ s = _; unfold execDevState opcodeN; rfl⟩
  · exact ⟨_, fun s => by show execDevRun _ _ s = _; unfold execDevRun opcodeN; rfl⟩
  · exact ⟨_, fun s => by show execDevMode _ _ s = _; unfold execDevMode opcodeN; rfl⟩
  · exact ⟨_, fun s => by show execDevReset _ _ s = _; unfold execDevReset opcodeN; rfl⟩
  · exact ⟨_, fun s => by show execBoardDescribe _ _ s = _; unfold execBoardDescribe opcodeN; rfl⟩
  · exact ⟨_, fun s => by show execTimeRead _ _ s = _; unfold execTimeRead opcodeN; rfl⟩
  · exact ⟨_, fun s => by show execEventMask _ _ s = _; unfold execEventMask opcodeN; rfl⟩
  · exact ⟨_, fun s => by show execVintCommit _ _ s = _; unfold execVintCommit opcodeN; rfl⟩
  · exact ⟨_, fun s => by show execVintStatus _ _ s = _; unfold execVintStatus opcodeN; rfl⟩
  · exact ⟨_, fun s => by show execVintPolicy _ _ s = _; unfold execVintPolicy opcodeN; rfl⟩
  · exact ⟨_, fun s => by show execVintClear _ _ s = _; unfold execVintClear opcodeN; rfl⟩
  · exact ⟨_, fun s => by show execLifeState _ _ s = _; unfold execLifeState opcodeN; rfl⟩
  · exact ⟨_, fun s => by show execLifeAdvance _ _ s = _; unfold execLifeAdvance opcodeN; rfl⟩
  · exact ⟨_, fun s => by show execFwBegin _ _ s = _; unfold execFwBegin opcodeN; rfl⟩
  · exact ⟨_, fun s => by show execFwData _ _ s = _; unfold execFwData; rfl⟩
  · exact ⟨_, fun s => by show execFwEnd _ _ s = _; unfold execFwEnd opcodeN; rfl⟩
  · exact ⟨_, fun s => by show execFwSelect _ _ s = _; unfold execFwSelect opcodeN; rfl⟩
  · exact ⟨_, fun s => by show execKeyInstall _ _ s = _; unfold execKeyInstall; rfl⟩
  · exact ⟨_, fun s => by show execGraphStage _ _ s = _; unfold execGraphStage; rfl⟩
  · exact ⟨_, fun s => by show execGraphCommit _ _ s = _; unfold execGraphCommit; rfl⟩
  · exact ⟨_, fun s => by show execGraphAbort _ _ s = _; unfold execGraphAbort opcodeN; rfl⟩
  · exact ⟨_, fun s => by show execGraphQuery _ _ s = _; unfold execGraphQuery opcodeN; rfl⟩
  · exact ⟨_, fun s => by show execRouteSet _ _ s = _; unfold execRouteSet; rfl⟩
  · exact ⟨_, fun s => by show execLatencyQuery _ _ s = _; unfold execLatencyQuery opcodeN; rfl⟩
  · exact ⟨_, fun s => by show execGainSet _ _ s = _; unfold execGainSet; rfl⟩
  · exact ⟨_, fun s => by show execMuteSet _ _ s = _; unfold execMuteSet; rfl⟩
  · exact ⟨_, fun s => by show execRampDefaults _ _ s = _; unfold execRampDefaults opcodeN; rfl⟩
  · exact ⟨_, fun s => by show execSinkSet _ _ s = _; unfold execSinkSet; rfl⟩
  · exact ⟨_, fun s => by show execGenSet _ _ s = _; unfold execGenSet; rfl⟩
  · exact ⟨_, fun s => by show execOverride _ _ s = _; unfold execOverride; rfl⟩
  · exact ⟨_, fun s => by show execOverrideConfig _ _ s = _; unfold execOverrideConfig; rfl⟩
  · exact ⟨_, fun s => by show execMeterRead _ _ s = _; unfold execMeterRead; rfl⟩
  · exact ⟨_, fun s => by show execInputSet _ _ s = _; unfold execInputSet; rfl⟩
  · exact ⟨_, fun s => by show execInputStatus _ _ s = _; unfold execInputStatus opcodeN; rfl⟩
  · exact ⟨_, fun s => by show execTasterConfig _ _ s = _; unfold execTasterConfig opcodeN; rfl⟩
  · exact ⟨_, fun s => by show execTasterRun _ _ s = _; unfold execTasterRun opcodeN; rfl⟩
  · exact ⟨_, fun s => by show execTasterSubstitute _ _ s = _; unfold execTasterSubstitute opcodeN; rfl⟩
  · exact ⟨_, fun s => by show execInputExpert _ _ s = _; unfold execInputExpert opcodeN; rfl⟩
  · exact ⟨_, fun s => by show execOutputSet _ _ s = _; unfold execOutputSet; rfl⟩
  · exact ⟨_, fun s => by show execOutputStatus _ _ s = _; unfold execOutputStatus opcodeN; rfl⟩
  · exact ⟨_, fun s => by show execHoldSet _ _ s = _; unfold execHoldSet; rfl⟩
  · exact ⟨_, fun s => by show execHoldSafeSet _ _ s = _; unfold execHoldSafeSet opcodeN; rfl⟩
  · exact ⟨_, fun s => by show execSpeakerSet _ _ s = _; unfold execSpeakerSet; rfl⟩
  · exact ⟨_, fun s => by show execClearConfig _ _ s = _; unfold execClearConfig; rfl⟩
  · exact ⟨_, fun s => by show execOutputExpert _ _ s = _; unfold execOutputExpert opcodeN; rfl⟩
  · exact ⟨_, fun s => by show execFiltConfig _ _ s = _; unfold execFiltConfig; rfl⟩
  · exact ⟨_, fun s => by show execFiltCoefLoad _ _ s = _; unfold execFiltCoefLoad; rfl⟩
  · exact ⟨_, fun s => by show execFiltRun _ _ s = _; unfold execFiltRun; rfl⟩
  · exact ⟨_, fun s => by show execFiltSync _ _ s = _; unfold execFiltSync; rfl⟩
  · exact ⟨_, fun s => by show execFiltPhase _ _ s = _; unfold execFiltPhase opcodeN; rfl⟩
  · exact ⟨_, fun s => by show execFiltStatus _ _ s = _; unfold execFiltStatus opcodeN; rfl⟩
  · exact ⟨_, fun s => by show execFiltExpert _ _ s = _; unfold execFiltExpert opcodeN; rfl⟩
  · exact ⟨_, fun s => by show execTdmSet _ _ s = _; unfold execTdmSet opcodeN; rfl⟩
  · exact ⟨_, fun s => by show execAesSet _ _ s = _; unfold execAesSet opcodeN; rfl⟩
  · exact ⟨_, fun s => by show execPortStart _ _ s = _; unfold execPortStart; rfl⟩
  · exact ⟨_, fun s => by show execPortStop _ _ s = _; unfold execPortStop; rfl⟩
  · exact ⟨_, fun s => by show execPortStatus _ _ s = _; unfold execPortStatus opcodeN; rfl⟩
  · exact ⟨_, fun s => by show execPortStamp _ _ s = _; unfold execPortStamp opcodeN; rfl⟩
  · exact ⟨_, fun s => by show execAesCsSet _ _ s = _; unfold execAesCsSet; rfl⟩
  · exact ⟨_, fun s => by show execAesCsRead _ _ s = _; unfold execAesCsRead opcodeN; rfl⟩
  · exact ⟨_, fun s => by show execClockRefs _ _ s = _; unfold execClockRefs opcodeN; rfl⟩
  · exact ⟨_, fun s => by show execClockStatus _ _ s = _; unfold execClockStatus opcodeN; rfl⟩
  · exact ⟨_, fun s => by show execPtpSet _ _ s = _; unfold execPtpSet opcodeN; rfl⟩
  · exact ⟨_, fun s => by show execWclkSet _ _ s = _; unfold execWclkSet opcodeN; rfl⟩
  · exact ⟨_, fun s => by show execFsSet _ _ s = _; unfold execFsSet opcodeN; rfl⟩
  · exact ⟨_, fun s => by show execDecantSet _ _ s = _; unfold execDecantSet opcodeN; rfl⟩
  · exact ⟨_, fun s => by show execAlignGroupSet _ _ s = _; unfold execAlignGroupSet opcodeN; rfl⟩
  · exact ⟨_, fun s => by show execClockExpert _ _ s = _; unfold execClockExpert opcodeN; rfl⟩
  · exact ⟨_, fun s => by show execNetSet _ _ s = _; unfold execNetSet opcodeN; rfl⟩
  · exact ⟨_, fun s => by show execStreamRxSet _ _ s = _; unfold execStreamRxSet opcodeN; rfl⟩
  · exact ⟨_, fun s => by show execStreamTxSet _ _ s = _; unfold execStreamTxSet opcodeN; rfl⟩
  · exact ⟨_, fun s => by show execStreamEnable _ _ s = _; unfold execStreamEnable; rfl⟩
  · exact ⟨_, fun s => by show execStreamStatus _ _ s = _; unfold execStreamStatus opcodeN; rfl⟩
  · exact ⟨_, fun s => by show execNetStatus _ _ s = _; unfold execNetStatus opcodeN; rfl⟩
  · exact ⟨_, fun s => by show execNetAuthSet _ _ s = _; unfold execNetAuthSet opcodeN; rfl⟩
  · exact ⟨_, fun s => by show execHsSet _ _ s = _; unfold execHsSet; rfl⟩
  · exact ⟨_, fun s => by show execHsStatus _ _ s = _; unfold execHsStatus opcodeN; rfl⟩
  · exact ⟨_, fun s => by show execHsEvents _ _ s = _; unfold execHsEvents opcodeN; rfl⟩
  · exact ⟨_, fun s => by show execHsExpert _ _ s = _; unfold execHsExpert opcodeN; rfl⟩
  · exact ⟨_, fun s => by show execCoopLoad _ _ s = _; unfold execCoopLoad; rfl⟩
  · exact ⟨_, fun s => by show execCoopStart _ _ s = _; unfold execCoopStart; rfl⟩
  · exact ⟨_, fun s => by show execCoopStop _ _ s = _; unfold execCoopStop; rfl⟩
  · exact ⟨_, fun s => by show execCoopStatus _ _ s = _; unfold execCoopStatus opcodeN; rfl⟩
  · exact ⟨_, fun s => by show execCoopParam _ _ s = _; unfold execCoopParam; rfl⟩
  · exact ⟨_, fun s => by show execCoopDebug _ _ s = _; unfold execCoopDebug opcodeN; rfl⟩
  · exact ⟨_, fun s => by show execFaultRead _ _ s = _; unfold execFaultRead opcodeN; rfl⟩
  · exact ⟨_, fun s => by show execFaultAck _ _ s = _; unfold execFaultAck; rfl⟩
  · exact ⟨_, fun s => by show execPowerStatus _ _ s = _; unfold execPowerStatus opcodeN; rfl⟩
  · exact ⟨_, fun s => by show execPowerPolicy _ _ s = _; unfold execPowerPolicy opcodeN; rfl⟩
  · exact ⟨_, fun s => by show execThermalStatus _ _ s = _; unfold execThermalStatus opcodeN; rfl⟩
  · exact ⟨_, fun s => by show execExpertOpen _ _ s = _; unfold execExpertOpen opcodeN; rfl⟩
  · exact ⟨_, fun s => by show execExpertClose _ _ s = _; unfold execExpertClose opcodeN; rfl⟩
  · exact ⟨_, fun s => by show execRegRead _ _ s = _; unfold execRegRead opcodeN; rfl⟩
  · exact ⟨_, fun s => by show execRegWrite _ _ s = _; unfold execRegWrite; rfl⟩
  · exact ⟨_, fun s => by show execTestLoop _ _ s = _; unfold execTestLoop; rfl⟩
  · exact ⟨_, fun s => by show execTestSelf _ _ s = _; unfold execTestSelf opcodeN; rfl⟩
  · exact ⟨_, fun s => by show execGovTest _ _ s = _; unfold execGovTest execRegWrite; rfl⟩
  · exact ⟨_, fun s => by show execPathForce _ _ _ s = _; unfold execPathForce execRegWrite; rfl⟩
  · exact ⟨_, fun s => by show execClampTest _ _ _ s = _; unfold execClampTest execRegWrite; rfl⟩
  · exact ⟨_, fun s => by show execTrackFreeze _ _ _ s = _; unfold execTrackFreeze execRegWrite; rfl⟩
  · exact ⟨_, fun s => by show execForceType _ _ _ s = _; unfold execForceType execRegWrite; rfl⟩
  · exact ⟨_, fun s => by show execLoopback _ _ _ s = _; unfold execLoopback execRegWrite; rfl⟩
  · exact ⟨_, fun s => by show execPhyLoop _ _ _ s = _; unfold execPhyLoop execRegWrite; rfl⟩
  · exact ⟨_, fun s => by show execBreakpointSet _ _ _ _ s = _; unfold execBreakpointSet execRegWrite; rfl⟩
  · exact ⟨_, fun s => by show execCoopRegisterWrite _ _ _ _ s = _; unfold execCoopRegisterWrite execRegWrite; rfl⟩
  · exact ⟨_, fun s => by show execInjectCode _ _ s = _; unfold execInjectCode execRegWrite; rfl⟩

/-- A command packet whose opcode has one payload length is refused on any other before its body runs (R538). -/
theorem packet_length (c : Instr) (op : Op) (h : Hdr) (p : Bytes) (n : Nat) (hc : packetOf c = some (op, h, p))
    (hn : payloadLen op = some n) : ∃ body, ∀ s, exec c s = opcodeN op n h p body s := by
  unfold packetOf at hc
  split at hc <;> cases hc <;> cases hn
  · exact ⟨_, fun s => by show execDevInfo _ _ s = _; unfold execDevInfo; rfl⟩
  · exact ⟨_, fun s => by show execDevState _ _ s = _; unfold execDevState; rfl⟩
  · exact ⟨_, fun s => by show execDevRun _ _ s = _; unfold execDevRun; rfl⟩
  · exact ⟨_, fun s => by show execDevMode _ _ s = _; unfold execDevMode; rfl⟩
  · exact ⟨_, fun s => by show execDevReset _ _ s = _; unfold execDevReset; rfl⟩
  · exact ⟨_, fun s => by show execBoardDescribe _ _ s = _; unfold execBoardDescribe; rfl⟩
  · exact ⟨_, fun s => by show execTimeRead _ _ s = _; unfold execTimeRead; rfl⟩
  · exact ⟨_, fun s => by show execEventMask _ _ s = _; unfold execEventMask; rfl⟩
  · exact ⟨_, fun s => by show execVintCommit _ _ s = _; unfold execVintCommit; rfl⟩
  · exact ⟨_, fun s => by show execVintStatus _ _ s = _; unfold execVintStatus; rfl⟩
  · exact ⟨_, fun s => by show execVintPolicy _ _ s = _; unfold execVintPolicy; rfl⟩
  · exact ⟨_, fun s => by show execVintClear _ _ s = _; unfold execVintClear; rfl⟩
  · exact ⟨_, fun s => by show execLifeState _ _ s = _; unfold execLifeState; rfl⟩
  · exact ⟨_, fun s => by show execLifeAdvance _ _ s = _; unfold execLifeAdvance; rfl⟩
  · exact ⟨_, fun s => by show execFwBegin _ _ s = _; unfold execFwBegin; rfl⟩
  · exact ⟨_, fun s => by show execFwEnd _ _ s = _; unfold execFwEnd; rfl⟩
  · exact ⟨_, fun s => by show execFwSelect _ _ s = _; unfold execFwSelect; rfl⟩
  · exact ⟨_, fun s => by show execGraphAbort _ _ s = _; unfold execGraphAbort; rfl⟩
  · exact ⟨_, fun s => by show execGraphQuery _ _ s = _; unfold execGraphQuery; rfl⟩
  · exact ⟨_, fun s => by show execLatencyQuery _ _ s = _; unfold execLatencyQuery; rfl⟩
  · exact ⟨_, fun s => by show execRampDefaults _ _ s = _; unfold execRampDefaults; rfl⟩
  · exact ⟨_, fun s => by show execInputStatus _ _ s = _; unfold execInputStatus; rfl⟩
  · exact ⟨_, fun s => by show execTasterConfig _ _ s = _; unfold execTasterConfig; rfl⟩
  · exact ⟨_, fun s => by show execTasterRun _ _ s = _; unfold execTasterRun; rfl⟩
  · exact ⟨_, fun s => by show execTasterSubstitute _ _ s = _; unfold execTasterSubstitute; rfl⟩
  · exact ⟨_, fun s => by show execInputExpert _ _ s = _; unfold execInputExpert; rfl⟩
  · exact ⟨_, fun s => by show execOutputStatus _ _ s = _; unfold execOutputStatus; rfl⟩
  · exact ⟨_, fun s => by show execHoldSafeSet _ _ s = _; unfold execHoldSafeSet; rfl⟩
  · exact ⟨_, fun s => by show execOutputExpert _ _ s = _; unfold execOutputExpert; rfl⟩
  · exact ⟨_, fun s => by show execFiltPhase _ _ s = _; unfold execFiltPhase; rfl⟩
  · exact ⟨_, fun s => by show execFiltStatus _ _ s = _; unfold execFiltStatus; rfl⟩
  · exact ⟨_, fun s => by show execFiltExpert _ _ s = _; unfold execFiltExpert; rfl⟩
  · exact ⟨_, fun s => by show execTdmSet _ _ s = _; unfold execTdmSet; rfl⟩
  · exact ⟨_, fun s => by show execAesSet _ _ s = _; unfold execAesSet; rfl⟩
  · exact ⟨_, fun s => by show execPortStatus _ _ s = _; unfold execPortStatus; rfl⟩
  · exact ⟨_, fun s => by show execPortStamp _ _ s = _; unfold execPortStamp; rfl⟩
  · exact ⟨_, fun s => by show execAesCsRead _ _ s = _; unfold execAesCsRead; rfl⟩
  · exact ⟨_, fun s => by show execClockRefs _ _ s = _; unfold execClockRefs; rfl⟩
  · exact ⟨_, fun s => by show execClockStatus _ _ s = _; unfold execClockStatus; rfl⟩
  · exact ⟨_, fun s => by show execPtpSet _ _ s = _; unfold execPtpSet; rfl⟩
  · exact ⟨_, fun s => by show execWclkSet _ _ s = _; unfold execWclkSet; rfl⟩
  · exact ⟨_, fun s => by show execFsSet _ _ s = _; unfold execFsSet; rfl⟩
  · exact ⟨_, fun s => by show execDecantSet _ _ s = _; unfold execDecantSet; rfl⟩
  · exact ⟨_, fun s => by show execAlignGroupSet _ _ s = _; unfold execAlignGroupSet; rfl⟩
  · exact ⟨_, fun s => by show execClockExpert _ _ s = _; unfold execClockExpert; rfl⟩
  · exact ⟨_, fun s => by show execNetSet _ _ s = _; unfold execNetSet; rfl⟩
  · exact ⟨_, fun s => by show execStreamRxSet _ _ s = _; unfold execStreamRxSet; rfl⟩
  · exact ⟨_, fun s => by show execStreamTxSet _ _ s = _; unfold execStreamTxSet; rfl⟩
  · exact ⟨_, fun s => by show execStreamStatus _ _ s = _; unfold execStreamStatus; rfl⟩
  · exact ⟨_, fun s => by show execNetStatus _ _ s = _; unfold execNetStatus; rfl⟩
  · exact ⟨_, fun s => by show execNetAuthSet _ _ s = _; unfold execNetAuthSet; rfl⟩
  · exact ⟨_, fun s => by show execHsStatus _ _ s = _; unfold execHsStatus; rfl⟩
  · exact ⟨_, fun s => by show execHsEvents _ _ s = _; unfold execHsEvents; rfl⟩
  · exact ⟨_, fun s => by show execHsExpert _ _ s = _; unfold execHsExpert; rfl⟩
  · exact ⟨_, fun s => by show execCoopStatus _ _ s = _; unfold execCoopStatus; rfl⟩
  · exact ⟨_, fun s => by show execCoopDebug _ _ s = _; unfold execCoopDebug; rfl⟩
  · exact ⟨_, fun s => by show execFaultRead _ _ s = _; unfold execFaultRead; rfl⟩
  · exact ⟨_, fun s => by show execPowerStatus _ _ s = _; unfold execPowerStatus; rfl⟩
  · exact ⟨_, fun s => by show execPowerPolicy _ _ s = _; unfold execPowerPolicy; rfl⟩
  · exact ⟨_, fun s => by show execThermalStatus _ _ s = _; unfold execThermalStatus; rfl⟩
  · exact ⟨_, fun s => by show execExpertOpen _ _ s = _; unfold execExpertOpen; rfl⟩
  · exact ⟨_, fun s => by show execExpertClose _ _ s = _; unfold execExpertClose; rfl⟩
  · exact ⟨_, fun s => by show execRegRead _ _ s = _; unfold execRegRead; rfl⟩
  · exact ⟨_, fun s => by show execTestSelf _ _ s = _; unfold execTestSelf; rfl⟩

end Sys2Proof.Machine
end

