-- ==== Sys2Proof/Laws/Sound.lean ====
section
/-! SUPPORT. What one frame of a filter chain moves, and what the limiter's applied gain is: the lowest of the release and the lines
to the required gains of its window. -/

namespace Sys2Proof.Machine

@[simp] theorem stampChain_state (s x) : (stampChain s x).state = x.state := by unfold stampChain; split <;> rfl
@[simp] theorem stampChain_left (s x) : (stampChain s x).left = x.left := by unfold stampChain; split <;> rfl
@[simp] theorem stampChain_w (s x) : (stampChain s x).w = x.w := by unfold stampChain; split <;> rfl
@[simp] theorem stampChain_back (s x) : (stampChain s x).back = x.back := by unfold stampChain; split <;> rfl
@[simp] theorem stampChain_due (s x) : (stampChain s x).stampDue = false := by unfold stampChain; split <;> simp_all
@[simp] theorem stepHpf_state (x) : (stepHpf x).state = x.state := by unfold stepHpf; (repeat' split) <;> rfl
@[simp] theorem stepHpf_left (x) : (stepHpf x).left = x.left := by unfold stepHpf; (repeat' split) <;> rfl
@[simp] theorem stepHpf_w (x) : (stepHpf x).w = x.w := by unfold stepHpf; (repeat' split) <;> rfl
@[simp] theorem stepHpf_back (x) : (stepHpf x).back = x.back := by unfold stepHpf; (repeat' split) <;> rfl
@[simp] theorem stepHpf_due (x) : (stepHpf x).stampDue = x.stampDue := by unfold stepHpf; (repeat' split) <;> rfl

/-- The lowest of a first value and the lines of a list: below each, and one of them. -/
theorem limGain_le (last : Int) (need : Nat → Int) (l : List Nat) (r : Int) :
    let g := l.foldl (fun g j => min g (last + (need j - last) / ((j : Int) + 1))) r
    g ≤ r ∧ (∀ j ∈ l, g ≤ last + (need j - last) / ((j : Int) + 1)) ∧
      (g = r ∨ ∃ j ∈ l, g = last + (need j - last) / ((j : Int) + 1)) := by
  induction l generalizing r with
  | nil => simp
  | cons a t ih =>
    simp only [List.foldl_cons]
    obtain ⟨h1, h2, h3⟩ := ih (min r (last + (need a - last) / ((a : Int) + 1)))
    refine ⟨by omega, ?_, ?_⟩
    · intro j hj
      rcases List.mem_cons.mp hj with h | h
      · subst h; omega
      · exact h2 j h
    · rcases h3 with h | ⟨j, hj, h⟩
      · by_cases hc : r ≤ last + (need a - last) / ((a : Int) + 1)
        · left; omega
        · right; exact ⟨a, List.mem_cons_self, by omega⟩
      · right; exact ⟨j, List.mem_cons_of_mem _ hj, h⟩

end Sys2Proof.Machine
end

