-- ==== Sys2Proof/Laws/Tab.lean ====
section
/-! SUPPORT. Sparse tables: a write is read back, leaves every other key alone and keeps the canonical form; and with that,
each operation over a Cooper core's memories. -/

namespace Sys2Proof

theorem tabRising_mono {α : Type} {a b : Nat} (h : a ≤ b) {t : Tab α} (r : tabRising b t = true) : tabRising a t = true := by
  cases t with
  | nil => rfl
  | cons e t =>
    simp only [tabRising, Bool.and_eq_true, decide_eq_true_eq] at r ⊢
    exact ⟨Nat.le_trans h r.1, r.2⟩

/-- Below the first listed key a table reads as its default. -/
theorem tget_below {α : Type} (d : α) {lo k : Nat} (h : k < lo) {t : Tab α} (r : tabRising lo t = true) : tget d t k = d := by
  cases t with
  | nil => rfl
  | cons e t =>
    simp only [tabRising, Bool.and_eq_true, decide_eq_true_eq] at r
    have h1 : e.1 ≠ k := by omega
    have h2 : k < e.1 := by omega
    simp [tget, h1, h2]

@[simp] theorem tget_nil {α : Type} (d : α) (k : Nat) : tget d [] k = d := rfl

theorem tget_tset_same_from {α : Type} [DecidableEq α] (d : α) (k : Nat) (v : α) (lo : Nat) (t : Tab α)
    (r : tabRising lo t = true) : tget d (tset d t k v) k = v := by
  induction t generalizing lo with
  | nil =>
    unfold tset
    split <;> simp_all [tget]
  | cons e t ih =>
    obtain ⟨j, w⟩ := e
    simp only [tabRising, Bool.and_eq_true, decide_eq_true_eq] at r
    unfold tset
    split
    · rename_i h
      split
      · rename_i hv
        subst hv
        have h1 : j ≠ k := by omega
        simp [tget, h1, h]
      · simp [tget]
    · split
      · rename_i h hk
        subst hk
        split
        · rename_i hv
          subst hv
          exact tget_below _ (Nat.lt_succ_self _) r.2
        · simp [tget]
      · rename_i h hk
        have h1 : j ≠ k := fun e => hk e.symm
        simp only [tget, h1, h, if_false]
        exact ih _ r.2

theorem tget_tset_ne_from {α : Type} [DecidableEq α] (d : α) {k i : Nat} (h : i ≠ k) (v : α) (lo : Nat) (t : Tab α)
    (r : tabRising lo t = true) : tget d (tset d t k v) i = tget d t i := by
  induction t generalizing lo with
  | nil =>
    have h1 : k ≠ i := fun e => h e.symm
    unfold tset
    split <;> simp [tget, h1]
  | cons e t ih =>
    obtain ⟨j, w⟩ := e
    simp only [tabRising, Bool.and_eq_true, decide_eq_true_eq] at r
    have h1 : k ≠ i := fun e => h e.symm
    unfold tset
    split
    · rename_i hk
      split
      · rfl
      · by_cases hi : i < k
        · have h2 : j ≠ i := by omega
          have h3 : i < j := by omega
          simp [tget, h1, hi, h2, h3]
        · simp [tget, h1, hi]
    · split
      · rename_i hk hj
        subst hj
        split
        · by_cases hi : i < k
          · simp only [tget, h1, hi, if_true, if_false]
            exact tget_below _ (Nat.lt_succ_of_lt hi) r.2
          · simp [tget, h1, hi]
        · simp [tget, h1]
      · simp only [tget]
        split
        · rfl
        · split
          · rfl
          · exact ih _ r.2

theorem tset_rising {α : Type} [DecidableEq α] (d : α) (k : Nat) (v : α) (lo : Nat) (h : lo ≤ k) (t : Tab α)
    (r : tabRising lo t = true) : tabRising lo (tset d t k v) = true := by
  induction t generalizing lo with
  | nil =>
    unfold tset
    split <;> simp [tabRising, h]
  | cons e t ih =>
    obtain ⟨j, w⟩ := e
    have r0 := r
    simp only [tabRising, Bool.and_eq_true, decide_eq_true_eq] at r
    unfold tset
    split
    · rename_i hk
      split
      · exact r0
      · have : k + 1 ≤ j := hk
        simp [tabRising, h, r.2, this]
    · split
      · rename_i hk hj
        subst hj
        split
        · exact tabRising_mono (by omega) r.2
        · simp [tabRising, h, r.2]
      · rename_i hk hj
        have : j + 1 ≤ k := by omega
        simp [tabRising, r.1, ih _ this r.2]

theorem tset_listed {α : Type} [DecidableEq α] (d : α) (k : Nat) (v : α) (t : Tab α)
    (r : t.all (fun e => decide (e.2 ≠ d)) = true) : (tset d t k v).all (fun e => decide (e.2 ≠ d)) = true := by
  induction t with
  | nil =>
    unfold tset
    split <;> simp_all
  | cons e t ih =>
    obtain ⟨j, w⟩ := e
    simp only [List.all_cons, Bool.and_eq_true, decide_eq_true_eq] at r
    unfold tset
    split
    · split
      · simp only [List.all_cons, Bool.and_eq_true, decide_eq_true_eq]; exact r
      · rename_i hv
        simp only [List.all_cons, Bool.and_eq_true, decide_eq_true_eq]; exact ⟨hv, r⟩
    · split
      · split
        · exact r.2
        · rename_i hv
          simp only [List.all_cons, Bool.and_eq_true, decide_eq_true_eq]; exact ⟨hv, r.2⟩
      · simp only [List.all_cons, Bool.and_eq_true, decide_eq_true_eq]
        exact ⟨r.1, ih r.2⟩

/-- A write keeps the canonical form. -/
theorem tset_wf {α : Type} [DecidableEq α] (d : α) (t : Tab α) (k : Nat) (v : α) (h : tabWf d t = true) :
    tabWf d (tset d t k v) = true := by
  simp only [tabWf, Bool.and_eq_true] at h ⊢
  exact ⟨tset_rising d k v 0 (Nat.zero_le k) t h.1, tset_listed d k v t h.2⟩

/-- A read of the key just written gives the value written. -/
theorem tget_tset_same {α : Type} [DecidableEq α] (d : α) (t : Tab α) (k : Nat) (v : α) (h : tabWf d t = true) :
    tget d (tset d t k v) k = v := by
  simp only [tabWf, Bool.and_eq_true] at h
  exact tget_tset_same_from d k v 0 t h.1

/-- A write leaves every other key alone. -/
theorem tget_tset_ne {α : Type} [DecidableEq α] (d : α) (t : Tab α) {k i : Nat} (n : i ≠ k) (v : α) (h : tabWf d t = true) :
    tget d (tset d t k v) i = tget d t i := by
  simp only [tabWf, Bool.and_eq_true] at h
  exact tget_tset_ne_from d n v 0 t h.1

theorem tabWf_nil {α : Type} [DecidableEq α] (d : α) : tabWf d ([] : Tab α) = true := rfl

end Sys2Proof

namespace Sys2Proof.Machine

/-- A fold of writes keeps the canonical form. -/
theorem foldl_tset_wf {α β : Type} [DecidableEq α] (d : α) (k : β → Nat) (v : Tab α → β → α) (l : List β) (t : Tab α)
    (h : tabWf d t = true) : tabWf d (l.foldl (fun a b => tset d a (k b) (v a b)) t) = true := by
  induction l generalizing t with
  | nil => exact h
  | cons b l ih => exact ih _ (tset_wf d t _ _ h)

/-- A copy between memories keeps the destination's canonical form (R494). -/
theorem copyWords_wf (src : Tab Word) (i : Nat) (dst : Tab Word) (j n : Nat) (h : tabWf (0 : Word) dst = true) :
    tabWf (0 : Word) (copyWords src i dst j n) = true :=
  foldl_tset_wf (0 : Word) (fun m => j + m) (fun _ m => tget 0 src (i + m)) (List.range n) dst h

theorem wordTab_rising (i : Nat) (l : List Word) : tabRising i (wordTab i l) = true := by
  induction l generalizing i with
  | nil => rfl
  | cons w t ih =>
    unfold wordTab
    split
    · exact tabRising_mono (Nat.le_succ i) (ih _)
    · simp [tabRising, ih]

theorem wordTab_listed (i : Nat) (l : List Word) : (wordTab i l).all (fun e => decide (e.2 ≠ (0 : Word))) = true := by
  induction l generalizing i with
  | nil => rfl
  | cons w t ih =>
    unfold wordTab
    split
    · exact ih _
    · rename_i h
      simp only [List.all_cons, Bool.and_eq_true, decide_eq_true_eq]
      exact ⟨h, ih _⟩

/-- What an image or an initialisation fills a memory with is in canonical form. -/
theorem wordTab_wf (l : List Word) : tabWf (0 : Word) (wordTab 0 l) = true := by
  simp only [tabWf, Bool.and_eq_true]
  exact ⟨wordTab_rising 0 l, wordTab_listed 0 l⟩

/-- The shadow's words over the values in force keep the canonical form (R464). -/
theorem mergeParams_wf (p : Tab Word) (sh : Tab (Option Word)) (h : tabWf (0 : Word) p = true) :
    tabWf (0 : Word) (mergeParams p sh) = true := by
  unfold mergeParams
  induction sh generalizing p with
  | nil => exact h
  | cons e t ih =>
    rw [List.foldl_cons]
    apply ih
    split
    · exact tset_wf _ _ _ _ h
    · exact h

end Sys2Proof.Machine
end

