-- ==== Sys2Proof/Laws/State.lean ====
section
/-! SUPPORT. One lemma per field of State for each named update of a part of the machine: the field it writes, and every other field as it was. Then
what reading a part gives after that part, or another, was written. -/

namespace Sys2Proof.Machine

/-! ### The state of a Cooper core and its settings. -/

@[simp] theorem setCore_pending (k : Nat) (c : Core) (s : State) : (setCore k c s).pending = s.pending := rfl
@[simp] theorem setCore_sysCnt (k : Nat) (c : Core) (s : State) : (setCore k c s).sysCnt = s.sysCnt := rfl
@[simp] theorem setCore_seed (k : Nat) (c : Core) (s : State) : (setCore k c s).seed = s.seed := rfl
@[simp] theorem setCore_pads (k : Nat) (c : Core) (s : State) : (setCore k c s).pads = s.pads := rfl
@[simp] theorem setCore_cfg (k : Nat) (c : Core) (s : State) : (setCore k c s).cfg = s.cfg := rfl
@[simp] theorem setCore_pwr (k : Nat) (c : Core) (s : State) : (setCore k c s).pwr = s.pwr := rfl
@[simp] theorem setCore_life (k : Nat) (c : Core) (s : State) : (setCore k c s).life = s.life := rfl
@[simp] theorem setCore_vint (k : Nat) (c : Core) (s : State) : (setCore k c s).vint = s.vint := rfl
@[simp] theorem setCore_cmd (k : Nat) (c : Core) (s : State) : (setCore k c s).cmd = s.cmd := rfl
@[simp] theorem setCore_flt (k : Nat) (c : Core) (s : State) : (setCore k c s).flt = s.flt := rfl
@[simp] theorem setCore_clk (k : Nat) (c : Core) (s : State) : (setCore k c s).clk = s.clk := rfl
@[simp] theorem setCore_inp (k : Nat) (c : Core) (s : State) : (setCore k c s).inp = s.inp := rfl
@[simp] theorem setCore_filt (k : Nat) (c : Core) (s : State) : (setCore k c s).filt = s.filt := rfl
@[simp] theorem setCore_outp (k : Nat) (c : Core) (s : State) : (setCore k c s).outp = s.outp := rfl
@[simp] theorem setCore_hs (k : Nat) (c : Core) (s : State) : (setCore k c s).hs = s.hs := rfl
@[simp] theorem setCore_port (k : Nat) (c : Core) (s : State) : (setCore k c s).port = s.port := rfl
@[simp] theorem setCore_net (k : Nat) (c : Core) (s : State) : (setCore k c s).net = s.net := rfl
@[simp] theorem setCore_gr (k : Nat) (c : Core) (s : State) : (setCore k c s).gr = s.gr := rfl
@[simp] theorem setCore_mix (k : Nat) (c : Core) (s : State) : (setCore k c s).mix = s.mix := rfl
@[simp] theorem setCore_coop (k : Nat) (c : Core) (s : State) : (setCore k c s).coop = tset {} s.coop k c := rfl
@[simp] theorem setCore_latch (k : Nat) (c : Core) (s : State) : (setCore k c s).latch = s.latch := rfl

@[simp] theorem setCoopCfg_pending (k : Nat) (c : CoopCfg) (s : State) : (setCoopCfg k c s).pending = s.pending := rfl
@[simp] theorem setCoopCfg_sysCnt (k : Nat) (c : CoopCfg) (s : State) : (setCoopCfg k c s).sysCnt = s.sysCnt := rfl
@[simp] theorem setCoopCfg_seed (k : Nat) (c : CoopCfg) (s : State) : (setCoopCfg k c s).seed = s.seed := rfl
@[simp] theorem setCoopCfg_pads (k : Nat) (c : CoopCfg) (s : State) : (setCoopCfg k c s).pads = s.pads := rfl
@[simp] theorem setCoopCfg_cfg (k : Nat) (c : CoopCfg) (s : State) : (setCoopCfg k c s).cfg = { s.cfg with coop := tset {} s.cfg.coop k c } := rfl
@[simp] theorem setCoopCfg_pwr (k : Nat) (c : CoopCfg) (s : State) : (setCoopCfg k c s).pwr = s.pwr := rfl
@[simp] theorem setCoopCfg_life (k : Nat) (c : CoopCfg) (s : State) : (setCoopCfg k c s).life = s.life := rfl
@[simp] theorem setCoopCfg_vint (k : Nat) (c : CoopCfg) (s : State) : (setCoopCfg k c s).vint = s.vint := rfl
@[simp] theorem setCoopCfg_cmd (k : Nat) (c : CoopCfg) (s : State) : (setCoopCfg k c s).cmd = s.cmd := rfl
@[simp] theorem setCoopCfg_flt (k : Nat) (c : CoopCfg) (s : State) : (setCoopCfg k c s).flt = s.flt := rfl
@[simp] theorem setCoopCfg_clk (k : Nat) (c : CoopCfg) (s : State) : (setCoopCfg k c s).clk = s.clk := rfl
@[simp] theorem setCoopCfg_inp (k : Nat) (c : CoopCfg) (s : State) : (setCoopCfg k c s).inp = s.inp := rfl
@[simp] theorem setCoopCfg_filt (k : Nat) (c : CoopCfg) (s : State) : (setCoopCfg k c s).filt = s.filt := rfl
@[simp] theorem setCoopCfg_outp (k : Nat) (c : CoopCfg) (s : State) : (setCoopCfg k c s).outp = s.outp := rfl
@[simp] theorem setCoopCfg_hs (k : Nat) (c : CoopCfg) (s : State) : (setCoopCfg k c s).hs = s.hs := rfl
@[simp] theorem setCoopCfg_port (k : Nat) (c : CoopCfg) (s : State) : (setCoopCfg k c s).port = s.port := rfl
@[simp] theorem setCoopCfg_net (k : Nat) (c : CoopCfg) (s : State) : (setCoopCfg k c s).net = s.net := rfl
@[simp] theorem setCoopCfg_gr (k : Nat) (c : CoopCfg) (s : State) : (setCoopCfg k c s).gr = s.gr := rfl
@[simp] theorem setCoopCfg_mix (k : Nat) (c : CoopCfg) (s : State) : (setCoopCfg k c s).mix = s.mix := rfl
@[simp] theorem setCoopCfg_coop (k : Nat) (c : CoopCfg) (s : State) : (setCoopCfg k c s).coop = s.coop := rfl
@[simp] theorem setCoopCfg_latch (k : Nat) (c : CoopCfg) (s : State) : (setCoopCfg k c s).latch = s.latch := rfl

/-! ### A filter chain, its settings, a coefficient set and a load of one. -/

@[simp] theorem setChain_pending (p : Bool) (c : Nat) (x : FChain) (s : State) : (setChain p c x s).pending = s.pending := rfl
@[simp] theorem setChain_sysCnt (p : Bool) (c : Nat) (x : FChain) (s : State) : (setChain p c x s).sysCnt = s.sysCnt := rfl
@[simp] theorem setChain_seed (p : Bool) (c : Nat) (x : FChain) (s : State) : (setChain p c x s).seed = s.seed := rfl
@[simp] theorem setChain_pads (p : Bool) (c : Nat) (x : FChain) (s : State) : (setChain p c x s).pads = s.pads := rfl
@[simp] theorem setChain_cfg (p : Bool) (c : Nat) (x : FChain) (s : State) : (setChain p c x s).cfg = s.cfg := rfl
@[simp] theorem setChain_pwr (p : Bool) (c : Nat) (x : FChain) (s : State) : (setChain p c x s).pwr = s.pwr := rfl
@[simp] theorem setChain_life (p : Bool) (c : Nat) (x : FChain) (s : State) : (setChain p c x s).life = s.life := rfl
@[simp] theorem setChain_vint (p : Bool) (c : Nat) (x : FChain) (s : State) : (setChain p c x s).vint = s.vint := rfl
@[simp] theorem setChain_cmd (p : Bool) (c : Nat) (x : FChain) (s : State) : (setChain p c x s).cmd = s.cmd := rfl
@[simp] theorem setChain_flt (p : Bool) (c : Nat) (x : FChain) (s : State) : (setChain p c x s).flt = s.flt := rfl
@[simp] theorem setChain_clk (p : Bool) (c : Nat) (x : FChain) (s : State) : (setChain p c x s).clk = s.clk := rfl
@[simp] theorem setChain_inp (p : Bool) (c : Nat) (x : FChain) (s : State) : (setChain p c x s).inp = s.inp := rfl
@[simp] theorem setChain_outp (p : Bool) (c : Nat) (x : FChain) (s : State) : (setChain p c x s).outp = s.outp := rfl
@[simp] theorem setChain_hs (p : Bool) (c : Nat) (x : FChain) (s : State) : (setChain p c x s).hs = s.hs := rfl
@[simp] theorem setChain_port (p : Bool) (c : Nat) (x : FChain) (s : State) : (setChain p c x s).port = s.port := rfl
@[simp] theorem setChain_net (p : Bool) (c : Nat) (x : FChain) (s : State) : (setChain p c x s).net = s.net := rfl
@[simp] theorem setChain_gr (p : Bool) (c : Nat) (x : FChain) (s : State) : (setChain p c x s).gr = s.gr := rfl
@[simp] theorem setChain_mix (p : Bool) (c : Nat) (x : FChain) (s : State) : (setChain p c x s).mix = s.mix := rfl
@[simp] theorem setChain_coop (p : Bool) (c : Nat) (x : FChain) (s : State) : (setChain p c x s).coop = s.coop := rfl
@[simp] theorem setChain_latch (p : Bool) (c : Nat) (x : FChain) (s : State) : (setChain p c x s).latch = s.latch := rfl

@[simp] theorem storeChain_pending (p : Bool) (c : Nat) (x : FiltChainCfg) (s : State) : (storeChain p c x s).pending = s.pending := rfl
@[simp] theorem storeChain_sysCnt (p : Bool) (c : Nat) (x : FiltChainCfg) (s : State) : (storeChain p c x s).sysCnt = s.sysCnt := rfl
@[simp] theorem storeChain_seed (p : Bool) (c : Nat) (x : FiltChainCfg) (s : State) : (storeChain p c x s).seed = s.seed := rfl
@[simp] theorem storeChain_pads (p : Bool) (c : Nat) (x : FiltChainCfg) (s : State) : (storeChain p c x s).pads = s.pads := rfl
@[simp] theorem storeChain_pwr (p : Bool) (c : Nat) (x : FiltChainCfg) (s : State) : (storeChain p c x s).pwr = s.pwr := rfl
@[simp] theorem storeChain_life (p : Bool) (c : Nat) (x : FiltChainCfg) (s : State) : (storeChain p c x s).life = s.life := rfl
@[simp] theorem storeChain_vint (p : Bool) (c : Nat) (x : FiltChainCfg) (s : State) : (storeChain p c x s).vint = s.vint := rfl
@[simp] theorem storeChain_cmd (p : Bool) (c : Nat) (x : FiltChainCfg) (s : State) : (storeChain p c x s).cmd = s.cmd := rfl
@[simp] theorem storeChain_flt (p : Bool) (c : Nat) (x : FiltChainCfg) (s : State) : (storeChain p c x s).flt = s.flt := rfl
@[simp] theorem storeChain_clk (p : Bool) (c : Nat) (x : FiltChainCfg) (s : State) : (storeChain p c x s).clk = s.clk := rfl
@[simp] theorem storeChain_inp (p : Bool) (c : Nat) (x : FiltChainCfg) (s : State) : (storeChain p c x s).inp = s.inp := rfl
@[simp] theorem storeChain_filt (p : Bool) (c : Nat) (x : FiltChainCfg) (s : State) : (storeChain p c x s).filt = s.filt := rfl
@[simp] theorem storeChain_outp (p : Bool) (c : Nat) (x : FiltChainCfg) (s : State) : (storeChain p c x s).outp = s.outp := rfl
@[simp] theorem storeChain_hs (p : Bool) (c : Nat) (x : FiltChainCfg) (s : State) : (storeChain p c x s).hs = s.hs := rfl
@[simp] theorem storeChain_port (p : Bool) (c : Nat) (x : FiltChainCfg) (s : State) : (storeChain p c x s).port = s.port := rfl
@[simp] theorem storeChain_net (p : Bool) (c : Nat) (x : FiltChainCfg) (s : State) : (storeChain p c x s).net = s.net := rfl
@[simp] theorem storeChain_gr (p : Bool) (c : Nat) (x : FiltChainCfg) (s : State) : (storeChain p c x s).gr = s.gr := rfl
@[simp] theorem storeChain_mix (p : Bool) (c : Nat) (x : FiltChainCfg) (s : State) : (storeChain p c x s).mix = s.mix := rfl
@[simp] theorem storeChain_coop (p : Bool) (c : Nat) (x : FiltChainCfg) (s : State) : (storeChain p c x s).coop = s.coop := rfl
@[simp] theorem storeChain_latch (p : Bool) (c : Nat) (x : FiltChainCfg) (s : State) : (storeChain p c x s).latch = s.latch := rfl

@[simp] theorem storeSet_pending (p : Bool) (k : Nat) (c : Option CoefSet) (s : State) : (storeSet p k c s).pending = s.pending := rfl
@[simp] theorem storeSet_sysCnt (p : Bool) (k : Nat) (c : Option CoefSet) (s : State) : (storeSet p k c s).sysCnt = s.sysCnt := rfl
@[simp] theorem storeSet_seed (p : Bool) (k : Nat) (c : Option CoefSet) (s : State) : (storeSet p k c s).seed = s.seed := rfl
@[simp] theorem storeSet_pads (p : Bool) (k : Nat) (c : Option CoefSet) (s : State) : (storeSet p k c s).pads = s.pads := rfl
@[simp] theorem storeSet_pwr (p : Bool) (k : Nat) (c : Option CoefSet) (s : State) : (storeSet p k c s).pwr = s.pwr := rfl
@[simp] theorem storeSet_life (p : Bool) (k : Nat) (c : Option CoefSet) (s : State) : (storeSet p k c s).life = s.life := rfl
@[simp] theorem storeSet_vint (p : Bool) (k : Nat) (c : Option CoefSet) (s : State) : (storeSet p k c s).vint = s.vint := rfl
@[simp] theorem storeSet_cmd (p : Bool) (k : Nat) (c : Option CoefSet) (s : State) : (storeSet p k c s).cmd = s.cmd := rfl
@[simp] theorem storeSet_flt (p : Bool) (k : Nat) (c : Option CoefSet) (s : State) : (storeSet p k c s).flt = s.flt := rfl
@[simp] theorem storeSet_clk (p : Bool) (k : Nat) (c : Option CoefSet) (s : State) : (storeSet p k c s).clk = s.clk := rfl
@[simp] theorem storeSet_inp (p : Bool) (k : Nat) (c : Option CoefSet) (s : State) : (storeSet p k c s).inp = s.inp := rfl
@[simp] theorem storeSet_filt (p : Bool) (k : Nat) (c : Option CoefSet) (s : State) : (storeSet p k c s).filt = s.filt := rfl
@[simp] theorem storeSet_outp (p : Bool) (k : Nat) (c : Option CoefSet) (s : State) : (storeSet p k c s).outp = s.outp := rfl
@[simp] theorem storeSet_hs (p : Bool) (k : Nat) (c : Option CoefSet) (s : State) : (storeSet p k c s).hs = s.hs := rfl
@[simp] theorem storeSet_port (p : Bool) (k : Nat) (c : Option CoefSet) (s : State) : (storeSet p k c s).port = s.port := rfl
@[simp] theorem storeSet_net (p : Bool) (k : Nat) (c : Option CoefSet) (s : State) : (storeSet p k c s).net = s.net := rfl
@[simp] theorem storeSet_gr (p : Bool) (k : Nat) (c : Option CoefSet) (s : State) : (storeSet p k c s).gr = s.gr := rfl
@[simp] theorem storeSet_mix (p : Bool) (k : Nat) (c : Option CoefSet) (s : State) : (storeSet p k c s).mix = s.mix := rfl
@[simp] theorem storeSet_coop (p : Bool) (k : Nat) (c : Option CoefSet) (s : State) : (storeSet p k c s).coop = s.coop := rfl
@[simp] theorem storeSet_latch (p : Bool) (k : Nat) (c : Option CoefSet) (s : State) : (storeSet p k c s).latch = s.latch := rfl

@[simp] theorem noteLoad_pending (p : Bool) (k : Nat) (l : Option CoefLoad) (s : State) : (noteLoad p k l s).pending = s.pending := rfl
@[simp] theorem noteLoad_sysCnt (p : Bool) (k : Nat) (l : Option CoefLoad) (s : State) : (noteLoad p k l s).sysCnt = s.sysCnt := rfl
@[simp] theorem noteLoad_seed (p : Bool) (k : Nat) (l : Option CoefLoad) (s : State) : (noteLoad p k l s).seed = s.seed := rfl
@[simp] theorem noteLoad_pads (p : Bool) (k : Nat) (l : Option CoefLoad) (s : State) : (noteLoad p k l s).pads = s.pads := rfl
@[simp] theorem noteLoad_cfg (p : Bool) (k : Nat) (l : Option CoefLoad) (s : State) : (noteLoad p k l s).cfg = s.cfg := rfl
@[simp] theorem noteLoad_pwr (p : Bool) (k : Nat) (l : Option CoefLoad) (s : State) : (noteLoad p k l s).pwr = s.pwr := rfl
@[simp] theorem noteLoad_life (p : Bool) (k : Nat) (l : Option CoefLoad) (s : State) : (noteLoad p k l s).life = s.life := rfl
@[simp] theorem noteLoad_vint (p : Bool) (k : Nat) (l : Option CoefLoad) (s : State) : (noteLoad p k l s).vint = s.vint := rfl
@[simp] theorem noteLoad_cmd (p : Bool) (k : Nat) (l : Option CoefLoad) (s : State) : (noteLoad p k l s).cmd = s.cmd := rfl
@[simp] theorem noteLoad_flt (p : Bool) (k : Nat) (l : Option CoefLoad) (s : State) : (noteLoad p k l s).flt = s.flt := rfl
@[simp] theorem noteLoad_clk (p : Bool) (k : Nat) (l : Option CoefLoad) (s : State) : (noteLoad p k l s).clk = s.clk := rfl
@[simp] theorem noteLoad_inp (p : Bool) (k : Nat) (l : Option CoefLoad) (s : State) : (noteLoad p k l s).inp = s.inp := rfl
@[simp] theorem noteLoad_filt (p : Bool) (k : Nat) (l : Option CoefLoad) (s : State) : (noteLoad p k l s).filt = { s.filt with loads := tset none s.filt.loads (bit p * 8 + k) l } := rfl
@[simp] theorem noteLoad_outp (p : Bool) (k : Nat) (l : Option CoefLoad) (s : State) : (noteLoad p k l s).outp = s.outp := rfl
@[simp] theorem noteLoad_hs (p : Bool) (k : Nat) (l : Option CoefLoad) (s : State) : (noteLoad p k l s).hs = s.hs := rfl
@[simp] theorem noteLoad_port (p : Bool) (k : Nat) (l : Option CoefLoad) (s : State) : (noteLoad p k l s).port = s.port := rfl
@[simp] theorem noteLoad_net (p : Bool) (k : Nat) (l : Option CoefLoad) (s : State) : (noteLoad p k l s).net = s.net := rfl
@[simp] theorem noteLoad_gr (p : Bool) (k : Nat) (l : Option CoefLoad) (s : State) : (noteLoad p k l s).gr = s.gr := rfl
@[simp] theorem noteLoad_mix (p : Bool) (k : Nat) (l : Option CoefLoad) (s : State) : (noteLoad p k l s).mix = s.mix := rfl
@[simp] theorem noteLoad_coop (p : Bool) (k : Nat) (l : Option CoefLoad) (s : State) : (noteLoad p k l s).coop = s.coop := rfl
@[simp] theorem noteLoad_latch (p : Bool) (k : Nat) (l : Option CoefLoad) (s : State) : (noteLoad p k l s).latch = s.latch := rfl

/-! ### A headset port and its settings. -/

@[simp] theorem setHs_pending (n : Nat) (x : HsRt) (s : State) : (setHs n x s).pending = s.pending := rfl
@[simp] theorem setHs_sysCnt (n : Nat) (x : HsRt) (s : State) : (setHs n x s).sysCnt = s.sysCnt := rfl
@[simp] theorem setHs_seed (n : Nat) (x : HsRt) (s : State) : (setHs n x s).seed = s.seed := rfl
@[simp] theorem setHs_pads (n : Nat) (x : HsRt) (s : State) : (setHs n x s).pads = s.pads := rfl
@[simp] theorem setHs_cfg (n : Nat) (x : HsRt) (s : State) : (setHs n x s).cfg = s.cfg := rfl
@[simp] theorem setHs_pwr (n : Nat) (x : HsRt) (s : State) : (setHs n x s).pwr = s.pwr := rfl
@[simp] theorem setHs_life (n : Nat) (x : HsRt) (s : State) : (setHs n x s).life = s.life := rfl
@[simp] theorem setHs_vint (n : Nat) (x : HsRt) (s : State) : (setHs n x s).vint = s.vint := rfl
@[simp] theorem setHs_cmd (n : Nat) (x : HsRt) (s : State) : (setHs n x s).cmd = s.cmd := rfl
@[simp] theorem setHs_flt (n : Nat) (x : HsRt) (s : State) : (setHs n x s).flt = s.flt := rfl
@[simp] theorem setHs_clk (n : Nat) (x : HsRt) (s : State) : (setHs n x s).clk = s.clk := rfl
@[simp] theorem setHs_inp (n : Nat) (x : HsRt) (s : State) : (setHs n x s).inp = s.inp := rfl
@[simp] theorem setHs_filt (n : Nat) (x : HsRt) (s : State) : (setHs n x s).filt = s.filt := rfl
@[simp] theorem setHs_outp (n : Nat) (x : HsRt) (s : State) : (setHs n x s).outp = s.outp := rfl
@[simp] theorem setHs_hs (n : Nat) (x : HsRt) (s : State) : (setHs n x s).hs = if n = 0 then { s.hs with p0 := x } else { s.hs with p1 := x } := rfl
@[simp] theorem setHs_port (n : Nat) (x : HsRt) (s : State) : (setHs n x s).port = s.port := rfl
@[simp] theorem setHs_net (n : Nat) (x : HsRt) (s : State) : (setHs n x s).net = s.net := rfl
@[simp] theorem setHs_gr (n : Nat) (x : HsRt) (s : State) : (setHs n x s).gr = s.gr := rfl
@[simp] theorem setHs_mix (n : Nat) (x : HsRt) (s : State) : (setHs n x s).mix = s.mix := rfl
@[simp] theorem setHs_coop (n : Nat) (x : HsRt) (s : State) : (setHs n x s).coop = s.coop := rfl
@[simp] theorem setHs_latch (n : Nat) (x : HsRt) (s : State) : (setHs n x s).latch = s.latch := rfl

@[simp] theorem setHsCfg_pending (n : Nat) (x : HsCfg) (s : State) : (setHsCfg n x s).pending = s.pending := rfl
@[simp] theorem setHsCfg_sysCnt (n : Nat) (x : HsCfg) (s : State) : (setHsCfg n x s).sysCnt = s.sysCnt := rfl
@[simp] theorem setHsCfg_seed (n : Nat) (x : HsCfg) (s : State) : (setHsCfg n x s).seed = s.seed := rfl
@[simp] theorem setHsCfg_pads (n : Nat) (x : HsCfg) (s : State) : (setHsCfg n x s).pads = s.pads := rfl
@[simp] theorem setHsCfg_cfg (n : Nat) (x : HsCfg) (s : State) : (setHsCfg n x s).cfg = if n = 0 then { s.cfg with hs0 := x } else { s.cfg with hs1 := x } := rfl
@[simp] theorem setHsCfg_pwr (n : Nat) (x : HsCfg) (s : State) : (setHsCfg n x s).pwr = s.pwr := rfl
@[simp] theorem setHsCfg_life (n : Nat) (x : HsCfg) (s : State) : (setHsCfg n x s).life = s.life := rfl
@[simp] theorem setHsCfg_vint (n : Nat) (x : HsCfg) (s : State) : (setHsCfg n x s).vint = s.vint := rfl
@[simp] theorem setHsCfg_cmd (n : Nat) (x : HsCfg) (s : State) : (setHsCfg n x s).cmd = s.cmd := rfl
@[simp] theorem setHsCfg_flt (n : Nat) (x : HsCfg) (s : State) : (setHsCfg n x s).flt = s.flt := rfl
@[simp] theorem setHsCfg_clk (n : Nat) (x : HsCfg) (s : State) : (setHsCfg n x s).clk = s.clk := rfl
@[simp] theorem setHsCfg_inp (n : Nat) (x : HsCfg) (s : State) : (setHsCfg n x s).inp = s.inp := rfl
@[simp] theorem setHsCfg_filt (n : Nat) (x : HsCfg) (s : State) : (setHsCfg n x s).filt = s.filt := rfl
@[simp] theorem setHsCfg_outp (n : Nat) (x : HsCfg) (s : State) : (setHsCfg n x s).outp = s.outp := rfl
@[simp] theorem setHsCfg_hs (n : Nat) (x : HsCfg) (s : State) : (setHsCfg n x s).hs = s.hs := rfl
@[simp] theorem setHsCfg_port (n : Nat) (x : HsCfg) (s : State) : (setHsCfg n x s).port = s.port := rfl
@[simp] theorem setHsCfg_net (n : Nat) (x : HsCfg) (s : State) : (setHsCfg n x s).net = s.net := rfl
@[simp] theorem setHsCfg_gr (n : Nat) (x : HsCfg) (s : State) : (setHsCfg n x s).gr = s.gr := rfl
@[simp] theorem setHsCfg_mix (n : Nat) (x : HsCfg) (s : State) : (setHsCfg n x s).mix = s.mix := rfl
@[simp] theorem setHsCfg_coop (n : Nat) (x : HsCfg) (s : State) : (setHsCfg n x s).coop = s.coop := rfl
@[simp] theorem setHsCfg_latch (n : Nat) (x : HsCfg) (s : State) : (setHsCfg n x s).latch = s.latch := rfl

/-! ### An input's phantom supply, an input, its settings and a Taster. -/

@[simp] theorem setPh_pending (c : Nat) (x : Phantom) (s : State) : (setPh c x s).pending = s.pending := rfl
@[simp] theorem setPh_sysCnt (c : Nat) (x : Phantom) (s : State) : (setPh c x s).sysCnt = s.sysCnt := rfl
@[simp] theorem setPh_seed (c : Nat) (x : Phantom) (s : State) : (setPh c x s).seed = s.seed := rfl
@[simp] theorem setPh_pads (c : Nat) (x : Phantom) (s : State) : (setPh c x s).pads = s.pads := rfl
@[simp] theorem setPh_cfg (c : Nat) (x : Phantom) (s : State) : (setPh c x s).cfg = s.cfg := rfl
@[simp] theorem setPh_pwr (c : Nat) (x : Phantom) (s : State) : (setPh c x s).pwr = s.pwr := rfl
@[simp] theorem setPh_life (c : Nat) (x : Phantom) (s : State) : (setPh c x s).life = s.life := rfl
@[simp] theorem setPh_vint (c : Nat) (x : Phantom) (s : State) : (setPh c x s).vint = s.vint := rfl
@[simp] theorem setPh_cmd (c : Nat) (x : Phantom) (s : State) : (setPh c x s).cmd = s.cmd := rfl
@[simp] theorem setPh_flt (c : Nat) (x : Phantom) (s : State) : (setPh c x s).flt = s.flt := rfl
@[simp] theorem setPh_clk (c : Nat) (x : Phantom) (s : State) : (setPh c x s).clk = s.clk := rfl
@[simp] theorem setPh_inp (c : Nat) (x : Phantom) (s : State) : (setPh c x s).inp = { s.inp with ph := tset {} s.inp.ph c x } := rfl
@[simp] theorem setPh_filt (c : Nat) (x : Phantom) (s : State) : (setPh c x s).filt = s.filt := rfl
@[simp] theorem setPh_outp (c : Nat) (x : Phantom) (s : State) : (setPh c x s).outp = s.outp := rfl
@[simp] theorem setPh_hs (c : Nat) (x : Phantom) (s : State) : (setPh c x s).hs = s.hs := rfl
@[simp] theorem setPh_port (c : Nat) (x : Phantom) (s : State) : (setPh c x s).port = s.port := rfl
@[simp] theorem setPh_net (c : Nat) (x : Phantom) (s : State) : (setPh c x s).net = s.net := rfl
@[simp] theorem setPh_gr (c : Nat) (x : Phantom) (s : State) : (setPh c x s).gr = s.gr := rfl
@[simp] theorem setPh_mix (c : Nat) (x : Phantom) (s : State) : (setPh c x s).mix = s.mix := rfl
@[simp] theorem setPh_coop (c : Nat) (x : Phantom) (s : State) : (setPh c x s).coop = s.coop := rfl
@[simp] theorem setPh_latch (c : Nat) (x : Phantom) (s : State) : (setPh c x s).latch = s.latch := rfl

@[simp] theorem setChanIn_pending (c : Nat) (x : ChanIn) (s : State) : (setChanIn c x s).pending = s.pending := rfl
@[simp] theorem setChanIn_sysCnt (c : Nat) (x : ChanIn) (s : State) : (setChanIn c x s).sysCnt = s.sysCnt := rfl
@[simp] theorem setChanIn_seed (c : Nat) (x : ChanIn) (s : State) : (setChanIn c x s).seed = s.seed := rfl
@[simp] theorem setChanIn_pads (c : Nat) (x : ChanIn) (s : State) : (setChanIn c x s).pads = s.pads := rfl
@[simp] theorem setChanIn_cfg (c : Nat) (x : ChanIn) (s : State) : (setChanIn c x s).cfg = s.cfg := rfl
@[simp] theorem setChanIn_pwr (c : Nat) (x : ChanIn) (s : State) : (setChanIn c x s).pwr = s.pwr := rfl
@[simp] theorem setChanIn_life (c : Nat) (x : ChanIn) (s : State) : (setChanIn c x s).life = s.life := rfl
@[simp] theorem setChanIn_vint (c : Nat) (x : ChanIn) (s : State) : (setChanIn c x s).vint = s.vint := rfl
@[simp] theorem setChanIn_cmd (c : Nat) (x : ChanIn) (s : State) : (setChanIn c x s).cmd = s.cmd := rfl
@[simp] theorem setChanIn_flt (c : Nat) (x : ChanIn) (s : State) : (setChanIn c x s).flt = s.flt := rfl
@[simp] theorem setChanIn_clk (c : Nat) (x : ChanIn) (s : State) : (setChanIn c x s).clk = s.clk := rfl
@[simp] theorem setChanIn_inp (c : Nat) (x : ChanIn) (s : State) : (setChanIn c x s).inp = { s.inp with ch := tset {} s.inp.ch c x } := rfl
@[simp] theorem setChanIn_filt (c : Nat) (x : ChanIn) (s : State) : (setChanIn c x s).filt = s.filt := rfl
@[simp] theorem setChanIn_outp (c : Nat) (x : ChanIn) (s : State) : (setChanIn c x s).outp = s.outp := rfl
@[simp] theorem setChanIn_hs (c : Nat) (x : ChanIn) (s : State) : (setChanIn c x s).hs = s.hs := rfl
@[simp] theorem setChanIn_port (c : Nat) (x : ChanIn) (s : State) : (setChanIn c x s).port = s.port := rfl
@[simp] theorem setChanIn_net (c : Nat) (x : ChanIn) (s : State) : (setChanIn c x s).net = s.net := rfl
@[simp] theorem setChanIn_gr (c : Nat) (x : ChanIn) (s : State) : (setChanIn c x s).gr = s.gr := rfl
@[simp] theorem setChanIn_mix (c : Nat) (x : ChanIn) (s : State) : (setChanIn c x s).mix = s.mix := rfl
@[simp] theorem setChanIn_coop (c : Nat) (x : ChanIn) (s : State) : (setChanIn c x s).coop = s.coop := rfl
@[simp] theorem setChanIn_latch (c : Nat) (x : ChanIn) (s : State) : (setChanIn c x s).latch = s.latch := rfl

@[simp] theorem setInCfg_pending (c : Nat) (x : InCfg) (s : State) : (setInCfg c x s).pending = s.pending := rfl
@[simp] theorem setInCfg_sysCnt (c : Nat) (x : InCfg) (s : State) : (setInCfg c x s).sysCnt = s.sysCnt := rfl
@[simp] theorem setInCfg_seed (c : Nat) (x : InCfg) (s : State) : (setInCfg c x s).seed = s.seed := rfl
@[simp] theorem setInCfg_pads (c : Nat) (x : InCfg) (s : State) : (setInCfg c x s).pads = s.pads := rfl
@[simp] theorem setInCfg_pwr (c : Nat) (x : InCfg) (s : State) : (setInCfg c x s).pwr = s.pwr := rfl
@[simp] theorem setInCfg_life (c : Nat) (x : InCfg) (s : State) : (setInCfg c x s).life = s.life := rfl
@[simp] theorem setInCfg_vint (c : Nat) (x : InCfg) (s : State) : (setInCfg c x s).vint = s.vint := rfl
@[simp] theorem setInCfg_cmd (c : Nat) (x : InCfg) (s : State) : (setInCfg c x s).cmd = s.cmd := rfl
@[simp] theorem setInCfg_flt (c : Nat) (x : InCfg) (s : State) : (setInCfg c x s).flt = s.flt := rfl
@[simp] theorem setInCfg_clk (c : Nat) (x : InCfg) (s : State) : (setInCfg c x s).clk = s.clk := rfl
@[simp] theorem setInCfg_inp (c : Nat) (x : InCfg) (s : State) : (setInCfg c x s).inp = s.inp := rfl
@[simp] theorem setInCfg_filt (c : Nat) (x : InCfg) (s : State) : (setInCfg c x s).filt = s.filt := rfl
@[simp] theorem setInCfg_outp (c : Nat) (x : InCfg) (s : State) : (setInCfg c x s).outp = s.outp := rfl
@[simp] theorem setInCfg_hs (c : Nat) (x : InCfg) (s : State) : (setInCfg c x s).hs = s.hs := rfl
@[simp] theorem setInCfg_port (c : Nat) (x : InCfg) (s : State) : (setInCfg c x s).port = s.port := rfl
@[simp] theorem setInCfg_net (c : Nat) (x : InCfg) (s : State) : (setInCfg c x s).net = s.net := rfl
@[simp] theorem setInCfg_gr (c : Nat) (x : InCfg) (s : State) : (setInCfg c x s).gr = s.gr := rfl
@[simp] theorem setInCfg_mix (c : Nat) (x : InCfg) (s : State) : (setInCfg c x s).mix = s.mix := rfl
@[simp] theorem setInCfg_coop (c : Nat) (x : InCfg) (s : State) : (setInCfg c x s).coop = s.coop := rfl
@[simp] theorem setInCfg_latch (c : Nat) (x : InCfg) (s : State) : (setInCfg c x s).latch = s.latch := rfl

@[simp] theorem setTaster_pending (t : Fin 2) (x : Taster) (s : State) : (setTaster t x s).pending = s.pending := rfl
@[simp] theorem setTaster_sysCnt (t : Fin 2) (x : Taster) (s : State) : (setTaster t x s).sysCnt = s.sysCnt := rfl
@[simp] theorem setTaster_seed (t : Fin 2) (x : Taster) (s : State) : (setTaster t x s).seed = s.seed := rfl
@[simp] theorem setTaster_pads (t : Fin 2) (x : Taster) (s : State) : (setTaster t x s).pads = s.pads := rfl
@[simp] theorem setTaster_cfg (t : Fin 2) (x : Taster) (s : State) : (setTaster t x s).cfg = s.cfg := rfl
@[simp] theorem setTaster_pwr (t : Fin 2) (x : Taster) (s : State) : (setTaster t x s).pwr = s.pwr := rfl
@[simp] theorem setTaster_life (t : Fin 2) (x : Taster) (s : State) : (setTaster t x s).life = s.life := rfl
@[simp] theorem setTaster_vint (t : Fin 2) (x : Taster) (s : State) : (setTaster t x s).vint = s.vint := rfl
@[simp] theorem setTaster_cmd (t : Fin 2) (x : Taster) (s : State) : (setTaster t x s).cmd = s.cmd := rfl
@[simp] theorem setTaster_flt (t : Fin 2) (x : Taster) (s : State) : (setTaster t x s).flt = s.flt := rfl
@[simp] theorem setTaster_clk (t : Fin 2) (x : Taster) (s : State) : (setTaster t x s).clk = s.clk := rfl
@[simp] theorem setTaster_filt (t : Fin 2) (x : Taster) (s : State) : (setTaster t x s).filt = s.filt := rfl
@[simp] theorem setTaster_outp (t : Fin 2) (x : Taster) (s : State) : (setTaster t x s).outp = s.outp := rfl
@[simp] theorem setTaster_hs (t : Fin 2) (x : Taster) (s : State) : (setTaster t x s).hs = s.hs := rfl
@[simp] theorem setTaster_port (t : Fin 2) (x : Taster) (s : State) : (setTaster t x s).port = s.port := rfl
@[simp] theorem setTaster_net (t : Fin 2) (x : Taster) (s : State) : (setTaster t x s).net = s.net := rfl
@[simp] theorem setTaster_gr (t : Fin 2) (x : Taster) (s : State) : (setTaster t x s).gr = s.gr := rfl
@[simp] theorem setTaster_mix (t : Fin 2) (x : Taster) (s : State) : (setTaster t x s).mix = s.mix := rfl
@[simp] theorem setTaster_coop (t : Fin 2) (x : Taster) (s : State) : (setTaster t x s).coop = s.coop := rfl
@[simp] theorem setTaster_latch (t : Fin 2) (x : Taster) (s : State) : (setTaster t x s).latch = s.latch := rfl

/-! ### The settings of the graph and the network, a link and a stream. -/

@[simp] theorem withMix_pending (m : MixCfg) (s : State) : (withMix m s).pending = s.pending := rfl
@[simp] theorem withMix_sysCnt (m : MixCfg) (s : State) : (withMix m s).sysCnt = s.sysCnt := rfl
@[simp] theorem withMix_seed (m : MixCfg) (s : State) : (withMix m s).seed = s.seed := rfl
@[simp] theorem withMix_pads (m : MixCfg) (s : State) : (withMix m s).pads = s.pads := rfl
@[simp] theorem withMix_cfg (m : MixCfg) (s : State) : (withMix m s).cfg = { s.cfg with mix := m } := rfl
@[simp] theorem withMix_pwr (m : MixCfg) (s : State) : (withMix m s).pwr = s.pwr := rfl
@[simp] theorem withMix_life (m : MixCfg) (s : State) : (withMix m s).life = s.life := rfl
@[simp] theorem withMix_vint (m : MixCfg) (s : State) : (withMix m s).vint = s.vint := rfl
@[simp] theorem withMix_cmd (m : MixCfg) (s : State) : (withMix m s).cmd = s.cmd := rfl
@[simp] theorem withMix_flt (m : MixCfg) (s : State) : (withMix m s).flt = s.flt := rfl
@[simp] theorem withMix_clk (m : MixCfg) (s : State) : (withMix m s).clk = s.clk := rfl
@[simp] theorem withMix_inp (m : MixCfg) (s : State) : (withMix m s).inp = s.inp := rfl
@[simp] theorem withMix_filt (m : MixCfg) (s : State) : (withMix m s).filt = s.filt := rfl
@[simp] theorem withMix_outp (m : MixCfg) (s : State) : (withMix m s).outp = s.outp := rfl
@[simp] theorem withMix_hs (m : MixCfg) (s : State) : (withMix m s).hs = s.hs := rfl
@[simp] theorem withMix_port (m : MixCfg) (s : State) : (withMix m s).port = s.port := rfl
@[simp] theorem withMix_net (m : MixCfg) (s : State) : (withMix m s).net = s.net := rfl
@[simp] theorem withMix_gr (m : MixCfg) (s : State) : (withMix m s).gr = s.gr := rfl
@[simp] theorem withMix_mix (m : MixCfg) (s : State) : (withMix m s).mix = s.mix := rfl
@[simp] theorem withMix_coop (m : MixCfg) (s : State) : (withMix m s).coop = s.coop := rfl
@[simp] theorem withMix_latch (m : MixCfg) (s : State) : (withMix m s).latch = s.latch := rfl

@[simp] theorem withNet_pending (c : NetworkCfg) (s : State) : (withNet c s).pending = s.pending := rfl
@[simp] theorem withNet_sysCnt (c : NetworkCfg) (s : State) : (withNet c s).sysCnt = s.sysCnt := rfl
@[simp] theorem withNet_seed (c : NetworkCfg) (s : State) : (withNet c s).seed = s.seed := rfl
@[simp] theorem withNet_pads (c : NetworkCfg) (s : State) : (withNet c s).pads = s.pads := rfl
@[simp] theorem withNet_cfg (c : NetworkCfg) (s : State) : (withNet c s).cfg = { s.cfg with net := c } := rfl
@[simp] theorem withNet_pwr (c : NetworkCfg) (s : State) : (withNet c s).pwr = s.pwr := rfl
@[simp] theorem withNet_life (c : NetworkCfg) (s : State) : (withNet c s).life = s.life := rfl
@[simp] theorem withNet_vint (c : NetworkCfg) (s : State) : (withNet c s).vint = s.vint := rfl
@[simp] theorem withNet_cmd (c : NetworkCfg) (s : State) : (withNet c s).cmd = s.cmd := rfl
@[simp] theorem withNet_flt (c : NetworkCfg) (s : State) : (withNet c s).flt = s.flt := rfl
@[simp] theorem withNet_clk (c : NetworkCfg) (s : State) : (withNet c s).clk = s.clk := rfl
@[simp] theorem withNet_inp (c : NetworkCfg) (s : State) : (withNet c s).inp = s.inp := rfl
@[simp] theorem withNet_filt (c : NetworkCfg) (s : State) : (withNet c s).filt = s.filt := rfl
@[simp] theorem withNet_outp (c : NetworkCfg) (s : State) : (withNet c s).outp = s.outp := rfl
@[simp] theorem withNet_hs (c : NetworkCfg) (s : State) : (withNet c s).hs = s.hs := rfl
@[simp] theorem withNet_port (c : NetworkCfg) (s : State) : (withNet c s).port = s.port := rfl
@[simp] theorem withNet_net (c : NetworkCfg) (s : State) : (withNet c s).net = s.net := rfl
@[simp] theorem withNet_gr (c : NetworkCfg) (s : State) : (withNet c s).gr = s.gr := rfl
@[simp] theorem withNet_mix (c : NetworkCfg) (s : State) : (withNet c s).mix = s.mix := rfl
@[simp] theorem withNet_coop (c : NetworkCfg) (s : State) : (withNet c s).coop = s.coop := rfl
@[simp] theorem withNet_latch (c : NetworkCfg) (s : State) : (withNet c s).latch = s.latch := rfl

@[simp] theorem setLink_pending (l : LinkPort) (x : LinkRt) (s : State) : (setLink l x s).pending = s.pending := by cases l <;> rfl
@[simp] theorem setLink_sysCnt (l : LinkPort) (x : LinkRt) (s : State) : (setLink l x s).sysCnt = s.sysCnt := by cases l <;> rfl
@[simp] theorem setLink_seed (l : LinkPort) (x : LinkRt) (s : State) : (setLink l x s).seed = s.seed := by cases l <;> rfl
@[simp] theorem setLink_pads (l : LinkPort) (x : LinkRt) (s : State) : (setLink l x s).pads = s.pads := by cases l <;> rfl
@[simp] theorem setLink_cfg (l : LinkPort) (x : LinkRt) (s : State) : (setLink l x s).cfg = s.cfg := by cases l <;> rfl
@[simp] theorem setLink_pwr (l : LinkPort) (x : LinkRt) (s : State) : (setLink l x s).pwr = s.pwr := by cases l <;> rfl
@[simp] theorem setLink_life (l : LinkPort) (x : LinkRt) (s : State) : (setLink l x s).life = s.life := by cases l <;> rfl
@[simp] theorem setLink_vint (l : LinkPort) (x : LinkRt) (s : State) : (setLink l x s).vint = s.vint := by cases l <;> rfl
@[simp] theorem setLink_cmd (l : LinkPort) (x : LinkRt) (s : State) : (setLink l x s).cmd = s.cmd := by cases l <;> rfl
@[simp] theorem setLink_flt (l : LinkPort) (x : LinkRt) (s : State) : (setLink l x s).flt = s.flt := by cases l <;> rfl
@[simp] theorem setLink_clk (l : LinkPort) (x : LinkRt) (s : State) : (setLink l x s).clk = s.clk := by cases l <;> rfl
@[simp] theorem setLink_inp (l : LinkPort) (x : LinkRt) (s : State) : (setLink l x s).inp = s.inp := by cases l <;> rfl
@[simp] theorem setLink_filt (l : LinkPort) (x : LinkRt) (s : State) : (setLink l x s).filt = s.filt := by cases l <;> rfl
@[simp] theorem setLink_outp (l : LinkPort) (x : LinkRt) (s : State) : (setLink l x s).outp = s.outp := by cases l <;> rfl
@[simp] theorem setLink_hs (l : LinkPort) (x : LinkRt) (s : State) : (setLink l x s).hs = s.hs := by cases l <;> rfl
@[simp] theorem setLink_port (l : LinkPort) (x : LinkRt) (s : State) : (setLink l x s).port = s.port := by cases l <;> rfl
@[simp] theorem setLink_gr (l : LinkPort) (x : LinkRt) (s : State) : (setLink l x s).gr = s.gr := by cases l <;> rfl
@[simp] theorem setLink_mix (l : LinkPort) (x : LinkRt) (s : State) : (setLink l x s).mix = s.mix := by cases l <;> rfl
@[simp] theorem setLink_coop (l : LinkPort) (x : LinkRt) (s : State) : (setLink l x s).coop = s.coop := by cases l <;> rfl
@[simp] theorem setLink_latch (l : LinkPort) (x : LinkRt) (s : State) : (setLink l x s).latch = s.latch := by cases l <;> rfl

@[simp] theorem setRxSlot_pending (i : Nat) (x : RxSlot) (s : State) : (setRxSlot i x s).pending = s.pending := rfl
@[simp] theorem setRxSlot_sysCnt (i : Nat) (x : RxSlot) (s : State) : (setRxSlot i x s).sysCnt = s.sysCnt := rfl
@[simp] theorem setRxSlot_seed (i : Nat) (x : RxSlot) (s : State) : (setRxSlot i x s).seed = s.seed := rfl
@[simp] theorem setRxSlot_pads (i : Nat) (x : RxSlot) (s : State) : (setRxSlot i x s).pads = s.pads := rfl
@[simp] theorem setRxSlot_cfg (i : Nat) (x : RxSlot) (s : State) : (setRxSlot i x s).cfg = s.cfg := rfl
@[simp] theorem setRxSlot_pwr (i : Nat) (x : RxSlot) (s : State) : (setRxSlot i x s).pwr = s.pwr := rfl
@[simp] theorem setRxSlot_life (i : Nat) (x : RxSlot) (s : State) : (setRxSlot i x s).life = s.life := rfl
@[simp] theorem setRxSlot_vint (i : Nat) (x : RxSlot) (s : State) : (setRxSlot i x s).vint = s.vint := rfl
@[simp] theorem setRxSlot_cmd (i : Nat) (x : RxSlot) (s : State) : (setRxSlot i x s).cmd = s.cmd := rfl
@[simp] theorem setRxSlot_flt (i : Nat) (x : RxSlot) (s : State) : (setRxSlot i x s).flt = s.flt := rfl
@[simp] theorem setRxSlot_clk (i : Nat) (x : RxSlot) (s : State) : (setRxSlot i x s).clk = s.clk := rfl
@[simp] theorem setRxSlot_inp (i : Nat) (x : RxSlot) (s : State) : (setRxSlot i x s).inp = s.inp := rfl
@[simp] theorem setRxSlot_filt (i : Nat) (x : RxSlot) (s : State) : (setRxSlot i x s).filt = s.filt := rfl
@[simp] theorem setRxSlot_outp (i : Nat) (x : RxSlot) (s : State) : (setRxSlot i x s).outp = s.outp := rfl
@[simp] theorem setRxSlot_hs (i : Nat) (x : RxSlot) (s : State) : (setRxSlot i x s).hs = s.hs := rfl
@[simp] theorem setRxSlot_port (i : Nat) (x : RxSlot) (s : State) : (setRxSlot i x s).port = s.port := rfl
@[simp] theorem setRxSlot_net (i : Nat) (x : RxSlot) (s : State) : (setRxSlot i x s).net = { s.net with rx := tset {} s.net.rx i x } := rfl
@[simp] theorem setRxSlot_gr (i : Nat) (x : RxSlot) (s : State) : (setRxSlot i x s).gr = s.gr := rfl
@[simp] theorem setRxSlot_mix (i : Nat) (x : RxSlot) (s : State) : (setRxSlot i x s).mix = s.mix := rfl
@[simp] theorem setRxSlot_coop (i : Nat) (x : RxSlot) (s : State) : (setRxSlot i x s).coop = s.coop := rfl
@[simp] theorem setRxSlot_latch (i : Nat) (x : RxSlot) (s : State) : (setRxSlot i x s).latch = s.latch := rfl

@[simp] theorem setTxSlot_pending (i : Nat) (x : TxSlot) (s : State) : (setTxSlot i x s).pending = s.pending := rfl
@[simp] theorem setTxSlot_sysCnt (i : Nat) (x : TxSlot) (s : State) : (setTxSlot i x s).sysCnt = s.sysCnt := rfl
@[simp] theorem setTxSlot_seed (i : Nat) (x : TxSlot) (s : State) : (setTxSlot i x s).seed = s.seed := rfl
@[simp] theorem setTxSlot_pads (i : Nat) (x : TxSlot) (s : State) : (setTxSlot i x s).pads = s.pads := rfl
@[simp] theorem setTxSlot_cfg (i : Nat) (x : TxSlot) (s : State) : (setTxSlot i x s).cfg = s.cfg := rfl
@[simp] theorem setTxSlot_pwr (i : Nat) (x : TxSlot) (s : State) : (setTxSlot i x s).pwr = s.pwr := rfl
@[simp] theorem setTxSlot_life (i : Nat) (x : TxSlot) (s : State) : (setTxSlot i x s).life = s.life := rfl
@[simp] theorem setTxSlot_vint (i : Nat) (x : TxSlot) (s : State) : (setTxSlot i x s).vint = s.vint := rfl
@[simp] theorem setTxSlot_cmd (i : Nat) (x : TxSlot) (s : State) : (setTxSlot i x s).cmd = s.cmd := rfl
@[simp] theorem setTxSlot_flt (i : Nat) (x : TxSlot) (s : State) : (setTxSlot i x s).flt = s.flt := rfl
@[simp] theorem setTxSlot_clk (i : Nat) (x : TxSlot) (s : State) : (setTxSlot i x s).clk = s.clk := rfl
@[simp] theorem setTxSlot_inp (i : Nat) (x : TxSlot) (s : State) : (setTxSlot i x s).inp = s.inp := rfl
@[simp] theorem setTxSlot_filt (i : Nat) (x : TxSlot) (s : State) : (setTxSlot i x s).filt = s.filt := rfl
@[simp] theorem setTxSlot_outp (i : Nat) (x : TxSlot) (s : State) : (setTxSlot i x s).outp = s.outp := rfl
@[simp] theorem setTxSlot_hs (i : Nat) (x : TxSlot) (s : State) : (setTxSlot i x s).hs = s.hs := rfl
@[simp] theorem setTxSlot_port (i : Nat) (x : TxSlot) (s : State) : (setTxSlot i x s).port = s.port := rfl
@[simp] theorem setTxSlot_net (i : Nat) (x : TxSlot) (s : State) : (setTxSlot i x s).net = { s.net with tx := tset {} s.net.tx i x } := rfl
@[simp] theorem setTxSlot_gr (i : Nat) (x : TxSlot) (s : State) : (setTxSlot i x s).gr = s.gr := rfl
@[simp] theorem setTxSlot_mix (i : Nat) (x : TxSlot) (s : State) : (setTxSlot i x s).mix = s.mix := rfl
@[simp] theorem setTxSlot_coop (i : Nat) (x : TxSlot) (s : State) : (setTxSlot i x s).coop = s.coop := rfl
@[simp] theorem setTxSlot_latch (i : Nat) (x : TxSlot) (s : State) : (setTxSlot i x s).latch = s.latch := rfl

/-! ### An output, the settings of the outputs, a speaker's load, a hold output and a stage's sensor. -/

@[simp] theorem setOutRt_pending (h : Handle) (x : OutRt) (s : State) : (setOutRt h x s).pending = s.pending := rfl
@[simp] theorem setOutRt_sysCnt (h : Handle) (x : OutRt) (s : State) : (setOutRt h x s).sysCnt = s.sysCnt := rfl
@[simp] theorem setOutRt_seed (h : Handle) (x : OutRt) (s : State) : (setOutRt h x s).seed = s.seed := rfl
@[simp] theorem setOutRt_pads (h : Handle) (x : OutRt) (s : State) : (setOutRt h x s).pads = s.pads := rfl
@[simp] theorem setOutRt_cfg (h : Handle) (x : OutRt) (s : State) : (setOutRt h x s).cfg = s.cfg := rfl
@[simp] theorem setOutRt_pwr (h : Handle) (x : OutRt) (s : State) : (setOutRt h x s).pwr = s.pwr := rfl
@[simp] theorem setOutRt_life (h : Handle) (x : OutRt) (s : State) : (setOutRt h x s).life = s.life := rfl
@[simp] theorem setOutRt_vint (h : Handle) (x : OutRt) (s : State) : (setOutRt h x s).vint = s.vint := rfl
@[simp] theorem setOutRt_cmd (h : Handle) (x : OutRt) (s : State) : (setOutRt h x s).cmd = s.cmd := rfl
@[simp] theorem setOutRt_flt (h : Handle) (x : OutRt) (s : State) : (setOutRt h x s).flt = s.flt := rfl
@[simp] theorem setOutRt_clk (h : Handle) (x : OutRt) (s : State) : (setOutRt h x s).clk = s.clk := rfl
@[simp] theorem setOutRt_inp (h : Handle) (x : OutRt) (s : State) : (setOutRt h x s).inp = s.inp := rfl
@[simp] theorem setOutRt_filt (h : Handle) (x : OutRt) (s : State) : (setOutRt h x s).filt = s.filt := rfl
@[simp] theorem setOutRt_outp (h : Handle) (x : OutRt) (s : State) : (setOutRt h x s).outp = { s.outp with out := tset {} s.outp.out h.toNat x } := rfl
@[simp] theorem setOutRt_hs (h : Handle) (x : OutRt) (s : State) : (setOutRt h x s).hs = s.hs := rfl
@[simp] theorem setOutRt_port (h : Handle) (x : OutRt) (s : State) : (setOutRt h x s).port = s.port := rfl
@[simp] theorem setOutRt_net (h : Handle) (x : OutRt) (s : State) : (setOutRt h x s).net = s.net := rfl
@[simp] theorem setOutRt_gr (h : Handle) (x : OutRt) (s : State) : (setOutRt h x s).gr = s.gr := rfl
@[simp] theorem setOutRt_mix (h : Handle) (x : OutRt) (s : State) : (setOutRt h x s).mix = s.mix := rfl
@[simp] theorem setOutRt_coop (h : Handle) (x : OutRt) (s : State) : (setOutRt h x s).coop = s.coop := rfl
@[simp] theorem setOutRt_latch (h : Handle) (x : OutRt) (s : State) : (setOutRt h x s).latch = s.latch := rfl

@[simp] theorem withOut_pending (c : OutputCfg) (s : State) : (withOut c s).pending = s.pending := rfl
@[simp] theorem withOut_sysCnt (c : OutputCfg) (s : State) : (withOut c s).sysCnt = s.sysCnt := rfl
@[simp] theorem withOut_seed (c : OutputCfg) (s : State) : (withOut c s).seed = s.seed := rfl
@[simp] theorem withOut_pads (c : OutputCfg) (s : State) : (withOut c s).pads = s.pads := rfl
@[simp] theorem withOut_cfg (c : OutputCfg) (s : State) : (withOut c s).cfg = { s.cfg with outp := c } := rfl
@[simp] theorem withOut_pwr (c : OutputCfg) (s : State) : (withOut c s).pwr = s.pwr := rfl
@[simp] theorem withOut_life (c : OutputCfg) (s : State) : (withOut c s).life = s.life := rfl
@[simp] theorem withOut_vint (c : OutputCfg) (s : State) : (withOut c s).vint = s.vint := rfl
@[simp] theorem withOut_cmd (c : OutputCfg) (s : State) : (withOut c s).cmd = s.cmd := rfl
@[simp] theorem withOut_flt (c : OutputCfg) (s : State) : (withOut c s).flt = s.flt := rfl
@[simp] theorem withOut_clk (c : OutputCfg) (s : State) : (withOut c s).clk = s.clk := rfl
@[simp] theorem withOut_inp (c : OutputCfg) (s : State) : (withOut c s).inp = s.inp := rfl
@[simp] theorem withOut_filt (c : OutputCfg) (s : State) : (withOut c s).filt = s.filt := rfl
@[simp] theorem withOut_outp (c : OutputCfg) (s : State) : (withOut c s).outp = s.outp := rfl
@[simp] theorem withOut_hs (c : OutputCfg) (s : State) : (withOut c s).hs = s.hs := rfl
@[simp] theorem withOut_port (c : OutputCfg) (s : State) : (withOut c s).port = s.port := rfl
@[simp] theorem withOut_net (c : OutputCfg) (s : State) : (withOut c s).net = s.net := rfl
@[simp] theorem withOut_gr (c : OutputCfg) (s : State) : (withOut c s).gr = s.gr := rfl
@[simp] theorem withOut_mix (c : OutputCfg) (s : State) : (withOut c s).mix = s.mix := rfl
@[simp] theorem withOut_coop (c : OutputCfg) (s : State) : (withOut c s).coop = s.coop := rfl
@[simp] theorem withOut_latch (c : OutputCfg) (s : State) : (withOut c s).latch = s.latch := rfl

@[simp] theorem setSpkRt_pending (n : Nat) (x : SpkRt) (s : State) : (setSpkRt n x s).pending = s.pending := rfl
@[simp] theorem setSpkRt_sysCnt (n : Nat) (x : SpkRt) (s : State) : (setSpkRt n x s).sysCnt = s.sysCnt := rfl
@[simp] theorem setSpkRt_seed (n : Nat) (x : SpkRt) (s : State) : (setSpkRt n x s).seed = s.seed := rfl
@[simp] theorem setSpkRt_pads (n : Nat) (x : SpkRt) (s : State) : (setSpkRt n x s).pads = s.pads := rfl
@[simp] theorem setSpkRt_cfg (n : Nat) (x : SpkRt) (s : State) : (setSpkRt n x s).cfg = s.cfg := rfl
@[simp] theorem setSpkRt_pwr (n : Nat) (x : SpkRt) (s : State) : (setSpkRt n x s).pwr = s.pwr := rfl
@[simp] theorem setSpkRt_life (n : Nat) (x : SpkRt) (s : State) : (setSpkRt n x s).life = s.life := rfl
@[simp] theorem setSpkRt_vint (n : Nat) (x : SpkRt) (s : State) : (setSpkRt n x s).vint = s.vint := rfl
@[simp] theorem setSpkRt_cmd (n : Nat) (x : SpkRt) (s : State) : (setSpkRt n x s).cmd = s.cmd := rfl
@[simp] theorem setSpkRt_flt (n : Nat) (x : SpkRt) (s : State) : (setSpkRt n x s).flt = s.flt := rfl
@[simp] theorem setSpkRt_clk (n : Nat) (x : SpkRt) (s : State) : (setSpkRt n x s).clk = s.clk := rfl
@[simp] theorem setSpkRt_inp (n : Nat) (x : SpkRt) (s : State) : (setSpkRt n x s).inp = s.inp := rfl
@[simp] theorem setSpkRt_filt (n : Nat) (x : SpkRt) (s : State) : (setSpkRt n x s).filt = s.filt := rfl
@[simp] theorem setSpkRt_outp (n : Nat) (x : SpkRt) (s : State) : (setSpkRt n x s).outp = { s.outp with spk := tset {} s.outp.spk n x } := rfl
@[simp] theorem setSpkRt_hs (n : Nat) (x : SpkRt) (s : State) : (setSpkRt n x s).hs = s.hs := rfl
@[simp] theorem setSpkRt_port (n : Nat) (x : SpkRt) (s : State) : (setSpkRt n x s).port = s.port := rfl
@[simp] theorem setSpkRt_net (n : Nat) (x : SpkRt) (s : State) : (setSpkRt n x s).net = s.net := rfl
@[simp] theorem setSpkRt_gr (n : Nat) (x : SpkRt) (s : State) : (setSpkRt n x s).gr = s.gr := rfl
@[simp] theorem setSpkRt_mix (n : Nat) (x : SpkRt) (s : State) : (setSpkRt n x s).mix = s.mix := rfl
@[simp] theorem setSpkRt_coop (n : Nat) (x : SpkRt) (s : State) : (setSpkRt n x s).coop = s.coop := rfl
@[simp] theorem setSpkRt_latch (n : Nat) (x : SpkRt) (s : State) : (setSpkRt n x s).latch = s.latch := rfl

@[simp] theorem setHoldRt_pending (n : Nat) (x : HoldRt) (s : State) : (setHoldRt n x s).pending = s.pending := rfl
@[simp] theorem setHoldRt_sysCnt (n : Nat) (x : HoldRt) (s : State) : (setHoldRt n x s).sysCnt = s.sysCnt := rfl
@[simp] theorem setHoldRt_seed (n : Nat) (x : HoldRt) (s : State) : (setHoldRt n x s).seed = s.seed := rfl
@[simp] theorem setHoldRt_pads (n : Nat) (x : HoldRt) (s : State) : (setHoldRt n x s).pads = s.pads := rfl
@[simp] theorem setHoldRt_cfg (n : Nat) (x : HoldRt) (s : State) : (setHoldRt n x s).cfg = s.cfg := rfl
@[simp] theorem setHoldRt_pwr (n : Nat) (x : HoldRt) (s : State) : (setHoldRt n x s).pwr = s.pwr := rfl
@[simp] theorem setHoldRt_life (n : Nat) (x : HoldRt) (s : State) : (setHoldRt n x s).life = s.life := rfl
@[simp] theorem setHoldRt_vint (n : Nat) (x : HoldRt) (s : State) : (setHoldRt n x s).vint = s.vint := rfl
@[simp] theorem setHoldRt_cmd (n : Nat) (x : HoldRt) (s : State) : (setHoldRt n x s).cmd = s.cmd := rfl
@[simp] theorem setHoldRt_flt (n : Nat) (x : HoldRt) (s : State) : (setHoldRt n x s).flt = s.flt := rfl
@[simp] theorem setHoldRt_clk (n : Nat) (x : HoldRt) (s : State) : (setHoldRt n x s).clk = s.clk := rfl
@[simp] theorem setHoldRt_inp (n : Nat) (x : HoldRt) (s : State) : (setHoldRt n x s).inp = s.inp := rfl
@[simp] theorem setHoldRt_filt (n : Nat) (x : HoldRt) (s : State) : (setHoldRt n x s).filt = s.filt := rfl
@[simp] theorem setHoldRt_outp (n : Nat) (x : HoldRt) (s : State) : (setHoldRt n x s).outp = { s.outp with hold := tset {} s.outp.hold n x } := rfl
@[simp] theorem setHoldRt_hs (n : Nat) (x : HoldRt) (s : State) : (setHoldRt n x s).hs = s.hs := rfl
@[simp] theorem setHoldRt_port (n : Nat) (x : HoldRt) (s : State) : (setHoldRt n x s).port = s.port := rfl
@[simp] theorem setHoldRt_net (n : Nat) (x : HoldRt) (s : State) : (setHoldRt n x s).net = s.net := rfl
@[simp] theorem setHoldRt_gr (n : Nat) (x : HoldRt) (s : State) : (setHoldRt n x s).gr = s.gr := rfl
@[simp] theorem setHoldRt_mix (n : Nat) (x : HoldRt) (s : State) : (setHoldRt n x s).mix = s.mix := rfl
@[simp] theorem setHoldRt_coop (n : Nat) (x : HoldRt) (s : State) : (setHoldRt n x s).coop = s.coop := rfl
@[simp] theorem setHoldRt_latch (n : Nat) (x : HoldRt) (s : State) : (setHoldRt n x s).latch = s.latch := rfl

@[simp] theorem setStage_pending (k : Nat) (x : StageTherm) (s : State) : (setStage k x s).pending = s.pending := rfl
@[simp] theorem setStage_sysCnt (k : Nat) (x : StageTherm) (s : State) : (setStage k x s).sysCnt = s.sysCnt := rfl
@[simp] theorem setStage_seed (k : Nat) (x : StageTherm) (s : State) : (setStage k x s).seed = s.seed := rfl
@[simp] theorem setStage_pads (k : Nat) (x : StageTherm) (s : State) : (setStage k x s).pads = s.pads := rfl
@[simp] theorem setStage_cfg (k : Nat) (x : StageTherm) (s : State) : (setStage k x s).cfg = s.cfg := rfl
@[simp] theorem setStage_pwr (k : Nat) (x : StageTherm) (s : State) : (setStage k x s).pwr = s.pwr := rfl
@[simp] theorem setStage_life (k : Nat) (x : StageTherm) (s : State) : (setStage k x s).life = s.life := rfl
@[simp] theorem setStage_vint (k : Nat) (x : StageTherm) (s : State) : (setStage k x s).vint = s.vint := rfl
@[simp] theorem setStage_cmd (k : Nat) (x : StageTherm) (s : State) : (setStage k x s).cmd = s.cmd := rfl
@[simp] theorem setStage_flt (k : Nat) (x : StageTherm) (s : State) : (setStage k x s).flt = s.flt := rfl
@[simp] theorem setStage_clk (k : Nat) (x : StageTherm) (s : State) : (setStage k x s).clk = s.clk := rfl
@[simp] theorem setStage_inp (k : Nat) (x : StageTherm) (s : State) : (setStage k x s).inp = s.inp := rfl
@[simp] theorem setStage_filt (k : Nat) (x : StageTherm) (s : State) : (setStage k x s).filt = s.filt := rfl
@[simp] theorem setStage_outp (k : Nat) (x : StageTherm) (s : State) : (setStage k x s).outp = { s.outp with stage := tset {} s.outp.stage k x } := rfl
@[simp] theorem setStage_hs (k : Nat) (x : StageTherm) (s : State) : (setStage k x s).hs = s.hs := rfl
@[simp] theorem setStage_port (k : Nat) (x : StageTherm) (s : State) : (setStage k x s).port = s.port := rfl
@[simp] theorem setStage_net (k : Nat) (x : StageTherm) (s : State) : (setStage k x s).net = s.net := rfl
@[simp] theorem setStage_gr (k : Nat) (x : StageTherm) (s : State) : (setStage k x s).gr = s.gr := rfl
@[simp] theorem setStage_mix (k : Nat) (x : StageTherm) (s : State) : (setStage k x s).mix = s.mix := rfl
@[simp] theorem setStage_coop (k : Nat) (x : StageTherm) (s : State) : (setStage k x s).coop = s.coop := rfl
@[simp] theorem setStage_latch (k : Nat) (x : StageTherm) (s : State) : (setStage k x s).latch = s.latch := rfl

/-! ### A digital port, the settings of the ports and of the Decanters. -/

@[simp] theorem setPort_pending (k : Nat) (x : PortRt) (s : State) : (setPort k x s).pending = s.pending := rfl
@[simp] theorem setPort_sysCnt (k : Nat) (x : PortRt) (s : State) : (setPort k x s).sysCnt = s.sysCnt := rfl
@[simp] theorem setPort_seed (k : Nat) (x : PortRt) (s : State) : (setPort k x s).seed = s.seed := rfl
@[simp] theorem setPort_pads (k : Nat) (x : PortRt) (s : State) : (setPort k x s).pads = s.pads := rfl
@[simp] theorem setPort_cfg (k : Nat) (x : PortRt) (s : State) : (setPort k x s).cfg = s.cfg := rfl
@[simp] theorem setPort_pwr (k : Nat) (x : PortRt) (s : State) : (setPort k x s).pwr = s.pwr := rfl
@[simp] theorem setPort_life (k : Nat) (x : PortRt) (s : State) : (setPort k x s).life = s.life := rfl
@[simp] theorem setPort_vint (k : Nat) (x : PortRt) (s : State) : (setPort k x s).vint = s.vint := rfl
@[simp] theorem setPort_cmd (k : Nat) (x : PortRt) (s : State) : (setPort k x s).cmd = s.cmd := rfl
@[simp] theorem setPort_flt (k : Nat) (x : PortRt) (s : State) : (setPort k x s).flt = s.flt := rfl
@[simp] theorem setPort_clk (k : Nat) (x : PortRt) (s : State) : (setPort k x s).clk = s.clk := rfl
@[simp] theorem setPort_inp (k : Nat) (x : PortRt) (s : State) : (setPort k x s).inp = s.inp := rfl
@[simp] theorem setPort_filt (k : Nat) (x : PortRt) (s : State) : (setPort k x s).filt = s.filt := rfl
@[simp] theorem setPort_outp (k : Nat) (x : PortRt) (s : State) : (setPort k x s).outp = s.outp := rfl
@[simp] theorem setPort_hs (k : Nat) (x : PortRt) (s : State) : (setPort k x s).hs = s.hs := rfl
@[simp] theorem setPort_port (k : Nat) (x : PortRt) (s : State) : (setPort k x s).port = tset {} s.port k x := rfl
@[simp] theorem setPort_net (k : Nat) (x : PortRt) (s : State) : (setPort k x s).net = s.net := rfl
@[simp] theorem setPort_gr (k : Nat) (x : PortRt) (s : State) : (setPort k x s).gr = s.gr := rfl
@[simp] theorem setPort_mix (k : Nat) (x : PortRt) (s : State) : (setPort k x s).mix = s.mix := rfl
@[simp] theorem setPort_coop (k : Nat) (x : PortRt) (s : State) : (setPort k x s).coop = s.coop := rfl
@[simp] theorem setPort_latch (k : Nat) (x : PortRt) (s : State) : (setPort k x s).latch = s.latch := rfl

@[simp] theorem withPorts_pending (c : PortCfg) (s : State) : (withPorts c s).pending = s.pending := rfl
@[simp] theorem withPorts_sysCnt (c : PortCfg) (s : State) : (withPorts c s).sysCnt = s.sysCnt := rfl
@[simp] theorem withPorts_seed (c : PortCfg) (s : State) : (withPorts c s).seed = s.seed := rfl
@[simp] theorem withPorts_pads (c : PortCfg) (s : State) : (withPorts c s).pads = s.pads := rfl
@[simp] theorem withPorts_cfg (c : PortCfg) (s : State) : (withPorts c s).cfg = { s.cfg with port := c } := rfl
@[simp] theorem withPorts_pwr (c : PortCfg) (s : State) : (withPorts c s).pwr = s.pwr := rfl
@[simp] theorem withPorts_life (c : PortCfg) (s : State) : (withPorts c s).life = s.life := rfl
@[simp] theorem withPorts_vint (c : PortCfg) (s : State) : (withPorts c s).vint = s.vint := rfl
@[simp] theorem withPorts_cmd (c : PortCfg) (s : State) : (withPorts c s).cmd = s.cmd := rfl
@[simp] theorem withPorts_flt (c : PortCfg) (s : State) : (withPorts c s).flt = s.flt := rfl
@[simp] theorem withPorts_clk (c : PortCfg) (s : State) : (withPorts c s).clk = s.clk := rfl
@[simp] theorem withPorts_inp (c : PortCfg) (s : State) : (withPorts c s).inp = s.inp := rfl
@[simp] theorem withPorts_filt (c : PortCfg) (s : State) : (withPorts c s).filt = s.filt := rfl
@[simp] theorem withPorts_outp (c : PortCfg) (s : State) : (withPorts c s).outp = s.outp := rfl
@[simp] theorem withPorts_hs (c : PortCfg) (s : State) : (withPorts c s).hs = s.hs := rfl
@[simp] theorem withPorts_port (c : PortCfg) (s : State) : (withPorts c s).port = s.port := rfl
@[simp] theorem withPorts_net (c : PortCfg) (s : State) : (withPorts c s).net = s.net := rfl
@[simp] theorem withPorts_gr (c : PortCfg) (s : State) : (withPorts c s).gr = s.gr := rfl
@[simp] theorem withPorts_mix (c : PortCfg) (s : State) : (withPorts c s).mix = s.mix := rfl
@[simp] theorem withPorts_coop (c : PortCfg) (s : State) : (withPorts c s).coop = s.coop := rfl
@[simp] theorem withPorts_latch (c : PortCfg) (s : State) : (withPorts c s).latch = s.latch := rfl

@[simp] theorem withDecant_pending (d : DecantCfg) (s : State) : (withDecant d s).pending = s.pending := rfl
@[simp] theorem withDecant_sysCnt (d : DecantCfg) (s : State) : (withDecant d s).sysCnt = s.sysCnt := rfl
@[simp] theorem withDecant_seed (d : DecantCfg) (s : State) : (withDecant d s).seed = s.seed := rfl
@[simp] theorem withDecant_pads (d : DecantCfg) (s : State) : (withDecant d s).pads = s.pads := rfl
@[simp] theorem withDecant_cfg (d : DecantCfg) (s : State) : (withDecant d s).cfg = { s.cfg with clock := { s.cfg.clock with decant := d } } := rfl
@[simp] theorem withDecant_pwr (d : DecantCfg) (s : State) : (withDecant d s).pwr = s.pwr := rfl
@[simp] theorem withDecant_life (d : DecantCfg) (s : State) : (withDecant d s).life = s.life := rfl
@[simp] theorem withDecant_vint (d : DecantCfg) (s : State) : (withDecant d s).vint = s.vint := rfl
@[simp] theorem withDecant_cmd (d : DecantCfg) (s : State) : (withDecant d s).cmd = s.cmd := rfl
@[simp] theorem withDecant_flt (d : DecantCfg) (s : State) : (withDecant d s).flt = s.flt := rfl
@[simp] theorem withDecant_clk (d : DecantCfg) (s : State) : (withDecant d s).clk = s.clk := rfl
@[simp] theorem withDecant_inp (d : DecantCfg) (s : State) : (withDecant d s).inp = s.inp := rfl
@[simp] theorem withDecant_filt (d : DecantCfg) (s : State) : (withDecant d s).filt = s.filt := rfl
@[simp] theorem withDecant_outp (d : DecantCfg) (s : State) : (withDecant d s).outp = s.outp := rfl
@[simp] theorem withDecant_hs (d : DecantCfg) (s : State) : (withDecant d s).hs = s.hs := rfl
@[simp] theorem withDecant_port (d : DecantCfg) (s : State) : (withDecant d s).port = s.port := rfl
@[simp] theorem withDecant_net (d : DecantCfg) (s : State) : (withDecant d s).net = s.net := rfl
@[simp] theorem withDecant_gr (d : DecantCfg) (s : State) : (withDecant d s).gr = s.gr := rfl
@[simp] theorem withDecant_mix (d : DecantCfg) (s : State) : (withDecant d s).mix = s.mix := rfl
@[simp] theorem withDecant_coop (d : DecantCfg) (s : State) : (withDecant d s).coop = s.coop := rfl
@[simp] theorem withDecant_latch (d : DecantCfg) (s : State) : (withDecant d s).latch = s.latch := rfl

/-! ### A powered port, a requester's register shadows and the thermal state. -/

@[simp] theorem setPd_pending (n : NetPort) (q : PdPort) (s : State) : (setPd n q s).pending = s.pending := by cases n <;> rfl
@[simp] theorem setPd_sysCnt (n : NetPort) (q : PdPort) (s : State) : (setPd n q s).sysCnt = s.sysCnt := by cases n <;> rfl
@[simp] theorem setPd_seed (n : NetPort) (q : PdPort) (s : State) : (setPd n q s).seed = s.seed := by cases n <;> rfl
@[simp] theorem setPd_pads (n : NetPort) (q : PdPort) (s : State) : (setPd n q s).pads = s.pads := by cases n <;> rfl
@[simp] theorem setPd_cfg (n : NetPort) (q : PdPort) (s : State) : (setPd n q s).cfg = s.cfg := by cases n <;> rfl
@[simp] theorem setPd_life (n : NetPort) (q : PdPort) (s : State) : (setPd n q s).life = s.life := by cases n <;> rfl
@[simp] theorem setPd_vint (n : NetPort) (q : PdPort) (s : State) : (setPd n q s).vint = s.vint := by cases n <;> rfl
@[simp] theorem setPd_cmd (n : NetPort) (q : PdPort) (s : State) : (setPd n q s).cmd = s.cmd := by cases n <;> rfl
@[simp] theorem setPd_flt (n : NetPort) (q : PdPort) (s : State) : (setPd n q s).flt = s.flt := by cases n <;> rfl
@[simp] theorem setPd_clk (n : NetPort) (q : PdPort) (s : State) : (setPd n q s).clk = s.clk := by cases n <;> rfl
@[simp] theorem setPd_inp (n : NetPort) (q : PdPort) (s : State) : (setPd n q s).inp = s.inp := by cases n <;> rfl
@[simp] theorem setPd_filt (n : NetPort) (q : PdPort) (s : State) : (setPd n q s).filt = s.filt := by cases n <;> rfl
@[simp] theorem setPd_outp (n : NetPort) (q : PdPort) (s : State) : (setPd n q s).outp = s.outp := by cases n <;> rfl
@[simp] theorem setPd_hs (n : NetPort) (q : PdPort) (s : State) : (setPd n q s).hs = s.hs := by cases n <;> rfl
@[simp] theorem setPd_port (n : NetPort) (q : PdPort) (s : State) : (setPd n q s).port = s.port := by cases n <;> rfl
@[simp] theorem setPd_net (n : NetPort) (q : PdPort) (s : State) : (setPd n q s).net = s.net := by cases n <;> rfl
@[simp] theorem setPd_gr (n : NetPort) (q : PdPort) (s : State) : (setPd n q s).gr = s.gr := by cases n <;> rfl
@[simp] theorem setPd_mix (n : NetPort) (q : PdPort) (s : State) : (setPd n q s).mix = s.mix := by cases n <;> rfl
@[simp] theorem setPd_coop (n : NetPort) (q : PdPort) (s : State) : (setPd n q s).coop = s.coop := by cases n <;> rfl
@[simp] theorem setPd_latch (n : NetPort) (q : PdPort) (s : State) : (setPd n q s).latch = s.latch := by cases n <;> rfl

@[simp] theorem setReadShadow_pending (r : Requester) (x : ReadShadow) (s : State) : (setReadShadow r x s).pending = s.pending := rfl
@[simp] theorem setReadShadow_sysCnt (r : Requester) (x : ReadShadow) (s : State) : (setReadShadow r x s).sysCnt = s.sysCnt := rfl
@[simp] theorem setReadShadow_seed (r : Requester) (x : ReadShadow) (s : State) : (setReadShadow r x s).seed = s.seed := rfl
@[simp] theorem setReadShadow_pads (r : Requester) (x : ReadShadow) (s : State) : (setReadShadow r x s).pads = s.pads := rfl
@[simp] theorem setReadShadow_cfg (r : Requester) (x : ReadShadow) (s : State) : (setReadShadow r x s).cfg = s.cfg := rfl
@[simp] theorem setReadShadow_pwr (r : Requester) (x : ReadShadow) (s : State) : (setReadShadow r x s).pwr = s.pwr := rfl
@[simp] theorem setReadShadow_life (r : Requester) (x : ReadShadow) (s : State) : (setReadShadow r x s).life = s.life := rfl
@[simp] theorem setReadShadow_vint (r : Requester) (x : ReadShadow) (s : State) : (setReadShadow r x s).vint = s.vint := rfl
@[simp] theorem setReadShadow_flt (r : Requester) (x : ReadShadow) (s : State) : (setReadShadow r x s).flt = s.flt := rfl
@[simp] theorem setReadShadow_clk (r : Requester) (x : ReadShadow) (s : State) : (setReadShadow r x s).clk = s.clk := rfl
@[simp] theorem setReadShadow_inp (r : Requester) (x : ReadShadow) (s : State) : (setReadShadow r x s).inp = s.inp := rfl
@[simp] theorem setReadShadow_filt (r : Requester) (x : ReadShadow) (s : State) : (setReadShadow r x s).filt = s.filt := rfl
@[simp] theorem setReadShadow_outp (r : Requester) (x : ReadShadow) (s : State) : (setReadShadow r x s).outp = s.outp := rfl
@[simp] theorem setReadShadow_hs (r : Requester) (x : ReadShadow) (s : State) : (setReadShadow r x s).hs = s.hs := rfl
@[simp] theorem setReadShadow_port (r : Requester) (x : ReadShadow) (s : State) : (setReadShadow r x s).port = s.port := rfl
@[simp] theorem setReadShadow_net (r : Requester) (x : ReadShadow) (s : State) : (setReadShadow r x s).net = s.net := rfl
@[simp] theorem setReadShadow_gr (r : Requester) (x : ReadShadow) (s : State) : (setReadShadow r x s).gr = s.gr := rfl
@[simp] theorem setReadShadow_mix (r : Requester) (x : ReadShadow) (s : State) : (setReadShadow r x s).mix = s.mix := rfl
@[simp] theorem setReadShadow_coop (r : Requester) (x : ReadShadow) (s : State) : (setReadShadow r x s).coop = s.coop := rfl
@[simp] theorem setReadShadow_latch (r : Requester) (x : ReadShadow) (s : State) : (setReadShadow r x s).latch = s.latch := rfl

@[simp] theorem setWriteShadow_pending (r : Requester) (x : WriteShadow) (s : State) : (setWriteShadow r x s).pending = s.pending := rfl
@[simp] theorem setWriteShadow_sysCnt (r : Requester) (x : WriteShadow) (s : State) : (setWriteShadow r x s).sysCnt = s.sysCnt := rfl
@[simp] theorem setWriteShadow_seed (r : Requester) (x : WriteShadow) (s : State) : (setWriteShadow r x s).seed = s.seed := rfl
@[simp] theorem setWriteShadow_pads (r : Requester) (x : WriteShadow) (s : State) : (setWriteShadow r x s).pads = s.pads := rfl
@[simp] theorem setWriteShadow_cfg (r : Requester) (x : WriteShadow) (s : State) : (setWriteShadow r x s).cfg = s.cfg := rfl
@[simp] theorem setWriteShadow_pwr (r : Requester) (x : WriteShadow) (s : State) : (setWriteShadow r x s).pwr = s.pwr := rfl
@[simp] theorem setWriteShadow_life (r : Requester) (x : WriteShadow) (s : State) : (setWriteShadow r x s).life = s.life := rfl
@[simp] theorem setWriteShadow_vint (r : Requester) (x : WriteShadow) (s : State) : (setWriteShadow r x s).vint = s.vint := rfl
@[simp] theorem setWriteShadow_flt (r : Requester) (x : WriteShadow) (s : State) : (setWriteShadow r x s).flt = s.flt := rfl
@[simp] theorem setWriteShadow_clk (r : Requester) (x : WriteShadow) (s : State) : (setWriteShadow r x s).clk = s.clk := rfl
@[simp] theorem setWriteShadow_inp (r : Requester) (x : WriteShadow) (s : State) : (setWriteShadow r x s).inp = s.inp := rfl
@[simp] theorem setWriteShadow_filt (r : Requester) (x : WriteShadow) (s : State) : (setWriteShadow r x s).filt = s.filt := rfl
@[simp] theorem setWriteShadow_outp (r : Requester) (x : WriteShadow) (s : State) : (setWriteShadow r x s).outp = s.outp := rfl
@[simp] theorem setWriteShadow_hs (r : Requester) (x : WriteShadow) (s : State) : (setWriteShadow r x s).hs = s.hs := rfl
@[simp] theorem setWriteShadow_port (r : Requester) (x : WriteShadow) (s : State) : (setWriteShadow r x s).port = s.port := rfl
@[simp] theorem setWriteShadow_net (r : Requester) (x : WriteShadow) (s : State) : (setWriteShadow r x s).net = s.net := rfl
@[simp] theorem setWriteShadow_gr (r : Requester) (x : WriteShadow) (s : State) : (setWriteShadow r x s).gr = s.gr := rfl
@[simp] theorem setWriteShadow_mix (r : Requester) (x : WriteShadow) (s : State) : (setWriteShadow r x s).mix = s.mix := rfl
@[simp] theorem setWriteShadow_coop (r : Requester) (x : WriteShadow) (s : State) : (setWriteShadow r x s).coop = s.coop := rfl
@[simp] theorem setWriteShadow_latch (r : Requester) (x : WriteShadow) (s : State) : (setWriteShadow r x s).latch = s.latch := rfl

@[simp] theorem withTh_pending (t : Thermal) (s : State) : (withTh t s).pending = s.pending := rfl
@[simp] theorem withTh_sysCnt (t : Thermal) (s : State) : (withTh t s).sysCnt = s.sysCnt := rfl
@[simp] theorem withTh_seed (t : Thermal) (s : State) : (withTh t s).seed = s.seed := rfl
@[simp] theorem withTh_pads (t : Thermal) (s : State) : (withTh t s).pads = s.pads := rfl
@[simp] theorem withTh_cfg (t : Thermal) (s : State) : (withTh t s).cfg = s.cfg := rfl
@[simp] theorem withTh_pwr (t : Thermal) (s : State) : (withTh t s).pwr = s.pwr := rfl
@[simp] theorem withTh_life (t : Thermal) (s : State) : (withTh t s).life = s.life := rfl
@[simp] theorem withTh_vint (t : Thermal) (s : State) : (withTh t s).vint = s.vint := rfl
@[simp] theorem withTh_cmd (t : Thermal) (s : State) : (withTh t s).cmd = s.cmd := rfl
@[simp] theorem withTh_flt (t : Thermal) (s : State) : (withTh t s).flt = { s.flt with th := t } := rfl
@[simp] theorem withTh_clk (t : Thermal) (s : State) : (withTh t s).clk = s.clk := rfl
@[simp] theorem withTh_inp (t : Thermal) (s : State) : (withTh t s).inp = s.inp := rfl
@[simp] theorem withTh_filt (t : Thermal) (s : State) : (withTh t s).filt = s.filt := rfl
@[simp] theorem withTh_outp (t : Thermal) (s : State) : (withTh t s).outp = s.outp := rfl
@[simp] theorem withTh_hs (t : Thermal) (s : State) : (withTh t s).hs = s.hs := rfl
@[simp] theorem withTh_port (t : Thermal) (s : State) : (withTh t s).port = s.port := rfl
@[simp] theorem withTh_net (t : Thermal) (s : State) : (withTh t s).net = s.net := rfl
@[simp] theorem withTh_gr (t : Thermal) (s : State) : (withTh t s).gr = s.gr := rfl
@[simp] theorem withTh_mix (t : Thermal) (s : State) : (withTh t s).mix = s.mix := rfl
@[simp] theorem withTh_coop (t : Thermal) (s : State) : (withTh t s).coop = s.coop := rfl
@[simp] theorem withTh_latch (t : Thermal) (s : State) : (withTh t s).latch = s.latch := rfl

/-! ### Reading a part after writing it, or another -/

theorem coreOf_setCore_same (k : Nat) (x : Core) (s : State) (h : tabWf {} s.coop = true) : coreOf (setCore k x s) k = x :=
  tget_tset_same _ _ _ _ h

theorem coreOf_setCore_ne (k j : Nat) (n : j ≠ k) (x : Core) (s : State) (h : tabWf {} s.coop = true) :
    coreOf (setCore k x s) j = coreOf s j := tget_tset_ne _ _ n _ h

theorem phOf_setPh_same (k : Nat) (x : Phantom) (s : State) (h : tabWf {} s.inp.ph = true) : phOf (setPh k x s) k = x :=
  tget_tset_same _ _ _ _ h

theorem phOf_setPh_ne (k j : Nat) (n : j ≠ k) (x : Phantom) (s : State) (h : tabWf {} s.inp.ph = true) :
    phOf (setPh k x s) j = phOf s j := tget_tset_ne _ _ n _ h

theorem chanIn_setChanIn_same (k : Nat) (x : ChanIn) (s : State) (h : tabWf {} s.inp.ch = true) : chanIn (setChanIn k x s) k = x :=
  tget_tset_same _ _ _ _ h

theorem chanIn_setChanIn_ne (k j : Nat) (n : j ≠ k) (x : ChanIn) (s : State) (h : tabWf {} s.inp.ch = true) :
    chanIn (setChanIn k x s) j = chanIn s j := tget_tset_ne _ _ n _ h

theorem inCfg_setInCfg_same (k : Nat) (x : InCfg) (s : State) (h : tabWf {} s.cfg.input.ch = true) : inCfg (setInCfg k x s) k = x :=
  tget_tset_same _ _ _ _ h

theorem inCfg_setInCfg_ne (k j : Nat) (n : j ≠ k) (x : InCfg) (s : State) (h : tabWf {} s.cfg.input.ch = true) :
    inCfg (setInCfg k x s) j = inCfg s j := tget_tset_ne _ _ n _ h

theorem rxSlot_setRxSlot_same (k : Nat) (x : RxSlot) (s : State) (h : tabWf {} s.net.rx = true) : rxSlot (setRxSlot k x s) k = x :=
  tget_tset_same _ _ _ _ h

theorem rxSlot_setRxSlot_ne (k j : Nat) (n : j ≠ k) (x : RxSlot) (s : State) (h : tabWf {} s.net.rx = true) :
    rxSlot (setRxSlot k x s) j = rxSlot s j := tget_tset_ne _ _ n _ h

theorem txSlot_setTxSlot_same (k : Nat) (x : TxSlot) (s : State) (h : tabWf {} s.net.tx = true) : txSlot (setTxSlot k x s) k = x :=
  tget_tset_same _ _ _ _ h

theorem txSlot_setTxSlot_ne (k j : Nat) (n : j ≠ k) (x : TxSlot) (s : State) (h : tabWf {} s.net.tx = true) :
    txSlot (setTxSlot k x s) j = txSlot s j := tget_tset_ne _ _ n _ h

theorem spkRt_setSpkRt_same (k : Nat) (x : SpkRt) (s : State) (h : tabWf {} s.outp.spk = true) : spkRt (setSpkRt k x s) k = x :=
  tget_tset_same _ _ _ _ h

theorem spkRt_setSpkRt_ne (k j : Nat) (n : j ≠ k) (x : SpkRt) (s : State) (h : tabWf {} s.outp.spk = true) :
    spkRt (setSpkRt k x s) j = spkRt s j := tget_tset_ne _ _ n _ h

theorem holdRt_setHoldRt_same (k : Nat) (x : HoldRt) (s : State) (h : tabWf {} s.outp.hold = true) : holdRt (setHoldRt k x s) k = x :=
  tget_tset_same _ _ _ _ h

theorem holdRt_setHoldRt_ne (k j : Nat) (n : j ≠ k) (x : HoldRt) (s : State) (h : tabWf {} s.outp.hold = true) :
    holdRt (setHoldRt k x s) j = holdRt s j := tget_tset_ne _ _ n _ h

theorem portRt_setPort_same (k : Nat) (x : PortRt) (s : State) (h : tabWf {} s.port = true) : portRt (setPort k x s) k = x :=
  tget_tset_same _ _ _ _ h

theorem portRt_setPort_ne (k j : Nat) (n : j ≠ k) (x : PortRt) (s : State) (h : tabWf {} s.port = true) :
    portRt (setPort k x s) j = portRt s j := tget_tset_ne _ _ n _ h

theorem coopCfg_setCoopCfg_same (k : Nat) (x : CoopCfg) (s : State) (h : tabWf {} s.cfg.coop = true) : coopCfg (setCoopCfg k x s) k = x :=
  tget_tset_same _ _ _ _ h

theorem coopCfg_setCoopCfg_ne (k j : Nat) (n : j ≠ k) (x : CoopCfg) (s : State) (h : tabWf {} s.cfg.coop = true) :
    coopCfg (setCoopCfg k x s) j = coopCfg s j := tget_tset_ne _ _ n _ h

theorem chainOf_setChain_same (p : Bool) (c : Nat) (x : FChain) (s : State)
    (h : tabWf {} (if p then s.filt.pour else s.filt.press) = true) : chainOf (setChain p c x s) p c = x := by
  cases p <;> exact tget_tset_same _ _ _ _ h

theorem chainOf_setChain_other (p q : Bool) (n : q ≠ p) (c j : Nat) (x : FChain) (s : State) :
    chainOf (setChain p c x s) q j = chainOf s q j := by
  cases p <;> cases q <;> first | rfl | exact absurd rfl n

theorem outRt_setOutRt_same (h : Handle) (x : OutRt) (s : State) (w : tabWf {} s.outp.out = true) :
    outRt (setOutRt h x s) h = x := tget_tset_same _ _ _ _ w

theorem hsRt_setHs_same (n : Nat) (x : HsRt) (s : State) : hsRt (setHs n x s) n = x := by
  unfold hsRt setHs; split <;> simp_all

theorem tasterOf_setTaster_same (t : Fin 2) (x : Taster) (s : State) : tasterOf (setTaster t x s) t = x := by
  unfold tasterOf setTaster; split <;> simp_all

theorem linkOf_setLink_same (l : LinkPort) (x : LinkRt) (s : State) : linkOf (setLink l x s) l = x := by
  cases l <;> rfl

end Sys2Proof.Machine
end

