-- ==== Sys2Proof/Tests/Slice0.lean ====
section
/-! SUPPORT. Tests: ill-formed commands that the form check refuses, words of Cooper instructions written out from their tables,
worked examples of the manual, and for every statement a state and operands that meet the hypotheses of its clauses. -/

namespace Sys2Proof.Tests

set_option Elab.async false

open Sys2Proof.Machine Sys2Proof.Safety

/-! ### Small states and packets -/

/-- A packet over SPI, class 0. -/
def h0 : Hdr := ⟨0, .spi, .neta, 1, 0, false, none⟩
/-- The same, timed. -/
def hT (t : Nat) : Hdr := { h0 with timed := some (BitVec.ofNat 64 t) }
/-- A packet of a requester on NETA, signed with key 1. -/
def hN : Hdr := ⟨0, .net 0x0A000001 4750 (some 1), .neta, 1, 0, false, none⟩
/-- A state in a mode, SPI holding the expert session. -/
def sm (m : Mode) : State := { life := { mode := m }, cmd := { expert := some ⟨.spi, 300, 0⟩ } }
def s0 : State := sm .hold
/-- Bytes. -/
def bs (l : List Nat) : Bytes := l.map (BitVec.ofNat 8)
/-- Bytes followed by zeros up to a length. -/
def bz (n : Nat) (l : List Nat) : Bytes := bs l ++ zeros (n - l.length)
/-- The state a packet's own effect starts from. -/
def du (o : Op) (p : Bytes) (s : State) : State := during o h0 p s
/-- The packet is executed. -/
def ok (o : Op) (p : Bytes) (s : State) : Bool := ready o h0 p s
/-- The state after a step of a command. -/
def after (c : Instr) (s : State) : State := match exec c s with | .next t => t | _ => s
/-- Replies over SPI: statuses and payloads. -/
def replies (s : State) : List (Status × Bytes) := s.cmd.store.map (fun r => (r.status, r.payload))
/-- Every board interface declared. -/
def board : BoardCfg :=
  { ainWired := 0xFFFFFFFF, tdmWired := 15, aesWired := 255, hsWired := 3, spkWired := 3, miscWired := 255, hostnetMode := 1 }

/-! ### Ill-formed commands -/

theorem test_wf_payload_too_long : (Instr.nop h0 (zeros 4097)).wf = false := by decide +kernel
theorem test_wf_timed_payload_too_long : (Instr.gainSet (hT 0) (zeros 4089)).wf = false := by decide +kernel
theorem test_wf_datagram_too_long : (Instr.nop hN (zeros 1401)).wf = false := by decide +kernel
theorem test_wf_register_offset : (Instr.coopRegisterWrite h0 0 2 0).wf = false := by decide
theorem test_wf_tick_twice : (Instr.frameTick 0 ⟨[(0, ⟨[], [], false⟩), (0, ⟨[1], [], false⟩)], 0, 0⟩).wf = false := by decide
theorem test_wf_sensors : (Instr.thermalSensorRead 0 [25000]).wf = false := by decide
theorem test_wf_tick_samples : (Instr.frameTick 0 ⟨[(0, ⟨List.replicate 257 0, [], false⟩)], 0, 0⟩).wf = false := by
  decide +kernel
theorem test_wf_slots : (Instr.tdmFrameReceived 0 0 ⟨List.replicate 33 0, 256, 4167, 12288000⟩).wf = false := by decide
theorem test_wf_status_block : (Instr.aesCsBlockComplete 0 0 0 (zeros 23) (zeros 24) 192).wf = false := by decide
theorem test_wf_same_pointer : (Instr.ldd 0 ⟨0, 1, 2, 2, .inc, .inc⟩).wf = false := by decide
theorem test_wf_move_same_pointer : (Instr.mac 0 ⟨false, 0, 0, 0, .ldd ⟨0, 1, 2, 2, .inc, .inc⟩⟩).wf = false := by decide
theorem test_wf_shift_count : (Instr.shl 0 (.data 0 0 (.imm 32))).wf = false := by decide
theorem test_wf_round_width : (Instr.rnd 0 (.data 0 0 7)).wf = false := by decide
theorem test_wf_saturate_width : (Instr.sat 0 (.data 0 0 7)).wf = false := by decide
theorem test_wf_repeat_count : (Instr.rep 0 1 0).wf = false := by decide
theorem test_wf_scan_pointers : (Instr.bexp 0 ⟨0, 0, .inc, .inc, true, 256⟩).wf = false := by decide
theorem test_wf_scan_count : (Instr.bexp 0 ⟨0, 4, .inc, .inc, true, 0⟩).wf = false := by decide
theorem test_wf_admits : (Instr.bexp 0 ⟨0, 4, .inc, .inc, true, 4095⟩).wf = true ∧ (Instr.nop h0 (zeros 4096)).wf = true := by
  decide +kernel

/-! ### Words of Cooper instructions, bit by bit from R483 to R486 -/

/-- The loop of R490: MAC.D A0, D0, D2 || LDD D1,(P0)+4 D3,(P4)+N4%M4. -/
theorem test_word_mac : coopDecode 0b1_00_1_00_0000_0010_01_001_011_000_100_01_11#32 =
    some (.mac ⟨true, 0, 0, 2, .ldd ⟨1, 3, 0, 4, .inc, .modulo⟩⟩) := by decide
theorem test_word_msu : coopDecode 0b1_01_0_11_0001_1111_00_0000000000000000#32 = some (.msu ⟨false, 3, 1, 15, .none⟩) := by decide
theorem test_word_mpy_load : coopDecode 0b1_10_0_01_0010_0011_10_1010_111_10_0000000#32 =
    some (.mpy ⟨false, 1, 2, 3, .ld 10 7 .off⟩) := by decide
theorem test_word_mpy_store : coopDecode 0b1_10_0_01_0010_0011_11_1_0010_101_01_000000#32 =
    some (.mpy ⟨false, 1, 2, 3, .st (.acc 2) 5 .inc⟩) := by decide
/-- ADD D6, D6, D7 of R499. -/
theorem test_word_add : coopDecode 0b0_00001_0_0110_0110_0_000000000000_0111#32 = some (.add (.data 6 6 (.reg 7))) := by decide
theorem test_word_add_acc : coopDecode 0b0_00001_1_0011_0001_0_00000000000000_10#32 = some (.add (.acc 3 1 2)) := by decide
theorem test_word_sub : coopDecode 0b0_00010_0_0001_0010_1_1111111111111111#32 = some (.sub (.data 1 2 (.imm 0xFFFF))) := by decide
/-- AND D6, D6, #0x18 of R499. -/
theorem test_word_and : coopDecode 0b0_00011_0_0110_0110_1_0000000000011000#32 = some (.and ⟨6, 6, .imm 0x18⟩) := by decide
theorem test_word_or : coopDecode 0b0_00100_0_0001_0010_0_000000000000_0011#32 = some (.or ⟨1, 2, .reg 3⟩) := by decide
theorem test_word_xor : coopDecode 0b0_00101_0_0001_0010_0_000000000000_0011#32 = some (.xor ⟨1, 2, .reg 3⟩) := by decide
theorem test_word_shl_acc : coopDecode 0b0_00110_1_0010_0001_1_0000000001000111#32 = some (.shl (.acc 2 1 (.imm 71))) := by decide
/-- ASR D6, D6, #27 of R499. -/
theorem test_word_asr : coopDecode 0b0_00111_0_0110_0110_1_0000000000011011#32 = some (.asr (.data 6 6 (.imm 27))) := by decide
theorem test_word_norm : coopDecode 0b0_01000_1_1001_0010_0_0000000000000000#32 = some (.norm (.acc 9 2)) := by decide
theorem test_word_rnd : coopDecode 0b0_01001_0_0001_0010_1_0000000000010000#32 = some (.rnd (.data 1 2 16)) := by decide
theorem test_word_sat : coopDecode 0b0_01010_1_0001_0010_0_0000000000000000#32 = some (.sat (.acc 1 2)) := by decide
theorem test_word_cmp : coopDecode 0b0_01011_0_0000_0010_1_0000000000000001#32 = some (.cmp (.data 2 (.imm 1))) := by decide
/-- LD D6, (P3)+4 of R499. -/
theorem test_word_ld : coopDecode 0b0_01100_00_0110_011_01_0_00000000000000#32 = some (.ld (.mem 6 3 (.post .inc))) := by decide
/-- LD D5, (P2+1) of R499. -/
theorem test_word_ld_disp : coopDecode 0b0_01100_00_0101_010_00_1_00000000000001#32 = some (.ld (.mem 5 2 (.disp 1))) := by decide
/-- LD P2, D6 of R499: code 18 from code 6. -/
theorem test_word_ld_reg : coopDecode 0b0_01100_11_010010_000110_000000000000#32 = some (.ld (.reg 18 6)) := by decide
theorem test_word_ld_low : coopDecode 0b0_01100_01_101001_00_0000000000000011#32 = some (.ld (.immLow 41 3)) := by decide
theorem test_word_ld_high : coopDecode 0b0_01100_10_000001_00_1000000000000000#32 = some (.ld (.immHigh 1 0x8000)) := by decide
/-- LDD D0,(P0)+N0%M0 D1,(P4)+N4%M4 of R499. -/
theorem test_word_ldd : coopDecode 0b0_01101_0000000000_000_001_000_100_11_11#32 =
    some (.ldd ⟨0, 1, 0, 4, .modulo, .modulo⟩) := by decide
/-- ST D2, (P1)+N1%M1 of R499. -/
theorem test_word_st : coopDecode 0b0_01110_0_0010_001_11_0_0_00000000000000#32 =
    some (.st ⟨.data 2, 1, .post .modulo⟩) := by decide
theorem test_word_br : coopDecode 0b0_10000_0001_0_0000000_00000000000101#32 = some (.br 1 (.imm 5)) := by decide
theorem test_word_br_reg : coopDecode 0b0_10000_1100_1_000_1111_00000000000000#32 = some (.br 12 (.reg 15)) := by decide
theorem test_word_call : coopDecode 0b0_10001_0000_0_0000000_11111111111111#32 = some (.call (.imm 0x3FFF)) := by decide
theorem test_word_ret : coopDecode 0b0_10010_00000000000000000000000000#32 = some .ret := by decide
/-- REP #256, 2 of R490. -/
theorem test_word_rep : coopDecode 0b0_10011_0000000001_0000000100000000#32 = some (.rep 1 256) := by decide
theorem test_word_rep_register : coopDecode 0b0_11010_1111111111_000000000000_0101#32 = some (.repReg 1023 5) := by decide
theorem test_word_endrep : coopDecode 0b0_10100_0010_0000000000000000000000#32 = some (.endrep 2) := by decide
theorem test_word_wait : coopDecode 0b0_10101_0000000000000000000000_1010#32 = some (.wait 10) := by decide
theorem test_word_blkdone : coopDecode 0b0_10110_00000000000000000000000000#32 = some .blkdone := by decide
theorem test_word_halt : coopDecode 0b0_10111_00000000000000000000000000#32 = some .halt := by decide
/-- ACS D2, D0.L, D1.L, D4 of R499. -/
theorem test_word_acs : coopDecode 0b0_11000_0010_0000_0001_0100_0_0_0_0000000#32 =
    some (.acs ⟨2, 0, 1, 4, false, false, false⟩) := by decide
/-- BEXP P0, P4, #256, CLR of R500. -/
theorem test_word_bexp : coopDecode 0b0_11001_000_100_01_01_1_000_000100000000#32 =
    some (.bexp ⟨0, 4, .inc, .inc, true, 256⟩) := by decide
/-- Illegal words: zero (R482), equal pointers, a condition of 13, a bit shown as zero, an unlisted opcode, T and I set. -/
theorem test_word_illegal : coopDecode 0#32 = none ∧ coopDecode 0b0_11001_000_000_01_01_1_000_000100000000#32 = none ∧
    coopDecode 0b0_10000_1101_0_0000000_00000000000101#32 = none ∧
    coopDecode 0b0_10110_00000000000000000000000001#32 = none ∧ coopDecode 0b0_01111_00000000000000000000000000#32 = none ∧
    coopDecode 0b0_00001_1_0011_0001_1_00000000000000_10#32 = none := by decide

/-! ### Hypotheses that are met: the block, packets, the queue -/

theorem test_runs_front : step { s0 with pending := [.nop h0 [], .nop h0 [1]] } = exec (.nop h0 []) { s0 with pending := [.nop h0 [1]] } :=
  rfl
theorem test_idle : s0.pending = [] ∧ step s0 = .next s0 := ⟨rfl, rfl⟩
theorem test_next : ∃ t, exec (.resetNLow 0) s0 = .next t := ⟨_, rfl⟩
theorem test_due_legal : (∀ x ∈ s0.life.lifeDue, lifeStep s0.life.state x.1 = true) ∧
    ∃ t, exec (.resetNLow 0) s0 = .next t := ⟨(by intro x h; cases h), _, rfl⟩
theorem test_full : s0.Full := by unfold State.Full queueFits; decide
theorem test_full_step : State.reset.Full ∧ ∃ t, step State.reset = .next t := ⟨(by unfold State.Full queueFits; decide), _, rfl⟩
theorem test_deaf : packetOf (.nop h0 []) = some (.nop, h0, []) ∧ accepting (advance 0 State.reset) = false := by decide
/-- REG_READ outside an expert session (R171), a key that is not installed (R141), an opcode that needs one, and a ninth requester
(R144). -/
theorem test_refused : let s : State := { life := { mode := .hold } }
    let full : State := { s with cmd := { sessions := (List.range 8).map (fun i => some ⟨.net (BitVec.ofNat 32 i) 1 none, .neta, 0⟩) } }
    packetOf (.regRead h0 []) = some (.regRead, h0, []) ∧ accepting (advance 0 s) = true ∧
      isQueued .regRead h0 [] (advance 0 s).cmd = false ∧ (admission .regRead h0 [] (advance 0 s)).1 = .wrongMode ∧
      (admission .nop hN [] (advance 0 s)).1 = .authFail ∧ check5 .nop hN.rq (advance 0 s) = 2 ∧
      check5 .timeRead (.net 1 1 none) s = 4 ∧ (admission .nop { hN with rq := .net 0x0A000001 1 none } [] full).1 = .noResource ∧
      (admission .nop { hN with rq := .net 3 1 none } [] full).1 = .ok := by decide +kernel
/-- Queued commands that are selected and that the mode no longer permits; a second one that waits behind the first. -/
theorem test_refused_queued : let q (t : BitVec 16) : Queued := ⟨.devRun, { h0 with tag := t }, [], 0, false, 0⟩
    let s : State := { life := { mode := .service }, cmd := { queue := [q 1, q 2] } }
    let h2 : Hdr := { h0 with tag := 2 }
    accepting (advance 0 s) = true ∧ isQueued .devRun h0 [] (advance 0 s).cmd = true ∧
      selected .devRun h0 [] (during .devRun h0 [] s).cmd = true ∧
      check9and10 .devRun h0 (during .devRun h0 [] s) = .wrongMode ∧ isQueued .devRun h2 [] (advance 0 s).cmd = true ∧
      selected .devRun h2 [] (during .devRun h2 [] s).cmd = false := by decide +kernel
/-- An admitted packet that a running command keeps waiting. -/
theorem test_waits : let s : State := { s0 with cmd := { s0.cmd with running := some ⟨.timeRead, { h0 with tag := 9 }, [], 0, false, 0⟩ } }
    (admission .nop h0 [] (advance 0 s)).1 = .ok ∧ selected .nop h0 [] (during .nop h0 [] s).cmd = false := by decide +kernel
theorem test_bad_length : packetOf (.devInfo h0 [0]) = some (.devInfo, h0, [0]) ∧ ok .devInfo [0] s0 = true ∧
    payloadLen .devInfo = some 0 ∧ ([0] : Bytes).length ≠ 0 := by decide
theorem test_reply_form : 2 ≤ statusClass .badLength ∧ statusClass .ok < 2 ∧ ({ h0 with noReply := true } : Hdr).noReply = true := by
  decide
/-- The first of two of one class, an aged one ahead of class 1, and none while fifteen replies wait. -/
theorem test_selects : let q (t : BitVec 16) (c : Fin 4) (a : Bool) : Queued := ⟨.nop, { h0 with tag := t, cls := c }, [], 0, a, 0⟩
    let c : Cmd := { queue := [q 1 1 false, q 2 0 true, q 3 1 false] }
    let d : Cmd := { c with store := List.replicate 15 ⟨0, 0, .ok, [], 1⟩ }
    c.running = none ∧ c.preempted = [] ∧ bestQueued selClass c c.queue = some (q 2 0 true) ∧
      bestQueued selClass c [q 1 1 false, q 3 1 false] = some (q 1 1 false) ∧ (∀ r ∈ d.queue, mayStart d r = false) := by decide
theorem test_preempts : let q (t : BitVec 16) (c : Fin 4) : Queued := ⟨.nop, { h0 with tag := t, cls := c }, [], 0, false, 0⟩
    let s : State := { s0 with cmd := { running := some (q 1 1), queue := [q 2 2] } }
    (advance 0 s).cmd.running = some (q 1 1) ∧
      bestQueued (fun x => x.hdr.cls) (advance 0 s).cmd ((advance 0 s).cmd.queue.filter (fun x => decide ((q 1 1).hdr.cls < x.hdr.cls))) =
        some (q 2 2) := by decide
theorem test_notice_due : (advance 0 { s0 with cmd := { noticeDue := true } }).cmd.noticeDue = true := by decide

/-- Key 1 is installed, and its requester holds session 2. -/
def sn : State := { s0 with life := { mode := .hold, netKeys := lset (List.replicate 16 none) 1 (some (zeros 32)) },
                            cmd := { s0.cmd with sessions := lset (List.replicate 8 none) 2 (some ⟨hN.rq, .neta, 0⟩) } }

/-! ### The device -/

theorem test_device_reports : ok .devInfo [] s0 = true ∧ ok .devState [] s0 = true ∧ ok .lifeState [] s0 = true ∧
    ok .timeRead [] s0 = true ∧ ok .testLoop [7] s0 = true ∧ ok .nop [] s0 = true := by decide
theorem test_loop_long : ok .testLoop (zeros 1401) s0 = true ∧ 1400 < (zeros 1401).length := by decide +kernel
theorem test_nop : ok .nop (bs [5, 0, 0, 0]) s0 = true ∧ u16 (bs [5, 0, 0, 0]) 2 = 0 ∧ ok .nop [1] s0 = true := by decide
theorem test_dev_run : ok .devRun (bs [0x10, 0x27, 0, 0]) s0 = true ∧ u32 (bs [0x10, 0x27, 0, 0]) 0 = 10000 := by decide
theorem test_dev_reset : let p := bs [1, 0, 0, 0]
    ok .devReset p s0 = true ∧ p.length = 4 ∧ u8 p 0 ≤ 1 ∧ zeroAt p 1 3 = true := by decide
theorem test_event_mask : let p := bs [0xFF, 1, 0, 0]
    ok .eventMask p s0 = true ∧ p.length = 4 ∧ u8 p 1 ≤ 1 ∧ u16 p 2 = 0 ∧ ready .eventMask hN p sn = true ∧
      (landCommand sn ⟨.eventMask, hN, p, false, 0, false⟩).cmd.listener = some hN.rq ∧
      (landCommand s0 ⟨.eventMask, hN, p, false, 0, false⟩).cmd.listener = none := by decide +kernel
theorem test_net_auth : let p := bs [1, 0, 2, 0, 0, 0, 0, 0]
    ready .netAuthSet hN p sn = true ∧ ok .netAuthSet p s0 = true ∧ p.length = 8 ∧ u8 p 0 ≤ 1 ∧ u8 p 1 = 0 ∧ u32 p 4 = 0 ∧
      (BitVec.ofNat 16 (u16 p 2)).getLsbD 1 = true := by decide
theorem test_test_self : let p := bs [31, 0, 0, 0, 0, 0, 0, 0]
    ok .testSelf p s0 = true ∧ p.length = 8 ∧ u32 p 0 ≠ 0 ∧ u32 p 0 ≤ 31 ∧ u32 p 4 = 0 ∧
      (du .testSelf p s0).life.testSelf = none := by decide
theorem test_test_self_complete : (advance 0 { life := { testSelf := some 31 } }).life.testSelf = some 31 := by decide
theorem test_fw_begin : let p := bs [0, 0, 0x70, 0, 1, 0, 0, 0]
    ok .fwBegin p s0 = true ∧ p.length = 8 ∧ 256 ≤ u32 p 0 ∧ u32 p 0 ≤ 7340032 ∧ u8 p 4 ≤ 1 ∧ zeroAt p 5 3 = true ∧
      (du .fwBegin p s0).life.image ≠ some (Fin.ofNat 2 (u8 p 4)) ∧ (du .fwBegin p s0).life.fwErasing = false := by decide
theorem test_fw_erase : (advance 0 { life := { fwErasing := true } }).life.fwErasing = true := by decide
/-- The last word of an image of 8 bytes. -/
theorem test_fw_data : let p := bs [4, 0, 0, 0, 9, 9, 9, 9]
    let s : State := { s0 with life := { mode := .hold, imageB := .loaded (zeros 4) false, fwTarget := some (1, 8) } }
    ok .fwData p s = true ∧ 4 ≤ p.length ∧ (du .fwData p s).life.fwTarget = some (1, 8) ∧
      imageOf (du .fwData p s).life 1 = .loaded (zeros 4) false ∧ u32 p 0 = (zeros 4).length ∧
      (zeros 4).length + (p.length - 4) ≤ 8 ∧ (du .fwData p s).life.fwErasing = false ∧ ok .fwEnd [] s = true ∧
      (du .fwEnd [] s).life.fwTarget = some (1, 8) ∧ imageOf (du .fwEnd [] s).life 1 = .loaded (zeros 4) false ∧
      (du .fwEnd [] s).life.fwErasing = false := by decide
theorem test_fw_select : let p := bs [0, 0, 0, 0]
    let q := bs [1, 1, 0, 0]
    let s : State := { s0 with life := { mode := .hold, trialBoot := true, image := some 1 } }
    ok .fwSelect p s = true ∧ u8 p 0 = 0 ∧ imageBoots (imageOf (du .fwSelect p s).life 0) (du .fwSelect p s).life.minSec = true ∧
      ok .fwSelect q s = true ∧ u8 q 0 = 1 ∧ u8 q 1 ≤ 1 ∧ u16 q 2 = 0 ∧ (du .fwSelect q s).life.trialBoot = true ∧
      (du .fwSelect q s).life.image = some (Fin.ofNat 2 (u8 q 1)) := by decide
theorem test_expert_open : let p := bs [10, 0, 0, 0]
    ok .expertOpen p { s0 with cmd := {} } = true ∧ (du .expertOpen p { s0 with cmd := {} }).cmd.expert = none ∧
      u16 p 0 = 10 ∧ u16 p 2 = 0 ∧ ready .expertOpen hN p sn = true ∧
      (during .expertOpen hN p sn).cmd.expert = some ⟨.spi, 300, 0⟩ ∧ Requester.spi ≠ hN.rq := by decide
theorem test_expert_close : ok .expertClose [] s0 = true ∧ (du .expertClose [] s0).cmd.expert = some ⟨.spi, 300, 0⟩ := by decide
theorem test_expert_idle : let s : State := { s0 with life := { mode := .hold, crystal := true } }
    (advance 60000000000 s).cmd.expert = some ⟨.spi, 300, 0⟩ ∧ 0 + 300 * secCounts ≤ (advance 60000000000 s).sysCnt := by decide
theorem test_session_idle : let x : Session := ⟨hN.rq, .neta, 0⟩
    let s : State := { life := { mode := .hold, crystal := true }, cmd := { sessions := [none, some x] } }
    (advance 12000000000 s).cmd.sessions.getD 1 none = some x ∧ x.last + 60 * secCounts ≤ (advance 12000000000 s).sysCnt := by
  decide
theorem test_key_install : let p := bz 36 [1, 15, 32, 0]
    let q := bz 68 [2, 0, 64, 0]
    ok .keyInstall p s0 = true ∧ checkKeyInstall p (du .keyInstall p s0) = .ok ∧ u8 p 0 = 1 ∧
      ok .keyInstall q s0 = true ∧ checkKeyInstall q (du .keyInstall q s0) = .ok ∧ u8 q 0 ≠ 1 := by decide


/-! ### Codes: the check values of their standards -/

/-- The check value of R129. -/
theorem test_crc32c : crc32c (bs [0x31, 0x32, 0x33, 0x34, 0x35, 0x36, 0x37, 0x38, 0x39]) = 0xE3069283 := by decide +kernel
/-- FIPS 180-4, "abc". -/
theorem test_sha256 : sha256 (bs [0x61, 0x62, 0x63]) = bs [0xba, 0x78, 0x16, 0xbf, 0x8f, 0x01, 0xcf, 0xea, 0x41, 0x41, 0x40, 0xde,
    0x5d, 0xae, 0x22, 0x23, 0xb0, 0x03, 0x61, 0xa3, 0x96, 0x17, 0x7a, 0x9c, 0xb4, 0x10, 0xff, 0x61, 0xf2, 0x00, 0x15, 0xad] := by
  decide +kernel
/-- RFC 4231, test case 2: key "Jefe", "what do ya want for nothing?". -/
theorem test_hmac : (hmacSha256 (bs [0x4a, 0x65, 0x66, 0x65]) (bs [0x77, 0x68, 0x61, 0x74, 0x20, 0x64, 0x6f, 0x20, 0x79, 0x61, 0x20,
    0x77, 0x61, 0x6e, 0x74, 0x20, 0x66, 0x6f, 0x72, 0x20, 0x6e, 0x6f, 0x74, 0x68, 0x69, 0x6e, 0x67, 0x3f])).take 8 =
    bs [0x5b, 0xdc, 0xc1, 0x46, 0xbf, 0x60, 0x75, 0x4e] := by decide +kernel

/-! ### Transport -/

/-- The bytes of a packet without payload: version, opcode, flags, class and a CRC. -/
def pkt (ver code flags cls : Nat) : Bytes :=
  let b := bs [0xCE, ver] ++ le 2 code ++ le 2 7 ++ bs [flags, cls] ++ le 4 0
  b ++ le 4 (crc32c b).toNat
/-- NETA up. -/
def sNet : State := { s0 with net := { a := { link := 1 } } }
/-- NETA up and a network key installed. -/
def sKey : State := { sNet with life := { mode := .hold, netKeys := lset (List.replicate 16 none) 3 (some (zeros 32)) } }
/-- A packet with its trailer: key 3, a counter, the tag under the key of zeros and the nonce 0. -/
def signed (b : Bytes) (n : Nat) : Bytes :=
  b ++ bs [3] ++ le 8 n ++ (hmacSha256 (zeros 32) (b ++ zeros 8 ++ bs [3] ++ le 8 n)).take 16

theorem test_admitted : let f := pkt 2 7 0 1
    let k := parsePacket f
    let t := { advance 0 s0 with cmd := { (advance 0 s0).cmd with miso := 0x5A :: zeros f.length } }
    accepting (advance 0 s0) = true ∧ (advance 0 s0).cmd.inBuf = [] ∧ (advance 0 s0).cmd.holding.length < 64 ∧
    f.length = 16 + paddedLen k.plen ∧ k.plen ≤ 4096 ∧ u8 f 0 = 0xCE ∧ u8 f 1 = 2 ∧ packetCrc f k.plen = k.hcrc ∧
    opOfCode k.opcode = some .timeRead ∧ check7 k true (some .timeRead) = true ∧ check9and10 .timeRead (hdrOf k .spi .neta) t = .ok ∧
    k.flags % 2 = 0 ∧ t.cmd.queue.length < 60 := by decide +kernel
theorem test_admission_refused : let f := pkt 1 7 0 1
    let g := (pkt 2 7 0 1).take 12 ++ zeros 4
    let q : Queued := ⟨.timeRead, h0, [], 0, false, 0⟩
    let s : State := { s0 with cmd := { queue := List.replicate 60 q } }
    f.length = 16 ∧ (parsePacket f).plen = 0 ∧ u8 f 0 = 0xCE ∧ u8 f 1 ≠ 2 ∧ u8 g 1 = 2 ∧
    packetCrc g 0 ≠ (parsePacket g).hcrc ∧ 60 ≤ (advance 0 s).cmd.queue.length ∧ accepting (advance 0 s) = true := by
  decide +kernel
theorem test_replies : let r : Reply := ⟨0, 0, .ok, [], 1⟩
    let s : State := { s0 with cmd := { store := [r] } }
    accepting (advance 0 s) = true ∧ (advance 0 s).cmd.store = [r] ∧ 15 < (encodeReply r).length ∧ (encodeReply r).length ≤ 16 ∧
    (advance 0 s).cmd.inBuf = [] ∧ (advance 0 s0).cmd.store = [] := by decide +kernel
theorem test_reply_places : let r (c : Fin 4) : Reply := ⟨0, 0, .ok, [], c⟩
    let c (n : Nat) : Cmd := { store := List.replicate n (r 1) }
    (c 15).store.length < 16 ∧ 16 ≤ (c 16).store.length ∧ (c 14).holding = [] ∧ lowPlaces (c 14).store < 15 ∧
    15 ≤ lowPlaces (c 15).store ∧ spiPut (r 3) (c 15) = { c 15 with store := (c 15).store ++ [r 3] } := by decide +kernel
theorem test_datagram_open : let b := pkt 2 0 0 1
    let t := countRx .neta (advance 0 sNet)
    accepting (advance 0 sNet) = true ∧ modeUp (advance 0 sNet).life.mode = true ∧ linkDeclared (advance 0 sNet) .neta = true ∧
    linkIsUp (advance 0 sNet) .neta = true ∧ 16 ≤ b.length ∧ u8 b 0 = 0xCE ∧ u8 b 1 = 2 ∧ (parsePacket b).plen ≤ 1400 ∧
    b.length = 16 + paddedLen (parsePacket b).plen + 0 ∧ packetCrc b 0 = (parsePacket b).hcrc ∧
    authCheck t b (parsePacket b) = .open ∧ authCheck t (pkt 2 7 0 1) (parsePacket (pkt 2 7 0 1)) = .refused .authFail 4 := by
  decide +kernel
theorem test_datagram_signed : let b := signed (pkt 2 0 4 1) 9
    let t := countRx .neta (advance 0 sKey)
    accepting (advance 0 sKey) = true ∧ linkIsUp (advance 0 sKey) .neta = true ∧ (parsePacket b).flags / 4 % 2 = 1 ∧
    b.length = 16 + paddedLen (parsePacket b).plen + 25 ∧ packetCrc b 0 = (parsePacket b).hcrc ∧
    authCheck t b (parsePacket b) = .key 3 9 ∧ authCheck { t with cmd := { t.cmd with keyHigh := [(3, 9)] } } b (parsePacket b) =
      .refused .replay 3 := by decide +kernel
theorem test_ageing : let q : Queued := ⟨.nop, h0, [], 0, false, 0⟩
    let s : State := { s0 with life := { mode := .hold, crystal := true }, cmd := { queue := [q], running := some q } }
    q.since + 400000000 ≤ (advance 400000000 s).sysCnt := by decide
theorem test_interrupt : irqLow { s0 with cmd := { store := [⟨0, 0, .ok, [], 1⟩] }, cfg := { event := { irqMask := 3 } } } = true ∧
    irqLow { s0 with cmd := { store := [⟨0, 0, .ok, [], 1⟩] } } = false := by decide

/-! ### Faults, temperature, supply voltage -/

/-- A fault of a code that is a condition, detected. -/
def sFault : State := raise .outputShort 0x1800 0 7 s0

theorem test_fault_read : let p (k : Nat) := bs [k, 32, 0, 0]
    ok .faultRead (p 0) sFault = true ∧ ok .faultRead (p 1) sFault = true ∧ ok .faultRead (p 2) sFault = true ∧
    u8 (p 2) 0 = 2 ∧ u8 (p 0) 1 = 32 ∧ (du .faultRead (p 0) sFault).flt.queue.length = 1 := by decide
theorem test_fault_ack : let p := bs [1, 0, 0, 0, 0, 0, 0, 0]
    ok .faultAck p sFault = true ∧ 1 ≤ u8 p 0 ∧ u8 p 0 ≤ 32 ∧ zeroAt p 1 3 = true ∧ p.length = 4 + paddedLen (u8 p 0) ∧
    zeroAt p (4 + u8 p 0) (paddedLen (u8 p 0) - u8 p 0) = true ∧ (ackAll [0] (du .faultAck p sFault).flt.queue).1 = [] := by decide
theorem test_fault_log : (advance 0 (raise .thermalWarn 0 0 0 s0)).flt.logPending ≠ [] := by decide
theorem test_coalesces : isCondition .outputShort = true ∧ inForce .outputShort 0x1800 0 sFault = true ∧
    isCondition .portGlitch = false ∧ (queuedRec .portGlitch 0x1800 0 (raise .portGlitch 0x1800 0 0 s0)).isSome = true ∧
    inForce .outputShort 0 0 s0 = false := by decide
theorem test_overflow : let r (c : FaultClass) : FaultRec := ⟨.portGlitch, c, false, false, 0, 0, 0, 0, 0, 0, 0⟩
    queueFits [] ∧ placeOpen .port [] = true ∧ queueFits (List.replicate 28 (r .port)) ∧
    placeOpen .port (List.replicate 28 (r .port)) = false ∧
    (enqueue .note (r .note) (List.replicate 28 (r .port))).2.1 = false := by unfold queueFits; decide
theorem test_thermal_status : ok .thermalStatus [] s0 = true := by decide
/-- A fourth reading at 125 °C after three at 105 °C and more. -/
theorem test_readings : let s : State := { s0 with pwr := { aoOn := true }, flt := { th := { over105 := 3, over125 := 3 } } }
    let t : List Int := 125000 :: List.replicate 7 0
    let v := takeTemps t (advance 0 s)
    (advance 0 s).pwr.aoOn = true ∧ (advance 0 s).pwr.loss = none ∧ t.length = 8 ∧ 4 ≤ v.flt.th.over105 ∧
    anyInForce .thermalWarn v = false ∧ (warnNow v).flt.th.over135 < 4 ∧ modeUp (advance 0 s).life.mode = true := by
  decide +kernel
theorem test_reading_hot : let s : State := { s0 with pwr := { aoOn := true }, flt := { th := { over135 := 3 } } }
    let t : List Int := 135000 :: List.replicate 7 0
    let w := warnNow (takeTemps t (advance 0 s))
    w.flt.th.over135 = 4 ∧ w.life.phase ≠ .thermal ∧ modeUp w.life.mode = true := by decide +kernel
/-- Seconds of SYSCNT. -/
def sLate (n : Nat) (s : State) : State := { s with sysCnt := n * 200000000 }
theorem test_thermal_releases :
    let s (c : FaultCode) := raise c 0 0 0 (sLate 100 { s0 with flt := { th := { below100 := some 0, below110 := some 0 } } })
    inForce .thermalWarn 0 0 (advance 0 (s .thermalWarn)) = true ∧
    (advance 0 (s .thermalWarn)).flt.th.below100 = some 0 ∧ 0 + 10 * secCounts ≤ (advance 0 (s .thermalWarn)).sysCnt ∧
    inForce .thermalTrip 0 0 (advance 0 (s .thermalTrip)) = true ∧ (advance 0 (s .thermalTrip)).flt.th.below110 = some 0 ∧
    0 + 60 * secCounts ≤ (advance 0 (s .thermalTrip)).sysCnt := by decide +kernel
/-- The fourth reading at 125 °C trips, once. -/
theorem test_trip : let s : State := { s0 with flt := { th := { over125 := 4 } } }
    4 ≤ s.flt.th.over125 ∧ anyInForce .thermalTrip s = false ∧ anyInForce .thermalTrip (tripNow s) = true ∧
    thermalReset ResetPhase.idle = false ∧ resettable s = true := by decide +kernel
theorem test_thermal_hold : let s (b : Bool) (m : Mode) : State := sLate 60 <|
      { life := { mode := m, phase := .thermal }, pads := { resetN := b }, flt := { th := { below110 := some 0 } } }
    let u (b : Bool) (m : Mode) := settleReset (advance 0 (s b m))
    (u true .reset).life.phase = .thermal ∧ (u true .reset).life.mode = .reset ∧ (u true .start).life.mode = .start ∧
    (u true .reset).pwr.loss = none ∧ (u true .reset).flt.th.below110 = some 0 ∧ 0 + 60 * secCounts ≤ (u true .reset).sysCnt ∧
    (u true .reset).pads.resetN = true ∧ (u false .reset).pads.resetN = false := by decide +kernel
theorem test_avs : let s : State := { s0 with pwr := { auxReg := true } }
    let t (x : State) := settleReset (advance 0 x)
    railsRun (t s) = true ∧ railMv (t s) .blend = 900 ∧
    railMv (t { s with flt := { th := { avsBlend := 850 } } }) .blend < 900 := by decide +kernel
theorem test_avs_release : let f : Flt := { th := { coopOk := some 0, blendOk := some 0 }, markedAvs := 2 }
    let s (r : AvsRail) (m : Mode) := raise .avsMargin 0 (railIdx r) 0 (sLate 10 { sm m with flt := f })
    let t (r : AvsRail) (m : Mode) := settleReset (advance 0 (s r m))
    (∀ r ∈ [AvsRail.blend, .coop], inForce .avsMargin 0 (railIdx r) (t r .hold) = true ∧
      (t r .hold).flt.th.coopOk = some 0 ∧ (t r .hold).flt.th.blendOk = some 0 ∧ 0 + 10 * secCounts ≤ (t r .hold).sysCnt) ∧
    modeLive (t .coop .hold).life.mode = false ∧ modeLive (t .coop .service).life.mode = true := by decide +kernel

/-! ### Clocks -/

/-- PTP on both ports. -/
def sPtp : State := { s0 with cfg := { clock := { ptp := { profile := 1, domain := 0 } } } }
def sync0 : SyncMsg := ⟨0, 0, 0, 0⟩
/-- A monitored input. -/
def mon (k : Nat) (m : Monitor) : Tab Monitor := tset {} [] k m

/-- One more Sync, the sixteenth good and the eighth bad. -/
theorem test_ptp_sync : let s (l : Bool) (g b : Nat) : State := { sPtp with clk := { portA := { locked := l, goodRun := g, badRun := b } } }
    let t := countRx .neta (advance 0 sPtp)
    ptpRuns t .a = true ∧ t.clk.grandmaster = false ∧ slaves t .a = true ∧
    (s true 15 7).clk.portA.badRun + 1 = 8 ∧ (s false 15 0).clk.portA.goodRun + 1 = 16 ∧
    (∀ t ∈ [after (.ptpSync 0 .a sync0) (s false 15 0)], t.clk.portA.locked = true) ∧
    (∀ t ∈ [after (.ptpSync 0 .a sync0) (s false 14 0)], t.clk.portA.locked = false) := by decide +kernel
theorem test_announce_timeout : let s (b : Bool) : State := sLate 100 <|
      { sPtp with clk := { monitors := mon 9 { seen := b }, portA := { announceAt := 0 } } }
    let t (b : Bool) := advance 0 (s b)
    ptpRuns (t true) .a = true ∧ (tget {} (t true).clk.monitors (9 + portIdx .a) : Monitor).seen = true ∧
    (t true).clk.grandmaster = false ∧ (tget {} (t false).clk.monitors (9 + portIdx .a) : Monitor).seen = false ∧
    (ptpPortOf (t true).clk .a).announceAt + (t true).cfg.clock.ptp.announceTimeout * logCounts (ptpLogAnnounce (t true).cfg.clock.ptp)
      ≤ (t true).sysCnt := by decide +kernel
theorem test_tai_timeout : let s : State := { s0 with clk := { taiValid := true }, sysCnt := 120000000000 }
    (advance 0 s).clk.taiValid = true ∧ (advance 0 s).clk.grandmaster = false ∧ (advance 0 s).clk.lastSync + 120000000000 ≤ (advance 0 s).sysCnt := by decide
theorem test_ptp_sends : let m : AnnounceMsg := ⟨0, 0, 0, 0, 0, 0, 0, 0⟩
    let g : State := { sPtp with clk := { grandmaster := true } }
    let c : State := { sPtp with clk := { portA := { master := some m } } }
    (advance 0 g).clk.grandmaster = true ∧ ptpRuns (advance 0 g) .a = true ∧ ptpRuns (advance 0 c) .a = true ∧
    (ptpPortOf (advance 0 c).clk .a).master.isSome = true ∧ slaves (advance 0 c) .a = true ∧
    sendDue (advance 0 g) (ptpPortOf (advance 0 g).clk .a).sentSync (ptpLogSync (advance 0 g).cfg.clock.ptp) = true ∧
    sendDue (advance 0 g) (ptpPortOf (advance 0 g).clk .a).sentAnnounce (ptpLogAnnounce (advance 0 g).cfg.clock.ptp) = true ∧
    sendDue (advance 0 c) (ptpPortOf (advance 0 c).clk .a).sentDelay (ptpLogDelay (advance 0 c).cfg.clock.ptp) = true := by
  decide +kernel
theorem test_pll : let s (x : PllState) : State := sLate 60 { s0 with clk := { pll :=
      { active := some ⟨5, 0⟩, state := x, good := 256, bad := 16, dir := 1, phase := 200001, errs := [(0, 100000000)] } } }
    let t (x : PllState) := advance 0 (s x)
    (t .acquiring).clk.pll.active.isSome = true ∧ (t .acquiring).clk.pll.state = .acquiring ∧ 256 ≤ (t .acquiring).clk.pll.good ∧
    (t .locked).clk.pll.state = .locked ∧ 16 ≤ (t .locked).clk.pll.bad ∧ (t .locked).clk.pll.forcedBw = none ∧
    (t .locked).clk.pll.errs ≠ [] ∧ 200000 < (t .locked).clk.pll.phase.natAbs ∧ quietFor8Tau (t .locked) = true ∧
    (t .moving).clk.pll.state = .moving ∧ (t .moving).clk.pll.dir ≠ 0 ∧ modeUp (t .moving).life.mode = true ∧
    (t .moving).clk.pll.anyQualified = false ∧ (t .moving).clk.pll.restoredAt + 60 * secCounts ≤ (t .moving).sysCnt := by
  decide +kernel
theorem test_reference_qualified : let s : State := sLate 1 { s0 with
      cfg := { clock := { refs := { entries := [⟨2, 0⟩] } }, board := board }
      clk := { monitors := mon 8 { seen := true, meanOk := true, cleanSince := 0 } } }
    let t := advance 0 s
    t.cfg.clock.refs.entries[0]? = some ⟨2, 0⟩ ∧ modeUp t.life.mode = true ∧ refUsable t ⟨2, 0⟩ = true ∧ refMonitor ⟨2, 0⟩ = 8 ∧
    (tget {} t.clk.monitors 8 : Monitor).seen = true ∧ (tget {} t.clk.monitors 8 : Monitor).lost = false ∧
    (tget {} t.clk.monitors 8 : Monitor).meanOk = true ∧
    (tget {} t.clk.monitors 8 : Monitor).cleanSince + secCounts ≤ t.sysCnt := by decide +kernel
theorem test_clock_lost : let s : State := sLate 10 { s0 with
      clk := { monitors := tset {} (tset {} (mon 8 { seen := true }) 9 { seen := true }) 0 { seen := true } }
      port := [(0, { state := .running })] }
    let t := advance 0 s
    (∀ c ∈ [ClockIn.wclk, .ptp .a, .tdm 0], (tget {} t.clk.monitors (clockInKey c) : Monitor).seen = true ∧
      (tget {} t.clk.monitors (clockInKey c) : Monitor).lost = false ∧ clockOverdue t c = true) ∧ modeUp t.life.mode = true ∧
    t.clk.grandmaster = false ∧ portRuns t (clockInKey (.tdm 0)) = true := by decide +kernel
theorem test_clock_resumed : let s : State := { s0 with clk := { monitors := mon 0 { seen := true, lost := true, good := 64 } } }
    let u : State := raise .portClockLost (portSrc0 0) 0 0 { s0 with clk := { monitors := mon 0 { seen := true, good := 64 } } }
    portKey (.tdm 0) < 8 ∧ (tget {} (advance 0 s).clk.monitors (portKey (.tdm 0)) : Monitor).lost = true ∧
    inForce .portClockLost (portSrc0 0) 0 (advance 0 u) = true ∧
    64 ≤ (tget {} (advance 0 s).clk.monitors (portKey (.tdm 0)) : Monitor).good ∧ portDecKeys (advance 0 s) (portKey (.tdm 0)) = [] := by
  decide
theorem test_decant_relock : let s : State := { s0 with
      cfg := { clock := { decant := { tdmIn := 1, tdmOut := 2, aesOut := 1 } } }
      clk := { monitors := mon 0 { seen := true, good := 64 } }
      port := [(0, { state := .running }), (8, { state := .running })] }
    let t := advance 0 s
    (∀ d ∈ [DecantTarget.tdmIn 0, .aesOut 0], isDecant t.cfg.clock.decant (decantKey d) = true ∧
      targetRuns t (decantKey d / 64) (decantKey d % 64) = true ∧ decantMeasured t d = true) ∧
    targetMonitor (.tdmIn 0) = some 0 ∧ targetMonitor (.aesOut 0) = none := by decide
theorem test_wclk_edge : let g : Monitor := { seen := true, glitches := [1, 2], edges := 2 }
    let s : State := { s0 with clk := { monitors := mon 8 g } }
    modeUp (advance 0 s).life.mode = true ∧ (advance 0 s).cfg.board.miscWired.getLsbD 0 = true ∧
    (monitorEdge 8 48000000 4167 false (advance 0 s0)).1.lost = 0 ∧ (monitorEdge 8 48000000 1 false (advance 0 s)).1.lost ≠ 0 ∧
    (monitorEdge 8 48000000 4167 false (advance 0 s0)).1.glitch = false ∧
    fsNow (advance 0 s) * 1000 / (advance 0 s).cfg.clock.wclk.inDiv = 48000000 := by decide +kernel

theorem test_clock_refs : let p := bz 36 [1, 1, 60, 0, 2, 0, 0, 0]
    let t := du .clockRefs p s0
    ok .clockRefs p s0 = true ∧ u8 p 0 = 1 ∧ u8 p 1 ≤ 1 ∧ u16 p 2 = 60 ∧
    (∀ i < 8, u16 p (6 + 4 * i) = 0 ∧ (1 ≤ i → u32 p (4 + 4 * i) = 0)) ∧ refInRange (refOf p 0) = true ∧
    hasRepeat [refOf p 0] = false ∧ refDeclared t.cfg.board (refOf p 0) = true ∧ refDecant t.cfg.clock.decant (refOf p 0) = false := by
  decide +kernel
theorem test_ptp_set : let p := bs [1, 0, 3, 0, 128, 128, 0, 0, 3, 0, 0, 0, 0x40, 0x42, 0x0F, 0]
    ok .ptpSet p s0 = true ∧ p.length = 16 ∧ checkPtpSet p (du .ptpSet p s0) = .ok ∧
      (ptpOf p).profile ≠ (du .ptpSet p s0).cfg.clock.ptp.profile := by decide +kernel
theorem test_wclk_set : let p := bs [4, 1, 3, 3]
    let t := du .wclkSet p s0
    ok .wclkSet p s0 = true ∧ t.cfg.board.miscWired.getLsbD 1 = true ∧ t.cfg.board.miscWired.getLsbD 2 = true ∧ clockStopped t = true := by
  decide +kernel
theorem test_clock_status : ok .clockStatus [] s0 = true := by decide
/-- A change of PORTS alone, and none. -/
theorem test_ptp_ports : let p : Bytes := bs [1, 0, 1, 0, 128, 128, 0, 0, 3, 0, 0, 0, 0x40, 0x42, 0x0F, 0]
    let o := (du .ptpSet p sPtp).cfg.clock.ptp
    ok .ptpSet p sPtp = true ∧ p.length = 16 ∧ checkPtpSet p (du .ptpSet p sPtp) = .ok ∧ (ptpOf p).profile = o.profile ∧
      (ptpOf p).domain = o.domain ∧ (ptpOf p).ports ≠ o.ports ∧
      (ptpOf (lset p 2 3)).ports = o.ports ∧ (ptpOf (lset p 2 3)).domain = o.domain := by decide +kernel
theorem test_clock_expert : let s : State := { s0 with clk := { portA := { locked := true } } }
    (∀ k ∈ [0, 1, 2, 3], ok .clockExpert (bs [k, 0, 0, 0]) s = true) ∧ u16 (bs [1, 20, 0, 0]) 2 = 0 ∧
    u8 (bs [3, 0, 0, 0]) 1 = portIdx .a ∧ (ptpPortOf (du .clockExpert (bs [3, 0, 0, 0]) s).clk .a).locked = true := by decide +kernel
theorem test_fs_set : let p (f : Nat) := bs [f, 0, 0, 0]
    (∀ f ∈ [0, 1], ok .fsSet (p f) s0 = true ∧ checkFsSet (anyCoreRuns (du .fsSet (p f) s0)) (p f) (du .fsSet (p f) s0) = .ok) ∧
    (du .fsSet (p 0) s0).clk.fs = 0 := by decide +kernel
theorem test_decant_set : let p := bs [3, 0, 1, 0]
    let t := du .decantSet p s0
    ok .decantSet p s0 = true ∧ u8 p 1 < targetCount (u8 p 0) ∧ targetRuns t 3 0 = false ∧ targetConflict t 3 0 true = false ∧
    targetIsRef t 3 0 = false ∧ targetGroup t 3 0 true = false ∧
    decantUsed (withDecant (assignDecant t.cfg.clock.decant 3 0 true) t) ≤ 320 := by decide +kernel
theorem test_align_group_set : let p := bs [15, 1, 64, 0, 250, 0, 0, 0]
    let t := du .alignGroupSet p s0
    ok .alignGroupSet p s0 = true ∧ u8 p 0 ≤ 15 ∧ u8 p 1 ≤ 2 ∧ u8 p 2 ≤ 64 ∧ u32 p 4 = 250 ∧ groupRuns t 15 = false ∧
    groupMembers t 15 = [] := by decide +kernel

/-! ### Starting, modes, lifecycle, power -/

theorem test_reset_n : let low (s : State) := { settleReset (advance 0 s) with pads := { (settleReset (advance 0 s)).pads with resetN := false } }
    let high (p : ResetPhase) := { settleReset (advance 0 { s0 with life := { mode := .reset, phase := p } }) with pads := { s0.pads with resetN := true } }
    resettable (low s0) = true ∧ resettable (low State.reset) = false ∧ waitsReset (high .waiting) = true ∧
    (high (.muting 0 true false)).life.phase = .muting 0 true false ∧ waitsReset (high .idle) = false ∧
    (high .idle).life.phase = .idle ∧ resettable (low (sm .start)) = true ∧ (low (sm .start)).life.mode = .start := by decide +kernel
theorem test_resets_due : let s : State := { s0 with life := { mode := .hold, watchdog := true, resetDue := some (true, 0) } }
    let t := settleReset (advance 0 s)
    t.life.watchdog = true ∧ t.life.resetDue = some (true, 0) ∧ 0 ≤ t.sysCnt ∧ resettable t = true ∧ t.life.mode ≠ .start := by
  decide +kernel
theorem test_reset_mutes : let s (n : Nat) (b : Bool) : State :=
      { life := { mode := .reset, phase := .muting 0 true false }, pads := { resetN := b }, sysCnt := n }
    (s 0 true).life.phase = .muting 0 true false ∧ (s 0 true).life.mode = .reset ∧ (s 0 true).pwr.loss = none ∧
    0 + 400000 ≤ (s 400000 true).sysCnt ∧ (s 399999 true).sysCnt < 0 + 400000 ∧ (s 0 true).pads.resetN = true ∧
    (s 0 false).pads.resetN = false := by decide
theorem test_aux : let s : State := { pwr := { auxOn := true } }
    (advance 0 s).pwr.auxOn = true ∧ (advance 0 s).pwr.auxReg = false ∧ (advance 0 s).pwr.loss = none := by decide
theorem test_ao_ready : let s (b : Bool) : State := { life := { mode := .reset }, pwr := { auxReg := true }, pads := { resetN := b } }
    let u (b : Bool) := holdRefreshAll 64 (readSafe (enterMode .start
      { advance 0 (s b) with sysCnt := 0, life := { (advance 0 (s b)).life with crystal := true, holdPad := false } }))
    (advance 0 (s true)).life.mode = .reset ∧ (advance 0 (s true)).pwr.auxReg = true ∧ (advance 0 (s true)).life.crystal = false ∧
    (advance 0 (s true)).pwr.loss = none ∧ (u true).pads.resetN = true ∧ (u false).pads.resetN = false := by decide +kernel
theorem test_start : let s (n : Nat) (a b : FwImage) (d : Bool) : State :=
      { life := { mode := .start, purgeTries := n, imageA := a, imageB := b, purgeDone := d, fwDone := d } }
    let t (n : Nat) (a b : FwImage) (d : Bool) := settleReset (advance 0 (s n a b d))
    (∀ n ∈ [0, 1], starting (t n .factory .blank false) = true ∧ (t n .factory .blank false).life.purgeDone = false ∧
      (t n .factory .blank false).life.held = .no ∧ (t n .factory .blank false).life.fwDone = false) ∧
    bootChoice (t 0 .factory .blank false).life = some (0, false) ∧ bootChoice (t 0 .blank .blank false).life = none ∧
    starting (t 0 .factory .blank true) = true ∧ (t 0 .factory .blank true).life.fwDone = true := by decide +kernel
theorem test_service_entry : let s : State := { s0 with
      life := { mode := .hold, runPending := some 0 }, clk := { ticks := true, pll := { state := .locked } } }
    let t := settleReset (advance 0 s)
    t.life.runPending = some 0 ∧ t.life.mode = .hold ∧ t.clk.pll.state = .locked ∧ t.clk.ticks = true ∧ t.pwr.loss = none := by
  decide +kernel
theorem test_dev_mode : let p (n : Nat) := bs [n, 0, 0, 0]
    (∀ m ∈ [Mode.hold, .service, .maintenance, .recovery], ∀ n ∈ [0, 3, 4, 5, 6],
      ok .devMode (p n) (sm m) = true ∧ (du .devMode (p n) (sm m)).life.mode = m ∧ zeroAt (p n) 1 3 = true) := by decide +kernel
theorem test_dev_mode_may_leave : h0.timed = none ∧ mayLeaveRecovery (du .devMode (bs [3, 0, 0, 0]) (sm .recovery)) = true ∧
    (let f : Flt := { recoveryCause := some (.avsMargin, 0, 0), active := [⟨.avsMargin, 0, 0, 0, 0, 0⟩] }
     mayLeaveRecovery { s0 with flt := f } = false) := by decide +kernel
/-- A prepared DEV_MODE 5 takes the module to MAINTENANCE at the tick. -/
theorem test_dev_mode_lands : let l (n : Nat) : Landing := ⟨.devMode, h0, bs [n, 0, 0, 0], false, 0, false⟩
    (l 5).op = .devMode ∧ (l 5).completion = false ∧ (landCommand (sm .service) (l 5)).life.mode = .maintenance ∧
    (landCommand (sm .maintenance) (l 3)).life.mode = .hold ∧ mayLeaveRecovery (sm .recovery) = true := by decide +kernel
theorem test_recovery_due : let s (m : Mode) : State := { life := { mode := m }, flt := { recoveryDue := some 5 } }
    (∀ m ∈ [Mode.hold, .recovery], (advance 0 (s m)).flt.recoveryDue = some 5 ∧ (advance 0 (s m)).life.mode = m) := by decide
theorem test_life_advance : let p := bz 92 [1]
    let s : State := { s0 with life := { mode := .hold, integratorKey := some (zeros 64), netKeys := some (zeros 32) :: List.replicate 15 none } }
    ok .lifeAdvance p s = true ∧ checkLifeAdvance p (du .lifeAdvance p s) = .ok ∧ checkLifeAdvance p (du .lifeAdvance p s0) ≠ .ok := by
  decide +kernel
theorem test_life_due : let s (x : LifeState) : State := { s0 with life := { mode := .hold, lifeDue := some (x, 0) } }
    let t (x : LifeState) := settleReset (advance 0 (s x))
    (t .returned).life.lifeDue = some (.returned, 0) ∧ (t .provisioned).life.lifeDue = some (.provisioned, 0) ∧
    0 ≤ (t .returned).sysCnt ∧ (t .returned).pwr.loss = none := by decide +kernel
theorem test_board_describe : let p := bz 48 [0xFF]
    ok .boardDescribe p s0 = true ∧ checkBoard p (du .boardDescribe p s0) = .ok ∧ h0.timed = none := by decide +kernel

/-- Ports supplying, and counting. -/
def sPd (a b : PdPort) : State := { life := { mode := .hold }, pwr := { portA := a, portB := b } }
theorem test_power_up : let a : PdPort := { applied := true, granted := 6 }
    let b : PdPort := { supplying := true, granted := 6 }
    let t := advance 0 { sPd a b with pwr := { portA := a, portB := b, aoCnt := 16000000 } }
    (pdPort t .a).supplying = false ∧ (pdPort t .a).applied = true ∧ t.pwr.loss = none ∧ (pdPort t .b).supplying = true ∧
    (pdPort t .b).counting = false ∧ t.cfg.policy.lldpMode = 0 ∧
    (pdPort t .b).goodAt + 80 * msCounts ≤ t.pwr.aoCnt := by decide
theorem test_power_lost : let a : PdPort := { supplying := true, counting := true, granted := 6 }
    (pdPort (advance 0 (sPd a a)) .a).counting = true ∧ (pdPort (advance 0 (sPd a a)) .b).counting = true ∧
    (advance 0 (sPd a a)).pwr.loss = none ∧ (pdPort (advance 0 (sPd a {})) .b).counting = false ∧
    (advance 0 { s0 with pwr := { loss := some 0 } }).pwr.loss.isSome = true := by decide
theorem test_hup : let s : State := { s0 with pwr := { hupCharging := true, auxOn := true, auxFault3 := true, auxFault5 := true, aoCnt := 100000000 } }
    let t := advance 0 s
    t.pwr.hupCharging = true ∧ t.pwr.auxOn = true ∧ t.pwr.loss = none ∧ t.pwr.auxFault3 = true ∧ t.pwr.auxFault5 = true ∧
    t.pwr.auxTry3 + 500 * msCounts ≤ t.pwr.aoCnt ∧ t.pwr.auxTry5 + 500 * msCounts ≤ t.pwr.aoCnt := by decide
/-- The governor may restore: first, and again after a step. -/
theorem test_governor : let a : PdPort := { granted := 8, supplying := true, counting := true }
    let s (b : Bool) : State := { s0 with pwr := { aoOn := true, spkCeil := -1000, portA := a, budget := 60000, restoring := b, lowSince := some 0,
                                                   fitSince := some 0, aoCnt := 400000000 } }
    let t (b : Bool) := advance 0 (s b)
    (∀ b ∈ [true, false], (t b).pwr.aoOn = true ∧ (t b).pwr.loss = none ∧ shedActive (t b) = true ∧
      anyInForce .powerBudget (t b) = false ∧ anyInForce .thermalTrip (t b) = false ∧ restoreDue (t b) = true ∧
      (drawMw (t b) : Int) ≤ govTarget (t b) - 3000) ∧
    (t true).pwr.fitSince = some 0 ∧ 0 + 2 * secCounts ≤ (t true).pwr.aoCnt := by decide +kernel
theorem test_power_status : ok .powerStatus [] s0 = true := by decide
theorem test_power_policy : let p (n : Nat) := bs [n, 0, 10, 0, 0, 0, 0, 0, 0, 0, 0, 0]
    let s : State := { s0 with pwr := { portA := { granted := 8, supplying := true, counting := true } } }
    ok .powerPolicy (p 1) s = true ∧ (policyOf (p 1)).guardW = 10 ∧ u8 (p 1) 3 = 0 ∧ h0.timed = none ∧
    rnsUw (du .powerPolicy (p 1) s) ≤ 1000 * smallerAlloc (du .powerPolicy (p 1) s) := by decide +kernel

/-! ### Landing commands: a payload of each that passes its checks -/

/-- Core 0 with an image of parameters; a declared hold output; both speakers declared; an edge from AIN 0 to LOUT 0. -/
def sLand : State := { s0 with
  cfg := { board := { spkWired := 3 }, port := { tdm := [(0, { master := true, width := 24 })] }, graph := { edges := [{ src := 0x0100, sink := 0x8100, gain := 0, limit := 0 }] } }
  outp := { safe := { declared := true } :: List.replicate 7 {} }
  coop := [(0, { state := .stopped, image := { paramWords := 4, rbWords := 4 } })] }
/-- One landing command of each kind, with its packet's header. -/
def landings (h : Hdr) : List Instr :=
  [.gainSet h (bs [1, 0, 0, 0] ++ bz 16 [0, 0, 0, 1]), .muteSet h (bs [0, 1, 0, 0] ++ bz 8 [0, 1, 0, 1]),
   .sinkSet h (bs [2, 1, 0, 0, 0, 0, 0, 0, 0, 0, 0, 0, 1, 0, 0, 1, 0, 0x81, 0, 0]),
   .genSet h (bs [3, 1, 0, 0, 0, 0, 0, 0, 0xE8, 3, 0, 0, 0xE8, 3, 0, 0, 100, 0, 0, 0] ++ zeros 8),
   .override h (bs [1, 0, 0, 0]), .overrideConfig h (bz 64 [0, 1, 1]), .inputSet h (bz 16 [1, 0, 0, 0, 1]),
   .outputSet h (bz 16 [0x81, 1, 0, 0, 1]), .holdSet h (bz 16 [0, 1]), .speakerSet h (bz 12 [3, 1, 1]),
   .clearConfig h (bz 12 [0, 0, 0, 0, 0, 0, 0, 0, 0xD0, 7]), .filtConfig h (bz 16 [0, 1, 1, 0, 0, 0, 0, 0, 1])] ++
  [.filtRun h (bz 12 [0, 1, 0, 0, 1]), .filtSync h (bz 20 [1, 0, 0, 0, 0, 0, 0, 0, 0, 0, 0, 0, 0, 0, 0, 0, if h.timed.isSome then 1 else 2]),
   .portStart h (bs [1, 0, 0, 0]), .portStop h (bs [1, 0, 0, 0]), .aesCsSet h (bz 28 [3, 3]), .streamEnable h (zeros 20),
   .hsSet h (bz 16 [1, 1, 1]), .coopStart h (bs [1, 1, 0, 0]), .coopStop h (bs [15, 0, 0, 0]),
   .coopParam h (bz 12 [0, 0, 3, 0, 1])]
/-- The landing commands that accept no TIMED. -/
def landingsUntimed : List Instr :=
  [.eventMask h0 (bs [0xFF, 1, 0, 0]), .vintPolicy h0 (bs [1, 1, 0, 0, 0x10, 0x27, 0, 0, 10, 0, 0, 0]),
   .powerPolicy h0 (bs [0, 0, 10, 0, 0, 0, 0, 0, 0, 0, 0, 0]), .boardDescribe h0 (bz 48 [0xFF])]
/-- The commands with live fields, each with a payload that passes its checks. -/
def lives : List Instr :=
  [.rampDefaults h0 (bs [100, 0, 0, 0, 2, 0, 0, 0, 0xA0, 0x86, 1, 0]),
   .tasterConfig h0 (bs [1, 1, 1, 1, 0xFF, 0, 0, 0, 10, 0, 10, 0, 1, 0, 0xF4, 1, 0xF4, 1, 0, 0] ++ leI 4 (-40000) ++ bs [0x60, 0xEA, 0, 0]),
   .clockRefs h0 (bz 36 [1, 1, 60, 0, 2, 0, 0, 0]), .ptpSet h0 (bs [1, 0, 3, 0, 128, 128, 0, 0, 3, 0, 0, 0, 0x40, 0x42, 0x0F, 0]),
   .wclkSet h0 (bs [4, 1, 3, 3]), .alignGroupSet h0 (bs [15, 1, 64, 0, 250, 0, 0, 0]), .netAuthSet h0 (bs [1, 0, 2, 0, 0, 0, 0, 0])]
/-- A landing command is executed from a state and passes its checks there. -/
def lands (s : State) (c : Instr) : Bool :=
  match landingOf c with
  | some (op, h, p, check) => ready op h p s && decide (check (during op h p s) = .ok)
  | none => false
theorem test_landing : landings h0 ≠ [] ∧ (∀ c ∈ landings h0, lands sLand c = true) ∧
    (∀ c ∈ landingsUntimed, lands s0 c = true) ∧
    lands (sm .service) (.devMode h0 (bs [5, 0, 0, 0])) = true := by decide +kernel
theorem test_live : lives ≠ [] ∧ (∀ c ∈ lives, (match liveOf c with
    | some (op, h, p, check, _) => ready op h p s0 && decide (check (during op h p s0) = .ok)
    | none => false) = true) := by decide +kernel
/-- TIMED on an opcode that accepts none. -/
theorem test_untimed : opTimed .boardDescribe = false ∧ (hT 5).timed.isSome = true ∧ (hT 5).rq = .spi ∧
    accepting (advance 0 s0) = true ∧ isQueued .boardDescribe (hT 5) [] (advance 0 s0).cmd = false := by decide +kernel
/-- TAI time valid: an apply time in the future, one passed, and one more than 24 h ahead. FILT_RUN and HS_SET accept no TIMED. -/
def sTai : State := { sLand with clk := { taiValid := true } }
theorem test_timed : (∀ c ∈ landings (hT 1000), (match c with | .filtRun .. | .hsSet .. => true | _ => lands sTai c) = true) ∧ taiNow (advance 0 sTai) < 1000 ∧
    ((0 : Nat) : Int) ≤ taiNow (advance 0 sTai) ∧ (advance 0 sLand).clk.taiValid = false ∧
    taiNow (advance 0 sTai) + 86400000000000 < (86400000000001 : Nat) := by decide +kernel
theorem test_timed_full : let s : State := { sTai with cmd := { queue := [⟨.override, hT 5, bs [1, 0, 0, 0], 0, false, 0⟩], timed := List.replicate 256 ⟨.override, hT 1, [], true, 0, false⟩ } }
    let p := bs [1, 0, 0, 0]
    256 ≤ (during .override (hT 5) p s).cmd.timed.length ∧ ready .override (hT 5) p s = true := by decide +kernel
/-- A ramp of an object with a ramp deferred; 64 commands deferred. -/
theorem test_deferred : let p := bs [1, 0, 0, 0] ++ bz 16 [0, 0, 0, 1]
    let s (n : Nat) : State := { s0 with mix := { deferred := List.replicate n ⟨.gainSet, h0, p, false, 0, false⟩ } }
    mayDefer .gainSet = true ∧ (∀ n ∈ [1, 64], ok .gainSet p (s n) = true ∧ checkGainSet p (du .gainSet p (s n)) = .ok ∧
      deferReason .gainSet p (du .gainSet p (s n)) ≠ 0) ∧ deferReason .gainSet p (du .gainSet p s0) = 0 ∧
    checkGainSet [0] (du .gainSet [0] s0) ≠ .ok := by decide +kernel
theorem test_ticks : let s (x : Option (Fin 3)) (b : Bool) : State :=
      { s0 with clk := { ticks := true, fsPending := x, fsSwitching := b, started := b, tickBegun := b } }
    let t (x : Option (Fin 3)) (b : Bool) := settleReset (advance 0 (s x b))
    framesRun (t none false) = true ∧ (t none true).clk.tickBegun = true ∧ (t none false).clk.tickBegun = false ∧
    (beginTick (t (some 1) false)).clk.fsPending.isSome = true ∧ (beginTick (t none false)).clk.fsPending = none ∧
    (t none true).clk.rebase = false ∧ nextFrame (t none false) = 0 := by decide +kernel
/-- A deferred ramp and a timed one that a tick lands. -/
theorem test_deferred_lands : let p := bs [1, 0, 0, 0] ++ bz 16 [0, 0, 0, 1]
    let l : Landing := ⟨.gainSet, h0, p, false, 0, false⟩
    let s : State := { s0 with clk := { ticks := true }, mix := { deferred := [l] },
                               cmd := { timed := [{ l with hdr := hT 0, completion := true }] } }
    let t := settleReset (advance 0 s)
    framesRun t = true ∧ t.clk.tickBegun = false ∧ t.mix.deferred = l :: [] ∧ slotsFree t l = true ∧
    t.cmd.timed.any (timedDue (nextTick t).clk.tickTai) = true := by decide +kernel
/-- Of a landing command, its mode is wrong, its check refuses, and both pass. -/
theorem test_land_timed : let p := bs [1, 0, 0, 0] ++ bz 16 [0, 0, 0, 1]
    let l (p : Bytes) : Landing := ⟨.gainSet, hT 0, p, true, 0, false⟩
    check10 .gainSet .spi State.reset ≠ .ok ∧ check10 .gainSet .spi s0 = .ok ∧ landCheck (l [0]) s0 ≠ .ok ∧
    landCheck (l p) s0 = .ok ∧ deferReason .gainSet p s0 = 0 ∧ slotsFree { s0 with mix := { ramps := [] } } (l p) = true := by decide +kernel
/-- Each of two commands keeps its place in the order of arrival. -/
theorem test_arrival : let l (n : Nat) : Landing := ⟨.nop, h0, [], true, n, false⟩
    (insertTimed (l 2) [l 1, l 3]).map Landing.arr = [1, 2, 3] := by decide

/-! ### Mixing, vintages, registers -/

theorem test_meter_read : let p := bs [1, 1, 0, 0, 0, 0x81, 0, 0]
    let t := du .meterRead p s0
    ok .meterRead p s0 = true ∧ u8 p 1 = 1 ∧ p.length = handleLen 4 1 ∧ isSink (fsOf t) (handleAt p 4) = true ∧ handlePad p 4 1 = true := by
  decide +kernel
theorem test_latency_query : let p := bs [0, 1, 0, 0x81, 0, 0, 0, 0]
    ok .latencyQuery p s0 = true ∧ u32 p 4 = 0 ∧ isSrc (fsOf (du .latencyQuery p s0)) (handleAt p 0) = true ∧
    isSink (fsOf (du .latencyQuery p s0)) (handleAt p 2) = true := by decide +kernel
theorem test_ramp_defaults : let p := bs [100, 0, 0, 0, 2, 0, 0, 0, 0xA0, 0x86, 1, 0]
    ok .rampDefaults p s0 = true ∧ u32 p 0 = 100 ∧ u8 p 4 = 2 ∧ zeroAt p 5 3 = true ∧ u32 p 8 = 100000 := by decide
theorem test_sweep_end : let s : State := { s0 with cfg := { mix := { gens := [(3, { type := 4 })] } }, mix := { gens := [(3, { t := 480000 })] } }
    let c : GenCfg := tget {} (advance 0 s).cfg.mix.gens 3
    c.type = 4 ∧ c.rpt = false ∧
    c.durMs * fsNow (advance 0 s) ≤ 1000 * (tget ({} : Gen) (advance 0 s).mix.gens 3).t := by decide

/-- A commit that runs, and one that waits. -/
def commit0 (k : CommitKind) (b : Bool) : Commit := ⟨1, 2, 0, 5, k, {}, [], b⟩
def sVint (r : Option Commit) (q : Option CommitReq) : State :=
  { s0 with vint := { running := r, pendingReq := q }, cfg := { vint := { autoCommitS := 60 } } }
theorem test_commit : let p := bs [5, 0, 0, 0]
    (∀ s ∈ [s0, sVint (some (commit0 .command false)) none, sVint (some (commit0 .command false)) (some ⟨0, .periodic⟩)],
      ok .vintCommit p s = true) ∧ commitRefused (du .vintCommit p s0) = false ∧ commitRuns (du .vintCommit p s0).vint = false ∧
    commitRuns (sVint (some (commit0 .command false)) none).vint = true ∧
    commitRefused (du .vintCommit p { s0 with vint := { bulkNow := [(.streamRx 0, 1)] } }) = true ∧
    commitRefused { s0 with vint := { bulkNow := [(.streamRx 0, 1)] } } = true ∧
    commitRefused { s0 with vint := { s0.vint with armed := none } } = false := by decide +kernel
theorem test_commit_events : let q : CommitReq := ⟨0, .periodic⟩
    let s := sLate 60 (sVint none (some q))
    let t := advance 0 s
    commitRuns t.vint = false ∧ t.vint.pendingReq = some q ∧ t.cfg.vint.autoCommitS ≠ 0 ∧ modeUp t.life.mode = true ∧
    t.pwr.loss = none ∧ t.vint.autoSince + t.cfg.vint.autoCommitS * secCounts ≤ t.sysCnt ∧ t.vint.lastContent ≠ some t.cfg ∧
    (advance 0 (sVint none none)).vint.pendingReq = none ∧ commitRuns (advance 0 (sVint none none)).vint = false ∧
    (∀ b ∈ [true, false], ∀ k ∈ [CommitKind.command, .periodic, .powerLoss],
      (advance 0 (sVint (some (commit0 k b)) none)).vint.running = some (commit0 k b) ∧
      bulkComplete (advance 0 (sVint (some (commit0 k b)) none)).vint (commit0 k b).refs = true) ∧ ReadBack.headerCrc ≠ .good := by
  decide +kernel
theorem test_vint_status : ok .vintStatus [] s0 = true := by decide
theorem test_vint_policy : let p := bs [1, 1, 0, 0, 0x10, 0x27, 0, 0, 10, 0, 0, 0]
    ok .vintPolicy p s0 = true ∧ u8 p 0 ≤ 1 ∧ u8 p 1 ≤ 1 ∧ u16 p 2 = 0 ∧ u32 p 4 = 10000 ∧ u32 p 8 = 10 ∧ h0.timed = none := by decide
theorem test_vint_clear : let p := bs [0x54, 0x4E, 0x49, 0x56]
    ok .vintClear p s0 = true ∧ u32 p 0 = 0x56494E54 ∧ u32 (zeros 4) 0 ≠ 0x56494E54 ∧ ok .vintClear (zeros 4) s0 = true ∧
    commitRuns (du .vintClear p s0).vint = false ∧ (du .vintClear p s0).vint.pendingReq = none ∧
    commitRuns (du .vintClear p (sVint (some (commit0 .periodic false)) none)).vint = true := by decide

theorem test_reg_read : let p := bs [0x10, 0, 0, 0, 0, 1, 0, 0]
    ok .regRead p s0 = true ∧ u32 p 0 % 4 = 0 ∧ u16 p 4 = 256 ∧ u16 p 6 = 0 := by decide
theorem test_reg_kinds : (∃ a, regAt s0 a = .absent) ∧ (∃ a v, regAt s0 a = .word v) ∧
    ∃ a v w, regAt s0 a = .low v ∧ a < 4294967296 ∧ regAt (readWord .spi a s0).2.2 (a + 4) = .high w :=
  ⟨⟨0x100000, rfl⟩, ⟨0x200, _, rfl⟩, ⟨0x100, _, _, rfl, by decide, rfl⟩⟩
theorem test_reg_write : let p := bs [0x54, 0, 0xC0, 0, 1, 0, 0, 0, 7, 0, 0, 0]
    ok .regWrite p s0 = true ∧ p.length = 8 + 4 * u16 p 4 ∧ u32 p 0 % 4 = 0 ∧ u16 p 4 = 1 ∧
    (∀ i < 1, regReadOnly (u32 p 0 + 4 * i) (du .regWrite p s0) = false) ∧
    (match writeWords .spi (u32 p 0) (regWords p) (du .regWrite p s0) with | .ok _ => true | .error _ => false) = true ∧
    (match writeWords .spi (u32 p 0) (regWords p) (setWriteShadow .spi {} s0) with | .ok z => z.cmd.expert.isSome | .error _ => false) = true ∧
    (match writeWords .spi 0x208 [2] s0 with | .ok _ => Status.ok | .error st => st) ≠ .ok := by
  decide +kernel
/-- Core 0 halted. -/
def sHalt : State := { s0 with coop := [(0, { state := .halted })] }
theorem test_registers_named : let k (a v : Nat) (s : State) := ok .regWrite (regPayload a (BitVec.ofNat 32 v)) s
    k 0x208 1310721 s0 = true ∧ k 0x200020 3 s0 = true ∧ k 0x418 1 s0 = true ∧ k 0x634 1 s0 = true ∧ k 0x638 6 s0 = true ∧
    k 0x900020 1 s0 = true ∧ k 0xA00028 1 s0 = true ∧ k 0x500028 0x80000001 s0 = true ∧ k 0x500100 1 sHalt = true ∧
    k 0x520000 1 sHalt = true ∧ k 0xC00050 (faultNum .linkDown).toNat s0 = true ∧ clockStopped (advance 0 s0) = true ∧
    portRuns (advance 0 s0) 0 = false ∧ netRuns (advance 0 s0) = false ∧ (coreOf (advance 0 sHalt) 0).state = .halted ∧
    (1310721 / 2 % 32768 = 0 ∧ 1310721 / 65536 = 20) ∧ 0x80000001 / 16384 % 131072 = 0 := by decide +kernel

/-! ### The graph -/

/-- AIN 0 to LOUT 0 and AIN 1 to LOUT 1 at 0 dB. -/
def edges0 : List Edge := [{ src := 0x0100, sink := 0x8100, gain := 0, limit := 0 }, { src := 0x0101, sink := 0x8101, gain := 0, limit := 0 }]
def sStage (x : Staging) : State := { s0 with gr := { stage := x } }
/-- A staged graph of one edge. -/
def sStaged : State :=
  match stageEnd (sStage { state := .loading, edges := 1, recv := edges0.take 1, raw := [zeros 12], crc := crc32c (zeros 12) }) with
  | .reply _ _ t => t
  | _ => s0
theorem test_stage_begin : let p := bs [0, 0, 32, 0, 2, 0, 0, 0, 0xF4, 1, 0, 0, 7, 0, 0, 0, 0, 0, 0, 0, 0, 0, 0, 0]
    ok .graphStage p s0 = true ∧ stageOther (du .graphStage p s0) .spi = false ∧ p.length = 24 ∧ u8 p 1 ≤ 1 ∧ u8 p 2 = 32 ∧
    u8 p 3 = 0 ∧ u32 p 4 ≤ 65536 ∧ u32 p 8 = 500 ∧ u32 p 20 = 0 := by decide
theorem test_stage_edges : let p := bs [1, 0, 0, 0, 0, 0, 0, 0, 1, 0, 0, 0] ++ bz 12 [0, 1, 0, 0x81]
    let q := bz 16 [2, 0, 0, 0, 3, 1, 1, 0, 5, 0, 0, 0, 0, 0x81]
    let s := sStage { state := .loading, edges := 1 }
    ok .graphStage p s = true ∧ stageOther (du .graphStage p s) .spi = false ∧ zeroAt p 1 3 = true ∧ u16 p 8 = 1 ∧ u16 p 10 = 0 ∧
    p.length = 12 + 12 * u16 p 8 ∧ u32 p 4 = 0 ∧ ok .graphStage q s = true ∧ u8 q 5 ≤ 1 ∧ q.length = handleLen 12 (u16 q 6) ∧
    zeroAt q (12 + 2 * u16 q 6) (handleLen 12 (u16 q 6) - 12 - 2 * u16 q 6) = true := by decide
theorem test_stage_end : let p := bs [3, 0, 0, 0]
    let s := sStage { state := .loading, edges := 1, recv := edges0.take 1, raw := [zeros 12], crc := crc32c (zeros 12) }
    ok .graphStage p s = true ∧ (match stageEnd (du .graphStage p s) with | .reply .okStaged _ _ => true | _ => false) = true ∧
    sStaged.gr.stage.state = .staged := by decide +kernel
theorem test_graph_query : let p (k b : Nat) := bs [k, b, 0, 0, 0, 0, 0, 0]
    ok .graphAbort [] s0 = true ∧ (∀ k ∈ [0, 1], ∀ b ∈ [0, 1], ok .graphQuery (p k b) sStaged = true) ∧
    (du .graphQuery (p 0 1) sStaged).gr.stage.state = .staged := by decide +kernel
theorem test_graph_commit : let s (r : RackKind) (q : Option Captured) : State :=
      { sStaged with gr := { sStaged.gr with rack := r, pendingTrig := q } }
    let c := (captureStage h0 sStaged).2.2
    (∀ x ∈ [s .idle none, s .rack none, s .rack (some c)], ok .graphCommit [] x = true ∧
      checkGraphCommit h0 [] (du .graphCommit [] x) = .ok) ∧ checkGraphCommit h0 [] (du .graphCommit [] s0) ≠ .ok ∧
    (du .graphCommit [] sStaged).gr.rack = .idle ∧ (du .graphCommit [] sStaged).gr.armed = none := by decide +kernel
theorem test_route_set : let p := bs [0, 1, 0, 0, 0, 0, 0, 0] ++ bz 12 [0, 1, 0, 0x81]
    ok .routeSet p s0 = true ∧ checkRouteSet h0 p (du .routeSet p s0) = .ok ∧ (du .routeSet p s0).gr.rack = .idle ∧
    (du .routeSet p s0).gr.armed = none ∧ checkRouteSet h0 [] (du .routeSet [] s0) ≠ .ok ∧
    (let s : State := { s0 with gr := { rack := .rack } }
     ok .routeSet p s = true ∧ checkRouteSet h0 p (du .routeSet p s) = .ok ∧ (du .routeSet p s).gr.rack ≠ .idle) := by
  decide +kernel
theorem test_rack_ends : let g (r : RackKind) (b : Bool) : State := { s0 with gr := { rack := r, rackN := 4, rackK := 4, switched := b } }
    let k := (captureStage h0 sStaged).2.2
    (advance 0 (g .rack false)).gr.rack = .rack ∧ (advance 0 (g .rack false)).gr.rackN ≤ (advance 0 (g .rack false)).gr.rackK ∧
    (advance 0 (g .dip true)).gr.switched = true ∧ (advance 0 (g .dip false)).gr.switched = false ∧
    (advance 0 { s0 with gr := { pendingTrig := some k } }).gr.pendingTrig = some k ∧
    (advance 0 { s0 with gr := { pendingTrig := some k } }).gr.armed = none ∧ (g .dip false).gr.rackN / 2 ≤ (g .dip false).gr.rackK := by
  decide +kernel
/-- A waiting trigger that still compiles, and one whose source a change of the sample rate has taken away. -/
theorem test_recapture : let k := (captureStage h0 sStaged).2.2
    let bad : Captured := { k with graph := { k.graph with edges := [{ src := 0x06FF, sink := 0x8100, gain := 0, limit := 0 }] } }
    let s : State := { s0 with clk := { fs := 2 } }
    (recapture k (advance 0 s0)).1 = .ok ∧ (recapture bad (advance 0 s)).1 ≠ .ok := by decide +kernel

/-! ### Fades and the limiter -/

/-- Chains, mutes and glides that meet the premises of FadesInFrames. -/
theorem test_fades : ({ state := .settling, left := 5 } : FChain).stampDue = false ∧
    ({ state := .running } : FChain).w ≤ 64 ∧ ({ state := .running } : FChain).back = false ∧
    (8 : Nat) ≤ ({ stage := .ramping, muted := true } : MuteSt).w ∧
    ({ stage := .ramping, w := 4 } : MuteSt).w + 28 ≤ 32 ∧ ({ stage := .ramping, w := 4 } : MuteSt).muted = false ∧
    ({ stage := .waiting } : MuteSt).stage = .waiting ∧ moveVal ⟨wOne, wOne, 0, 0⟩ = wOne ∧ moveVal ⟨0, 0, 0, 0⟩ = 0 := by decide
/-- R266: the first frame released has weight 1/64; a settle count of 2 is spent in the tick after that of the clear. -/
theorem test_settle : (stepChain 7 { state := .settling, left := 2, stampDue := true }).left = 2 ∧
    (stepChain 8 (stepChain 7 { state := .settling, left := 2, stampDue := true })).left = 1 ∧
    (stepChain 9 { state := .running }).w = 1 := by decide
/-- A peak of 0 dB that leaves in one frame under a threshold of -6 dB, from no reduction: half the way, then all of it. -/
theorem test_limiter : limGain 0 0 1 (fun j => if j = 1 then -6000 else 0) = -3000 ∧
    limGain (-3000) (-2990) 1 (fun j => if j = 0 then -6000 else 0) = -6000 := by decide

/-! ### Inputs, phantom power, Tasters -/

def sPh (x : Phantom) : State := { s0 with inp := { ph := [(31, x)] } }
theorem test_phantom : let f (x : Phantom) := phOf (advance 0 (sLate 3 (sPh x))) 31
    let n := (advance 0 (sLate 3 (sPh {}))).sysCnt
    (f { stage := .settling }).stage = .settling ∧ (f { stage := .settling }).endAt + 50 * msCounts ≤ n ∧ (f {}).up = false ∧
    (f {}).pos = 0 ∧ (f { up := true, pos := 19200 }).fold = false ∧ (f { up := true, pos := 19200 }).pos ≠ 0 ∧
    (f { fold := true, retries := 4 }).fold = true ∧ (f { fold := true, retries := 4 }).retries < 5 ∧
    (f { fold := true, retries := 4 }).tryAt + 2100 * msCounts ≤ n := by decide
theorem test_matching : let s (x : ChanIn) : State := { s0 with inp := { ch := [(31, x)] } }
    let lim := (advance 0 s0).cfg.input.taster.residualLimit
    lim < -79999 ∧ -80001 < lim ∧ (chanIn (advance 0 (s {})) 31).suspect = false ∧
    (chanIn (advance 0 (s { suspect := true })) 31).suspect = true ∧
    (chanIn (advance 0 (s { pinned := 48000 })) 31).matchLimit = false ∧ (chanIn (advance 0 (s { pinned := 48000 })) 31).returning = false ∧
    fsNow (advance 0 s0) ≤ (chanIn (advance 0 (s { pinned := 48000 })) 31).pinned ∧ (advance 0 s0).cfg.input.taster.autoSubst = false ∧
    (chanIn (advance 0 (s { returning := true, matchLimit := true })) 31).returning = true ∧
    (chanIn (advance 0 (s { returning := true, matchLimit := true })) 31).gain = 0 := by decide
/-- A correction of 1 dB away from any factory value stands at the limit. -/
theorem test_pinned : matchPinned { gain := 1000000 } 31 = true := by
  unfold matchPinned matchGain factoryGain clampI
  simp only [Bool.or_eq_true, decide_eq_true_eq]
  left
  omega
def sTst (x : Taster) : State := { s0 with inp := { t0 := x } }
theorem test_visits : let s (v : BitVec 32) (b : Bool) : State :=
      { s0 with inp := { visited := v }, cfg := { input := { taster := { pairCheck := b } } } }
    tasterFree (tasterOf (advance 0 s0) 0) = true ∧ tasterRested (advance 0 s0) (tasterOf (advance 0 s0) 0) = true ∧
    nextVisit (advance 0 s0) 0 = .rove 0 ∧ nextVisit (advance 0 (s 0xFFFFFFFF false)) 0 = .newRound ∧
    nextVisit (endRound (advance 0 (s 0xFFFFFFFF false))) 0 = .rove 0 := by decide
theorem test_taster_settles : let f (x : Taster) := tasterOf (advance 0 (sTst x)) 0
    (f { phase := .settling, state := .roving }).phase = .settling ∧ (f { phase := .settling, state := .roving }).state ≠ .parked ∧
    (chainOf (advance 0 (sTst {})) false 32).left ≤ 1 ∧
    (f { phase := .settling, state := .parked, channel := some 3 }).channel = some 3 := by decide
theorem test_window : let f (x : Taster) := tasterOf (advance 0 (sTst x)) 0
    let v := verdictOf (advance 0 s0).cfg.input.taster
    (∀ p ∈ [TPhase.window, .second], ∀ b ∈ [true, false], (f { phase := p, pair := b, channel := some 3 }).channel = some 3 ∧
      (f { phase := p, pair := b, channel := some 3 }).winLeft = 0) ∧
    v ⟨0, 0, 0, 0, 0, true⟩ = 2 ∧ v ⟨0, 0, 50, 100000, 0, false⟩ = 1 ∧ v ⟨0, 0, 51, 0, 0, false⟩ = 3 := by decide
theorem test_substituted : let s : State := { s0 with inp := { substStage := .fading, substCh := some 3, substBy := some 1, substPos := 24, substLen := 24 } }
    (advance 0 s).inp.substStage = .fading ∧ (advance 0 s).inp.substCh = some 3 ∧ (advance 0 s).inp.substBy = some 1 ∧
    (advance 0 s).inp.substLen ≤ (advance 0 s).inp.substPos := by decide
theorem test_substitute : let s : State := { s0 with inp := { substStage := .held, substCh := some 3 } }
    let p := bs [0, 3, 0, 0]
    let q := bs [1, 3, 0, 0]
    ok .tasterSubstitute p s = true ∧ (du .tasterSubstitute p s).inp.substStage = .held ∧ (du .tasterSubstitute p s).inp.substCh = some 3 ∧
    ok .tasterSubstitute q s0 = true ∧ ainWired (du .tasterSubstitute q s0) 3 = true ∧
    (du .tasterSubstitute q s0).inp.substStage = .none ∧ tasterRoves (du .tasterSubstitute q s0).inp.t0 = true ∧
    tasterRoves (du .tasterSubstitute q s0).inp.t1 = true ∧ (du .tasterSubstitute q s0).inp.t0.phase = .none ∧
    (du .tasterSubstitute q s0).inp.t1.phase = .none := by decide
theorem test_taster_config : let p := bs [1, 1, 1, 1, 0xFF, 0, 0, 0, 10, 0, 10, 0, 1, 0, 0xF4, 1, 0xF4, 1, 0, 0] ++ leI 4 (-40000) ++ bs [0x60, 0xEA, 0, 0]
    let c := tasterCfgOf p
    ok .tasterConfig p s0 = true ∧ p.length = 28 ∧ c.windowMs = 10 ∧ c.levelTol = 10 ∧ c.corrPpm = 1 ∧ c.noiseTol = 500 ∧
    c.rackUs = 500 ∧ c.residualLimit = -40000 ∧ c.pauseMs = 60000 ∧ u16 p 26 = 0 := by decide +kernel
theorem test_taster_run : let p := bs [1, 0, 0, 0]
    let s (a : Option (BitVec 32)) (b : Option (BitVec 32 × Bool)) : State := { s0 with inp := { seqRunning := a, seqPending := b } }
    (∀ x ∈ [s none none, s (some 1) none, s (some 1) (some (1, false))], ok .tasterRun p x = true) ∧ u32 p 0 ≠ 0 := by decide
theorem test_input_status : (∀ k ∈ [0, 1], ok .inputStatus (bs [k, 0, 0, 0]) s0 = true) ∧ zeroAt (bs [1, 0, 0, 0]) 1 3 = true := by decide
theorem test_input_expert : (∀ k ∈ [0, 1, 2, 3], ok .inputExpert (bs [k, 1, 31, 0]) s0 = true) ∧ (du .inputExpert (bs [3, 1, 31, 0]) s0).inp.seqRunning = none ∧
    (du .inputExpert (bs [1, 1, 31, 0]) s0).inp.substStage ≠ .pending ∧
    (tasterOf (du .inputExpert (bs [1, 1, 31, 0]) s0) 1).state = .idle ∧
    tasterRoves (tasterOf (du .inputExpert (bs [1, 1, 31, 0]) s0) (otherT 1)) = true := by decide

/-! ### Outputs -/

def sOut (x : OutRt) : State := { s0 with outp := { out := [(0x811F, x)] } }
theorem test_outputs : let h := mkHandle 0x81 31
    let t := advance 0 (sOut { clamped := false, servoPinned := 480000 })
    let u := advance 0 (raise .outputShort h 0 1 (sLate 1 s0))
    (outRt t h).clamped = false ∧ 10 * fsNow t ≤ (outRt t h).servoPinned ∧ inForce .outputShort h 0 u = true ∧
    (outRt u h).probeAt + secCounts ≤ u.sysCnt := by decide +kernel
/-- A correction of 100 mV away from any factory value stands at the limit. -/
theorem test_servo_pinned : servoAtLimit 31 { servoP := 100000 } = true := by
  unfold servoAtLimit servoValue servoFactory clampI
  simp only [Bool.or_eq_true, decide_eq_true_eq]
  left
  simp only [↓reduceIte]
  omega
theorem test_hold_outputs : let s : State := sLate 1 <|
      { s0 with outp := { safe := { declared := true } :: List.replicate 7 {}, hold := [(0, { rc := some 1 })] } }
    (safeOf (advance 0 s) 0).declared = true ∧ (holdRt (advance 0 s) 0).rc = some 1 ∧
    4000 ≤ (rcUs (holdRt (advance 0 s) 0) (advance 0 s).sysCnt).getD 0 := by decide
theorem test_speakers : let s (m : Mode) (x : SpkRt) : State := sLate 2 <|
      { sm m with cfg := { board := { spkWired := 3 }, outp := { spk := [(1, { enable := true })] } }, outp := { spk := [(1, x)] } }
    let t := advance 0 (s .hold { checking := true })
    let u := advance 0 (s .hold { loadClamp := true })
    (spkRt t 1).checking = true ∧ (spkRt t 1).checkAt + 61 * msCounts ≤ t.sysCnt ∧ loadVerdict (spkLoad t 1) 8000 = 1 ∧
    loadVerdict (spkLoad t 1) 1999 = 2 ∧ (spkRt u 1).loadClamp = true ∧ (spkRt u 1).checking = false ∧
    (spkRt u 1).faultAt + 2 * secCounts ≤ u.sysCnt ∧ (tget ({} : SpkCfg) u.cfg.outp.spk 1).enable = true ∧
    u.cfg.board.spkWired.getLsbD 1 = true ∧ modeUp u.life.mode = true ∧ spkCarries (advance 0 (s .service {})) 1 = true := by decide
theorem test_stages : let s : State := sLate 10 { s0 with outp := { stage := [(3, { cool := some 0 })] } }
    let u := advance 0 (raise .outputThermal 0 3 3 s)
    inForce .outputThermal 0 3 (advance 0 s0) = false ∧ inForce .outputThermal 0 3 u = true ∧ (stageTherm u 3).cool = some 0 ∧
    0 + 10 * secCounts ≤ u.sysCnt := by decide
theorem test_output_status : (∀ k ∈ [0, 1], ok .outputStatus (bs [k, 0, 0, 0]) s0 = true) ∧ zeroAt (bs [1, 0, 0, 0]) 1 3 = true := by decide
theorem test_output_expert : let s : State := { s0 with cfg := { board := { spkWired := 3 } } }
    (∀ k ∈ [0, 1, 2], ok .outputExpert (bs [k, 1, 0, 0]) s = true) ∧ u16 (bs [1, 1, 0, 0]) 2 = 0 ∧
    (du .outputExpert (bs [1, 1, 0, 0]) s).cfg.board.spkWired.getLsbD 1 = true ∧ clockStopped (du .outputExpert (bs [1, 1, 0, 0]) s) = true := by
  decide
theorem test_hold_safe_set : let p := bs [0, 0, 0, 0, 1, 0, 0, 0, 1, 0, 0, 0]
    let s : State := { s0 with outp := { safe := { declared := true } :: List.replicate 7 {} } }
    let t := du .holdSafeSet p s
    ok .holdSafeSet p s = true ∧ zeroAt p 1 3 = true ∧ u32 p 8 = 1 ∧ (safeOf t 0).declared = true ∧
    inRange (holdRt t 0).range (i32 p 4) = true ∧ (∀ g, (holdRt t 0).rc = some g → inRange g (i32 p 4) = true) ∧
    (∀ x ∈ [(landEffect ⟨.holdSafeSet, h0, p, false, 0, false⟩ s)], (safeOf x 0).value = 1) := by
  refine ⟨by decide, by decide, by decide, by decide, by decide, ?_, by decide +kernel⟩
  intro g h
  cases h

/-! ### Filter chains -/

theorem test_chain_events : let s (x : FChain) : State := { s0 with filt := { press := [(35, x)], syncs := [⟨0, 1, h0, [], 0⟩], capture := 1, captureGot := List.replicate 512 0 } }
    let f (x : FChain) := chainOf (advance 0 (s x)) (chainPour (.press 35)) (chainNum (.press 35))
    (f { state := .fadingStop }).state = .fadingStop ∧ (f { state := .fadingStop }).left = 0 ∧ (f { state := .fadingReload, reload := true }).state = .fadingReload ∧
    (f { state := .fadingReload, reload := true }).reload = true ∧ modeUp (advance 0 (s {})).life.mode = true ∧
    (advance 0 (s {})).filt.syncs = ⟨0, 1, h0, [], 0⟩ :: [] ∧ (advance 0 (s {})).filt.capture = 1 ∧
    (advance 0 (s {})).filt.captureGot.length = 512 := by decide +kernel
theorem test_filt_sync : let p (m : Nat) := bz 20 [1, 0, 0, 0, 0, 0, 0, 0, 0, 0, 0, 0, 0, 0, 0, 0, m]
    ok .filtSync (p 1) s0 = true ∧ u8 (p 1) 16 ≠ 2 ∧ checkFiltSync h0 (p 1) (du .filtSync (p 1) s0) = .ok ∧
    checkFiltSync h0 (p 3) (du .filtSync (p 3) s0) ≠ .ok := by decide +kernel
theorem test_filt_phase : let p := bz 12 [1, 255, 127, 0, 3]
    let t := du .filtPhase p s0
    ok .filtPhase p s0 = true ∧ u8 p 2 = 127 ∧ u8 p 3 = 0 ∧ u64 p 4 = 3 ∧ maskBad true (u64 p 4) = false ∧
    (∀ c ∈ bitsOf 46 (u64 p 4), chainRuns t true c = false) := by decide +kernel
/-- A set is removed, one is refused while a chain runs with it, and the last part of one of two taps is accepted. -/
theorem test_coef_load : let p (t n : Nat) (w : Bytes) := bs [1, 7, 2, 0] ++ le 2 t ++ le 2 0 ++ le 2 n ++ le 2 0 ++ le 4 (crc32c w).toNat ++ w
    let s : State := { s0 with cfg := { filt := { pour := [(0, { resp := 3, set := 7 })] } }, filt := { pour := [(0, { state := .running })] } }
    let q := p 2 2 (zeros 8)
    ok .filtCoefLoad (p 0 0 []) s0 = true ∧ checkCoefLoad (p 0 0 []) = .ok ∧ setUsers (du .filtCoefLoad (p 0 0 []) s0) true 7 = [] ∧
    ok .filtCoefLoad q s = true ∧ checkCoefLoad q = .ok ∧ u16 q 4 ≠ 0 ∧ u16 q 6 = 0 ∧
    (setUsers (du .filtCoefLoad q s) true 7).any (chainRuns (du .filtCoefLoad q s) true) = true ∧
    (setUsers (du .filtCoefLoad q s0) true 7).any (chainRuns (du .filtCoefLoad q s0) true) = false ∧
    (match coefPart true 7 q [] (du .filtCoefLoad q s0) with | .reply .ok _ _ => true | _ => false) = true := by decide +kernel
/-- The second part of a set of two taps. -/
theorem test_coef_continues : let w := zeros 8
    let p := bs [1, 7, 2, 0] ++ le 2 2 ++ le 2 1 ++ le 2 1 ++ le 2 0 ++ le 4 (crc32c w).toNat ++ zeros 4
    let s : State := { s0 with filt := { loads := [(15, some ⟨false, 2, [0]⟩)] } }
    let t := du .filtCoefLoad p s
    ok .filtCoefLoad p s = true ∧ checkCoefLoad p = .ok ∧ u16 p 4 = 2 ∧ u16 p 6 = 1 ∧
    (match tget none t.filt.loads (bit true * 8 + 7) with
      | some l => l.taps == u16 p 4 && l.symmetric == (u8 p 2 % 2 == 1) && l.words.length == u16 p 6 &&
          (match coefPart true 7 p l.words t with | .reply .ok _ _ => true | _ => false)
      | none => false) = true := by decide +kernel
theorem test_filt_status : ok .filtStatus [] s0 = true := by decide
theorem test_filt_expert : (∀ k ∈ [0, 1, 2], ok .filtExpert (bs [k, 1, 45, 0]) s0 = true) ∧ 45 < chainCount true ∧
    (du .filtExpert (bs [2, 1, 45, 0]) s0).life.mode ≠ .maintenance ∧ (du .filtExpert (bs [2, 1, 45, 0]) s0).filt.capture ≠ 1 := by decide

/-! ### Headset ports -/

def sHs (c : BitVec 4) (x : HsRt) : State := { s0 with cfg := { board := { hsConnector := c } }, hs := { p1 := x } }
theorem test_headset : let f (c : BitVec 4) (x : HsRt) := advance 0 (sLate 2 (sHs c x))
    let n := (advance 0 (sLate 2 (sHs 0 {}))).sysCnt
    hsRuns (f 0 {}) 1 = true ∧ hsXlr (f 0 {}) 1 = false ∧ hsXlr (f 4 {}) 1 = true ∧ (hsRt (f 4 { polls := 1 }) 1).state = .empty ∧
    (hsRt (f 4 { polls := 1 }) 1).polls = 1 ∧ (hsRt (f 4 {}) 1).due = false ∧ (hsRt (f 4 { pollAt := 5 }) 1).pollAt + 250 * msCounts ≤ n ∧
    (hsRt (f 0 { due := true }) 1).due = true ∧ (hsRt (f 0 { state := .fault, present := true }) 1).state = .fault ∧
    (hsRt (f 0 { present := true }) 1).present = true ∧ (hsRt (f 0 { state := .fault, present := true }) 1).faultAt + 2 * secCounts ≤ n ∧
    (hsRt (f 0 { state := .measuring }) 1).state = .measuring ∧ (hsRt (f 0 { state := .measuring }) 1).present = false ∧
    ((hsRt (f 0 { state := .measuring }) 1).cycleAt + 120 * msCounts ≤ n) ∧
    (hsRt (f 0 { state := .measuring, present := true }) 1).present = true ∧
    hsDriven (f 0 { state := .identified, right := true }) 1 true = true := by decide
theorem test_buttons : let f (x : HsRt) := advance 0 (sLate 10 (sHs 0 x))
    let r : HsRt := { state := .identified, type := 4, vIdle := some 2000000, button := 2, longDone := true }
    buttonsOn (f r) 1 = true ∧ vIdleNow (f r) 1 = 2000000 ∧ buttonOf 59999 2000000 = 1 ∧ (hsRt (f r) 1).button ≠ 0 ∧ 1 ≠ r.button ∧
    (hsCfg (f r) 1).repeatMs ≠ 0 ∧ (hsCfg (f r) 1).longMs * msCounts ≤ (f r).sysCnt - r.pressAt ∧
    r.pressAt + ((hsCfg (f r) 1).longMs + (r.repeats + 1) * (hsCfg (f r) 1).repeatMs) * msCounts ≤ (f r).sysCnt ∧
    20 * msCounts ≤ 4000000 := by decide
theorem test_hs_commands : ok .hsStatus [] s0 = true ∧ ok .hsEvents (bs [32, 0, 0, 0]) s0 = true ∧ zeroAt (bs [32, 0, 0, 0]) 1 3 = true ∧
    (∀ k ∈ [0, 1, 2], ok .hsExpert (bs [k, 1, 0, 0]) s0 = true) ∧ u16 (bs [2, 1, 0, 0]) 2 = 0 ∧
    (du .hsExpert (bs [2, 1, 0, 0]) s0).cfg.board.hsWired.getLsbD 1 = true ∧ (hsRt (du .hsExpert (bs [2, 1, 0, 0]) s0) 1).button = 0 := by
  decide

/-! ### Ports -/

/-- A TDM frame length, width and word that R396 admits for a master at 48 kHz; format 4 TDM slots in 256 bit clocks. -/
theorem test_tdm_set : let p (k : Nat) := bz 24 [3, 2, 1, 4, 8, 32, 32, 0, 0, 1, 0xFF, k, 255, 0, 0, 0, 255]
    ok .tdmSet (p 0) s0 = true ∧ checkTdmSet (p 0) (du .tdmSet (p 0) s0) = .ok ∧ checkTdmSet (p 1) (du .tdmSet (p 1) s0) = .badParam := by
  decide +kernel
/-- Two slots of WIDTH 32 with OFFSET 1 do not fit FRAME_BCLKS 64 (R396), one less in width does. -/
theorem test_tdm_limits : tdmBad { width := 32, offset := 1, frameBclks := 64 } 48000 false = true ∧
    tdmBad { width := 31, offset := 1, frameBclks := 64 } 48000 false = false := by decide
theorem test_aes_set : let p (k c : Nat) := bz 16 ([k, 3, 0, 1, c, 0xFF, 0, 0] ++ if k = 1 then [0x80, 0xBB] else [])
    (∀ k ∈ [0, 1], ok .aesSet (p k 0) s0 = true ∧ checkAesSet (p k 0) (du .aesSet (p k 0) s0) = .ok) ∧
    checkAesSet (p 1 6) (du .aesSet (p 1 6) s0) ≠ .ok := by decide +kernel
theorem test_port_reports : (∀ k ∈ [0, 1], ok .aesCsRead (bs [k, 3, 1, 0]) s0 = true ∧ ok .portStatus (bs [k, 0, 0, 0]) s0 = true) ∧
    zeroAt (bs [1, 0, 0, 0]) 1 3 = true := by decide
theorem test_port_stamp : let s : State := { s0 with clk := { wclkStamp := { valid := true } } }
    let p := bs [7, 0, 0, 0]
    ok .portStamp p s = true ∧ (stampOf (du .portStamp p s) 7 0).1.valid = true ∧ (stampOf (du .portStamp p s0) 7 0).1.valid = false ∧
    ok .portStamp p s0 = true := by decide
def sPort (k : Nat) (x : PortRt) : State := { s0 with
  cfg := { port := { tdm := [(3, { master := true })], rx := [(3, { validity := 1 })], tx := [(3, { txClock := 1 })] } }, port := [(k, x)] }
theorem test_port_runs : let f (k : Nat) (x : PortRt) := advance 0 (sLate 1 (sPort k x))
    startDone (f 3 { state := .starting, frames := 1 }) 3 = true ∧ (portRt (f 3 { state := .starting }) 3).state = .starting ∧
    startDone (f 3 { state := .starting }) 3 = false ∧ stopDone (f 3 { state := .stopping, silentAt := some 0 }) 3 = true ∧
    (portRt (f 3 { state := .stopping, silentAt := some 0 }) 3).state = .stopping ∧ portKey (.tdm 3) = 3 := by decide +kernel
/-- A frame on time, one that is late and one that is early: used, late, early. -/
theorem test_frame_times : let go (x : PortRt) (stamp : Nat) : Bool × Bool × Bool :=
      let t := advance 0 { sPort 3 x with clk := { started := true, stamp := stamp } }
      let e := inputEdge 3 4167 false t
      let cap := captureTime (stampEdge (t.sysCnt - 4167) (portRt e.2 3).rxStamp) (t.sysCnt - 4167)
      (e.1, e.2.clk.started && eighths (fsNow e.2) 15 cap (tickAt e.2), decide (t.sysCnt + 20 * msCounts < cap))
    go { state := .running } 3 = (true, false, false) ∧ go { state := .running } 100000 = (true, true, false) ∧
    go { state := .running, rxStamp := ⟨true, 9, 1000000000, 8, 9, false⟩ } 3 = (true, false, true) := by decide +kernel
theorem test_tdm_frame : let t := advance 0 (sPort 3 { state := .running })
    (inputEdge 3 4167 false t).1 = true ∧ isDecant t.cfg.clock.decant (rxDecant 3) = false ∧
    ((inputEdge 3 4167 false t).2.clk.started && eighths 48000 15 0 (tickAt t)) = false ∧
    eighths 48000 15 0 7813 = true := by decide +kernel
theorem test_aes_frame : let t := advance 0 (sPort 7 { state := .running })
    (inputEdge 7 4167 false t).1 = true ∧ isDecant t.cfg.clock.decant (rxDecant 7) = false ∧ (inputEdge 7 4167 false t).2.clk.started = false ∧
    (inputEdge 7 9000 false { t with clk := { monitors := mon 7 { seen := true } } }).1 = false := by decide +kernel
/-- A professional block whose CRCC is right, and a consumer one seen twice (R402, R403). -/
theorem test_cs_block : let b := (1 : Byte) :: List.replicate 22 0
    let p := b ++ [BitVec.ofNat 8 (crcc b)]
    let c := (4 : Byte) :: List.replicate 23 0
    (csBlock {} p (zeros 24) 192).1.cs = p ∧ (csBlock {} p (zeros 24) 192).1.passed = true ∧
    (csBlock {} c (zeros 24) 192).1.cs = zeros 24 ∧ (csBlock (csBlock {} c (zeros 24) 192).1 c (zeros 24) 192).1.cs = c := by decide +kernel
theorem test_aes_transmit : let t := advance 0 (sPort 11 { state := .running, started := true })
    (portRt t 11).state ≠ .stopped ∧ (portRt t 11).started = true ∧ (portRt t 11).blockPos = 0 ∧ (txCfg t 3).txClock ≠ 0 ∧
    txReceiverDown t 3 = true ∧ txReceiverDown (advance 0 s0) 3 = false ∧ (portRt t 11).fallback = false := by decide

/-! ### Network -/

theorem test_net_set : let p (k : Nat) := bz 36 [k, 0, 0, 0, 0, 0, 0, 0, 0, 0, 0, 0, 24, 24, 5, 40, 0, 0, 0, 0, 0, 0, 0, 0, 0, 0, 0, 0, 46, 6, 10, 0]
    (∀ k ∈ [0, 1], ok .netSet (p k) s0 = true ∧ checkNetSet (p k) (du .netSet (p k) s0) = .ok) ∧
    checkNetSet (p 2) (du .netSet (p 2) s0) ≠ .ok ∧ ok .netStatus [] s0 = true := by decide +kernel
def frame0 : EthFrame := ⟨macBroadcast, 2, false, 0, 0, false, 0, 0, false, false, false, false, false, 0, 64⟩
/-- HOSTNET declared, all links up, in a network configuration. -/
def sNets (c : NetCfg) : State := { s0 with
  cfg := { board := board, net := { net := c } }, net := { a := { link := 1 }, b := { link := 1 }, host := { link := 1 } } }
theorem test_links : let t := advance 0 (sNets {})
    (∀ l ∈ [LinkPort.neta, .netb, .hostnet], spiAlive t = true ∧ linkDeclared t l = true ∧ linkIsUp t l = true) ∧
    modeUp t.life.mode = true ∧ (ownAddr (advance 0 (sNets { addrA := 7 })) .neta).1 = 7 ∧
    (∀ l ∈ [LinkPort.neta, .netb], ∀ b ∈ [true, false], speedOk t l b = true) ∧ speedOk t .hostnet false = true ∧
    (advance 0 { sNets {} with clk := { portA := { locked := true } } }).clk.portA.locked = true := by decide
theorem test_forward : let t := advance 0 (sNets { switched := true })
    let u := advance 0 (sNets { bridge := 1 })
    (netCfg t).switched = true ∧ stormFrame t { frame0 with dst := 4 } = false ∧ frame0.len ≤ 1522 ∧
    (netCfg u).switched = false ∧ (netCfg u).bridge ≠ 0 ∧ stormFrame u { frame0 with dst := 4 } = false ∧ frame0.bpdu = false ∧
    frame0.dst = macBroadcast ∧ frame0.dst ≠ (ownAddr u .hostnet).2 := by decide

/-! ### Streams -/

theorem test_rx_set : let p (k : Nat) := bz 64 [63, k, 1, 3, 0, 3, 8, 0, 8, 248, 0xFF, 0, 0xE8, 3, 0, 0, 0, 0, 0, 0, 0, 0, 0, 0, 0, 0, 0, 0, 0, 0, 0, 0, 0x8C, 0x13, 0x8C, 0x13]
    let q (k : Nat) := (p k).take 12 ++ le 4 2000 ++ (p k).drop 16
    (∀ k ∈ [0, 1], ok .streamRxSet (q k) s0 = true ∧ checkRxSet (q k) (du .streamRxSet (q k) s0) = .ok) ∧
    checkRxSet (q 5) (du .streamRxSet (q 5) s0) ≠ .ok := by decide +kernel
theorem test_tx_set : let p (k : Nat) := bz 64 [63, k, 1, 1, 0, 3, 8, 248, 5, 34, 16, 97, 0, 0, 0, 0, 239, 1, 1, 1, 0, 0, 0, 0, 0x8C, 0x13, 0x8C, 0x13]
    (∀ k ∈ [0, 1], ok .streamTxSet (p k) s0 = true ∧ checkTxSet (p k) (du .streamTxSet (p k) s0) = .ok) ∧
    checkTxSet (p 5) (du .streamTxSet (p 5) s0) ≠ .ok := by decide +kernel
theorem test_stream_status : (∀ k ∈ [0, 1], ok .streamStatus (bs [k, 32, 32, k]) s0 = true) := by decide
/-- A receive slot that a packet is addressed to, on both paths, and a transmit slot with a whole packet. -/
def sStr (x : SlotState) : State := { sNets { switched := false } with
  cfg := { board := board, net := { rx := [(63, { transport := 1, paths := 3, destA := 0xEF010101 })], tx := [(63, { transport := 1, ptime := 0 })] } }
  net := { a := { link := 1 }, rx := [(63, { state := x })]
           tx := [(63, { state := x, buf := (List.range 6).map (fun k => (k, ⟨[0], []⟩)) })] } }
def media0 : MediaPacket := ⟨.a, true, 0xEF010101, 1, 5004, 0, 0, 0, 97, 0, 0, 0, zeros 24⟩
theorem test_media : let t := advance 0 (sStr .running)
    modeUp t.life.mode = true ∧ linkIsUp t .neta = true ∧ rxActive t 63 = true ∧ addressed t (rxSlotCfg t 63) media0 = true ∧
    packetValid t (rxSlotCfg t 63) media0 = true ∧ packetPath t media0 = false ∧ packetPath t { media0 with port := .b } = true ∧
    packetValid t (rxSlotCfg t 63) { media0 with vlan := 1 } = false := by decide +kernel
theorem test_stream_send : let t (x : SlotState) := advance 0 (sStr x)
    let e : State := { sStr .running with net := { tx := [(63, { state := .stopping, silentAt := some 0, buf := (List.range 6).map (fun k => (k, ⟨[0], []⟩)) })] } }
    (txSlot (t .running) 63).state = .running ∧ (txSlot (t .starting) 63).state = .starting ∧ txDec (t .running) 63 = false ∧
    max 1 (packetSamples 0 0) = 6 ∧ (nextPacket (t .running) 63).isSome = true ∧ (nextPacket (advance 0 e) 63).map Prod.fst = some 0 ∧
    (txSlot (advance 0 e) 63).state = .stopping ∧ (txSlot (advance 0 e) 63).silentAt = some 0 := by decide +kernel
theorem test_stream_lost : let s (b : Option Nat) : State := sLate 1 <|
      { sStr .running with net := { a := { link := 1 }, rx := [(63, { state := .running, lastA := some 0, lastB := b })] } }
    let t := advance 0 (s (some 0))
    let r (c : FaultCode) := advance 0 (raise c (rxObject t 63) 0 0 (s none))
    (rxSlot t 63).state ≠ .off ∧ (rxSlot t 63).state ≠ .stopping ∧ (rxSlotCfg t 63).paths = 3 ∧ inForce .streamLost (rxObject t 63) 0 t = false ∧
    (rxSlot t 63).lastA.isSome = true ∧ delivering t (rxSlot t 63).lastA = false ∧ delivering t (rxSlot t 63).lastB = false ∧
    inForce .streamLost (rxObject t 63) 0 (r .streamLost) = true ∧ (rxSlot (r .streamLost) 63).reportAt + secCounts ≤ (r .streamLost).sysCnt ∧
    pathGone t (rxSlot t 63) .b = true ∧ inForce .pathLost (rxObject t 63) 0 t = false ∧ pathGone (r .pathLost) (rxSlot (r .pathLost) 63) .b = true ∧
    inForce .pathLost (rxObject t 63) 0 (r .pathLost) = true := by decide +kernel

/-! ### Cooper cores as the module runs them -/

/-- An image of one HALT, without a signature. -/
def image0 : Bytes :=
  let body := le 4 (coopEncode .halt).toNat
  bs [0x50, 0x4F, 0x4F, 0x43, 1, 0, 0, 0] ++ zeros 8 ++ bs [8, 2, 2, 0] ++ zeros 12 ++ le 4 1 ++ zeros 12 ++ le 4 4 ++ zeros 4
    ++ sha256 body ++ zeros 168 ++ body
def sCore (c : Core) : State := { s0 with coop := [(0, c)] }
theorem test_coop_load : let p (a n : Nat) := bs [0, a, 0, 0] ++ le 4 n
    let e : State := sCore { state := .loading, load := some ⟨.spi, 260, image0⟩ }
    let d : State := { e with life := { mode := .hold, state := .deployed } }
    let l : State := sCore { state := .loading, load := some ⟨.spi, 260, []⟩ }
    ok .coopLoad (p 0 256) s0 = true ∧ coreRuns (coreOf (du .coopLoad (p 0 256) s0) 0) = false ∧
    ok .coopLoad (p 1 0 ++ zeros 4) l = true ∧ (coreOf (du .coopLoad (p 1 0) l) 0).load = some ⟨.spi, 260, []⟩ ∧
    ok .coopLoad (p 2 0) e = true ∧ headerCheck image0 = .ok ∧ image0.length = 260 ∧
    imageSigned (du .coopLoad (p 2 0) e) image0 = some false ∧ u32 image0 24 + caskKibUsed (du .coopLoad (p 2 0) e) 0 ≤ 32768 ∧
    ok .coopLoad (p 2 0) d = true ∧ imageSigned (du .coopLoad (p 2 0) d) image0 = none ∧ ok .coopLoad (p 3 0) s0 = true := by
  decide +kernel
theorem test_coop_reports : let s := sCore { state := .stopped, image := { paramWords := 4, rbWords := 4 } }
    let p (a : Nat) := bs [0, a, 3, 0, 1, 0, 0, 0]
    (∀ a ∈ [1, 2], ok .coopParam (p a) s = true ∧ checkCoopParam false (p a) (du .coopParam (p a) s) = .ok) ∧
    (∀ k ∈ [0, 1], ok .coopStatus (bs [k, 0, 0, 0]) s0 = true) ∧ zeroAt (bs [1, 0, 0, 0]) 1 3 = true := by decide +kernel
theorem test_coop_debug : let s (x : CoopState) := sCore { state := x }
    let p (a : Nat) := bs [a, 0, 0, 0, 1, 0, 0, 0]
    (∀ a ∈ [0, 1, 2, 3], ok .coopDebug (p a) (s .halted) = true) ∧ clockStopped (du .coopDebug (p 1) (s .running)) = true ∧
    (coreOf (du .coopDebug (p 1) (s .running)) 0).state = .running ∧ (coreOf (du .coopDebug (p 3) (s .halted)) 0).state = .halted ∧
    u32 (p 2) 4 = 1 := by decide
theorem test_coop_block : let b : Core := { state := .running, inited := true, collect := List.replicate 8 [] }
    let f (c : Core) := coreOf (advance 0 (sCore c)) 0
    coreRuns (f b) = true ∧ (f b).inited = true ∧ (f b).image.block = 8 ∧ (f b).collect.length = 8 ∧ (f b).noted = false ∧
    lateAt (f b) 1 = false ∧ lateAt (f { b with active := true, bnd := 1 }) 2 = true ∧ (f { b with state := .stopping }).stopIn = 0 ∧
    (f { b with state := .stopping }).w = 0 ∧ (f { b with state := .halted }).state = .halted ∧
    (f { b with waiting := some ⟨0, 0, []⟩, active := true }).waiting = some ⟨0, 0, []⟩ := by decide
theorem test_coop_events : let f (c : Core) := coreOf (advance 0 (sLate 60 (sCore c))) 0
    let s : State := sLate 60 { sCore { state := .trapped, trapReason := 1, restarts := 2 } with cfg := { coop := [(0, { restart := true, run := true })] } }
    (f { state := .starting }).state = .starting ∧ (f { state := .starting }).inited = false ∧ (f { unrec := [1] }).unrec = 1 :: [] ∧
    lateAt (f { state := .running, active := true, bnd := 1, collect := List.replicate 8 [] }) 2 = true ∧
    (f { state := .running, active := true, bnd := 4 }).cur.num + 4 ≤ 4 ∧ (coreOf (advance 0 s) 0).state = .trapped ∧
    (coopCfg (advance 0 s) 0).restart = true ∧ (coopCfg (advance 0 s) 0).run = true ∧ (coreOf (advance 0 s) 0).trapReason ≠ 8 ∧
    (coreOf (advance 0 s) 0).restarts < 3 ∧ (coreOf (advance 0 s) 0).trapAt + secCounts ≤ (advance 0 s).sysCnt ∧
    coresHeld (advance 0 s) = false ∧ coresHeld (advance 0 (raise .thermalTrip 0 0 0 s)) = true ∧
    3 ≤ (f { state := .trapped, restarts := 3 }).restarts ∧ (f { state := .running }).runAt + 60 * secCounts ≤ (advance 0 s).sysCnt := by
  decide +kernel
theorem test_dma : let d (a : Nat) : Core := { dma := { now := some (0, a, 4, true) } :: List.replicate 3 {} }
    (∀ a ∈ [0x20000, 0x3FFFC, 0x40000], ((coreOf (advance 0 (sCore (d a))) 0).dma.getD 0 {}).now = some (0, a, 4, true)) := by decide

/-! ### Cooper instructions -/

/-- Core 0 executes a program: P0 at X memory, P4 at Y memory. -/
def sRun (l : List CoopOp) : State := sCore
  { state := .running, active := true, image := { progWords := l.length }, prog := wordTab 0 (l.map coopEncode)
    regs := { p := tset 0 (tset 0 [] 0 0x20000) 4 0x40000 } }
def mul0 (m : Sys2Proof.Move) : MulFields := ⟨true, 1, 2, 3, m⟩
def ldd0 : LddFields := ⟨1, 2, 0, 4, .inc, .modulo⟩
/-- An instruction of every kind and form. -/
def ops0 : List CoopOp :=
  [.mac (mul0 .none), .msu (mul0 (.ldd ldd0)), .mpy (mul0 (.ld 9 0 .inc)), .mac (mul0 (.st (.acc 1) 4 .off)),
   .add (.data 1 2 (.imm 0x8000)), .add (.acc 1 2 3), .sub (.data 1 2 (.reg 3)), .sub (.acc 1 2 3), .cmp (.data 1 (.reg 2)), .cmp (.acc 1 2),
   .and ⟨1, 2, .imm 5⟩, .or ⟨1, 2, .reg 5⟩, .xor ⟨1, 2, .imm 5⟩] ++
  [.shl (.data 1 2 (.imm 31)), .shl (.acc 1 2 (.imm 71)), .asr (.data 1 2 (.reg 3)), .asr (.acc 1 2 (.imm 0)), .norm (.data 1 2),
   .norm (.acc 1 2), .rnd (.narrow 1 2), .rnd (.data 1 2 16), .sat (.acc 1 2), .sat (.data 1 2 24), .acs ⟨1, 2, 3, 4, true, false, true⟩,
   .bexp ⟨0, 4, .inc, .inc, true, 4⟩] ++
  [.ld (.mem 1 0 (.disp 0x3FFF)), .ld (.mem 1 0 (.post .inc)), .ld (.immLow 41 0x8000), .ld (.immHigh 0 1), .ld (.reg 47 43), .ldd ldd0,
   .st ⟨.data 1, 0, .post .off⟩, .st ⟨.acc 3, 0, .disp 1⟩, .br 12 (.imm 5), .br 0 (.reg 1), .call (.imm 1), .ret, .rep 1 1, .rep 1023 5,
   .repReg 1 2, .endrep 1, .endrep 0, .wait 15, .blkdone, .halt]
theorem test_issues : ∀ op ∈ ops0, op.wf = true ∧ issues 0 op (sRun [op]) = true := by decide +kernel
theorem test_issue_not : fetched (coreOf (sRun [.ret]) 0) ≠ some .halt ∧ executing (coreOf s0 0) = false ∧
    atBreak { coreOf (sRun [.ret]) 0 with breaks := [0x80000000, 0, 0, 0] } = true ∧ endsFlow .ret = true ∧
    fetched (coreOf (sRun []) 0) = none ∧ (coreOf (sRun []) 0).image.progWords ≤ 0 ∧
    fetched { coreOf (sRun [.ret]) 0 with prog := [] } = none := by decide +kernel
theorem test_accesses : let c := coreOf (sRun [.ret]) 0
    loadAt 0 c 0 = some 0 ∧ loadAt 0 c 4 = some 0 ∧ loadAt 0 c 1 = none ∧ (effAddr c.regs 0 (.disp 0x3FFF)).1 = 0x1FFFC ∧
    (match coreStore c 0x5FFFC 7 with | .ok d => tget 0 d.ymem 0x7FFF == 7 | .error _ => false) = true ∧
    (match coreStore c 0x60000 7 with | .ok _ => false | .error r => r == 2) = true ∧ coreLoad 0 0 c 0x64FFC = some 0 ∧ coreLoad 0 0 c 0x65000 = none ∧
    coreLoad 0 0 c 0x743FC = some 0 ∧ coreLoad 0 0 c 0x74400 = none := by decide +kernel
theorem test_results : (accResult 0 0 2361183241434822606847).2 = 0 ∧ srBit (accResult 0 0 2361183241434822606848).2 0 = true ∧
    dataResult 0 2147483648 = (-2147483648, 0) ∧ narrowTo 0 16 32767 = (32767, 0) ∧ condHolds 0 0 = true ∧ condHolds 0 1 = false ∧
    normD 1 = 30 ∧ normD 0 = 31 ∧ normA 1 = 61 ∧ (∃ l : RepLevel, l.last = 3 ∧ 1 < l.left) := by
  refine ⟨by decide, by decide, by decide, by decide, by decide, by decide, by decide, by decide, by decide, ⟨⟨0, 3, 2⟩, by decide⟩⟩
theorem test_stacks : let c (r : List Nat) (l : List RepLevel) : Core := { coreOf (sRun [.ret]) 0 with rstack := r, reps := l }
    (c (List.replicate 15 0) []).rstack.length < 16 ∧ 16 ≤ (c (List.replicate 16 0) []).rstack.length ∧
    4 ≤ (c [] (List.replicate 4 ⟨0, 9, 1⟩)).reps.length ∧ (∀ l ∈ (c [] [⟨0, 9, 1⟩]).reps, 0 + 1 + 1 ≤ l.last) ∧
    (∃ l ∈ (c [] [⟨0, 1, 1⟩]).reps, l.last < 2) := by decide
theorem test_memories : MemoriesWf (coreOf (sRun [.ret]) 0) ∧ ∃ t, exec (.ret 0) (sRun [.ret]) = .next t := by
  refine ⟨by unfold MemoriesWf; decide +kernel, _, rfl⟩

/-! ### Worked examples of the manual -/

/-- Number formats: −6020 mdB is sent as 7C E8 FF FF (chapter 00). -/
theorem test_example_number : leI 4 (-6020) = bs [0x7C, 0xE8, 0xFF, 0xFF] := by decide
/-- The check value of the CRCC (R403). -/
theorem test_example_crcc : crcc (bs [0x31, 0x32, 0x33, 0x34, 0x35, 0x36, 0x37, 0x38, 0x39]) = 0x97 := by decide +kernel
/-- LINK_OFFSET_US 1100 is 53 frames at 48 kHz and 106 at 96 kHz (chapter 05). -/
theorem test_example_link : usFrames s0 1100 = 53 ∧ usFrames { s0 with clk := { fs := 1 } } 1100 = 106 := by decide +kernel
/-- 8 frames of 33,328 counts are 48,007,681 mHz (chapter 12). -/
theorem test_example_rate : stampRate { valid := true, stamp := 400001000, prev := 399967672, edges := 16 } = 48007681 := by decide +kernel
/-- A ramp of 5000 µs takes 240 frames at 48 kHz (chapter 11). -/
theorem test_example_ramp : rampFrames s0 5000 = 240 := by decide +kernel
/-- A delay line of 20 words: from its last word, N 4 leads to its first (R489). -/
theorem test_example_modulo :
    postMod { p := [(1, 0x4105C)], n := [(1, 4)], m := [(1, 0x290404)] } 1 .modulo = 0x41010 := by decide
/-- 511.9 + 0.5 wraps with AOV, and − 0.5 brings it back (chapter 15). -/
theorem test_example_wrap : let x : Int := 5119 * 2 ^ 62 / 10
    let y := accResult 0 0 (x + 2 ^ 61)
    srBit y.2 0 = true ∧ y.1.toInt = x + 2 ^ 61 - 2 ^ 72 ∧ (accResult y.2 0 (y.1.toInt - 2 ^ 61)).1.toInt = x := by decide
/-- In saturate mode the first step clamps at 512 − 2^−62. -/
theorem test_example_saturate : (accResult (srPut 0 bitAsat true) 0 (5119 * 2 ^ 62 / 10 + 2 ^ 61)).1.toInt = 2 ^ 71 - 1 := by decide
/-- NORM of 2.0 is −2 and of 0.25 is +1 (chapter 15). -/
theorem test_example_norm : normA (BitVec.ofInt 72 (2 ^ 63)) = -2 ∧ normA (BitVec.ofInt 72 (2 ^ 60)) = 1 := by decide
end Sys2Proof.Tests
end

/-! # What a command leaves alone, and SYSCNT

Every command but a few leaves the core of the machine (`State.core`: the waiting commands, SYSCNT, the lifecycle state, a
lifecycle transition that is due and the operating mode) as its own time leaves it, `advance dt s`, or, where a reset's first 2 ms
may end first, `settleReset (advance dt s)`. One lemma per command says so; for a command that moves the mode or the lifecycle it
says that SYSCNT is left alone. SYSCNT then falls only at AO ready and where the power goes (R8, R86). -/

namespace Sys2Proof.Machine

/-! ### What an outcome keeps -/

/-- Every state the outcome answers with agrees with `s` in what `f` reads. -/
structure Keeps {α : Type} (f : State → α) (s : State) (r : R) : Prop where
  eq : ∀ t, r = .next t → f t = f s

@[simp] theorem keeps_next {α : Type} (f : State → α) (s t : State) : Keeps f s (.next t) ↔ f t = f s :=
  ⟨fun h => h.eq t rfl, fun h => ⟨fun _ e => by cases e; exact h⟩⟩

theorem Keeps.ite {α : Type} {f : State → α} {s : State} {c : Prop} [Decidable c] {a b : R} (ha : c → Keeps f s a)
    (hb : ¬c → Keeps f s b) : Keeps f s (if c then a else b) := by
  split
  · exact ha ‹_›
  · exact hb ‹_›

theorem sysCnt_of_core {s t : State} (h : t.core = s.core) : t.sysCnt = s.sysCnt := congrArg (·.2.1) h

theorem core_withVint (v : Vint) (s : State) : ({ s with vint := v } : State).core = s.core := rfl

/-- A served packet keeps a part of the core that its body keeps. -/
theorem serve_keeps {α : Type} {f : State → α} (hf : ∀ {s t : State}, t.core = s.core → f t = f s) {op : Op} {h : Hdr}
    {p : Bytes} {body : State → Ans} (hb : ∀ s, f (ansState (body s)) = f s) (s : State) :
    f (serve op h p body s) = f s := by
  have hs : f { s with cmd := select s.cmd } = f s := hf rfl
  have hfin : ∀ t, f (finish t) = f t := fun t => hf (finish_core t)
  have hrep : ∀ st pay t, f (reply (opCode op) h st pay t) = f t := fun st pay t => hf (reply_core ..)
  unfold serve
  dsimp only
  split
  · exact hs
  · split
    · split
      · have g := (hb { s with cmd := select s.cmd }).trans hs
        split <;> rename_i e <;> rw [e] at g <;> simpa only [hfin, hrep, ansState] using g
      · rw [hfin, hrep, hs]
    · exact hs

/-- An opcode keeps a part of the core that its body keeps. -/
theorem keeps_opcode {α : Type} {f : State → α} (hf : ∀ {s t : State}, t.core = s.core → f t = f s) {op : Op} {h : Hdr}
    {p : Bytes} {body : State → Ans} (hb : ∀ s, f (ansState (body s)) = f s) (s : State) :
    Keeps f (advance h.dt s) (opcode op h p body s) := by
  have hadm := admission_core op h p (advance h.dt s)
  unfold opcode
  dsimp only
  split
  · simp
  · split
    · simpa using serve_keeps hf hb _
    · split <;> rename_i e <;> rw [e] at hadm
      · simpa using (serve_keeps hf hb _).trans (hf hadm)
      · simpa using hf ((refuseAt_core ..).trans hadm)

theorem keeps_core_opcode {op : Op} {h : Hdr} {p : Bytes} {body : State → Ans} {s : State}
    (hb : ∀ s, (ansState (body s)).core = s.core) : Keeps State.core (advance h.dt s) (opcode op h p body s) :=
  keeps_opcode id hb s

theorem keeps_core_opcodeN {op : Op} {n : Nat} {h : Hdr} {p : Bytes} {body : State → Ans} {s : State}
    (hb : ∀ s, (ansState (body s)).core = s.core) : Keeps State.core (advance h.dt s) (opcodeN op n h p body s) := by
  obtain ⟨t, ht, hc⟩ := opcodeN_core op n h p body s hb
  simpa [ht] using hc

theorem keeps_core_coopExec {k : Fin 4} {op : CoopOp} {body : Core → CoopRes} {s : State} :
    Keeps State.core s (coopExec k op body s) := by
  obtain ⟨t, ht, hc⟩ := coopExec_core k op body s
  simpa [ht] using hc

/-! ### The bodies of opcodes -/

@[simp] theorem ansState_guardSt (st : Status) (s : State) (k : Ans) :
    ansState (guardSt st s k) = if st = .ok then ansState k else s := by
  unfold guardSt
  split <;> rfl

@[simp] theorem landLive_core (op h p check) (now : State → State) (s : State) (hn : (now s).core = s.core) :
    (ansState (landLive op h p check now s)).core = s.core := by
  unfold landLive
  simp [hn]

@[simp] theorem landingRamped_core (op h p check s) : (ansState (landingRamped op h p check s)).core = s.core := by
  unfold landingRamped
  simp

theorem setImage_life (l : Life) (i : Fin 2) (f : FwImage) :
    (setImage l i f).state = l.state ∧ (setImage l i f).lifeDue = l.lifeDue ∧ (setImage l i f).mode = l.mode := by
  unfold setImage
  split <;> exact ⟨rfl, rfl, rfl⟩

@[simp] theorem coefPart_core (pour k p old s) : (ansState (coefPart pour k p old s)).core = s.core := by
  unfold coefPart
  simp

@[simp] theorem stageBegin_core (h p s) : (ansState (stageBegin h p s)).core = s.core := by
  unfold stageBegin
  simp [core_mk]

@[simp] theorem stageEdges_core (h p s) : (ansState (stageEdges h p s)).core = s.core := by
  unfold stageEdges
  simp [core_mk]

@[simp] theorem stageGroup_core (h p s) : (ansState (stageGroup h p s)).core = s.core := by
  unfold stageGroup
  simp [core_mk]

@[simp] theorem stageEnd_core (s) : (ansState (stageEnd s)).core = s.core := by
  unfold stageEnd
  dsimp only
  (repeat' split) <;> simp [core_mk]

@[simp] theorem coopEnd_core (k l s) : (ansState (coopEnd k l s)).core = s.core := by
  unfold coopEnd
  (repeat' split) <;> simp

@[simp] theorem seqTrigger_core (m pair s) : (ansState (seqTrigger m pair s)).core = s.core := by
  unfold seqTrigger
  split <;> simp [core_mk]

@[simp] theorem readWords_core (rq n a s) : (readWords rq n a s).2.2.core = s.core := by
  induction n generalizing a s with
  | zero => rfl
  | succ n ih => exact (ih ..).trans (readWord_core ..)

@[simp] theorem regWriteBody_core (h p s) : (ansState (regWriteBody h p s)).core = s.core := by
  unfold regWriteBody
  simp only [ansState_guardSt, core_ite]
  (repeat' split) <;> simp

/-! ### SYSCNT in the operations that move the mode -/

@[simp] theorem sysCnt_le_advance (dt : Nat) (s : State) : s.sysCnt ≤ (advance dt s).sysCnt := by
  rw [advance_sysCnt]
  split <;> omega

@[simp] theorem settleReset_sysCnt (s : State) : (settleReset s).sysCnt = s.sysCnt := (settleReset_settled s).2.1

@[simp] theorem warmReset_sysCnt (cause stay holdN thermal s) :
    (warmReset cause stay holdN thermal s).sysCnt = s.sysCnt := (warmReset_reset cause stay holdN thermal s).2.1

@[simp] theorem resetHot_sysCnt (s : State) : (resetHot s).sysCnt = s.sysCnt := (resetHot_reset s).2.1

@[simp] theorem beginTick_sysCnt (s : State) : (beginTick s).sysCnt = s.sysCnt := (beginTick_ticked s).2.1

@[simp] theorem tickAhead_sysCnt (s : State) : (tickAhead s).sysCnt = s.sysCnt := (tickAhead_ticked s).2.1

@[simp] theorem frameIn_sysCnt (i s) : (frameIn i s).sysCnt = s.sysCnt := (frameIn_ticked i s).2.1

@[simp] theorem lastFrame_sysCnt (i s) : (lastFrame i s).sysCnt = s.sysCnt := (lastFrame_ticked i s).2.1

@[simp] theorem frameEnd_sysCnt (s : State) : (frameEnd s).sysCnt = s.sysCnt := sysCnt_of_core (frameEnd_core s)

@[simp] theorem enterMode_sysCnt (m s) : (enterMode m s).sysCnt = s.sysCnt := congrArg (·.2.1) (enterMode_core m s)

@[simp] theorem startAo_sysCnt (s : State) : (startAo s).sysCnt = s.sysCnt := congrArg (·.2.1) (startAo_core s)

@[simp] theorem beginStart_sysCnt (holdN s) : (beginStart holdN s).sysCnt = s.sysCnt :=
  congrArg (·.2.1) (beginStart_core holdN s)

@[simp] theorem leaveReset_sysCnt (holdN s) : (leaveReset holdN s).sysCnt = s.sysCnt :=
  congrArg (·.2.1) (leaveReset_core holdN s)

@[simp] theorem holdRefreshAll_sysCnt (n s) : (holdRefreshAll n s).sysCnt = s.sysCnt :=
  sysCnt_of_core (holdRefreshAll_core n s)

@[simp] theorem closeExpert_sysCnt (s : State) : (closeExpert s).sysCnt = s.sysCnt := sysCnt_of_core (closeExpert_core s)

/-! ### Commands: SPI frames and the command queue -/

theorem execWriteCmd_core (dt frame s) : Keeps State.core (advance dt s) (execWriteCmd dt frame s) :=
  (keeps_next _ _ _).mpr (by simp)

theorem execReadReply_core (dt clocked s) : Keeps State.core (advance dt s) (execReadReply dt clocked s) :=
  (keeps_next _ _ _).mpr (by simp)

theorem execReadStatus_core (dt s) : Keeps State.core (advance dt s) (execReadStatus dt s) := (keeps_next _ _ _).mpr (by simp)

theorem execCommandPreemption_core (dt s) : Keeps State.core (advance dt s) (execCommandPreemption dt s) := by
  dsimp only [execCommandPreemption]
  (repeat' split) <;> simp [core_mk]

theorem execCommandAgeing_core (dt s) : Keeps State.core (advance dt s) (execCommandAgeing dt s) := (keeps_next _ _ _).mpr rfl

theorem execEventNotice_core (dt s) : Keeps State.core (advance dt s) (execEventNotice dt s) := (keeps_next _ _ _).mpr (by simp)

/-! ### Commands: clocks and time -/

theorem execPtpSync_core (dt x m s) : Keeps State.core (advance dt s) (execPtpSync dt x m s) := by
  unfold execPtpSync
  extract_lets
  (repeat' split) <;> simp +zetaDelta [core_mk]

theorem execPtpAnnounce_core (dt x m s) : Keeps State.core (advance dt s) (execPtpAnnounce dt x m s) := by
  dsimp only [execPtpAnnounce]
  split <;> simp [core_mk]

theorem execAnnounceReceiptTimeout_core (dt x s) : Keeps State.core (advance dt s) (execAnnounceReceiptTimeout dt x s) := by
  dsimp only [execAnnounceReceiptTimeout]
  split <;> simp [core_mk]

theorem execPtpDelayResponse_core (dt x pathNs s) : Keeps State.core (advance dt s) (execPtpDelayResponse dt x pathNs s) := by
  dsimp only [execPtpDelayResponse]
  split <;> simp [core_mk]

theorem execTaiTimeout_core (dt s) : Keeps State.core (advance dt s) (execTaiTimeout dt s) := by
  dsimp only [execTaiTimeout]
  split <;> simp [core_mk]

theorem execPllLock_core (dt s) : Keeps State.core (advance dt s) (execPllLock dt s) := by
  dsimp only [execPllLock]
  split <;> simp [core_mk]

theorem execPllLockLost_core (dt s) : Keeps State.core (advance dt s) (execPllLockLost dt s) := by
  dsimp only [execPllLockLost]
  split <;> simp [core_mk]

theorem execPllBandwidthStep_core (dt widen s) : Keeps State.core (advance dt s) (execPllBandwidthStep dt widen s) := by
  dsimp only [execPllBandwidthStep]
  (repeat' split) <;> simp [core_mk]

theorem execPhaseMoveComplete_core (dt s) : Keeps State.core (advance dt s) (execPhaseMoveComplete dt s) := by
  dsimp only [execPhaseMoveComplete]
  split <;> simp [core_mk]

theorem execRefLostGraceEnd_core (dt s) : Keeps State.core (advance dt s) (execRefLostGraceEnd dt s) := by
  dsimp only [execRefLostGraceEnd]
  split <;> simp

theorem execWclkInEdge_core (dt period s) : Keeps State.core (advance dt s) (execWclkInEdge dt period s) := by
  dsimp only [execWclkInEdge]
  (repeat' split) <;> simp [core_mk]

theorem execTimeRead_core (h p s) : Keeps State.core (advance h.dt s) (execTimeRead h p s) :=
  keeps_core_opcodeN fun _ => by simp

theorem execPtpSet_core (h p s) : Keeps State.core (advance h.dt s) (execPtpSet h p s) := keeps_core_opcodeN fun _ => by simp

theorem execWclkSet_core (h p s) : Keeps State.core (advance h.dt s) (execWclkSet h p s) := keeps_core_opcodeN fun _ => by simp

theorem execClockRefs_core (h p s) : Keeps State.core (advance h.dt s) (execClockRefs h p s) :=
  keeps_core_opcodeN fun _ => by simp

theorem execClockExpert_core (h p s) : Keeps State.core (advance h.dt s) (execClockExpert h p s) :=
  keeps_core_opcodeN fun _ => by simp [core_mk]

/-! ### Commands: gains, mutes and the override -/

theorem execGainSet_core (h p s) : Keeps State.core (advance h.dt s) (execGainSet h p s) := keeps_core_opcode fun _ => by simp

theorem execRampDefaults_core (h p s) : Keeps State.core (advance h.dt s) (execRampDefaults h p s) :=
  keeps_core_opcodeN fun _ => by simp

theorem execMuteSet_core (h p s) : Keeps State.core (advance h.dt s) (execMuteSet h p s) := keeps_core_opcode fun _ => by simp

theorem execSinkSet_core (h p s) : Keeps State.core (advance h.dt s) (execSinkSet h p s) := keeps_core_opcode fun _ => by simp

theorem execGenSet_core (h p s) : Keeps State.core (advance h.dt s) (execGenSet h p s) := keeps_core_opcode fun _ => by simp

theorem execSweepEnd_core (dt g s) : Keeps State.core (advance dt s) (execSweepEnd dt g s) := by
  dsimp only [execSweepEnd]
  split <;> simp [core_mk]

theorem execOverride_core (h p s) : Keeps State.core (advance h.dt s) (execOverride h p s) := keeps_core_opcode fun _ => by simp

theorem execOverrideConfig_core (h p s) : Keeps State.core (advance h.dt s) (execOverrideConfig h p s) :=
  keeps_core_opcode fun _ => by simp

theorem execOvrNLow_core (dt s) : Keeps State.core (advance dt s) (execOvrNLow dt s) := (keeps_next _ _ _).mpr rfl

theorem execOvrNHigh_core (dt s) : Keeps State.core (advance dt s) (execOvrNHigh dt s) := (keeps_next _ _ _).mpr rfl

theorem execGpioMuteInput_core (dt g level s) : Keeps State.core (advance dt s) (execGpioMuteInput dt g level s) :=
  (keeps_next _ _ _).mpr rfl

/-! ### Commands: bulk records -/

theorem execBulkRecordStored_core (dt id s) : Keeps State.core (advance dt s) (execBulkRecordStored dt id s) :=
  (keeps_next _ _ _).mpr rfl

/-! ### Commands: filter chains -/

theorem execFiltRun_core (h p s) : Keeps State.core (advance h.dt s) (execFiltRun h p s) := keeps_core_opcode fun _ => by simp

theorem execFiltStopComplete_core (dt ch s) : Keeps State.core (advance dt s) (execFiltStopComplete dt ch s) := by
  dsimp only [execFiltStopComplete]
  split <;> simp

theorem execFiltConfig_core (h p s) : Keeps State.core (advance h.dt s) (execFiltConfig h p s) :=
  keeps_core_opcode fun _ => by simp

theorem execFiltReloadClear_core (dt ch s) : Keeps State.core (advance dt s) (execFiltReloadClear dt ch s) := by
  dsimp only [execFiltReloadClear]
  split <;> simp

theorem execSettlingEnd_core (dt ch s) : Keeps State.core (advance dt s) (execSettlingEnd dt ch s) :=
  (keeps_next _ _ _).mpr (by simp)

theorem execSyncInEdge_core (dt s) : Keeps State.core (advance dt s) (execSyncInEdge dt s) := by
  dsimp only [execSyncInEdge]
  split <;> simp [core_mk]

theorem execFiltSync_core (h p s) : Keeps State.core (advance h.dt s) (execFiltSync h p s) := keeps_core_opcode fun _ => by simp

theorem execFiltSyncClear_core (dt s) : Keeps State.core (advance dt s) (execFiltSyncClear dt s) := by
  dsimp only [execFiltSyncClear]
  (repeat' split) <;> simp [core_mk]

theorem execFiltPhase_core (h p s) : Keeps State.core (advance h.dt s) (execFiltPhase h p s) :=
  keeps_core_opcodeN fun _ => by simp

theorem execFiltCoefLoad_core (h p s) : Keeps State.core (advance h.dt s) (execFiltCoefLoad h p s) :=
  keeps_core_opcode fun _ => by
    simp only [ansState_guardSt, core_ite]
    (repeat' split) <;> simp

theorem execFiltStatus_core (h p s) : Keeps State.core (advance h.dt s) (execFiltStatus h p s) :=
  keeps_core_opcodeN fun _ => by simp

theorem execFiltExpert_core (h p s) : Keeps State.core (advance h.dt s) (execFiltExpert h p s) :=
  keeps_core_opcodeN fun _ => by simp [core_mk]

theorem execCaptureComplete_core (dt samples s) : Keeps State.core (advance dt s) (execCaptureComplete dt samples s) := by
  dsimp only [execCaptureComplete]
  split <;> simp [core_mk]

/-! ### Commands: outputs -/

theorem execOutputSet_core (h p s) : Keeps State.core (advance h.dt s) (execOutputSet h p s) :=
  keeps_core_opcode fun _ => by simp

theorem execClearConfig_core (h p s) : Keeps State.core (advance h.dt s) (execClearConfig h p s) :=
  keeps_core_opcode fun _ => by simp

theorem execClearNLow_core (dt s) : Keeps State.core (advance dt s) (execClearNLow dt s) := (keeps_next _ _ _).mpr rfl

theorem execClearNHigh_core (dt s) : Keeps State.core (advance dt s) (execClearNHigh dt s) := (keeps_next _ _ _).mpr rfl

theorem execHoldSet_core (h p s) : Keeps State.core (advance h.dt s) (execHoldSet h p s) := keeps_core_opcode fun _ => by simp

theorem execHoldSafeSet_core (h p s) : Keeps State.core (advance h.dt s) (execHoldSafeSet h p s) :=
  keeps_core_opcodeN fun _ => by simp

theorem execRangeChangeComplete_core (dt n s) : Keeps State.core (advance dt s) (execRangeChangeComplete dt n s) := by
  dsimp only [execRangeChangeComplete]
  (repeat' split) <;> simp

theorem execHoldShort_core (dt n s) : Keeps State.core (advance dt s) (execHoldShort dt n s) := by
  dsimp only [execHoldShort]
  split <;> simp

theorem execHoldShortRelease_core (dt n s) : Keeps State.core (advance dt s) (execHoldShortRelease dt n s) :=
  (keeps_next _ _ _).mpr (by simp)

theorem execOutputShort_core (dt n legP legM s) : Keeps State.core (advance dt s) (execOutputShort dt n legP legM s) := by
  dsimp only [execOutputShort]
  split <;> simp

theorem execOutputShortProbe_core (dt n legMicroamp s) :
    Keeps State.core (advance dt s) (execOutputShortProbe dt n legMicroamp s) := by
  dsimp only [execOutputShortProbe]
  (repeat' split) <;> simp

theorem execServoLimit_core (dt n s) : Keeps State.core (advance dt s) (execServoLimit dt n s) := by
  dsimp only [execServoLimit]
  split <;> simp

theorem execSpeakerSet_core (h p s) : Keeps State.core (advance h.dt s) (execSpeakerSet h p s) :=
  keeps_core_opcode fun _ => by simp

theorem execLoadCheckVerdict_core (dt n mohm s) : Keeps State.core (advance dt s) (execLoadCheckVerdict dt n mohm s) := by
  dsimp only [execLoadCheckVerdict]
  split <;> simp

theorem execLoadCheckRepeat_core (dt n s) : Keeps State.core (advance dt s) (execLoadCheckRepeat dt n s) := by
  dsimp only [execLoadCheckRepeat]
  split <;> simp

theorem execSpeakerShortInOperation_core (dt n s) : Keeps State.core (advance dt s) (execSpeakerShortInOperation dt n s) := by
  dsimp only [execSpeakerShortInOperation]
  split <;> simp

theorem execOutputThermal_core (dt stage tempMc s) : Keeps State.core (advance dt s) (execOutputThermal dt stage tempMc s) := by
  unfold execOutputThermal
  (repeat' split) <;> simp

theorem execOutputThermalRelease_core (dt stage s) : Keeps State.core (advance dt s) (execOutputThermalRelease dt stage s) := by
  dsimp only [execOutputThermalRelease]
  (repeat' split) <;> simp

theorem execOutputStatus_core (h p s) : Keeps State.core (advance h.dt s) (execOutputStatus h p s) :=
  keeps_core_opcodeN fun _ => by simp [core_mk]

theorem execOutputExpert_core (h p s) : Keeps State.core (advance h.dt s) (execOutputExpert h p s) :=
  keeps_core_opcodeN fun _ => by simp [core_mk]

/-! ### Commands: serial audio ports -/

theorem execTdmSet_core (h p s) : Keeps State.core (advance h.dt s) (execTdmSet h p s) := keeps_core_opcodeN fun _ => by simp

theorem execAesSet_core (h p s) : Keeps State.core (advance h.dt s) (execAesSet h p s) := keeps_core_opcodeN fun _ => by simp

theorem execAesCsSet_core (h p s) : Keeps State.core (advance h.dt s) (execAesCsSet h p s) := keeps_core_opcode fun _ => by simp

theorem execPortStart_core (h p s) : Keeps State.core (advance h.dt s) (execPortStart h p s) :=
  keeps_core_opcode fun _ => by simp

theorem execPortStop_core (h p s) : Keeps State.core (advance h.dt s) (execPortStop h p s) := keeps_core_opcode fun _ => by simp

theorem execPortStartComplete_core (dt p s) : Keeps State.core (advance dt s) (execPortStartComplete dt p s) := by
  dsimp only [execPortStartComplete]
  split <;> simp

theorem execPortStopComplete_core (dt p s) : Keeps State.core (advance dt s) (execPortStopComplete dt p s) := by
  dsimp only [execPortStopComplete]
  split <;> simp

theorem execTdmFrameReceived_core (dt p f s) : Keeps State.core (advance dt s) (execTdmFrameReceived dt p f s) := by
  dsimp only [execTdmFrameReceived]
  split <;> simp

theorem execAes3FrameReceived_core (dt x f s) : Keeps State.core (advance dt s) (execAes3FrameReceived dt x f s) := by
  dsimp only [execAes3FrameReceived]
  split <;> simp

theorem execAesCsBlockComplete_core (dt x sub cs user frames s) :
    Keeps State.core (advance dt s) (execAesCsBlockComplete dt x sub cs user frames s) := by
  dsimp only [execAesCsBlockComplete]
  split <;> simp

theorem execAes3TransmitFrame_core (dt x s) : Keeps State.core (advance dt s) (execAes3TransmitFrame dt x s) := by
  dsimp only [execAes3TransmitFrame]
  (repeat' split) <;> simp

theorem execAesCsRead_core (h p s) : Keeps State.core (advance h.dt s) (execAesCsRead h p s) :=
  keeps_core_opcodeN fun _ => by simp

theorem execPortStamp_core (h p s) : Keeps State.core (advance h.dt s) (execPortStamp h p s) :=
  keeps_core_opcodeN fun _ => by simp

theorem execPortStatus_core (h p s) : Keeps State.core (advance h.dt s) (execPortStatus h p s) :=
  keeps_core_opcodeN fun _ => by simp [core_mk]

/-! ### Commands: network links -/

theorem execNetSet_core (h p s) : Keeps State.core (advance h.dt s) (execNetSet h p s) := keeps_core_opcodeN fun _ => by simp

theorem execLinkUp_core (dt l fast s) : Keeps State.core (advance dt s) (execLinkUp dt l fast s) := by
  dsimp only [execLinkUp]
  (repeat' split) <;> simp

theorem execLinkDown_core (dt l noCommonSpeed s) : Keeps State.core (advance dt s) (execLinkDown dt l noCommonSpeed s) := by
  dsimp only [execLinkDown]
  split <;> simp

theorem execArpRequest_core (dt l targetIp senderIp senderMac s) :
    Keeps State.core (advance dt s) (execArpRequest dt l targetIp senderIp senderMac s) := by
  dsimp only [execArpRequest]
  split <;> simp

theorem execIcmpEcho_core (dt l targetIp senderIp data s) :
    Keeps State.core (advance dt s) (execIcmpEcho dt l targetIp senderIp data s) := by
  dsimp only [execIcmpEcho]
  split <;> simp

theorem execIgmpQuery_core (dt l v2 group s) : Keeps State.core (advance dt s) (execIgmpQuery dt l v2 group s) := by
  dsimp only [execIgmpQuery]
  split
  · simp
  · refine (keeps_next _ _ _).mpr ((foldl_core (fun a i => ?_) _ _).trans ?_)
    · (repeat' split) <;> simp
    · split <;> simp

theorem execSwitchForward_core (dt l f s) : Keeps State.core (advance dt s) (execSwitchForward dt l f s) := by
  dsimp only [execSwitchForward]
  (repeat' split) <;> simp [core_mk]

theorem execHostnetBridgeFrame_core (dt fromHost toModule f s) :
    Keeps State.core (advance dt s) (execHostnetBridgeFrame dt fromHost toModule f s) := by
  dsimp only [execHostnetBridgeFrame]
  (repeat' split) <;> simp

theorem execFdbAgeOut_core (dt mac vlan s) : Keeps State.core (advance dt s) (execFdbAgeOut dt mac vlan s) :=
  (keeps_next _ _ _).mpr rfl

theorem execPtpMasterTransmit_core (dt port k s) : Keeps State.core (advance dt s) (execPtpMasterTransmit dt port k s) := by
  dsimp only [execPtpMasterTransmit]
  (repeat' split) <;> simp

theorem execPtpDelayRequest_core (dt port s) : Keeps State.core (advance dt s) (execPtpDelayRequest dt port s) := by
  dsimp only [execPtpDelayRequest]
  split <;> simp [core_mk]

theorem execNetStatus_core (h p s) : Keeps State.core (advance h.dt s) (execNetStatus h p s) :=
  keeps_core_opcodeN fun _ => by simp

/-! ### Commands: streams -/

theorem execStreamRxSet_core (h p s) : Keeps State.core (advance h.dt s) (execStreamRxSet h p s) :=
  keeps_core_opcodeN fun _ => by simp

theorem execStreamTxSet_core (h p s) : Keeps State.core (advance h.dt s) (execStreamTxSet h p s) :=
  keeps_core_opcodeN fun _ => by simp

theorem execStreamEnable_core (h p s) : Keeps State.core (advance h.dt s) (execStreamEnable h p s) :=
  keeps_core_opcode fun _ => by simp

theorem execMediaPacketReceived_core (dt m s) : Keeps State.core (advance dt s) (execMediaPacketReceived dt m s) := by
  dsimp only [execMediaPacketReceived]
  split <;> simp

theorem execStreamPacketSend_core (dt slot s) : Keeps State.core (advance dt s) (execStreamPacketSend dt slot s) := by
  dsimp only [execStreamPacketSend]
  (repeat' split) <;> simp

theorem execStreamLost_core (dt slot s) : Keeps State.core (advance dt s) (execStreamLost dt slot s) := by
  dsimp only [execStreamLost]
  split <;> simp

theorem execStreamReportRepeat_core (dt slot s) : Keeps State.core (advance dt s) (execStreamReportRepeat dt slot s) := by
  dsimp only [execStreamReportRepeat]
  split <;> simp

theorem execPathLost_core (dt slot path s) : Keeps State.core (advance dt s) (execPathLost dt slot path s) := by
  dsimp only [execPathLost]
  split <;> simp

theorem execStreamStatus_core (h p s) : Keeps State.core (advance h.dt s) (execStreamStatus h p s) :=
  keeps_core_opcodeN fun _ => by simp [core_mk]

/-! ### Commands: rates and Decant -/

theorem execDecantSet_core (h p s) : Keeps State.core (advance h.dt s) (execDecantSet h p s) :=
  keeps_core_opcodeN fun _ => by simp

theorem execDecantRelock_core (dt t rateMhz s) : Keeps State.core (advance dt s) (execDecantRelock dt t rateMhz s) := by
  dsimp only [execDecantRelock]
  (repeat' split) <;> simp [core_mk]

theorem execAlignGroupSet_core (h p s) : Keeps State.core (advance h.dt s) (execAlignGroupSet h p s) :=
  keeps_core_opcodeN fun _ => by simp

theorem execClockLost_core (dt c reason s) : Keeps State.core (advance dt s) (execClockLost dt c reason s) := by
  dsimp only [execClockLost]
  (repeat' split) <;> simp [core_mk]

theorem execClockResumed_core (dt p s) : Keeps State.core (advance dt s) (execClockResumed dt p s) := by
  dsimp only [execClockResumed]
  split <;> simp [core_mk]

theorem execReferenceQualified_core (dt entry s) : Keeps State.core (advance dt s) (execReferenceQualified dt entry s) := by
  dsimp only [execReferenceQualified]
  (repeat' split) <;> simp

theorem execClockStatus_core (h p s) : Keeps State.core (advance h.dt s) (execClockStatus h p s) :=
  keeps_core_opcodeN fun _ => by simp [core_mk]

/-! ### Commands: paths and latency -/

theorem execLatencyQuery_core (h p s) : Keeps State.core (advance h.dt s) (execLatencyQuery h p s) :=
  keeps_core_opcodeN fun _ => by simp

/-! ### Commands: the routing graph -/

theorem execGraphStage_core (h p s) : Keeps State.core (advance h.dt s) (execGraphStage h p s) :=
  keeps_core_opcode fun _ => by (repeat' split) <;> simp

theorem execGraphAbort_core (h p s) : Keeps State.core (advance h.dt s) (execGraphAbort h p s) :=
  keeps_core_opcodeN fun _ => by simp

theorem execGraphCommit_core (h p s) : Keeps State.core (advance h.dt s) (execGraphCommit h p s) :=
  keeps_core_opcode fun s => by
    have hland := landing_core .graphCommit h p (fun _ => checkGraphCommit h p s) s
    have htrig := graphTrigger_core (captureStage h s).2.2 s
    dsimp only
    split
    · split <;> rename_i e <;> rw [e] at hland
      · simpa [core_mk] using hland
      · simpa [core_mk] using hland
      · simpa [apply_ite State.core] using hland
    · split
      · simp
      · split <;> rename_i e <;> rw [e] at htrig <;> simpa using htrig

theorem execRouteSet_core (h p s) : Keeps State.core (advance h.dt s) (execRouteSet h p s) :=
  keeps_core_opcode fun s => by
    have htrig := graphTrigger_core (routeCapture h p s).2.2 s
    dsimp only
    split
    · simp
    · split
      · simp
      · split <;> rename_i e <;> rw [e] at htrig <;> simpa using htrig

theorem execRackComplete_core (dt s) : Keeps State.core (advance dt s) (execRackComplete dt s) := by
  dsimp only [execRackComplete]
  split <;> simp [core_mk]

theorem execDipBankSwitch_core (dt s) : Keeps State.core (advance dt s) (execDipBankSwitch dt s) := by
  dsimp only [execDipBankSwitch]
  split <;> simp [core_mk]

theorem execPendingGraphTrigger_core (dt s) : Keeps State.core (advance dt s) (execPendingGraphTrigger dt s) := by
  dsimp only [execPendingGraphTrigger]
  (repeat' split) <;> simp [core_mk]

theorem execGraphQuery_core (h p s) : Keeps State.core (advance h.dt s) (execGraphQuery h p s) :=
  keeps_core_opcodeN fun _ => by
    simp only [ansState_guardSt, core_ite]
    (repeat' split) <;> simp

/-! ### Commands: Cooper cores -/

theorem execFsSet_core (h p s) : Keeps State.core (advance h.dt s) (execFsSet h p s) :=
  keeps_core_opcodeN fun _ => by simp [core_mk]

theorem execCoopLoad_core (h p s) : Keeps State.core (advance h.dt s) (execCoopLoad h p s) :=
  keeps_core_opcode fun _ => by
    simp only [ansState_guardSt, core_ite]
    (repeat' split) <;> simp

theorem execCoopStart_core (h p s) : Keeps State.core (advance h.dt s) (execCoopStart h p s) :=
  keeps_core_opcode fun _ => by simp

theorem execCoopStop_core (h p s) : Keeps State.core (advance h.dt s) (execCoopStop h p s) := keeps_core_opcode fun _ => by simp

theorem execCoopInitComplete_core (dt core s) : Keeps State.core (advance dt s) (execCoopInitComplete dt core s) := by
  dsimp only [execCoopInitComplete]
  split <;> simp

theorem execCoopBlockTrigger_core (dt core s) : Keeps State.core (advance dt s) (execCoopBlockTrigger dt core s) := by
  dsimp only [execCoopBlockTrigger]
  (repeat' split) <;> simp

theorem execCoopOverrun_core (dt core s) : Keeps State.core (advance dt s) (execCoopOverrun dt core s) := by
  dsimp only [execCoopOverrun]
  (repeat' split) <;> simp

theorem execCoopRunaway_core (dt core s) : Keeps State.core (advance dt s) (execCoopRunaway dt core s) := by
  dsimp only [execCoopRunaway]
  split <;> simp

theorem execCoopRestart_core (dt core s) : Keeps State.core (advance dt s) (execCoopRestart dt core s) := by
  dsimp only [execCoopRestart]
  (repeat' split) <;> simp

theorem execCoopRestartCountReset_core (dt core s) : Keeps State.core (advance dt s) (execCoopRestartCountReset dt core s) := by
  dsimp only [execCoopRestartCountReset]
  split <;> simp

theorem execCoopParam_core (h p s) : Keeps State.core (advance h.dt s) (execCoopParam h p s) :=
  keeps_core_opcode fun _ => by simp

theorem execCoopStatus_core (h p s) : Keeps State.core (advance h.dt s) (execCoopStatus h p s) :=
  keeps_core_opcodeN fun _ => by simp [core_mk]

theorem execCoopDebug_core (h p s) : Keeps State.core (advance h.dt s) (execCoopDebug h p s) :=
  keeps_core_opcodeN fun _ => by
    simp only [ansState_guardSt, core_ite]
    (repeat' split) <;> simp

theorem execDmaDone_core (dt core ch s) : Keeps State.core (advance dt s) (execDmaDone dt core ch s) := by
  dsimp only [execDmaDone]
  split <;> simp

/-! ### Commands: headset ports -/

theorem execHsPlugInsertion_core (dt n s) : Keeps State.core (advance dt s) (execHsPlugInsertion dt n s) := by
  dsimp only [execHsPlugInsertion]
  split <;> simp

theorem execHsXlrPoll_core (dt n zL zMic s) : Keeps State.core (advance dt s) (execHsXlrPoll dt n zL zMic s) := by
  dsimp only [execHsXlrPoll]
  (repeat' split) <;> simp

theorem execHsMeasurementCycle_core (dt n s) : Keeps State.core (advance dt s) (execHsMeasurementCycle dt n s) := by
  dsimp only [execHsMeasurementCycle]
  split <;> simp

theorem execHsVerdict_core (dt n m s) : Keeps State.core (advance dt s) (execHsVerdict dt n m s) := by
  dsimp only [execHsVerdict]
  (repeat' split) <;> simp

theorem execHsFaultRetry_core (dt n s) : Keeps State.core (advance dt s) (execHsFaultRetry dt n s) := by
  dsimp only [execHsFaultRetry]
  split <;> simp

theorem execHsRemoval_core (dt n s) : Keeps State.core (advance dt s) (execHsRemoval dt n s) := by
  dsimp only [execHsRemoval]
  split <;> simp

theorem execHsSideAtLimit_core (dt n right s) : Keeps State.core (advance dt s) (execHsSideAtLimit dt n right s) := by
  dsimp only [execHsSideAtLimit]
  split <;> simp

theorem execButtonPress_core (dt n micUv ago s) : Keeps State.core (advance dt s) (execButtonPress dt n micUv ago s) := by
  dsimp only [execButtonPress]
  split <;> simp

theorem execButtonLongPress_core (dt n s) : Keeps State.core (advance dt s) (execButtonLongPress dt n s) := by
  dsimp only [execButtonLongPress]
  split <;> simp

theorem execButtonRepeat_core (dt n s) : Keeps State.core (advance dt s) (execButtonRepeat dt n s) := by
  dsimp only [execButtonRepeat]
  split <;> simp

theorem execButtonRelease_core (dt n ago s) : Keeps State.core (advance dt s) (execButtonRelease dt n ago s) :=
  (keeps_next _ _ _).mpr (by simp)

theorem execHsSet_core (h p s) : Keeps State.core (advance h.dt s) (execHsSet h p s) := keeps_core_opcode fun _ => by simp

theorem execHsStatus_core (h p s) : Keeps State.core (advance h.dt s) (execHsStatus h p s) :=
  keeps_core_opcodeN fun _ => by simp

theorem execHsEvents_core (h p s) : Keeps State.core (advance h.dt s) (execHsEvents h p s) :=
  keeps_core_opcodeN fun _ => by simp [core_mk]

theorem execHsExpert_core (h p s) : Keeps State.core (advance h.dt s) (execHsExpert h p s) :=
  keeps_core_opcodeN fun _ => by simp

/-! ### Commands: inputs and Tasters -/

theorem execPhantomRampEnd_core (dt ch s) : Keeps State.core (advance dt s) (execPhantomRampEnd dt ch s) := by
  dsimp only [execPhantomRampEnd]
  (repeat' split) <;> simp

theorem execExtPhantomDetect_core (dt ch above s) : Keeps State.core (advance dt s) (execExtPhantomDetect dt ch above s) := by
  dsimp only [execExtPhantomDetect]
  split <;> simp

theorem execPhantomOvercurrent_core (dt ch s) : Keeps State.core (advance dt s) (execPhantomOvercurrent dt ch s) := by
  dsimp only [execPhantomOvercurrent]
  split <;> simp

theorem execPhantomRetry_core (dt ch dmA s) : Keeps State.core (advance dt s) (execPhantomRetry dt ch dmA s) := by
  dsimp only [execPhantomRetry]
  (repeat' split) <;> simp

theorem execInputSet_core (h p s) : Keeps State.core (advance h.dt s) (execInputSet h p s) := keeps_core_opcode fun _ => by simp

theorem execInputOver_core (dt ch s) : Keeps State.core (advance dt s) (execInputOver dt ch s) := (keeps_next _ _ _).mpr rfl

theorem execTasterVisitStart_core (dt t s) : Keeps State.core (advance dt s) (execTasterVisitStart dt t s) := by
  dsimp only [execTasterVisitStart]
  (repeat' split) <;> simp

theorem execTasterSubstituted_core (dt s) : Keeps State.core (advance dt s) (execTasterSubstituted dt s) := by
  dsimp only [execTasterSubstituted]
  (repeat' split) <;> simp [core_mk]

theorem execTasterSubstitute_core (h p s) : Keeps State.core (advance h.dt s) (execTasterSubstitute h p s) :=
  keeps_core_opcodeN fun _ => by simp [core_mk]

theorem execTasterSettleEnd_core (dt t s) : Keeps State.core (advance dt s) (execTasterSettleEnd dt t s) := by
  dsimp only [execTasterSettleEnd]
  (repeat' split) <;> simp

theorem execTasterWindowEnd_core (dt t m other between s) :
    Keeps State.core (advance dt s) (execTasterWindowEnd dt t m other between s) := by
  dsimp only [execTasterWindowEnd]
  (repeat' split) <;> simp

theorem execMatchSuspect_core (dt ch residual s) : Keeps State.core (advance dt s) (execMatchSuspect dt ch residual s) := by
  dsimp only [execMatchSuspect]
  (repeat' split) <;> simp [core_mk]

theorem execMatchLimit_core (dt ch s) : Keeps State.core (advance dt s) (execMatchLimit dt ch s) := by
  dsimp only [execMatchLimit]
  (repeat' split) <;> simp [core_mk]

theorem execMatchReturnComplete_core (dt ch s) : Keeps State.core (advance dt s) (execMatchReturnComplete dt ch s) := by
  dsimp only [execMatchReturnComplete]
  split <;> simp

theorem execTasterConfig_core (h p s) : Keeps State.core (advance h.dt s) (execTasterConfig h p s) :=
  keeps_core_opcodeN fun _ => by simp

theorem execTasterRun_core (h p s) : Keeps State.core (advance h.dt s) (execTasterRun h p s) :=
  keeps_core_opcodeN fun _ => by simp

theorem execInputStatus_core (h p s) : Keeps State.core (advance h.dt s) (execInputStatus h p s) :=
  keeps_core_opcodeN fun _ => by simp [core_mk]

theorem execInputExpert_core (h p s) : Keeps State.core (advance h.dt s) (execInputExpert h p s) :=
  keeps_core_opcodeN fun _ => by
    simp only [ansState_guardSt, core_ite]
    (repeat' split) <;> simp

/-! ### Commands: corks -/

theorem execCorkTimeout_core (dt o s) : Keeps State.core (advance dt s) (execCorkTimeout dt o s) := by
  unfold execCorkTimeout
  split <;> simp [core_mk]

/-! ### Commands: Cooper instructions apart from those that run through `coopExec` -/

theorem execBlkdone_core (core s) : Keeps State.core s (execBlkdone core s) := by
  dsimp only [execBlkdone]
  (repeat' split) <;> simp

theorem execIllegalInstruction_core (core s) : Keeps State.core s (execIllegalInstruction core s) := by
  dsimp only [execIllegalInstruction]
  (repeat' split) <;> simp

/-! ### Commands: the device group -/

theorem execNop_core (h p s) : Keeps State.core (advance h.dt s) (execNop h p s) := keeps_core_opcode fun _ => by simp [core_mk]

theorem execDevInfo_core (h p s) : Keeps State.core (advance h.dt s) (execDevInfo h p s) := keeps_core_opcodeN fun _ => by simp

theorem execDevState_core (h p s) : Keeps State.core (advance h.dt s) (execDevState h p s) :=
  keeps_core_opcodeN fun _ => by simp

theorem execDevRun_core (h p s) : Keeps State.core (advance h.dt s) (execDevRun h p s) :=
  keeps_core_opcodeN fun _ => by simp [core_mk]

theorem execDevReset_core (h p s) : Keeps State.core (advance h.dt s) (execDevReset h p s) :=
  keeps_core_opcodeN fun _ => by simp [core_mk]

theorem execEventMask_core (h p s) : Keeps State.core (advance h.dt s) (execEventMask h p s) :=
  keeps_core_opcodeN fun _ => by simp

theorem execLifeState_core (h p s) : Keeps State.core (advance h.dt s) (execLifeState h p s) :=
  keeps_core_opcodeN fun _ => by simp

theorem execFwBegin_core (h p s) : Keeps State.core (advance h.dt s) (execFwBegin h p s) :=
  keeps_core_opcodeN fun _ => by (repeat' split) <;> simp [core_mk, setImage_life]

theorem execFwEraseComplete_core (dt s) : Keeps State.core (advance dt s) (execFwEraseComplete dt s) := by
  dsimp only [execFwEraseComplete]
  split <;> simp [core_mk]

theorem execFwData_core (h p s) : Keeps State.core (advance h.dt s) (execFwData h p s) :=
  keeps_core_opcode fun _ => by (repeat' split) <;> simp [core_mk, setImage_life]

theorem execFwEnd_core (h p s) : Keeps State.core (advance h.dt s) (execFwEnd h p s) :=
  keeps_core_opcodeN fun _ => by (repeat' split) <;> simp [core_mk, setImage_life]

theorem execFwSelect_core (h p s) : Keeps State.core (advance h.dt s) (execFwSelect h p s) :=
  keeps_core_opcodeN fun _ => by simp [core_mk]

theorem execExpertOpen_core (h p s) : Keeps State.core (advance h.dt s) (execExpertOpen h p s) :=
  keeps_core_opcodeN fun _ => by (repeat' split) <;> simp [core_mk]

theorem execNetAuthSet_core (h p s) : Keeps State.core (advance h.dt s) (execNetAuthSet h p s) :=
  keeps_core_opcodeN fun _ => by simp

theorem execTestLoop_core (h p s) : Keeps State.core (advance h.dt s) (execTestLoop h p s) := keeps_core_opcode fun _ => by simp

theorem execTestSelf_core (h p s) : Keeps State.core (advance h.dt s) (execTestSelf h p s) :=
  keeps_core_opcodeN fun _ => by simp [core_mk]

/-! ### Commands: modes and the expert session -/

theorem execExpertClose_core (h p s) : Keeps State.core (advance h.dt s) (execExpertClose h p s) :=
  keeps_core_opcodeN fun _ => by split <;> simp

theorem execExpertIdleTimeout_core (dt s) : Keeps State.core (advance dt s) (execExpertIdleTimeout dt s) := by
  dsimp only [execExpertIdleTimeout]
  (repeat' split) <;> simp

theorem execDevMode_core (h p s) : Keeps State.core (advance h.dt s) (execDevMode h p s) := keeps_core_opcodeN fun _ => by simp

/-! ### Commands: vintages -/

theorem execVintCommit_core (h p s) : Keeps State.core (advance h.dt s) (execVintCommit h p s) :=
  keeps_core_opcodeN fun _ => by simp [core_mk]

theorem execPendingCommitStart_core (dt s) : Keeps State.core (advance dt s) (execPendingCommitStart dt s) := by
  dsimp only [execPendingCommitStart]
  split <;> simp [core_mk]

/-- The due time stays folded: unfolding it has the kernel count the seconds in unary. -/
theorem execAutoCommit_core (dt s) : Keeps State.core (advance dt s) (execAutoCommit dt s) := by
  unfold execAutoCommit
  extract_lets u due _ s1 _
  have hs1 : s1.core = u.core := core_withVint _ _
  refine .ite (fun _ => ?unchanged) fun _ => .ite (fun _ => ?same) fun _ => .ite (fun _ => ?dropped) fun _ =>
    .ite (fun _ => ?pending) fun _ => ?armed
  case unchanged => exact (keeps_next _ _ _).mpr rfl
  case same => exact (keeps_next _ _ _).mpr hs1
  case dropped => exact (keeps_next _ _ _).mpr ((dropCommit_core s1).trans hs1)
  case pending | armed => exact (keeps_next _ _ _).mpr ((core_withVint _ _).trans hs1)

theorem execVintCommitComplete_core (dt rb durationUs s) :
    Keeps State.core (advance dt s) (execVintCommitComplete dt rb durationUs s) := by
  dsimp only [execVintCommitComplete]
  (repeat' split) <;> simp [core_mk]

theorem execVintStatus_core (h p s) : Keeps State.core (advance h.dt s) (execVintStatus h p s) :=
  keeps_core_opcodeN fun _ => by simp

theorem execVintPolicy_core (h p s) : Keeps State.core (advance h.dt s) (execVintPolicy h p s) :=
  keeps_core_opcodeN fun _ => by simp

theorem execVintClear_core (h p s) : Keeps State.core (advance h.dt s) (execVintClear h p s) :=
  keeps_core_opcodeN fun _ => by simp [core_mk]

/-! ### Commands: power -/

theorem execBoardDescribe_core (h p s) : Keeps State.core (advance h.dt s) (execBoardDescribe h p s) :=
  keeps_core_opcodeN fun _ => by simp

theorem execPowerApplied_core (dt port granted s) : Keeps State.core (advance dt s) (execPowerApplied dt port granted s) := by
  dsimp only [execPowerApplied]
  split <;> simp

theorem execInputPowerGood_sysCnt (dt port s) : Keeps State.sysCnt (advance dt s) (execInputPowerGood dt port s) := by
  dsimp only [execInputPowerGood]
  split <;> simp [apply_ite State.sysCnt]

theorem execPowerUpDelayEnd_core (dt port s) : Keeps State.core (advance dt s) (execPowerUpDelayEnd dt port s) := by
  dsimp only [execPowerUpDelayEnd]
  split <;> simp [core_mk]

theorem execLldpAllocation_core (dt port mw s) : Keeps State.core (advance dt s) (execLldpAllocation dt port mw s) := by
  dsimp only [execLldpAllocation]
  split <;> simp

theorem execHupReady_core (dt s) : Keeps State.core (advance dt s) (execHupReady dt s) := by
  dsimp only [execHupReady]
  split <;> simp [core_mk]

theorem execAuxFault_core (dt r s) : Keeps State.core (advance dt s) (execAuxFault dt r s) := by
  dsimp only [execAuxFault]
  (repeat' split) <;> simp [core_mk]

theorem execAuxRetry_core (dt r ok s) : Keeps State.core (advance dt s) (execAuxRetry dt r ok s) := by
  unfold execAuxRetry
  split <;> simp [core_mk]

theorem execGovernorPeriod_core (dt m s) : Keeps State.core (advance dt s) (execGovernorPeriod dt m s) := by
  dsimp only [execGovernorPeriod]
  split <;> simp

theorem execShedRestore_core (dt s) : Keeps State.core (advance dt s) (execShedRestore dt s) := by
  dsimp only [execShedRestore]
  (repeat' split) <;> simp [core_mk]

theorem execPowerBudgetRelease_core (dt s) : Keeps State.core (advance dt s) (execPowerBudgetRelease dt s) := by
  dsimp only [execPowerBudgetRelease]
  (repeat' split) <;> simp

theorem execPowerStatus_core (h p s) : Keeps State.core (advance h.dt s) (execPowerStatus h p s) :=
  keeps_core_opcodeN fun _ => by simp

theorem execPowerPolicy_core (h p s) : Keeps State.core (advance h.dt s) (execPowerPolicy h p s) :=
  keeps_core_opcodeN fun _ => by simp

/-! ### Commands: faults and temperature -/

theorem execFaultRead_core (h p s) : Keeps State.core (advance h.dt s) (execFaultRead h p s) :=
  keeps_core_opcodeN fun _ => by simp

theorem execFaultAck_core (h p s) : Keeps State.core (advance h.dt s) (execFaultAck h p s) :=
  keeps_core_opcode fun _ => by simp [core_mk]

theorem execFaultLogWrite_core (dt s) : Keeps State.core (advance dt s) (execFaultLogWrite dt s) := by
  dsimp only [execFaultLogWrite]
  split <;> simp [core_mk]

theorem execThermalStatus_core (h p s) : Keeps State.core (advance h.dt s) (execThermalStatus h p s) :=
  keeps_core_opcodeN fun _ => by simp

theorem execThermalWarnRelease_core (dt s) : Keeps State.core (advance dt s) (execThermalWarnRelease dt s) := by
  dsimp only [execThermalWarnRelease]
  split <;> simp [core_mk]

theorem execThermalTripRelease_core (dt s) : Keeps State.core (advance dt s) (execThermalTripRelease dt s) :=
  (keeps_next _ _ _).mpr (by simp)

/-! ### Commands: registers -/

theorem execRegRead_core (h p s) : Keeps State.core (advance h.dt s) (execRegRead h p s) :=
  keeps_core_opcodeN fun _ => by simp

theorem execRegWrite_core (h p s) : Keeps State.core (advance h.dt s) (execRegWrite h p s) :=
  keeps_core_opcode fun _ => by simp

/-! ### Commands: warm resets -/

theorem execResetNLow_sysCnt (dt s) : Keeps State.sysCnt (advance dt s) (execResetNLow dt s) :=
  (keeps_next _ _ _).mpr (by simp)

theorem execResetNHigh_sysCnt (dt holdN s) : Keeps State.sysCnt (advance dt s) (execResetNHigh dt holdN s) := by
  refine (keeps_next _ _ _).mpr ?_
  split
  · simp
  · split <;> simp

theorem execWatchdogExpiry_sysCnt (dt holdN s) : Keeps State.sysCnt (advance dt s) (execWatchdogExpiry dt holdN s) := by
  refine (keeps_next _ _ _).mpr ?_
  split <;> simp

theorem execDevResetStart_sysCnt (dt holdN s) : Keeps State.sysCnt (advance dt s) (execDevResetStart dt holdN s) := by
  dsimp only [execDevResetStart]
  split <;> simp [apply_ite State.sysCnt]

/-! ### Commands: frame ticks -/

theorem execTimedCommandApply_sysCnt (dt tickTai s) :
    Keeps State.sysCnt (advance dt s) (execTimedCommandApply dt tickTai s) := by
  dsimp only [execTimedCommandApply]
  split <;> simp

theorem execDeferredCommandLands_sysCnt (dt s) : Keeps State.sysCnt (advance dt s) (execDeferredCommandLands dt s) := by
  dsimp only [execDeferredCommandLands]
  (repeat' split) <;> simp

theorem execFrameTick_sysCnt (dt i s) : Keeps State.sysCnt (advance dt s) (execFrameTick dt i s) := by
  dsimp only [execFrameTick]
  split
  · simp
  · simp [apply_ite State.sysCnt]

theorem execMeterRead_core (h p s) : Keeps State.core (advance h.dt s) (execMeterRead h p s) :=
  keeps_core_opcode fun _ => by simp

/-! ### Commands: sessions and keys -/

theorem execSessionTimeout_core (dt session s) : Keeps State.core (advance dt s) (execSessionTimeout dt session s) := by
  dsimp only [execSessionTimeout]
  (repeat' split) <;> simp

theorem execCommandDatagram_core (dt port srcIp srcPort udp s) :
    Keeps State.core (advance dt s) (execCommandDatagram dt port srcIp srcPort udp s) := by
  dsimp only [execCommandDatagram]
  split <;> simp

theorem execKeyInstall_core (h p s) : Keeps State.core (advance h.dt s) (execKeyInstall h p s) :=
  keeps_core_opcode fun _ => by simp [core_mk]

/-! ### Commands: start, service and lifecycle -/

theorem execAuxRailsInRegulation_core (dt s) : Keeps State.core (advance dt s) (execAuxRailsInRegulation dt s) := by
  dsimp only [execAuxRailsInRegulation]
  split <;> simp [core_mk]

theorem execLeesPurgeComplete_core (dt clean s) :
    Keeps State.core (settleReset (advance dt s)) (execLeesPurgeComplete dt clean s) := by
  dsimp only [execLeesPurgeComplete]
  (repeat' split) <;> exact (keeps_next _ _ _).mpr rfl

theorem execBootImageVerified_core (dt s) :
    Keeps State.core (settleReset (advance dt s)) (execBootImageVerified dt s) := by
  dsimp only [execBootImageVerified]
  (repeat' split) <;> exact (keeps_next _ _ _).mpr rfl

theorem execRestore_sysCnt (dt s) : Keeps State.sysCnt (advance dt s) (execRestore dt s) := by
  dsimp only [execRestore]
  split
  · simp
  · rw [keeps_next, holdRefreshAll_sysCnt, enterMode_sysCnt, ← settleReset_sysCnt (advance dt s)]
    refine sysCnt_of_core ((foldl_core restoreCore_core _ _).trans ?_)
    simp

theorem execServiceEntry_sysCnt (dt s) : Keeps State.sysCnt (advance dt s) (execServiceEntry dt s) := by
  dsimp only [execServiceEntry]
  split
  · simp
  · split <;> simp [sysCnt_of_core (startRunning_core _)]

theorem execRecoveryEntry_sysCnt (dt s) : Keeps State.sysCnt (advance dt s) (execRecoveryEntry dt s) := by
  dsimp only [execRecoveryEntry]
  split
  · simp
  · split <;> simp [sysCnt_of_core (cancelTriggers_core _), sysCnt_of_core (dropWaiting_core _)]

theorem execLifeAdvance_sysCnt (h p s) : Keeps State.sysCnt (advance h.dt s) (execLifeAdvance h p s) :=
  keeps_opcode sysCnt_of_core (fun _ => by simp [apply_ite State.sysCnt]) s

theorem execLifeTransitionStart_sysCnt (dt holdN s) :
    Keeps State.sysCnt (advance dt s) (execLifeTransitionStart dt holdN s) := by
  dsimp only [execLifeTransitionStart]
  split
  · simp
  · split
    · simp
    · split <;> simp [sysCnt_of_core (wipeReturned_core _)]

/-! ### Commands: sensors and supply voltages -/

theorem execThermalSensorRead_sysCnt (dt t s) : Keeps State.sysCnt (advance dt s) (execThermalSensorRead dt t s) := by
  dsimp only [execThermalSensorRead]
  split
  · simp
  · have htemps := sysCnt_of_core ((warnNow_core _).trans (takeTemps_core t (settleReset (advance dt s))))
    split <;> simp [sysCnt_of_core (tripNow_core _), htemps]

theorem execThermalResetHoldEnd_sysCnt (dt holdN s) :
    Keeps State.sysCnt (advance dt s) (execThermalResetHoldEnd dt holdN s) := by
  dsimp only [execThermalResetHoldEnd]
  split <;> simp

theorem execAvsStep_core (dt slackBlend slackCoop monitorBlend monitorCoop s) :
    Keeps State.core (settleReset (advance dt s)) (execAvsStep dt slackBlend slackCoop monitorBlend monitorCoop s) := by
  dsimp only [execAvsStep]
  split <;> simp

theorem execAvsNegativeSlack_core (dt r slack monitor s) :
    Keeps State.core (settleReset (advance dt s)) (execAvsNegativeSlack dt r slack monitor s) := by
  dsimp only [execAvsNegativeSlack]
  split <;> simp

theorem execAvsMarginRelease_core (dt r s) : Keeps State.core (settleReset (advance dt s)) (execAvsMarginRelease dt r s) := by
  dsimp only [execAvsMarginRelease]
  (repeat' split) <;> simp

theorem execTestSelfComplete_core (dt durationUs s) :
    Keeps State.core (advance dt s) (execTestSelfComplete dt durationUs s) := by
  dsimp only [execTestSelfComplete]
  split <;> simp [core_mk]

/-- An instruction of a Cooper core leaves the core of the machine alone; BLKDONE is the one that
does not run through `coopExec`. -/
theorem cooper_core {c : Instr} {k : Fin 4} {op : CoopOp} (s : State) (hc : Safety.coopOf c = some (k, op)) :
    Keeps State.core s (exec c s) := by
  unfold Safety.coopOf at hc
  split at hc <;> cases hc
  case h_25 => exact execBlkdone_core _ s
  all_goals
    unfold exec
    exact keeps_core_coopExec
/-! ### SYSCNT -/

theorem Keeps.rises {s u : State} {r : R} (h : Keeps State.sysCnt u r) (hu : s.sysCnt ≤ u.sysCnt := by simp) :
    ∀ t, r = .next t → s.sysCnt ≤ t.sysCnt :=
  fun t ht => Nat.le_trans hu (Nat.le_of_eq (h.eq t ht).symm)

theorem Keeps.core_rises {s u : State} {r : R} (h : Keeps State.core u r) (hu : s.sysCnt ≤ u.sysCnt := by simp) :
    ∀ t, r = .next t → s.sysCnt ≤ t.sysCnt :=
  Keeps.rises ⟨fun t ht => sysCnt_of_core (h.eq t ht)⟩ hu

/-- The commands at which SYSCNT starts again: AO ready, and the two by which the power goes (R86). -/
def restartsSysCnt : Instr → Bool
  | .aoReady .. | .holdUpExhausted .. | .portSupplyStopped .. => true
  | _ => false

theorem restartsSysCnt_cases {c : Instr} (hc : restartsSysCnt c = true) :
    (∃ dt hold, c = .aoReady dt hold) ∨ (∃ dt, c = .holdUpExhausted dt) ∨ (∃ dt a b, c = .portSupplyStopped dt a b) := by
  unfold restartsSysCnt at hc
  split at hc
  · exact .inl ⟨_, _, rfl⟩
  · exact .inr (.inl ⟨_, rfl⟩)
  · exact .inr (.inr ⟨_, _, _, rfl⟩)
  · cases hc

/-- Where SYSCNT does not start again, it rises. -/
theorem exec_sysCnt_le (c : Instr) (s : State) (hc : restartsSysCnt c = false) :
    ∀ t, exec c s = .next t → s.sysCnt ≤ t.sysCnt := by
  cases c with
  | nop => exact (execNop_core ..).core_rises
  | devInfo => exact (execDevInfo_core ..).core_rises
  | devState => exact (execDevState_core ..).core_rises
  | devRun => exact (execDevRun_core ..).core_rises
  | devMode => exact (execDevMode_core ..).core_rises
  | devReset => exact (execDevReset_core ..).core_rises
  | boardDescribe => exact (execBoardDescribe_core ..).core_rises
  | timeRead => exact (execTimeRead_core ..).core_rises
  | eventMask => exact (execEventMask_core ..).core_rises
  | vintCommit => exact (execVintCommit_core ..).core_rises
  | vintStatus => exact (execVintStatus_core ..).core_rises
  | vintPolicy => exact (execVintPolicy_core ..).core_rises
  | vintClear => exact (execVintClear_core ..).core_rises
  | lifeState => exact (execLifeState_core ..).core_rises
  | lifeAdvance => exact (execLifeAdvance_sysCnt ..).rises
  | fwBegin => exact (execFwBegin_core ..).core_rises
  | fwData => exact (execFwData_core ..).core_rises
  | fwEnd => exact (execFwEnd_core ..).core_rises
  | fwSelect => exact (execFwSelect_core ..).core_rises
  | keyInstall => exact (execKeyInstall_core ..).core_rises
  | graphStage => exact (execGraphStage_core ..).core_rises
  | graphCommit => exact (execGraphCommit_core ..).core_rises
  | graphAbort => exact (execGraphAbort_core ..).core_rises
  | graphQuery => exact (execGraphQuery_core ..).core_rises
  | routeSet => exact (execRouteSet_core ..).core_rises
  | latencyQuery => exact (execLatencyQuery_core ..).core_rises
  | gainSet => exact (execGainSet_core ..).core_rises
  | muteSet => exact (execMuteSet_core ..).core_rises
  | rampDefaults => exact (execRampDefaults_core ..).core_rises
  | sinkSet => exact (execSinkSet_core ..).core_rises
  | genSet => exact (execGenSet_core ..).core_rises
  | override => exact (execOverride_core ..).core_rises
  | overrideConfig => exact (execOverrideConfig_core ..).core_rises
  | meterRead => exact (execMeterRead_core ..).core_rises
  | inputSet => exact (execInputSet_core ..).core_rises
  | inputStatus => exact (execInputStatus_core ..).core_rises
  | tasterConfig => exact (execTasterConfig_core ..).core_rises
  | tasterRun => exact (execTasterRun_core ..).core_rises
  | tasterSubstitute => exact (execTasterSubstitute_core ..).core_rises
  | inputExpert => exact (execInputExpert_core ..).core_rises
  | outputSet => exact (execOutputSet_core ..).core_rises
  | outputStatus => exact (execOutputStatus_core ..).core_rises
  | holdSet => exact (execHoldSet_core ..).core_rises
  | holdSafeSet => exact (execHoldSafeSet_core ..).core_rises
  | speakerSet => exact (execSpeakerSet_core ..).core_rises
  | clearConfig => exact (execClearConfig_core ..).core_rises
  | outputExpert => exact (execOutputExpert_core ..).core_rises
  | filtConfig => exact (execFiltConfig_core ..).core_rises
  | filtCoefLoad => exact (execFiltCoefLoad_core ..).core_rises
  | filtRun => exact (execFiltRun_core ..).core_rises
  | filtSync => exact (execFiltSync_core ..).core_rises
  | filtPhase => exact (execFiltPhase_core ..).core_rises
  | filtStatus => exact (execFiltStatus_core ..).core_rises
  | filtExpert => exact (execFiltExpert_core ..).core_rises
  | tdmSet => exact (execTdmSet_core ..).core_rises
  | aesSet => exact (execAesSet_core ..).core_rises
  | portStart => exact (execPortStart_core ..).core_rises
  | portStop => exact (execPortStop_core ..).core_rises
  | portStatus => exact (execPortStatus_core ..).core_rises
  | portStamp => exact (execPortStamp_core ..).core_rises
  | aesCsSet => exact (execAesCsSet_core ..).core_rises
  | aesCsRead => exact (execAesCsRead_core ..).core_rises
  | clockRefs => exact (execClockRefs_core ..).core_rises
  | clockStatus => exact (execClockStatus_core ..).core_rises
  | ptpSet => exact (execPtpSet_core ..).core_rises
  | wclkSet => exact (execWclkSet_core ..).core_rises
  | fsSet => exact (execFsSet_core ..).core_rises
  | decantSet => exact (execDecantSet_core ..).core_rises
  | alignGroupSet => exact (execAlignGroupSet_core ..).core_rises
  | clockExpert => exact (execClockExpert_core ..).core_rises
  | netSet => exact (execNetSet_core ..).core_rises
  | streamRxSet => exact (execStreamRxSet_core ..).core_rises
  | streamTxSet => exact (execStreamTxSet_core ..).core_rises
  | streamEnable => exact (execStreamEnable_core ..).core_rises
  | streamStatus => exact (execStreamStatus_core ..).core_rises
  | netStatus => exact (execNetStatus_core ..).core_rises
  | netAuthSet => exact (execNetAuthSet_core ..).core_rises
  | hsSet => exact (execHsSet_core ..).core_rises
  | hsStatus => exact (execHsStatus_core ..).core_rises
  | hsEvents => exact (execHsEvents_core ..).core_rises
  | hsExpert => exact (execHsExpert_core ..).core_rises
  | coopLoad => exact (execCoopLoad_core ..).core_rises
  | coopStart => exact (execCoopStart_core ..).core_rises
  | coopStop => exact (execCoopStop_core ..).core_rises
  | coopStatus => exact (execCoopStatus_core ..).core_rises
  | coopParam => exact (execCoopParam_core ..).core_rises
  | coopDebug => exact (execCoopDebug_core ..).core_rises
  | faultRead => exact (execFaultRead_core ..).core_rises
  | faultAck => exact (execFaultAck_core ..).core_rises
  | powerStatus => exact (execPowerStatus_core ..).core_rises
  | powerPolicy => exact (execPowerPolicy_core ..).core_rises
  | thermalStatus => exact (execThermalStatus_core ..).core_rises
  | expertOpen => exact (execExpertOpen_core ..).core_rises
  | expertClose => exact (execExpertClose_core ..).core_rises
  | regRead => exact (execRegRead_core ..).core_rises
  | regWrite => exact (execRegWrite_core ..).core_rises
  | testLoop => exact (execTestLoop_core ..).core_rises
  | testSelf => exact (execTestSelf_core ..).core_rises
  | writeCmd => exact (execWriteCmd_core ..).core_rises
  | readReply => exact (execReadReply_core ..).core_rises
  | readStatus => exact (execReadStatus_core ..).core_rises
  | commandDatagram => exact (execCommandDatagram_core ..).core_rises
  | commandPreemption => exact (execCommandPreemption_core ..).core_rises
  | commandAgeing => exact (execCommandAgeing_core ..).core_rises
  | timedCommandApply dt tickTai => exact (execTimedCommandApply_sysCnt dt tickTai s).rises
  | eventNotice => exact (execEventNotice_core ..).core_rises
  | sessionTimeout => exact (execSessionTimeout_core ..).core_rises
  | expertIdleTimeout => exact (execExpertIdleTimeout_core ..).core_rises
  | frameTick => exact (execFrameTick_sysCnt ..).rises
  | corkTimeout => exact (execCorkTimeout_core ..).core_rises
  | deferredCommandLands => exact (execDeferredCommandLands_sysCnt ..).rises
  | sweepEnd => exact (execSweepEnd_core ..).core_rises
  | powerApplied => exact (execPowerApplied_core ..).core_rises
  | inputPowerGood => exact (execInputPowerGood_sysCnt ..).rises
  | powerUpDelayEnd => exact (execPowerUpDelayEnd_core ..).core_rises
  | auxRailsInRegulation => exact (execAuxRailsInRegulation_core ..).core_rises
  | aoReady => cases hc
  | leesPurgeComplete => exact (execLeesPurgeComplete_core ..).core_rises
  | bootImageVerified => exact (execBootImageVerified_core ..).core_rises
  | restore => exact (execRestore_sysCnt ..).rises
  | serviceEntry => exact (execServiceEntry_sysCnt ..).rises
  | portSupplyStopped => cases hc
  | holdUpExhausted => cases hc
  | hupReady => exact (execHupReady_core ..).core_rises
  | lldpAllocation => exact (execLldpAllocation_core ..).core_rises
  | governorPeriod => exact (execGovernorPeriod_core ..).core_rises
  | shedRestore => exact (execShedRestore_core ..).core_rises
  | powerBudgetRelease => exact (execPowerBudgetRelease_core ..).core_rises
  | auxFault => exact (execAuxFault_core ..).core_rises
  | auxRetry => exact (execAuxRetry_core ..).core_rises
  | resetNLow => exact (execResetNLow_sysCnt ..).rises
  | resetNHigh => exact (execResetNHigh_sysCnt ..).rises
  | watchdogExpiry => exact (execWatchdogExpiry_sysCnt ..).rises
  | devResetStart => exact (execDevResetStart_sysCnt ..).rises
  | lifeTransitionStart => exact (execLifeTransitionStart_sysCnt ..).rises
  | bulkRecordStored => exact (execBulkRecordStored_core ..).core_rises
  | vintCommitComplete => exact (execVintCommitComplete_core ..).core_rises
  | pendingCommitStart => exact (execPendingCommitStart_core ..).core_rises
  | autoCommit => exact (execAutoCommit_core ..).core_rises
  | thermalSensorRead => exact (execThermalSensorRead_sysCnt ..).rises
  | thermalWarnRelease => exact (execThermalWarnRelease_core ..).core_rises
  | thermalTripRelease => exact (execThermalTripRelease_core ..).core_rises
  | thermalResetHoldEnd => exact (execThermalResetHoldEnd_sysCnt ..).rises
  | avsStep => exact (execAvsStep_core ..).core_rises
  | avsNegativeSlack => exact (execAvsNegativeSlack_core ..).core_rises
  | avsMarginRelease => exact (execAvsMarginRelease_core ..).core_rises
  | recoveryEntry => exact (execRecoveryEntry_sysCnt ..).rises
  | faultLogWrite => exact (execFaultLogWrite_core ..).core_rises
  | ptpSync => exact (execPtpSync_core ..).core_rises
  | ptpAnnounce => exact (execPtpAnnounce_core ..).core_rises
  | referenceQualified => exact (execReferenceQualified_core ..).core_rises
  | phaseMoveComplete => exact (execPhaseMoveComplete_core ..).core_rises
  | pllLock => exact (execPllLock_core ..).core_rises
  | pllLockLost => exact (execPllLockLost_core ..).core_rises
  | pllBandwidthStep => exact (execPllBandwidthStep_core ..).core_rises
  | refLostGraceEnd => exact (execRefLostGraceEnd_core ..).core_rises
  | taiTimeout => exact (execTaiTimeout_core ..).core_rises
  | clockLost => exact (execClockLost_core ..).core_rises
  | clockResumed => exact (execClockResumed_core ..).core_rises
  | decantRelock => exact (execDecantRelock_core ..).core_rises
  | syncInEdge => exact (execSyncInEdge_core ..).core_rises
  | clearNLow => exact (execClearNLow_core ..).core_rises
  | clearNHigh => exact (execClearNHigh_core ..).core_rises
  | ovrNLow => exact (execOvrNLow_core ..).core_rises
  | ovrNHigh => exact (execOvrNHigh_core ..).core_rises
  | gpioMuteInput => exact (execGpioMuteInput_core ..).core_rises
  | inputOver => exact (execInputOver_core ..).core_rises
  | extPhantomDetect => exact (execExtPhantomDetect_core ..).core_rises
  | phantomRampEnd => exact (execPhantomRampEnd_core ..).core_rises
  | phantomOvercurrent => exact (execPhantomOvercurrent_core ..).core_rises
  | phantomRetry => exact (execPhantomRetry_core ..).core_rises
  | matchLimit => exact (execMatchLimit_core ..).core_rises
  | matchReturnComplete => exact (execMatchReturnComplete_core ..).core_rises
  | tasterVisitStart => exact (execTasterVisitStart_core ..).core_rises
  | tasterSettleEnd => exact (execTasterSettleEnd_core ..).core_rises
  | tasterWindowEnd => exact (execTasterWindowEnd_core ..).core_rises
  | tasterSubstituted => exact (execTasterSubstituted_core ..).core_rises
  | settlingEnd => exact (execSettlingEnd_core ..).core_rises
  | filtStopComplete => exact (execFiltStopComplete_core ..).core_rises
  | filtReloadClear => exact (execFiltReloadClear_core ..).core_rises
  | filtSyncClear => exact (execFiltSyncClear_core ..).core_rises
  | captureComplete dt samples => exact (execCaptureComplete_core dt samples s).core_rises
  | outputShort => exact (execOutputShort_core ..).core_rises
  | outputShortProbe => exact (execOutputShortProbe_core ..).core_rises
  | servoLimit => exact (execServoLimit_core ..).core_rises
  | holdShort => exact (execHoldShort_core ..).core_rises
  | holdShortRelease => exact (execHoldShortRelease_core ..).core_rises
  | rangeChangeComplete => exact (execRangeChangeComplete_core ..).core_rises
  | loadCheckVerdict => exact (execLoadCheckVerdict_core ..).core_rises
  | loadCheckRepeat => exact (execLoadCheckRepeat_core ..).core_rises
  | speakerShortInOperation => exact (execSpeakerShortInOperation_core ..).core_rises
  | outputThermal => exact (execOutputThermal_core ..).core_rises
  | outputThermalRelease => exact (execOutputThermalRelease_core ..).core_rises
  | hsPlugInsertion => exact (execHsPlugInsertion_core ..).core_rises
  | hsXlrPoll => exact (execHsXlrPoll_core ..).core_rises
  | hsMeasurementCycle => exact (execHsMeasurementCycle_core ..).core_rises
  | hsVerdict => exact (execHsVerdict_core ..).core_rises
  | hsFaultRetry => exact (execHsFaultRetry_core ..).core_rises
  | hsRemoval => exact (execHsRemoval_core ..).core_rises
  | buttonPress => exact (execButtonPress_core ..).core_rises
  | buttonLongPress => exact (execButtonLongPress_core ..).core_rises
  | buttonRepeat => exact (execButtonRepeat_core ..).core_rises
  | buttonRelease => exact (execButtonRelease_core ..).core_rises
  | rackComplete => exact (execRackComplete_core ..).core_rises
  | dipBankSwitch => exact (execDipBankSwitch_core ..).core_rises
  | pendingGraphTrigger => exact (execPendingGraphTrigger_core ..).core_rises
  | tdmFrameReceived => exact (execTdmFrameReceived_core ..).core_rises
  | aes3FrameReceived => exact (execAes3FrameReceived_core ..).core_rises
  | aesCsBlockComplete => exact (execAesCsBlockComplete_core ..).core_rises
  | portStartComplete => exact (execPortStartComplete_core ..).core_rises
  | portStopComplete => exact (execPortStopComplete_core ..).core_rises
  | linkUp => exact (execLinkUp_core ..).core_rises
  | linkDown => exact (execLinkDown_core ..).core_rises
  | mediaPacketReceived => exact (execMediaPacketReceived_core ..).core_rises
  | streamPacketSend => exact (execStreamPacketSend_core ..).core_rises
  | streamLost => exact (execStreamLost_core ..).core_rises
  | streamReportRepeat => exact (execStreamReportRepeat_core ..).core_rises
  | pathLost => exact (execPathLost_core ..).core_rises
  | arpRequest => exact (execArpRequest_core ..).core_rises
  | icmpEcho => exact (execIcmpEcho_core ..).core_rises
  | igmpQuery => exact (execIgmpQuery_core ..).core_rises
  | switchForward => exact (execSwitchForward_core ..).core_rises
  | fdbAgeOut => exact (execFdbAgeOut_core ..).core_rises
  | coopBlockTrigger => exact (execCoopBlockTrigger_core ..).core_rises
  | coopInitComplete => exact (execCoopInitComplete_core ..).core_rises
  | coopOverrun => exact (execCoopOverrun_core ..).core_rises
  | coopRunaway => exact (execCoopRunaway_core ..).core_rises
  | coopRestart => exact (execCoopRestart_core ..).core_rises
  | coopRestartCountReset => exact (execCoopRestartCountReset_core ..).core_rises
  | dmaDone => exact (execDmaDone_core ..).core_rises
  | blkdone => exact (execBlkdone_core ..).core_rises
  | announceReceiptTimeout => exact (execAnnounceReceiptTimeout_core ..).core_rises
  | ptpMasterTransmit => exact (execPtpMasterTransmit_core ..).core_rises
  | ptpDelayRequest => exact (execPtpDelayRequest_core ..).core_rises
  | ptpDelayResponse => exact (execPtpDelayResponse_core ..).core_rises
  | wclkInEdge => exact (execWclkInEdge_core ..).core_rises
  | aes3TransmitFrame => exact (execAes3TransmitFrame_core ..).core_rises
  | matchSuspect => exact (execMatchSuspect_core ..).core_rises
  | hsSideAtLimit => exact (execHsSideAtLimit_core ..).core_rises
  | illegalInstruction => exact (execIllegalInstruction_core ..).core_rises
  | fwEraseComplete => exact (execFwEraseComplete_core ..).core_rises
  | testSelfComplete => exact (execTestSelfComplete_core ..).core_rises
  | hostnetBridgeFrame => exact (execHostnetBridgeFrame_core ..).core_rises
  | govTest | pathForce | clampTest | trackFreeze | forceType | loopback | phyLoop | breakpointSet | coopRegisterWrite
  | injectCode =>
    exact (execRegWrite_core ..).core_rises
  | mac | msu | mpy | add | sub | and | or | xor | shl | asr | norm | rnd | sat | cmp | ld | ldd | st | br | call | ret
  | rep | repRegisterCount | endrep | wait | halt | acs | bexp =>
    exact (cooper_core s rfl).core_rises

/-- Settles O6: every command lets its time pass and then leaves SYSCNT as it stands, but for the three that let it start again. -/
theorem sysCntRises : Obligations.SysCntRises := by
  unfold Obligations.SysCntRises
  intro c s t h
  cases hc : restartsSysCnt c with
  | false => exact .inl (exec_sysCnt_le c s hc t h)
  | true => exact .inr (restartsSysCnt_cases hc)

end Sys2Proof.Machine

/-! # Modes and the lifecycle

What one command may do to the operating mode, the lifecycle state and a lifecycle transition that is due (`LifeMoves`). Most
commands leave all three alone, since they leave `State.core` alone; the others move them by one of a few operations: the end of a
reset's first 2 ms (`State.Settled`), a warm reset (`State.Reset`), the commands that land at a tick (`State.Ticked`), an entry to a
mode, and the loss of power. The mode then moves as in R90, and the lifecycle as in R119. -/

namespace Sys2Proof.Machine

open Sys2Proof.Safety

/-! ### What a notice of an event leaves alone, and the end of a reset's first 2 ms -/

@[simp] theorem serveLink_life (l : LinkPort) (s : State) : (serveLink l s).life = s.life := setLink_life ..

@[simp] theorem sendFrame_life (l : LinkPort) (o : NetOut) (len : Nat) (s : State) : (sendFrame l o len s).life = s.life := by
  unfold sendFrame
  split <;> simp

@[simp] theorem sendDatagram_life (l : LinkPort) (ip : BitVec 32) (udp : BitVec 16) (key : Option (Fin 16)) (r : Reply)
    (s : State) : (sendDatagram l ip udp key r s).life = s.life := by
  cases key <;> exact sendFrame_life ..

@[simp] theorem sendNotice_life (s : State) : (sendNotice s).life = s.life := by
  unfold sendNotice
  split
  · exact sendDatagram_life ..
  · rfl

@[simp] theorem postEvent_life (src : Nat) (s : State) : (postEvent src s).life = s.life := by
  unfold postEvent noticed
  (repeat' split) <;> simp

@[simp] theorem enterMode_life (m : Mode) (s : State) :
    (enterMode m s).life = { s.life with mode := m, prev := s.life.mode, since := s.sysCnt } := postEvent_life ..

/-- A start begins before the purge of the lees (R86, R117). -/
theorem beginStart_purgeDone (holdN : Bool) (s : State) : (beginStart holdN s).life.purgeDone = false := by
  unfold beginStart
  dsimp only
  split
  · rfl
  · rw [enterMode_life]

theorem afterReset_purgeDone {s : State} (hs : s.life.purgeDone = false) (holdN thermal : Bool) :
    (afterReset holdN thermal s).life.purgeDone = false := by
  unfold afterReset leaveReset
  split
  · exact hs
  · split
    · exact beginStart_purgeDone ..
    · exact hs

/-- After a reset whose first 2 ms end now, the purge of the lees is still to come (R100, R117). -/
theorem settleReset_eq_or_purgeDone (s : State) : settleReset s = s ∨ (settleReset s).life.purgeDone = false := by
  unfold settleReset
  split
  · split
    · exact .inr (afterReset_purgeDone rfl ..)
    · exact .inl rfl
  · exact .inl rfl

/-! ### The part of the core that modes and the lifecycle are in -/

/-- The lifecycle state, the transition that is due and the operating mode. -/
def State.lifecycle (s : State) : LifeState × Option (LifeState × Nat) × Mode := (s.life.state, s.life.lifeDue, s.life.mode)

theorem lifecycle_eq {s : State} {a : LifeState} {d : Option (LifeState × Nat)} {m : Mode} :
    s.lifecycle = (a, d, m) ↔ s.life.state = a ∧ s.life.lifeDue = d ∧ s.life.mode = m := by
  simp only [State.lifecycle, Prod.mk.injEq]

theorem lifecycle_of_core {s t : State} (h : t.core = s.core) : t.lifecycle = s.lifecycle := congrArg (·.2.2) h

@[simp] theorem advance_lifecycle (dt : Nat) (s : State) : (advance dt s).lifecycle = s.lifecycle := by
  simp only [State.lifecycle, advance_lifeState, advance_due, advance_mode]

theorem enterMode_lifecycle (m : Mode) {s u : State} (h : s.lifecycle = u.lifecycle) :
    (enterMode m s).lifecycle = (u.life.state, u.life.lifeDue, m) :=
  (congrArg (·.2.2) (enterMode_core m s)).trans (congrArg (fun x => (x.1, x.2.1, m)) h)

theorem beginStart_lifecycle (holdN : Bool) (s : State) :
    (beginStart holdN s).lifecycle = (s.life.state, s.life.lifeDue, .start) := congrArg (·.2.2) (beginStart_core holdN s)

theorem leaveReset_lifecycle (holdN : Bool) (s : State) : (leaveReset holdN s).lifecycle =
    (s.life.state, s.life.lifeDue, if s.pads.resetN = true then .start else s.life.mode) :=
  congrArg (·.2.2) (leaveReset_core holdN s)

/-- Without power only the lifecycle state is left (R80, R119). -/
theorem powerOff_lifecycle (s : State) : (powerOff s).lifecycle = (s.life.state, none, .off) :=
  congrArg (fun x => (x.2.2.1, none, Mode.off)) (settleMark_core s)

/-- A port that has its supply again brings a module without power to RESET (R81). -/
theorem regain_moves (s : State) (x : NetPort) : (regain s x).life.state = s.life.state ∧
    (regain s x).life.lifeDue = s.life.lifeDue ∧
    ((regain s x).life.mode = s.life.mode ∨ (regain s x).life.mode = .reset) := by
  have h := regain_core s x
  simp only [State.core, Prod.mk.injEq] at h
  obtain ⟨-, -, hstate, hdue, hmode⟩ := h
  refine ⟨hstate, hdue, ?_⟩
  rw [hmode]
  split
  · exact .inr rfl
  · exact .inl rfl

/-! ### What a command may do to them -/

/-- What the command may do: the mode stays or moves as R90 lets it; a transition that is due was due before or is one of R119's
from the present state; and the lifecycle state stays, or the transition that was due takes place. -/
structure LifeMoves (c : Instr) (s t : State) : Prop where
  mode : t.life.mode = s.life.mode ∨ modeStep c s.life.mode t.life.mode = true
  due : ∀ x ∈ t.life.lifeDue, t.life.state = s.life.state ∧ (x ∈ s.life.lifeDue ∨ lifeStep s.life.state x.1 = true)
  state : t.life.state = s.life.state ∨
    (∃ n, (t.life.state, n) ∈ s.life.lifeDue) ∧ ∃ dt hold, c = .lifeTransitionStart dt hold

section
variable {c : Instr} {s t u : State}

/-- Only the mode moves, and what was due may be dropped. -/
theorem LifeMoves.of_mode (hstate : t.life.state = s.life.state)
    (hdue : t.life.lifeDue = s.life.lifeDue ∨ t.life.lifeDue = none)
    (hmode : t.life.mode = s.life.mode ∨ modeStep c s.life.mode t.life.mode = true) : LifeMoves c s t where
  mode := hmode
  due x hx := by
    refine ⟨hstate, .inl ?_⟩
    rcases hdue with h | h
    · exact h ▸ hx
    · rw [h] at hx
      cases hx
  state := .inl hstate

theorem LifeMoves.of_lifecycle (h : t.lifecycle = s.lifecycle) : LifeMoves c s t := by
  obtain ⟨hstate, hdue, hmode⟩ := lifecycle_eq.mp h
  exact .of_mode hstate (.inl hdue) (.inl hmode)

theorem LifeMoves.of_core (h : t.core = s.core) : LifeMoves c s t := .of_lifecycle (lifecycle_of_core h)

/-- The mode `m` is entered. -/
theorem LifeMoves.of_entry {m : Mode} (h : t.lifecycle = (s.life.state, s.life.lifeDue, m))
    (hm : m = s.life.mode ∨ modeStep c s.life.mode m = true) : LifeMoves c s t := by
  obtain ⟨hstate, hdue, rfl⟩ := lifecycle_eq.mp h
  exact .of_mode hstate (.inl hdue) hm

/-- START is entered from RESET, or begins again. -/
theorem LifeMoves.of_start (h : t.lifecycle = (s.life.state, s.life.lifeDue, .start))
    (hm : s.life.mode = .reset ∨ s.life.mode = .start) (hc : modeStep c .reset .start = true := by rfl) : LifeMoves c s t := by
  refine .of_entry h ?_
  rcases hm with hm | hm <;> rw [hm]
  · exact .inr hc
  · exact .inl rfl

/-- A warm reset moves a mode from HOLD on to RESET (R90, R100). -/
theorem LifeMoves.of_reset (h : t.Reset s)
    (hc : ∀ a, modeUp a = true → modeStep c a .reset = true := by intro a ha; simp [modeStep, ha]) : LifeMoves c s t := by
  obtain ⟨-, -, hstate, hdue, hmode⟩ := h
  refine .of_mode hstate hdue (hmode.imp_right ?_)
  rintro ⟨hup, hr⟩
  rw [hr]
  exact hc _ hup

/-- What lands at a tick moves the mode from SERVICE and MAINTENANCE among the two and to HOLD, and from RECOVERY to HOLD (R90,
R94). -/
theorem LifeMoves.of_ticked (h : t.Ticked s)
    (hlive : ∀ a b, modeLive a = true → (modeLive b || b == .hold) = true → modeStep c a b = true := by
      intro a b ha hb; simp [modeStep, ha, hb])
    (hrec : modeStep c .recovery .hold = true := by rfl) : LifeMoves c s t := by
  obtain ⟨-, -, hstate, hdue, hmode⟩ := h
  refine .of_mode hstate (.inl hdue) (hmode.imp_right ?_)
  rintro (⟨ha, hb⟩ | ⟨ha, hb⟩)
  · refine hlive _ _ ?_ ?_
    · rcases ha with h | h <;> rw [h] <;> rfl
    · rcases hb with h | h | h <;> rw [h] <;> rfl
  · rw [ha, hb]
    exact hrec

/-- Time that passes before a command's effect moves nothing. -/
theorem LifeMoves.after (h : LifeMoves c u t) (hu : u.lifecycle = s.lifecycle := by exact advance_lifecycle ..) :
    LifeMoves c s t := by
  obtain ⟨hstate, hdue, hmode⟩ := lifecycle_eq.mp hu
  obtain ⟨m, d, l⟩ := h
  rw [hmode] at m
  rw [hstate, hdue] at d l
  exact ⟨m, d, l⟩

theorem LifeMoves.then_core (h : LifeMoves c s u) (ht : t.core = u.core) : LifeMoves c s t := by
  obtain ⟨hstate, hdue, hmode⟩ := lifecycle_eq.mp (lifecycle_of_core ht)
  obtain ⟨m, d, l⟩ := h
  rw [← hmode] at m
  rw [← hdue, ← hstate] at d
  rw [← hstate] at l
  exact ⟨m, d, l⟩

/-- A reset's first 2 ms end before the command's effect: the mode may have gone from RESET to START, and the effect then leaves it
there (R100). -/
theorem LifeMoves.after_settled (hu : u.Settled s) (h : LifeMoves c u t) (hc : modeStep c .reset .start = true := by rfl)
    (hstay : u.life.mode = .start → modeStep c .start t.life.mode = false := by intro _; rfl) : LifeMoves c s t := by
  obtain ⟨-, -, hstate, hdue, hmode⟩ := hu
  have hsub : ∀ x ∈ u.life.lifeDue, x ∈ s.life.lifeDue := by
    rcases hdue with e | e <;> rw [e] <;> simp
  obtain ⟨m, d, l⟩ := h
  rw [hstate] at d l
  refine ⟨?_, fun x hx => (d x hx).imp_right (.imp_left (hsub x)),
    l.imp_right (.imp_left fun ⟨n, hn⟩ => ⟨n, hsub _ hn⟩)⟩
  rcases hmode with e | ⟨hs, hm⟩
  · rwa [e] at m
  · rw [hm, hstay hm] at m
    rcases m with m | m
    · rw [hs, m]
      exact .inr hc
    · cases m

theorem LifeMoves.after_settleReset {dt : Nat} (h : LifeMoves c (settleReset (advance dt s)) t)
    (hc : modeStep c .reset .start = true := by rfl)
    (hstay : (settleReset (advance dt s)).life.mode = .start → modeStep c .start t.life.mode = false := by intro _; rfl) :
    LifeMoves c s t :=
  (LifeMoves.after_settled (settleReset_settled _) h hc hstay).after

/-- Every state the outcome answers with is one the command may move to. -/
structure Moves (c : Instr) (s : State) (r : R) : Prop where
  lifeMoves : ∀ t, r = .next t → LifeMoves c s t

theorem Moves.next (h : LifeMoves c s t) : Moves c s (.next t) := ⟨fun _ e => by cases e; exact h⟩

theorem Moves.ite {p : Prop} [Decidable p] {a b : R} (ha : p → Moves c s a) (hb : ¬p → Moves c s b) :
    Moves c s (if p then a else b) := by
  split
  · exact ha ‹_›
  · exact hb ‹_›

/-- A command that keeps the core as its own time leaves it. -/
theorem Keeps.moves {r : R} (h : Keeps State.core u r)
    (hu : u.lifecycle = s.lifecycle := by exact advance_lifecycle ..) : Moves c s r :=
  ⟨fun t ht => (LifeMoves.of_core (h.eq t ht)).after hu⟩

/-- A command that keeps the core as the end of a reset's first 2 ms leaves it. -/
theorem Keeps.moves_settled {r : R} {dt : Nat} (h : Keeps State.core (settleReset (advance dt s)) r)
    (hc : modeStep c .reset .start = true := by rfl)
    (hstay : ∀ m, modeStep c .start m = false := by intro _; rfl) : Moves c s r :=
  ⟨fun t ht => (LifeMoves.of_core (h.eq t ht)).after_settleReset hc fun _ => hstay _⟩

end

/-! ### A packet and the state its body runs on -/

theorem serve_core_cases (op : Op) (h : Hdr) (p : Bytes) (body : State → Ans) (s : State) :
    (serve op h p body s).core = s.core ∨
      (serve op h p body s).core = (ansState (body { s with cmd := select s.cmd })).core := by
  unfold serve
  dsimp only
  split
  · exact .inl rfl
  · split
    · split
      · refine .inr ?_
        split <;> rename_i e <;> rw [e] <;> simp
      · exact .inl ((finish_core _).trans (reply_core ..))
    · exact .inl rfl

/-- A packet leaves the core as its time leaves it, or as its body does that begins there. -/
theorem opcode_core_cases {op : Op} {h : Hdr} {p : Bytes} {body : State → Ans} {s t : State}
    (ht : opcode op h p body s = .next t) :
    t.core = (advance h.dt s).core ∨ ∃ u, u.core = (advance h.dt s).core ∧ t.core = (ansState (body u)).core := by
  have hserve : ∀ u : State, u.core = (advance h.dt s).core → (serve op h p body u).core = (advance h.dt s).core ∨
      ∃ v, v.core = (advance h.dt s).core ∧ (serve op h p body u).core = (ansState (body v)).core :=
    fun u hu => (serve_core_cases op h p body u).imp (·.trans hu) fun e => ⟨{ u with cmd := select u.cmd }, hu, e⟩
  have hadm := admission_core op h p (advance h.dt s)
  unfold opcode at ht
  dsimp only at ht
  split at ht
  · cases ht
    exact .inl rfl
  · split at ht
    · cases ht
      exact hserve _ rfl
    · split at ht <;> rename_i e <;> rw [e] at hadm <;> cases ht
      · exact hserve _ hadm
      · exact .inl ((refuseAt_core ..).trans hadm)

/-! ### Commands that move the mode -/

theorem execInputPowerGood_moves (dt port s) : Moves (.inputPowerGood dt port) s (execInputPowerGood dt port s) := by
  unfold execInputPowerGood
  extract_lets u _ u1
  refine .ite (fun _ => .next (.after (.of_core rfl))) fun _ => .next (.after (u := u) ?_)
  by_cases hoff : u.life.mode = .off
  · have hu1 : u1 = startAo u := if_pos hoff
    rw [hu1]
    exact .of_entry (m := .reset) (congrArg (·.2.2) ((setPd_core ..).trans (startAo_core u))) (.inr (by rw [hoff]; rfl))
  · have hu1 : u1 = u := if_neg hoff
    rw [hu1]
    exact .of_core (setPd_core ..)

/-- AO ready enters START, whether or not RESET_N lets step 8 begin (R86). -/
theorem execAoReady_moves (dt holdN s) : Moves (.aoReady dt holdN) s (execAoReady dt holdN s) := by
  unfold execAoReady
  extract_lets u _ _ v
  refine .ite (fun _ => .next (.after (.of_core rfl))) fun hc => .next (.after (u := u) ?_)
  have hm : u.life.mode = .reset :=
    Decidable.byContradiction fun hm => hc (by simp [hm])
  have hv : v.lifecycle = (u.life.state, u.life.lifeDue, .start) :=
    (lifecycle_of_core ((holdRefreshAll_core ..).trans (readSafe_core _))).trans (enterMode_lifecycle _ rfl)
  clear_value v
  refine .of_entry (m := .start) ?_ (.inr (by rw [hm]; rfl))
  split
  · obtain ⟨hstate, hdue, -⟩ := lifecycle_eq.mp hv
    rw [beginStart_lifecycle, hstate, hdue]
  · exact hv

theorem execServiceEntry_moves (dt s) : Moves (.serviceEntry dt) s (execServiceEntry dt s) := by
  unfold execServiceEntry
  extract_lets u
  split
  · exact .next (.after (.of_core rfl))
  · refine .ite (fun _ => .next (.after (.of_core rfl))) fun hc => ?_
    extract_lets
    refine .next (.after (u := u) (.of_entry (m := .service) ?_ (.inr ?_)))
    · exact (lifecycle_of_core ((startRunning_core _).trans (holdRefreshAll_core ..))).trans
        (enterMode_lifecycle _ (lifecycle_of_core (closeExpert_core _)))
    · have hm : u.life.mode = .hold :=
        Decidable.byContradiction fun hm => hc (by simp [hm])
      rw [hm]
      rfl

theorem execRecoveryEntry_moves (dt s) : Moves (.recoveryEntry dt) s (execRecoveryEntry dt s) := by
  unfold execRecoveryEntry
  extract_lets u
  split
  · exact .next (.after (.of_core rfl))
  · refine .ite (fun _ => .next (.after (u := u) (.of_core rfl))) fun hc => ?_
    extract_lets
    refine .next (.after (u := u) (.of_entry (m := .recovery) ?_ (.inr ?_)))
    · exact (lifecycle_of_core (holdRefreshAll_core ..)).trans
        (enterMode_lifecycle _ (lifecycle_of_core ((cancelTriggers_core _).trans (dropWaiting_core _))))
    · revert hc
      cases u.life.mode <;> simp [modeStep, modeLive]

/-- From START, since the purge is done, so that no reset ends here (R86, R100). -/
theorem execRestore_moves (dt s) : Moves (.restore dt) s (execRestore dt s) := by
  unfold execRestore
  extract_lets u _ s1 s2 s3 s4
  refine .ite (fun _ => .next ?_) fun hc => ?_
  · exact .after_settleReset (.of_core rfl) (hstay := fun hm => by rw [hm]; rfl)
  · have hpurge : u.life.purgeDone = true :=
      Decidable.byContradiction fun h => hc (by simp [h])
    have hstart : u.life.mode = .start :=
      Decidable.byContradiction fun h => hc (by simp [starting, h])
    have hu : u = advance dt s :=
      (settleReset_eq_or_purgeDone _).resolve_right fun h => Bool.noConfusion (h.symm.trans hpurge)
    have h1 : s1.core = u.core := (restoreGraph_core _).trans ((restoreClocks_core _).trans (applySlot_core _))
    have h2 : s2.core = s1.core := (policyLldp_core ..).trans (policyLldp_core ..)
    have h3 : s3.core = s2.core := (restoreTasters_core _).trans ((restoreChains_core _).trans (restoreMix_core _))
    have h4 : s4.core = s3.core := (foldl_core restoreCore_core _ _).trans
      ((restoreOutputs_core _).trans (foldl_core phApply_core _ _))
    refine .next (.after (u := u) (.of_entry (m := .hold) ?_ (.inr (by rw [hstart]; rfl))) (by rw [hu]; simp))
    exact (lifecycle_of_core (holdRefreshAll_core ..)).trans
      (enterMode_lifecycle _ (lifecycle_of_core (h4.trans (h3.trans (h2.trans h1)))))

theorem execResetNLow_moves (dt s) : Moves (.resetNLow dt) s (execResetNLow dt s) :=
  .next (.after_settleReset (.of_reset (reset_core_trans (warmReset_reset ..) rfl)))

theorem waitsReset_mode {s : State} (h : waitsReset s = true) : s.life.mode = .reset ∨ s.life.mode = .start := by
  simp only [waitsReset, Bool.and_eq_true, Bool.or_eq_true, beq_iff_eq] at h
  exact h.1.2

theorem execResetNHigh_moves (dt holdN s) : Moves (.resetNHigh dt holdN) s (execResetNHigh dt holdN s) := by
  unfold execResetNHigh
  extract_lets u _ v
  have hv : v.core = u.core := rfl
  clear_value v
  refine .next (.after_settleReset (dt := dt) (.after (u := v) ?_ (lifecycle_of_core hv)))
  split
  · exact .of_start (beginStart_lifecycle holdN v) (waitsReset_mode ‹_›)
  · split <;> exact .of_core rfl

theorem execWatchdogExpiry_moves (dt holdN s) : Moves (.watchdogExpiry dt holdN) s (execWatchdogExpiry dt holdN s) := by
  refine .next (.after_settleReset (dt := dt) ?_)
  split
  · exact .of_reset (warmReset_reset ..)
  · exact .of_core rfl

theorem execDevResetStart_moves (dt holdN s) : Moves (.devResetStart dt holdN) s (execDevResetStart dt holdN s) := by
  unfold execDevResetStart
  extract_lets u
  split
  · refine .next (.after_settleReset (dt := dt) ?_)
    split
    · exact .of_reset (warmReset_reset ..)
    · exact .of_core rfl
  · exact .next (.after_settleReset (.of_core rfl))

theorem execThermalSensorRead_moves (dt l s) : Moves (.thermalSensorRead dt l) s (execThermalSensorRead dt l s) := by
  unfold execThermalSensorRead
  extract_lets u v
  refine .ite (fun _ => .next (.after_settleReset (.of_core rfl))) fun _ => .next (.after_settleReset (dt := dt) ?_)
  have hv : v.core = u.core := (warnNow_core _).trans (takeTemps_core l u)
  split
  · exact .of_reset (reset_core_trans (resetHot_reset _) hv)
  · exact .of_core ((tripNow_core _).trans hv)

theorem execThermalResetHoldEnd_moves (dt holdN s) :
    Moves (.thermalResetHoldEnd dt holdN) s (execThermalResetHoldEnd dt holdN s) := by
  unfold execThermalResetHoldEnd
  extract_lets u
  refine .ite (fun _ => .next (.after_settleReset (.of_core rfl))) fun hc => .next (.after_settleReset (dt := dt) ?_)
  have hm : u.life.mode = .reset ∨ u.life.mode = .start :=
    Decidable.byContradiction fun h => hc (by simp [not_or.mp h])
  by_cases hn : u.pads.resetN = true
  · exact .of_start ((leaveReset_lifecycle holdN u).trans (by rw [if_pos hn])) hm
  · exact .of_lifecycle ((leaveReset_lifecycle holdN u).trans (by rw [if_neg hn]; rfl))

theorem execTimedCommandApply_moves (dt tickTai s) :
    Moves (.timedCommandApply dt tickTai) s (execTimedCommandApply dt tickTai s) := by
  unfold execTimedCommandApply
  extract_lets u
  exact .ite (fun _ => .next (.after_settleReset (.of_ticked (tickAhead_ticked _))))
    fun _ => .next (.after_settleReset (.of_core rfl))

theorem execDeferredCommandLands_moves (dt s) :
    Moves (.deferredCommandLands dt) s (execDeferredCommandLands dt s) := by
  unfold execDeferredCommandLands
  extract_lets u
  split
  · exact .next (.after_settleReset (.of_core rfl))
  · exact .ite (fun _ => .next (.after_settleReset (.of_ticked (tickAhead_ticked _))))
      fun _ => .next (.after_settleReset (.of_core rfl))

theorem execFrameTick_moves (dt i s) : Moves (.frameTick dt i) s (execFrameTick dt i s) := by
  unfold execFrameTick
  extract_lets u v _ w
  refine .ite (fun _ => .next (.after_settleReset (.of_core rfl))) fun _ =>
    .next (.after_settleReset (dt := dt) (.of_ticked ?_))
  have hv : v.Ticked u := by
    unfold v
    split
    · exact ticked_of_core rfl
    · exact beginTick_ticked u
  have hw : w.Ticked u := ticked_trans (ticked_of_core rfl) hv
  split
  · exact ticked_trans (lastFrame_ticked i w) hw
  · exact ticked_trans (ticked_of_core (frameEnd_core _)) (ticked_trans (frameIn_ticked i w) hw)

theorem execPortSupplyStopped_moves (dt a b s) : Moves (.portSupplyStopped dt a b) s (execPortSupplyStopped dt a b s) := by
  unfold execPortSupplyStopped
  extract_lets u _ _ v _ lost
  have hv : v.core = u.core := (portStops_core ..).trans (portStops_core ..)
  have hlost : ∀ x p q w, (lost x p q w).core = w.core := fun x p q w => by
    simp only [lost]
    split
    · exact raise_core ..
    · rfl
  clear_value v lost
  have stays : Moves (.portSupplyStopped dt a b) s (.next v) := .next (.after (u := u) (.of_core hv))
  refine .ite (fun _ => stays) fun _ => .ite (fun _ => ?oneLost) fun _ => .ite (fun _ => ?loss) fun _ =>
    .ite (fun _ => ?off) fun _ => stays
  case oneLost =>
    exact .next (.after (u := u) (.of_core ((notePads_core _).trans ((hlost ..).trans ((hlost ..).trans hv)))))
  case loss => exact .next (.after (u := u) (.of_core ((powerLoss_core _).trans hv)))
  case off =>
    obtain ⟨hstate, hdue, hmode⟩ := lifecycle_eq.mp (powerOff_lifecycle v)
    exact .next (.after (.after (u := v) (.of_mode hstate (.inr hdue) (.inr (by rw [hmode]; rfl))) (lifecycle_of_core hv)))

theorem execHoldUpExhausted_moves (dt s) : Moves (.holdUpExhausted dt) s (execHoldUpExhausted dt s) := by
  unfold execHoldUpExhausted
  extract_lets u
  refine .ite (fun _ => .next (.after (.of_core rfl))) fun _ => .next (.after (u := u) ?_)
  obtain ⟨hstate, hdue, hmode⟩ := lifecycle_eq.mp (powerOff_lifecycle u)
  obtain ⟨hstateA, hdueA, hmodeA⟩ := regain_moves (powerOff u) .a
  obtain ⟨hstateB, hdueB, hmodeB⟩ := regain_moves (regain (powerOff u) .a) .b
  refine .of_mode (hstateB.trans (hstateA.trans hstate)) (.inr (hdueB.trans (hdueA.trans hdue))) (.inr ?_)
  rw [hmode] at hmodeA
  rcases hmodeB with h | h
  · rw [h]
    rcases hmodeA with h | h <;> rw [h] <;> rfl
  · rw [h]
    rfl

/-! ### Commands that move the lifecycle -/

/-- LIFE_ADVANCE is accepted only for a transition of R119. -/
theorem lifeStep_of_checkLifeAdvance {p : Bytes} {s : State} (h : checkLifeAdvance p s = .ok) :
    lifeStep s.life.state (lifeOf (u8 p 0)) = true := by
  cases hn : lifeStep s.life.state (lifeOf (u8 p 0)) with
  | true => rfl
  | false =>
    revert h
    unfold checkLifeAdvance
    extract_lets dest auth
    have hd : lifeStep s.life.state dest = false := hn
    simp only [checks, hd, Bool.not_false, if_true]
    (repeat' split) <;> simp

/-- The transition that an accepted LIFE_ADVANCE asks for is due after it. -/
theorem execLifeAdvance_moves (h p s) : Moves (.lifeAdvance h p) s (execLifeAdvance h p s) := by
  refine ⟨fun t ht => ?_⟩
  unfold execLifeAdvance opcodeN at ht
  rcases opcode_core_cases ht with hcore | ⟨u, hu, hcore⟩
  · exact .after (.of_core hcore)
  · refine .after (.after (u := u) (.then_core ?_ hcore) (lifecycle_of_core hu))
    split
    · rw [ansState_guardSt]
      split
      · refine ⟨.inl rfl, fun x hx => ⟨rfl, .inr ?_⟩, .inl rfl⟩
        cases hx
        exact lifeStep_of_checkLifeAdvance ‹_›
      · exact .of_core rfl
    · exact .of_core rfl

/-- The transition that was due takes place, and a warm reset follows (R119, R121). -/
theorem execLifeTransitionStart_moves (dt holdN s) :
    Moves (.lifeTransitionStart dt holdN) s (execLifeTransitionStart dt holdN s) := by
  unfold execLifeTransitionStart
  extract_lets u
  split
  · exact .next (.after_settleReset (.of_core rfl))
  · rename_i x due hdue
    extract_lets v
    refine .ite (fun _ => .next (.after_settleReset (.of_core rfl))) fun _ => .next (.after_settleReset (dt := dt) ?_)
    have hv : v.life.mode = u.life.mode := by
      refine congrArg (·.2.2.2.2) (?_ : v.core = u.core)
      unfold v
      split
      · exact wipeReturned_core u
      · rfl
    obtain ⟨-, -, hstate, hdrop, hmode⟩ :=
      warmReset_reset 4 false holdN false { v with life := { v.life with state := x, lifeDue := none } }
    clear_value v
    refine ⟨?_, fun y hy => ?_, .inr ⟨⟨due, ?_⟩, dt, holdN, rfl⟩⟩
    · rw [← hv]
      refine hmode.imp_right ?_
      rintro ⟨hup, hreset⟩
      rw [hreset]
      simp only at hup
      simp [modeStep, hup]
    · rw [or_self] at hdrop
      rw [hdrop] at hy
      cases hy
    · rw [hstate]
      exact hdue

/-! ### Every command -/

/-- What any command may do to the mode and to the lifecycle. -/
theorem exec_moves (c : Instr) (s : State) : Moves c s (exec c s) := by
  cases c with
  | nop => exact (execNop_core ..).moves
  | devInfo => exact (execDevInfo_core ..).moves
  | devState => exact (execDevState_core ..).moves
  | devRun => exact (execDevRun_core ..).moves
  | devMode => exact (execDevMode_core ..).moves
  | devReset => exact (execDevReset_core ..).moves
  | boardDescribe => exact (execBoardDescribe_core ..).moves
  | timeRead => exact (execTimeRead_core ..).moves
  | eventMask => exact (execEventMask_core ..).moves
  | vintCommit => exact (execVintCommit_core ..).moves
  | vintStatus => exact (execVintStatus_core ..).moves
  | vintPolicy => exact (execVintPolicy_core ..).moves
  | vintClear => exact (execVintClear_core ..).moves
  | lifeState => exact (execLifeState_core ..).moves
  | lifeAdvance => exact execLifeAdvance_moves ..
  | fwBegin => exact (execFwBegin_core ..).moves
  | fwData => exact (execFwData_core ..).moves
  | fwEnd => exact (execFwEnd_core ..).moves
  | fwSelect => exact (execFwSelect_core ..).moves
  | keyInstall => exact (execKeyInstall_core ..).moves
  | graphStage => exact (execGraphStage_core ..).moves
  | graphCommit => exact (execGraphCommit_core ..).moves
  | graphAbort => exact (execGraphAbort_core ..).moves
  | graphQuery => exact (execGraphQuery_core ..).moves
  | routeSet => exact (execRouteSet_core ..).moves
  | latencyQuery => exact (execLatencyQuery_core ..).moves
  | gainSet => exact (execGainSet_core ..).moves
  | muteSet => exact (execMuteSet_core ..).moves
  | rampDefaults => exact (execRampDefaults_core ..).moves
  | sinkSet => exact (execSinkSet_core ..).moves
  | genSet => exact (execGenSet_core ..).moves
  | override => exact (execOverride_core ..).moves
  | overrideConfig => exact (execOverrideConfig_core ..).moves
  | meterRead => exact (execMeterRead_core ..).moves
  | inputSet => exact (execInputSet_core ..).moves
  | inputStatus => exact (execInputStatus_core ..).moves
  | tasterConfig => exact (execTasterConfig_core ..).moves
  | tasterRun => exact (execTasterRun_core ..).moves
  | tasterSubstitute => exact (execTasterSubstitute_core ..).moves
  | inputExpert => exact (execInputExpert_core ..).moves
  | outputSet => exact (execOutputSet_core ..).moves
  | outputStatus => exact (execOutputStatus_core ..).moves
  | holdSet => exact (execHoldSet_core ..).moves
  | holdSafeSet => exact (execHoldSafeSet_core ..).moves
  | speakerSet => exact (execSpeakerSet_core ..).moves
  | clearConfig => exact (execClearConfig_core ..).moves
  | outputExpert => exact (execOutputExpert_core ..).moves
  | filtConfig => exact (execFiltConfig_core ..).moves
  | filtCoefLoad => exact (execFiltCoefLoad_core ..).moves
  | filtRun => exact (execFiltRun_core ..).moves
  | filtSync => exact (execFiltSync_core ..).moves
  | filtPhase => exact (execFiltPhase_core ..).moves
  | filtStatus => exact (execFiltStatus_core ..).moves
  | filtExpert => exact (execFiltExpert_core ..).moves
  | tdmSet => exact (execTdmSet_core ..).moves
  | aesSet => exact (execAesSet_core ..).moves
  | portStart => exact (execPortStart_core ..).moves
  | portStop => exact (execPortStop_core ..).moves
  | portStatus => exact (execPortStatus_core ..).moves
  | portStamp => exact (execPortStamp_core ..).moves
  | aesCsSet => exact (execAesCsSet_core ..).moves
  | aesCsRead => exact (execAesCsRead_core ..).moves
  | clockRefs => exact (execClockRefs_core ..).moves
  | clockStatus => exact (execClockStatus_core ..).moves
  | ptpSet => exact (execPtpSet_core ..).moves
  | wclkSet => exact (execWclkSet_core ..).moves
  | fsSet => exact (execFsSet_core ..).moves
  | decantSet => exact (execDecantSet_core ..).moves
  | alignGroupSet => exact (execAlignGroupSet_core ..).moves
  | clockExpert => exact (execClockExpert_core ..).moves
  | netSet => exact (execNetSet_core ..).moves
  | streamRxSet => exact (execStreamRxSet_core ..).moves
  | streamTxSet => exact (execStreamTxSet_core ..).moves
  | streamEnable => exact (execStreamEnable_core ..).moves
  | streamStatus => exact (execStreamStatus_core ..).moves
  | netStatus => exact (execNetStatus_core ..).moves
  | netAuthSet => exact (execNetAuthSet_core ..).moves
  | hsSet => exact (execHsSet_core ..).moves
  | hsStatus => exact (execHsStatus_core ..).moves
  | hsEvents => exact (execHsEvents_core ..).moves
  | hsExpert => exact (execHsExpert_core ..).moves
  | coopLoad => exact (execCoopLoad_core ..).moves
  | coopStart => exact (execCoopStart_core ..).moves
  | coopStop => exact (execCoopStop_core ..).moves
  | coopStatus => exact (execCoopStatus_core ..).moves
  | coopParam => exact (execCoopParam_core ..).moves
  | coopDebug => exact (execCoopDebug_core ..).moves
  | faultRead => exact (execFaultRead_core ..).moves
  | faultAck => exact (execFaultAck_core ..).moves
  | powerStatus => exact (execPowerStatus_core ..).moves
  | powerPolicy => exact (execPowerPolicy_core ..).moves
  | thermalStatus => exact (execThermalStatus_core ..).moves
  | expertOpen => exact (execExpertOpen_core ..).moves
  | expertClose => exact (execExpertClose_core ..).moves
  | regRead => exact (execRegRead_core ..).moves
  | regWrite => exact (execRegWrite_core ..).moves
  | testLoop => exact (execTestLoop_core ..).moves
  | testSelf => exact (execTestSelf_core ..).moves
  | writeCmd => exact (execWriteCmd_core ..).moves
  | readReply => exact (execReadReply_core ..).moves
  | readStatus => exact (execReadStatus_core ..).moves
  | commandDatagram => exact (execCommandDatagram_core ..).moves
  | commandPreemption => exact (execCommandPreemption_core ..).moves
  | commandAgeing => exact (execCommandAgeing_core ..).moves
  | timedCommandApply dt tickTai => exact execTimedCommandApply_moves dt tickTai s
  | eventNotice => exact (execEventNotice_core ..).moves
  | sessionTimeout => exact (execSessionTimeout_core ..).moves
  | expertIdleTimeout => exact (execExpertIdleTimeout_core ..).moves
  | frameTick => exact execFrameTick_moves ..
  | corkTimeout => exact (execCorkTimeout_core ..).moves
  | deferredCommandLands => exact execDeferredCommandLands_moves ..
  | sweepEnd => exact (execSweepEnd_core ..).moves
  | powerApplied => exact (execPowerApplied_core ..).moves
  | inputPowerGood => exact execInputPowerGood_moves ..
  | powerUpDelayEnd => exact (execPowerUpDelayEnd_core ..).moves
  | auxRailsInRegulation => exact (execAuxRailsInRegulation_core ..).moves
  | aoReady => exact execAoReady_moves ..
  | leesPurgeComplete => exact (execLeesPurgeComplete_core ..).moves_settled
  | bootImageVerified => exact (execBootImageVerified_core ..).moves_settled
  | restore => exact execRestore_moves ..
  | serviceEntry => exact execServiceEntry_moves ..
  | portSupplyStopped => exact execPortSupplyStopped_moves ..
  | holdUpExhausted => exact execHoldUpExhausted_moves ..
  | hupReady => exact (execHupReady_core ..).moves
  | lldpAllocation => exact (execLldpAllocation_core ..).moves
  | governorPeriod => exact (execGovernorPeriod_core ..).moves
  | shedRestore => exact (execShedRestore_core ..).moves
  | powerBudgetRelease => exact (execPowerBudgetRelease_core ..).moves
  | auxFault => exact (execAuxFault_core ..).moves
  | auxRetry => exact (execAuxRetry_core ..).moves
  | resetNLow => exact execResetNLow_moves ..
  | resetNHigh => exact execResetNHigh_moves ..
  | watchdogExpiry => exact execWatchdogExpiry_moves ..
  | devResetStart => exact execDevResetStart_moves ..
  | lifeTransitionStart => exact execLifeTransitionStart_moves ..
  | bulkRecordStored => exact (execBulkRecordStored_core ..).moves
  | vintCommitComplete => exact (execVintCommitComplete_core ..).moves
  | pendingCommitStart => exact (execPendingCommitStart_core ..).moves
  | autoCommit => exact (execAutoCommit_core ..).moves
  | thermalSensorRead => exact execThermalSensorRead_moves ..
  | thermalWarnRelease => exact (execThermalWarnRelease_core ..).moves
  | thermalTripRelease => exact (execThermalTripRelease_core ..).moves
  | thermalResetHoldEnd => exact execThermalResetHoldEnd_moves ..
  | avsStep => exact (execAvsStep_core ..).moves_settled
  | avsNegativeSlack => exact (execAvsNegativeSlack_core ..).moves_settled
  | avsMarginRelease => exact (execAvsMarginRelease_core ..).moves_settled
  | recoveryEntry => exact execRecoveryEntry_moves ..
  | faultLogWrite => exact (execFaultLogWrite_core ..).moves
  | ptpSync => exact (execPtpSync_core ..).moves
  | ptpAnnounce => exact (execPtpAnnounce_core ..).moves
  | referenceQualified => exact (execReferenceQualified_core ..).moves
  | phaseMoveComplete => exact (execPhaseMoveComplete_core ..).moves
  | pllLock => exact (execPllLock_core ..).moves
  | pllLockLost => exact (execPllLockLost_core ..).moves
  | pllBandwidthStep => exact (execPllBandwidthStep_core ..).moves
  | refLostGraceEnd => exact (execRefLostGraceEnd_core ..).moves
  | taiTimeout => exact (execTaiTimeout_core ..).moves
  | clockLost => exact (execClockLost_core ..).moves
  | clockResumed => exact (execClockResumed_core ..).moves
  | decantRelock => exact (execDecantRelock_core ..).moves
  | syncInEdge => exact (execSyncInEdge_core ..).moves
  | clearNLow => exact (execClearNLow_core ..).moves
  | clearNHigh => exact (execClearNHigh_core ..).moves
  | ovrNLow => exact (execOvrNLow_core ..).moves
  | ovrNHigh => exact (execOvrNHigh_core ..).moves
  | gpioMuteInput => exact (execGpioMuteInput_core ..).moves
  | inputOver => exact (execInputOver_core ..).moves
  | extPhantomDetect => exact (execExtPhantomDetect_core ..).moves
  | phantomRampEnd => exact (execPhantomRampEnd_core ..).moves
  | phantomOvercurrent => exact (execPhantomOvercurrent_core ..).moves
  | phantomRetry => exact (execPhantomRetry_core ..).moves
  | matchLimit => exact (execMatchLimit_core ..).moves
  | matchReturnComplete => exact (execMatchReturnComplete_core ..).moves
  | tasterVisitStart => exact (execTasterVisitStart_core ..).moves
  | tasterSettleEnd => exact (execTasterSettleEnd_core ..).moves
  | tasterWindowEnd => exact (execTasterWindowEnd_core ..).moves
  | tasterSubstituted => exact (execTasterSubstituted_core ..).moves
  | settlingEnd => exact (execSettlingEnd_core ..).moves
  | filtStopComplete => exact (execFiltStopComplete_core ..).moves
  | filtReloadClear => exact (execFiltReloadClear_core ..).moves
  | filtSyncClear => exact (execFiltSyncClear_core ..).moves
  | captureComplete dt samples => exact (execCaptureComplete_core dt samples s).moves
  | outputShort => exact (execOutputShort_core ..).moves
  | outputShortProbe => exact (execOutputShortProbe_core ..).moves
  | servoLimit => exact (execServoLimit_core ..).moves
  | holdShort => exact (execHoldShort_core ..).moves
  | holdShortRelease => exact (execHoldShortRelease_core ..).moves
  | rangeChangeComplete => exact (execRangeChangeComplete_core ..).moves
  | loadCheckVerdict => exact (execLoadCheckVerdict_core ..).moves
  | loadCheckRepeat => exact (execLoadCheckRepeat_core ..).moves
  | speakerShortInOperation => exact (execSpeakerShortInOperation_core ..).moves
  | outputThermal => exact (execOutputThermal_core ..).moves
  | outputThermalRelease => exact (execOutputThermalRelease_core ..).moves
  | hsPlugInsertion => exact (execHsPlugInsertion_core ..).moves
  | hsXlrPoll => exact (execHsXlrPoll_core ..).moves
  | hsMeasurementCycle => exact (execHsMeasurementCycle_core ..).moves
  | hsVerdict => exact (execHsVerdict_core ..).moves
  | hsFaultRetry => exact (execHsFaultRetry_core ..).moves
  | hsRemoval => exact (execHsRemoval_core ..).moves
  | buttonPress => exact (execButtonPress_core ..).moves
  | buttonLongPress => exact (execButtonLongPress_core ..).moves
  | buttonRepeat => exact (execButtonRepeat_core ..).moves
  | buttonRelease => exact (execButtonRelease_core ..).moves
  | rackComplete => exact (execRackComplete_core ..).moves
  | dipBankSwitch => exact (execDipBankSwitch_core ..).moves
  | pendingGraphTrigger => exact (execPendingGraphTrigger_core ..).moves
  | tdmFrameReceived => exact (execTdmFrameReceived_core ..).moves
  | aes3FrameReceived => exact (execAes3FrameReceived_core ..).moves
  | aesCsBlockComplete => exact (execAesCsBlockComplete_core ..).moves
  | portStartComplete => exact (execPortStartComplete_core ..).moves
  | portStopComplete => exact (execPortStopComplete_core ..).moves
  | linkUp => exact (execLinkUp_core ..).moves
  | linkDown => exact (execLinkDown_core ..).moves
  | mediaPacketReceived => exact (execMediaPacketReceived_core ..).moves
  | streamPacketSend => exact (execStreamPacketSend_core ..).moves
  | streamLost => exact (execStreamLost_core ..).moves
  | streamReportRepeat => exact (execStreamReportRepeat_core ..).moves
  | pathLost => exact (execPathLost_core ..).moves
  | arpRequest => exact (execArpRequest_core ..).moves
  | icmpEcho => exact (execIcmpEcho_core ..).moves
  | igmpQuery => exact (execIgmpQuery_core ..).moves
  | switchForward => exact (execSwitchForward_core ..).moves
  | fdbAgeOut => exact (execFdbAgeOut_core ..).moves
  | coopBlockTrigger => exact (execCoopBlockTrigger_core ..).moves
  | coopInitComplete => exact (execCoopInitComplete_core ..).moves
  | coopOverrun => exact (execCoopOverrun_core ..).moves
  | coopRunaway => exact (execCoopRunaway_core ..).moves
  | coopRestart => exact (execCoopRestart_core ..).moves
  | coopRestartCountReset => exact (execCoopRestartCountReset_core ..).moves
  | dmaDone => exact (execDmaDone_core ..).moves
  | blkdone => exact (execBlkdone_core ..).moves rfl
  | announceReceiptTimeout => exact (execAnnounceReceiptTimeout_core ..).moves
  | ptpMasterTransmit => exact (execPtpMasterTransmit_core ..).moves
  | ptpDelayRequest => exact (execPtpDelayRequest_core ..).moves
  | ptpDelayResponse => exact (execPtpDelayResponse_core ..).moves
  | wclkInEdge => exact (execWclkInEdge_core ..).moves
  | aes3TransmitFrame => exact (execAes3TransmitFrame_core ..).moves
  | matchSuspect => exact (execMatchSuspect_core ..).moves
  | hsSideAtLimit => exact (execHsSideAtLimit_core ..).moves
  | illegalInstruction => exact (execIllegalInstruction_core ..).moves rfl
  | fwEraseComplete => exact (execFwEraseComplete_core ..).moves
  | testSelfComplete => exact (execTestSelfComplete_core ..).moves
  | hostnetBridgeFrame => exact (execHostnetBridgeFrame_core ..).moves
  | govTest | pathForce | clampTest | trackFreeze | forceType | loopback | phyLoop | breakpointSet | coopRegisterWrite
  | injectCode =>
    exact (execRegWrite_core ..).moves
  | mac | msu | mpy | add | sub | and | or | xor | shl | asr | norm | rnd | sat | cmp | ld | ldd | st | br | call | ret
  | rep | repRegisterCount | endrep | wait | halt | acs | bexp =>
    exact (cooper_core s rfl).moves rfl

/-- Settles O4: the modes of `exec_moves`. -/
theorem modeChanges : Obligations.ModeChanges := by
  unfold Obligations.ModeChanges
  intro c s t ht
  exact ((exec_moves c s).lifeMoves t ht).mode

/-- Settles O5: what is due after a command was due before or is LIFE_ADVANCE's, which checks R119's table; the state moves only to
what was due. -/
theorem dueIsLegal : Obligations.DueIsLegal := by
  unfold Obligations.DueIsLegal
  intro c s t hlegal ht
  obtain ⟨-, hdue, hstate⟩ := (exec_moves c s).lifeMoves t ht
  refine ⟨fun x hx => ?_, hstate.imp_right fun ⟨⟨n, hn⟩, hc⟩ => ⟨hlegal _ hn, hc⟩⟩
  obtain ⟨hsame, hx⟩ := hdue x hx
  rw [hsame]
  exact hx.elim (hlegal x) id

/-- The reset state's lists are empty, so within their bounds. -/
theorem reset_full : State.reset.Full := by
  unfold State.Full queueFits
  decide

/-- Settles O8: the fields of `State.reset` as they stand. -/
theorem resetState : Obligations.ResetState := by
  unfold Obligations.ResetState
  have hkeys : ∀ k ∈ State.reset.life.netKeys, k = none := fun _ => List.eq_of_mem_replicate
  exact ⟨rfl, rfl, rfl, rfl, hkeys, rfl, rfl, rfl, rfl, rfl, rfl, reset_full, rfl⟩

end Sys2Proof.Machine

/-! # The bounded lists

Every command leaves the reply store, the command queue, the timed commands, the fault log and the fault queue within their room
(`State.Full`, R137, R146, R159, R505, R510). The shared operations have their laws in Laws/Bounds; here each command is composed of
them, and a step runs one command. -/

namespace Sys2Proof.Machine

/-! ### Parts of the bounded lists -/

theorem dropOne_sublist {α : Type} (f : α → Bool) (l : List α) : (dropOne f l).Sublist l := by
  induction l with
  | nil => exact List.Sublist.refl _
  | cons x t ih =>
    unfold dropOne
    split
    · exact List.sublist_cons_self x t
    · exact ih.cons_cons x

theorem ackAll_sublist (l : List Nat) (q : List FaultRec) : (ackAll l q).1.Sublist q := by
  unfold ackAll
  refine List.foldlRecOn (motive := fun a : List FaultRec × Nat => a.1.Sublist q) l _ (List.Sublist.refl q) fun a ha n _ => ?_
  split
  · exact (dropOne_sublist _ _).trans ha
  · exact ha

/-- A part of the fault queue fits where the whole does (R505). -/
theorem queueFits_sublist {q l : List FaultRec} (hq : l.Sublist q) (h : queueFits q) : queueFits l :=
  ⟨Nat.le_trans hq.length_le h.1, Nat.le_trans (hq.filter _).length_le h.2⟩

theorem vint_full (v : Vint) (s : State) (h : s.Full) : State.Full { s with vint := v } := h

/-- A command queue that is no longer keeps the bounds. -/
theorem full_of_queue_le {c : Cmd} {s : State} (hf : s.Full) (hstore : c.store = s.cmd.store)
    (hqueue : c.queue.length ≤ s.cmd.queue.length) (htimed : c.timed.length ≤ s.cmd.timed.length) :
    State.Full { s with cmd := c } := by
  obtain ⟨h1, h2, h3, h45⟩ := hf
  exact ⟨by rw [hstore]; exact h1, Nat.le_trans hqueue h2, Nat.le_trans htimed h3, h45⟩

/-! ### Branches -/

theorem State.Full.ite {c : Prop} [Decidable c] {a b : State} (ha : a.Full) (hb : b.Full) : State.Full (if c then a else b) := by
  split
  · exact ha
  · exact hb

theorem NextFull.next {t : State} (h : t.Full) : NextFull (.next t) := ⟨t, rfl, h⟩

theorem NextFull.full {r : R} {t : State} (h : NextFull r) (e : r = .next t) : t.Full := by
  obtain ⟨u, hu, hfull⟩ := h
  rw [hu] at e
  cases e
  exact hfull

theorem NextFull.ite {c : Prop} [Decidable c] {a b : R} (ha : NextFull a) (hb : NextFull b) :
    NextFull (if c then a else b) := by
  split
  · exact ha
  · exact hb

theorem raise_ite_full {c : Prop} [Decidable c] {code object index detail} {s : State} (hf : s.Full) :
    State.Full (if c then raise code object index detail s else s) := .ite (raise_full _ _ _ _ _ hf) hf

/-! ### The bodies of opcodes -/

section
variable {s : State} (hf : s.Full)
include hf

theorem landLive_full (op h p check) {now : State → State} (hn : (now s).Full) :
    (ansState (landLive op h p check now s)).Full := by
  unfold landLive
  simp [hf, hn]

theorem landingRamped_full (op h p check) : (ansState (landingRamped op h p check s)).Full := by
  unfold landingRamped
  simp [hf]

theorem coefPart_full (pour k p old) : (ansState (coefPart pour k p old s)).Full := by
  have hsets := fun x y => noteLoad_full pour k x _ (storeSet_full pour k y s hf)
  unfold coefPart
  simp [hf, hsets]

theorem stageBegin_full (h p) : (ansState (stageBegin h p s)).Full := by
  unfold stageBegin
  simp [hf, full_mk]

theorem stageEdges_full (h p) : (ansState (stageEdges h p s)).Full := by
  unfold stageEdges
  simp [hf, full_mk]

theorem stageGroup_full (h p) : (ansState (stageGroup h p s)).Full := by
  unfold stageGroup
  simp [hf, full_mk]

theorem stageEnd_full : (ansState (stageEnd s)).Full := by
  unfold stageEnd
  dsimp only
  (repeat' split) <;> simp [hf, full_mk]

theorem coopEnd_full (k l) : (ansState (coopEnd k l s)).Full := by
  have hins := fun v => installCore_full k l.data v s hf
  unfold coopEnd
  (repeat' split) <;> simp [hf, hins]

theorem seqTrigger_full (m pair) : (ansState (seqTrigger m pair s)).Full := by
  unfold seqTrigger
  split <;> simp [hf, full_mk]

theorem readWords_full (rq n a) : (readWords rq n a s).2.2.Full := by
  induction n generalizing a s with
  | zero => exact hf
  | succ n ih => exact ih (readWord_full rq a s hf) _

theorem regWriteBody_full (h p) : (ansState (regWriteBody h p s)).Full := by
  unfold regWriteBody
  refine guardSt_full _ _ _ hf ?_
  split
  · exact prepare_full _ _ _ _ (setWriteShadow_full _ _ _ hf)
  · exact hf

end

section
variable {s : State} (hf : s.Full)
include hf

/-! ### Commands: SPI frames and the command queue -/

theorem execCommandPreemption_full (dt) : NextFull (execCommandPreemption dt s) := by
  have hu := advance_full dt s hf
  dsimp only [execCommandPreemption]
  (repeat' split) <;> refine .next ?_
  · exact select_full _ hu
  · exact hu
  · exact full_of_queue_le hu rfl (erase_length_le _ _) (Nat.le_refl _)

theorem execCommandAgeing_full (dt) : NextFull (execCommandAgeing dt s) :=
  .next (full_of_queue_le (advance_full dt s hf) (select_store _)
    (Nat.le_trans (select_queue _) (Nat.le_of_eq (List.length_map _))) (Nat.le_of_eq (congrArg List.length (select_timed _))))

/-! ### Commands: clocks and time -/

theorem execPtpSync_full (dt x m) : NextFull (execPtpSync dt x m s) := by
  have hu := countRx_full (linkPortOf x) _ (advance_full dt s hf)
  have hservo := fun off c => servo_full off m _ (show State.Full { countRx (linkPortOf x) (advance dt s) with clk := c } from hu)
  unfold execPtpSync
  exact .ite (.next hu)
    (.ite (.next (updatePtpQual_full _ (.ite (release_full _ _ _ _ (.ite (hservo _ _) hu))
      (postEvent_full _ _ (release_full _ _ _ _ (.ite (hservo _ _) hu))))))
    (.ite (.next (ptpLose_full _ _ _ (.ite (hservo _ _) hu))) (.next (.ite (hservo _ _) hu))))

theorem execAnnounceReceiptTimeout_full (dt x) : NextFull (execAnnounceReceiptTimeout dt x s) := by
  have hu := advance_full dt s hf
  unfold execAnnounceReceiptTimeout
  exact .ite (.next hu) (.next (runBmca_full _ (.ite (ptpLose_full _ _ _ (ptpMonitorLost_full _ _ hu)) hu)))

theorem execWclkInEdge_full (dt period) : NextFull (execWclkInEdge dt period s) := by
  have hu := advance_full dt s hf
  unfold execWclkInEdge
  extract_lets u
  have hedge := monitorEdge_full 8 (fsNow u * 1000 / u.cfg.clock.wclk.inDiv) period false u hu
  generalize monitorEdge 8 (fsNow u * 1000 / u.cfg.clock.wclk.inDiv) period false u = e at hedge ⊢
  exact .ite (.next hu) (.ite (.next (raise_full _ _ _ _ _ (monitorLose_full _ _ _ (raise_ite_full hedge))))
    (.ite (.next (release_full _ _ _ _ (raise_ite_full hedge))) (.next (raise_ite_full hedge))))

/-! ### Commands: filter chains -/

theorem execFiltSyncClear_full (dt) : NextFull (execFiltSyncClear dt s) := by
  have hu := advance_full dt s hf
  dsimp only [execFiltSyncClear]
  split <;> simp [hu, full_mk]

theorem execFiltPhase_full (h p) : NextFull (execFiltPhase h p s) :=
  opcodeN_full _ _ _ _ _ _ (fun _ hu => guardSt_full _ _ _ hu (foldl_full (fun _ _ ha => storeChain_full _ _ _ _ ha) _ _ hu)) hf

theorem execFiltCoefLoad_full (h p) : NextFull (execFiltCoefLoad h p s) :=
  opcode_full _ _ _ _ _ (fun u hu => by
    have hnone := fun pour k => noteLoad_full pour k none _ (storeSet_full pour k none u hu)
    refine guardSt_full _ _ _ hu ?_
    dsimp only
    (repeat' split) <;> simp [hu, hnone, coefPart_full]) hf

/-! ### Commands: outputs -/

theorem execRangeChangeComplete_full (dt n) : NextFull (execRangeChangeComplete dt n s) := by
  have hu := advance_full dt s hf
  dsimp only [execRangeChangeComplete]
  split
  · exact .next hu
  · exact .ite (.next hu) (.next (holdRefresh_full _ _ _ (setSafe_full _ _ _ (setHoldRt_full _ _ _ hu))))

theorem execSpeakerShortInOperation_full (dt n) : NextFull (execSpeakerShortInOperation dt n s) := by
  have hu := advance_full dt s hf
  exact .ite (.next hu) (.next (raise_full _ _ _ _ _ (setOutRt_full _ _ _ (shutGate_full _ _ (setSpkRt_full _ _ _ hu)))))

theorem execOutputThermalRelease_full (dt stage) : NextFull (execOutputThermalRelease dt stage s) := by
  have hu := advance_full dt s hf
  dsimp only [execOutputThermalRelease]
  split <;> simp [hu]

/-! ### Commands: serial audio ports -/

theorem execTdmFrameReceived_full (dt p f) : NextFull (execTdmFrameReceived dt p f s) := by
  have hu := advance_full dt s hf
  have hedge := fun bad => inputEdge_full p f.period bad _ hu
  have hport := fun bad y => portEdge_full p.val ((advance dt s).sysCnt - f.period) _ (setPort_full p y _ (hedge bad))
  exact .ite (.next hu) (.next (setPort_full _ _ _ (takeTx_full _ _ (.ite (placeFrame_full _ _ _ (hport _ _)) (hport _ _)))))

theorem execAes3FrameReceived_full (dt x f) : NextFull (execAes3FrameReceived dt x f s) := by
  have hu := advance_full dt s hf
  have hedge := inputEdge_full (4 + x.val) f.period false _ hu
  have hport := fun y => portEdge_full (4 + x.val) ((advance dt s).sysCnt - f.period) _ (setPort_full (4 + x.val) y _ hedge)
  exact .ite (.next hu) (.next (.ite (placeFrame_full _ _ _ (raise_ite_full (raise_ite_full (hport _))))
    (raise_ite_full (raise_ite_full (hport _)))))

theorem execAes3TransmitFrame_full (dt x) : NextFull (execAes3TransmitFrame dt x s) := by
  have hu := advance_full dt s hf
  exact .ite (.next hu) (.ite (.next hu) (.next (setPort_full _ _ _ (takeTx_full _ _ (setPort_full _ _ _ hu)))))

/-! ### Commands: network links -/

theorem execLinkUp_full (dt l fast) : NextFull (execLinkUp dt l fast s) := by
  have hu := advance_full dt s hf
  have hlink := fun x => postEvent_full 5 _ (release_full .linkDown 0 (linkIdx l) _ (setLink_full l x _ hu))
  refine .ite (.next hu) (.next ?_)
  cases l
  · exact resuspend_full _ _ (hlink _)
  · exact resuspend_full _ _ (hlink _)
  · exact hlink _

theorem execIgmpQuery_full (dt l v2 group) : NextFull (execIgmpQuery dt l v2 group s) := by
  have hu := advance_full dt s hf
  have hrx := countRx_full l _ hu
  refine .ite (.next hu) (.next (foldl_full (fun a i ha => ?_) _ _ (.ite (setLink_full _ _ _ hrx) hrx)))
  split
  · exact .ite (igmpSend_full _ _ _ _ ha) ha
  · exact ha

theorem execSwitchForward_full (dt l f) : NextFull (execSwitchForward dt l f s) := by
  have hu := advance_full dt s hf
  dsimp only [execSwitchForward]
  (repeat' split) <;> simp +contextual [hu, full_mk]

/-! ### Commands: streams -/

theorem execMediaPacketReceived_full (dt m) : NextFull (execMediaPacketReceived dt m s) := by
  have hu := advance_full dt s hf
  exact .ite (.next hu) (.next (foldl_full (fun _ _ ha => .ite (.ite (takePacket_full _ _ _ ha) (setRxSlot_full _ _ _ ha)) ha)
    _ _ (countRx_full _ _ hu)))

theorem execStreamPacketSend_full (dt slot) : NextFull (execStreamPacketSend dt slot s) := by
  have hu := advance_full dt s hf
  dsimp only [execStreamPacketSend]
  refine .ite (.next hu) ?_
  split
  · exact .next hu
  · have hsend := fun x i m payload => setTxSlot_full i x _ (foldl_full (g := sendMedia i m payload)
      (fun _ _ ha => sendMedia_full _ _ _ _ _ ha) [false, true] _ hu)
    exact .next (.ite (txEnd_full _ _ (hsend _ _ _ _)) (.ite (postEvent_full _ _ (hsend _ _ _ _)) (hsend _ _ _ _)))

theorem execStreamLost_full (dt slot) : NextFull (execStreamLost dt slot s) := by
  have hu := advance_full dt s hf
  exact .ite (.next hu) (.next (postEvent_full _ _ (raise_full _ _ _ _ _ (setRxSlot_full _ _ _ hu))))

/-! ### Commands: rates and Decant -/

theorem execDecantRelock_full (dt t rateMhz) : NextFull (execDecantRelock dt t rateMhz s) := by
  have hu := advance_full dt s hf
  dsimp only [execDecantRelock]
  (repeat' split) <;> simp [hu, full_mk]

theorem execClockLost_full (dt c reason) : NextFull (execClockLost dt c reason s) := by
  have hu := advance_full dt s hf
  dsimp only [execClockLost]
  (repeat' split) <;> simp [hu, full_mk]

theorem execReferenceQualified_full (dt entry) : NextFull (execReferenceQualified dt entry s) := by
  have hu := advance_full dt s hf
  dsimp only [execReferenceQualified]
  split <;> simp [hu]

/-! ### Commands: the routing graph -/

theorem execGraphStage_full (h p) : NextFull (execGraphStage h p s) :=
  opcode_full _ _ _ _ _ (fun _ hu => by
    split
    · exact hu
    · split
      · exact stageBegin_full hu h p
      · exact stageEdges_full hu h p
      · exact stageGroup_full hu h p
      · exact guardSt_full _ _ _ hu (stageEnd_full hu)
      · exact hu) hf

theorem execGraphCommit_full (h p) : NextFull (execGraphCommit h p s) :=
  opcode_full _ _ _ _ _ (fun u hu => by
    have hland := landing_full .graphCommit h p (fun _ => checkGraphCommit h p u) u hu
    have htrig := graphTrigger_full (captureStage h u).2.2 u hu
    dsimp only
    split
    · split <;> rename_i e <;> rw [e] at hland
      · exact emptyStage_full _ hland
      · exact emptyStage_full _ hland
      · exact .ite (discardRefused_full _ _ _ hland) hland
    · split
      · exact discardRefused_full _ _ _ hu
      · split <;> rename_i e <;> rw [e] at htrig
        · exact emptyStage_full _ htrig
        · exact htrig) hf

theorem execRouteSet_full (h p) : NextFull (execRouteSet h p s) :=
  opcode_full _ _ _ _ _ (fun u hu => by
    have hnote := noteRoute_full h p u hu
    have htrig := graphTrigger_full (routeCapture h p u).2.2 u hu
    dsimp only
    split
    · exact landing_full _ _ _ _ _ (.ite hu hnote)
    · split
      · exact countOverrun_full _ _ hnote
      · split <;> rename_i e <;> rw [e] at htrig <;> exact htrig) hf

theorem execPendingGraphTrigger_full (dt) : NextFull (execPendingGraphTrigger dt s) := by
  have hu := advance_full dt s hf
  dsimp only [execPendingGraphTrigger]
  split <;> simp [hu, full_mk]

theorem execGraphQuery_full (h p) : NextFull (execGraphQuery h p s) :=
  opcodeN_full _ _ _ _ _ _ (fun _ hu => guardSt_full _ _ _ hu (by (repeat' split) <;> exact hu)) hf

/-! ### Commands: Cooper cores -/

theorem execCoopLoad_full (h p) : NextFull (execCoopLoad h p s) :=
  opcode_full _ _ _ _ _ (fun u hu => guardSt_full _ _ _ hu (by
    have hempty := fun k => emptyCore_full k u hu
    (repeat' split) <;> simp [hu, hempty, coopEnd_full])) hf

theorem execCoopBlockTrigger_full (dt core) : NextFull (execCoopBlockTrigger dt core s) := by
  have hu := advance_full dt s hf
  have hcore := fun c => setCore_full core c _ hu
  exact .ite (.next hu) (.ite (.next (hcore _)) (.ite (.next (stopCore_full _ _ (hcore _)))
    (.next (boundaryTrigger_full _ _ _ (boundaryPresent_full _ _ _ (hcore _))))))

theorem execCoopOverrun_full (dt core) : NextFull (execCoopOverrun dt core s) := by
  have hu := advance_full dt s hf
  dsimp only [execCoopOverrun]
  split <;> simp [hu]

theorem execCoopDebug_full (h p) : NextFull (execCoopDebug h p s) :=
  opcodeN_full _ _ _ _ _ _ (fun u hu => guardSt_full _ _ _ hu (by (repeat' split) <;> simp [hu])) hf

theorem execDmaDone_full (dt core ch) : NextFull (execDmaDone dt core ch s) := by
  have hu := advance_full dt s hf
  dsimp only [execDmaDone]
  split <;> simp [hu]

/-! ### Commands: headset ports -/

theorem execHsVerdict_full (dt n m) : NextFull (execHsVerdict dt n m s) := by
  have hu := advance_full dt s hf
  have hport := fun x => setHs_full n x _ hu
  exact .ite (.next hu) (.ite (.next (hsEnd_full _ _ (hport _))) (.next (hsEnd_full _ _
    (.ite (hsEvent_full _ _ (raise_full _ _ _ _ _ (hport _))) (hsEvent_full _ _ (release_full _ _ _ _ (hport _)))))))

theorem execHsRemoval_full (dt n) : NextFull (execHsRemoval dt n s) := by
  have hu := advance_full dt s hf
  have hgone := fun o x => release_full .hsFault o 0 _ (setHs_full n x _ (buttonUp_full n (advance dt s).sysCnt _ hu))
  exact .ite (.next hu) (.next (hsEvent_full _ _ (.ite (hgone _ _) (hsEmpty_full _ _ (hgone _ _)))))

theorem execHsSideAtLimit_full (dt n right) : NextFull (execHsSideAtLimit dt n right s) := by
  have hu := advance_full dt s hf
  exact .ite (.next hu) (.next (hsEvent_full _ _ (raise_full _ _ _ _ _ (clampSoon_full _ _ (setHs_full _ _ _ hu)))))

theorem execButtonPress_full (dt n micUv ago) : NextFull (execButtonPress dt n micUv ago s) := by
  have hu := advance_full dt s hf
  exact .ite (.next hu) (.next (hsEvent_full _ _ (setHs_full _ _ _ (buttonUp_full _ _ _ hu))))

/-! ### Commands: inputs and Tasters -/

theorem execTasterVisitStart_full (dt t) : NextFull (execTasterVisitStart dt t s) := by
  have hu := advance_full dt s hf
  dsimp only [execTasterVisitStart]
  (repeat' split) <;> simp [hu]

theorem execTasterSubstituted_full (dt) : NextFull (execTasterSubstituted dt s) := by
  have hu := advance_full dt s hf
  dsimp only [execTasterSubstituted]
  split <;> simp [hu, full_mk]

theorem execTasterSubstitute_full (h p) : NextFull (execTasterSubstitute h p s) :=
  opcodeN_full _ _ _ _ _ _ (fun u hu => guardSt_full _ _ _ hu (by
    have halone := fun t x => setTaster_full t x u hu
    (repeat' split) <;> simp [hu, halone, full_mk])) hf

theorem execTasterSettleEnd_full (dt t) : NextFull (execTasterSettleEnd dt t s) := by
  have hu := advance_full dt s hf
  dsimp only [execTasterSettleEnd]
  (repeat' split) <;> simp [hu]

theorem execTasterWindowEnd_full (dt t m other between) : NextFull (execTasterWindowEnd dt t m other between s) := by
  have hu := advance_full dt s hf
  dsimp only [execTasterWindowEnd]
  (repeat' split) <;> simp [hu]

theorem execMatchLimit_full (dt ch) : NextFull (execMatchLimit dt ch s) := by
  have hu := advance_full dt s hf
  have hlimit := fun x => detect_full .convImplausible (ainHandle ch) 0 0xFF05 _ (setChanIn_full ch x _ hu)
  exact .ite (.next hu) (.ite (.next (.ite (goSubst_full _ _ _ (hlimit _)) (hlimit _))) (.next (failAction_full _ _ (hlimit _))))

theorem execTasterRun_full (h p) : NextFull (execTasterRun h p s) :=
  opcodeN_full _ _ _ _ _ _ (fun u hu => by split <;> simp [hu, seqTrigger_full]) hf

theorem execInputExpert_full (h p) : NextFull (execInputExpert h p s) :=
  opcodeN_full _ _ _ _ _ _ (fun u hu => guardSt_full _ _ _ hu (by (repeat' split) <;> simp [hu, seqTrigger_full])) hf

/-! ### Commands: corks -/

theorem execCorkTimeout_full (dt o) : NextFull (execCorkTimeout dt o s) := by
  have hu := advance_full dt s hf
  dsimp only [execCorkTimeout]
  split <;> simp [hu, full_mk]

/-! ### Commands: Cooper instructions apart from those that run through `coopExec` -/

theorem execBlkdone_full (core) : NextFull (execBlkdone core s) := by
  simp [execBlkdone, hf]

theorem execIllegalInstruction_full (core) : NextFull (execIllegalInstruction core s) := by
  simp [execIllegalInstruction, hf]

/-! ### Commands: the device group -/

theorem execNop_full (h p) : NextFull (execNop h p s) :=
  opcode_full _ _ _ _ _ (fun u hu => by
    have hkept := fun keep => full_of_queue_le (c := { u.cmd with timed := u.cmd.timed.filter keep }) hu rfl
      (Nat.le_refl _) (List.length_filter_le _ _)
    (repeat' split)
    · exact hu
    · exact hu
    · exact hu
    · exact hkept _) hf

theorem execFwData_full (h p) : NextFull (execFwData h p s) :=
  opcode_full _ _ _ _ _ (fun _ hu => by (repeat' split) <;> simp [hu, full_mk]) hf

theorem execFwEnd_full (h p) : NextFull (execFwEnd h p s) :=
  opcodeN_full _ _ _ _ _ _ (fun _ hu => by (repeat' split) <;> simp [hu, full_mk]) hf

theorem execExpertOpen_full (h p) : NextFull (execExpertOpen h p s) :=
  opcodeN_full _ _ _ _ _ _ (fun _ hu => by (repeat' split) <;> simp [hu, full_mk]) hf

/-! ### Commands: modes and the expert session -/

theorem execExpertClose_full (h p) : NextFull (execExpertClose h p s) :=
  opcodeN_full _ _ _ _ _ _ (fun _ hu => by split <;> simp [hu]) hf

theorem execExpertIdleTimeout_full (dt) : NextFull (execExpertIdleTimeout dt s) := by
  have hu := advance_full dt s hf
  dsimp only [execExpertIdleTimeout]
  split <;> simp [hu]

/-! ### Commands: vintages -/

theorem execAutoCommit_full (dt) : NextFull (execAutoCommit dt s) := by
  have hu := advance_full dt s hf
  unfold execAutoCommit
  extract_lets u due _ s1
  have hs1 : s1.Full := vint_full _ _ hu
  exact .ite (.next hu) (.ite (.next hs1) (.ite (.next (dropCommit_full _ hs1))
    (.ite (.next (vint_full _ _ hs1)) (.next (vint_full _ _ hs1)))))

theorem execVintCommitComplete_full (dt rb durationUs) : NextFull (execVintCommitComplete dt rb durationUs s) := by
  have hu := advance_full dt s hf
  dsimp only [execVintCommitComplete]
  split <;> simp [hu, full_mk]

/-! ### Commands: power -/

theorem execAuxFault_full (dt r) : NextFull (execAuxFault dt r s) := by
  have hu := advance_full dt s hf
  dsimp only [execAuxFault]
  (repeat' split) <;> simp [hu, full_mk]

theorem execAuxRetry_full (dt r ok) : NextFull (execAuxRetry dt r ok s) := by
  have hu := advance_full dt s hf
  dsimp only [execAuxRetry]
  split <;> simp [hu, full_mk]

theorem execGovernorPeriod_full (dt m) : NextFull (execGovernorPeriod dt m s) := by
  have hu := advance_full dt s hf
  exact .ite (.next hu) (.next (sendLldp_full _ _ (sendLldp_full _ _ (noteFlags_full _ (portsBack_full _
    (governStep_full _ (takeMeas_full _ _ hu)))))))

theorem execPowerBudgetRelease_full (dt) : NextFull (execPowerBudgetRelease dt s) := by
  have hu := advance_full dt s hf
  dsimp only [execPowerBudgetRelease]
  split <;> simp [hu]

/-! ### Commands: faults and temperature -/

theorem execFaultAck_full (h p) : NextFull (execFaultAck h p s) :=
  opcode_full _ _ _ _ _ (fun u hu => by
    obtain ⟨hstore, hqueue, htimed, hlog, hfaults⟩ := id hu
    have hleft := fun l => queueFits_sublist (ackAll_sublist l u.flt.queue) hfaults
    dsimp only
    (repeat' split)
    case isFalse => exact ⟨hstore, hqueue, htimed, hlog, hleft _⟩
    all_goals exact hu) hf

theorem execFaultLogWrite_full (dt) : NextFull (execFaultLogWrite dt s) := by
  have hu := advance_full dt s hf
  dsimp only [execFaultLogWrite]
  split
  · exact .next hu
  · obtain ⟨hstore, hqueue, htimed, -, hfaults⟩ := hu
    exact .next ⟨hstore, hqueue, htimed, List.length_take_le _ _, hfaults⟩

/-! ### Commands: registers -/

theorem execRegRead_full (h p) : NextFull (execRegRead h p s) :=
  opcodeN_full _ _ _ _ _ _ (fun _ hu => guardSt_full _ _ _ hu (readWords_full hu _ _ _)) hf

theorem execRegWrite_full (h p) : NextFull (execRegWrite h p s) :=
  opcode_full _ _ _ _ _ (fun _ hu => regWriteBody_full hu h p) hf

/-! ### Commands: warm resets -/

theorem execResetNHigh_full (dt holdN) : NextFull (execResetNHigh dt holdN s) := by
  have hu := settleReset_full _ (advance_full dt s hf)
  dsimp only [execResetNHigh]
  (repeat' split) <;> simp [hu, full_mk]

theorem execDevResetStart_full (dt holdN) : NextFull (execDevResetStart dt holdN s) := by
  have hu := settleReset_full _ (advance_full dt s hf)
  dsimp only [execDevResetStart]
  split <;> simp [hu]

/-! ### Commands: frame ticks -/

theorem execDeferredCommandLands_full (dt) : NextFull (execDeferredCommandLands dt s) := by
  have hu := settleReset_full _ (advance_full dt s hf)
  dsimp only [execDeferredCommandLands]
  split <;> simp [hu]

theorem execFrameTick_full (dt i) : NextFull (execFrameTick dt i s) := by
  have hu := settleReset_full _ (advance_full dt s hf)
  have hbegun := fun (c : Prop) [Decidable c] => State.Full.ite (c := c) hu (beginTick_full _ hu)
  exact .ite (.next hu) (.next (.ite (lastFrame_full _ _ (hbegun _)) (frameEnd_full _ (frameIn_full _ _ (hbegun _)))))

theorem execMeterRead_full (h p) : NextFull (execMeterRead h p s) :=
  opcode_full _ _ _ _ _ (fun _ hu => guardSt_full _ _ _ hu (.ite (foldl_full (fun _ _ => clearMeter_full _ _) _ _ hu) hu)) hf

/-! ### Commands: sessions and keys -/

theorem execSessionTimeout_full (dt session) : NextFull (execSessionTimeout dt session s) := by
  have hu := advance_full dt s hf
  dsimp only [execSessionTimeout]
  split <;> simp [hu]

/-! ### Commands: start, service and lifecycle -/

theorem execBootImageVerified_full (dt) : NextFull (execBootImageVerified dt s) := by
  have hu := settleReset_full _ (advance_full dt s hf)
  dsimp only [execBootImageVerified]
  (repeat' split) <;> simp [hu, full_mk]

theorem execRestore_full (dt) : NextFull (execRestore dt s) := by
  have hu := settleReset_full _ (advance_full dt s hf)
  have hgraph := restoreGraph_full _ (restoreClocks_full _ (applySlot_full _ hu))
  have hpolicy := fun a b => policyLldp_full a b .b _ (policyLldp_full a b .a _ hgraph)
  have hinputs := fun a b => restoreTasters_full _ (restoreChains_full _ (restoreMix_full _ (hpolicy a b)))
  have houtputs := fun a b => restoreOutputs_full _ (foldl_full (fun s c h => phApply_full s c h) (List.range 32) _ (hinputs a b))
  have hcores := fun a b => foldl_full (fun s k h => restoreCore_full s k h) (List.range 4) _ (houtputs a b)
  exact .ite (.next hu) (.next (holdRefreshAll_full _ _ (enterMode_full _ _ (hcores _ _))))

theorem execServiceEntry_full (dt) : NextFull (execServiceEntry dt s) := by
  have hu := advance_full dt s hf
  dsimp only [execServiceEntry]
  split
  · exact .next hu
  · exact .ite (.next hu) (.next (startRunning_full _ (holdRefreshAll_full _ _ (enterMode_full _ _ (closeExpert_full _ hu)))))

theorem execRecoveryEntry_full (dt) : NextFull (execRecoveryEntry dt s) := by
  have hu := advance_full dt s hf
  dsimp only [execRecoveryEntry]
  split
  · exact .next hu
  · exact .ite (.next hu) (.next (holdRefreshAll_full _ _ (enterMode_full _ _ (cancelTriggers_full _ (dropWaiting_full _ hu)))))

theorem execLifeTransitionStart_full (dt holdN) : NextFull (execLifeTransitionStart dt holdN s) := by
  have hu := settleReset_full _ (advance_full dt s hf)
  dsimp only [execLifeTransitionStart]
  split <;> simp [hu, full_mk]

/-! ### Commands: sensors and supply voltages -/

theorem execThermalSensorRead_full (dt t) : NextFull (execThermalSensorRead dt t s) := by
  have hu := settleReset_full _ (advance_full dt s hf)
  have hwarn := warnNow_full _ (takeTemps_full t _ hu)
  exact .ite (.next hu) (.next (.ite (resetHot_full _ hwarn) (tripNow_full _ hwarn)))

theorem execAvsStep_full (dt slackBlend slackCoop monitorBlend monitorCoop) :
    NextFull (execAvsStep dt slackBlend slackCoop monitorBlend monitorCoop s) := by
  have hu := settleReset_full _ (advance_full dt s hf)
  have hrail := fun r mv slack m mv' a (ha : State.Full a) => avsMargin_full r mv slack m _ (setRail_full r mv' slack a ha)
  exact .ite (.next hu) (.next (hrail _ _ _ _ _ _ (hrail _ _ _ _ _ _ hu)))

theorem execAvsMarginRelease_full (dt r) : NextFull (execAvsMarginRelease dt r s) := by
  have hu := settleReset_full _ (advance_full dt s hf)
  have hreleased := release_full .avsMargin 0 (railIdx r) _ hu
  exact .ite (.next hu) (.ite (.next (foldl_full (fun s k h => restartCore_full _ s k h) _ _ hreleased)) (.next hreleased))

theorem execTestSelfComplete_full (dt durationUs) : NextFull (execTestSelfComplete dt durationUs s) := by
  have hu := advance_full dt s hf
  dsimp only [execTestSelfComplete]
  split <;> simp [hu, full_mk]

theorem execAoReady_full (dt startupHoldN) : NextFull (execAoReady dt startupHoldN s) := by
  unfold execAoReady
  extract_lets u _ s1 s2
  have hu : u.Full := advance_full dt s hf
  have hs2 : s2.Full := holdRefreshAll_full _ _ (readSafe_full _ (enterMode_full _ s1 hu))
  clear_value s2
  exact .ite (.next hu) (.next (.ite (beginStart_full _ _ hs2) hs2))

theorem execHoldUpExhausted_full (dt) : NextFull (execHoldUpExhausted dt s) := by
  have hu := advance_full dt s hf
  exact .ite (.next hu) (.next (regain_full _ _ (regain_full _ _ (powerOff_full _ hu))))

theorem execPortSupplyStopped_full (dt a b) : NextFull (execPortSupplyStopped dt a b s) := by
  have hstop := portStops_full .b b _ (portStops_full .a a _ (advance_full dt s hf))
  exact .ite (.next hstop) (.ite (.next (notePads_full _ (raise_ite_full (raise_ite_full hstop))))
    (.ite (.next (powerLoss_full _ hstop)) (.ite (.next (powerOff_full _ hstop)) (.next hstop))))

/-- An instruction of a Cooper core touches none of the lists but the fault queue, through its trap. -/
theorem cooper_full {c : Instr} {k : Fin 4} {op : CoopOp} (hc : Safety.coopOf c = some (k, op)) : NextFull (exec c s) := by
  unfold Safety.coopOf at hc
  split at hc <;> cases hc
  case h_25 => exact execBlkdone_full hf _
  all_goals
    unfold exec
    exact coopExec_full _ _ _ _ hf

/-- Every command answers a next state within the bounds. The packets whose fields land at a tick, the packets whose bodies only
hand the state on through operations with a law of their own, and the events that do so share an arm each. -/
theorem exec_full (c : Instr) : NextFull (exec c s) := by
  have hu := fun dt => advance_full dt s hf
  have hsettled := fun dt => settleReset_full _ (advance_full dt s hf)
  cases c with
  | nop => exact execNop_full hf ..
  | fwData => exact execFwData_full hf ..
  | fwEnd => exact execFwEnd_full hf ..
  | graphStage => exact execGraphStage_full hf ..
  | graphCommit => exact execGraphCommit_full hf ..
  | graphQuery => exact execGraphQuery_full hf ..
  | routeSet => exact execRouteSet_full hf ..
  | meterRead => exact execMeterRead_full hf ..
  | tasterRun => exact execTasterRun_full hf ..
  | tasterSubstitute => exact execTasterSubstitute_full hf ..
  | inputExpert => exact execInputExpert_full hf ..
  | filtCoefLoad => exact execFiltCoefLoad_full hf ..
  | filtPhase => exact execFiltPhase_full hf ..
  | coopLoad => exact execCoopLoad_full hf ..
  | coopDebug => exact execCoopDebug_full hf ..
  | faultAck => exact execFaultAck_full hf ..
  | expertOpen => exact execExpertOpen_full hf ..
  | expertClose => exact execExpertClose_full hf ..
  | regRead => exact execRegRead_full hf ..
  | regWrite => exact execRegWrite_full hf ..
  | commandPreemption => exact execCommandPreemption_full hf ..
  | commandAgeing => exact execCommandAgeing_full hf ..
  | sessionTimeout => exact execSessionTimeout_full hf ..
  | expertIdleTimeout => exact execExpertIdleTimeout_full hf ..
  | frameTick => exact execFrameTick_full hf ..
  | corkTimeout => exact execCorkTimeout_full hf ..
  | deferredCommandLands => exact execDeferredCommandLands_full hf ..
  | aoReady => exact execAoReady_full hf ..
  | bootImageVerified => exact execBootImageVerified_full hf ..
  | restore => exact execRestore_full hf ..
  | serviceEntry => exact execServiceEntry_full hf ..
  | portSupplyStopped => exact execPortSupplyStopped_full hf ..
  | holdUpExhausted => exact execHoldUpExhausted_full hf ..
  | governorPeriod => exact execGovernorPeriod_full hf ..
  | powerBudgetRelease => exact execPowerBudgetRelease_full hf ..
  | auxFault => exact execAuxFault_full hf ..
  | auxRetry => exact execAuxRetry_full hf ..
  | resetNHigh => exact execResetNHigh_full hf ..
  | devResetStart => exact execDevResetStart_full hf ..
  | lifeTransitionStart => exact execLifeTransitionStart_full hf ..
  | vintCommitComplete => exact execVintCommitComplete_full hf ..
  | autoCommit => exact execAutoCommit_full hf ..
  | thermalSensorRead => exact execThermalSensorRead_full hf ..
  | avsStep => exact execAvsStep_full hf ..
  | avsMarginRelease => exact execAvsMarginRelease_full hf ..
  | recoveryEntry => exact execRecoveryEntry_full hf ..
  | faultLogWrite => exact execFaultLogWrite_full hf ..
  | ptpSync => exact execPtpSync_full hf ..
  | referenceQualified => exact execReferenceQualified_full hf ..
  | clockLost => exact execClockLost_full hf ..
  | decantRelock => exact execDecantRelock_full hf ..
  | matchLimit => exact execMatchLimit_full hf ..
  | tasterVisitStart => exact execTasterVisitStart_full hf ..
  | tasterSettleEnd => exact execTasterSettleEnd_full hf ..
  | tasterWindowEnd => exact execTasterWindowEnd_full hf ..
  | tasterSubstituted => exact execTasterSubstituted_full hf ..
  | filtSyncClear => exact execFiltSyncClear_full hf ..
  | rangeChangeComplete => exact execRangeChangeComplete_full hf ..
  | speakerShortInOperation => exact execSpeakerShortInOperation_full hf ..
  | outputThermalRelease => exact execOutputThermalRelease_full hf ..
  | hsVerdict => exact execHsVerdict_full hf ..
  | hsRemoval => exact execHsRemoval_full hf ..
  | buttonPress => exact execButtonPress_full hf ..
  | pendingGraphTrigger => exact execPendingGraphTrigger_full hf ..
  | tdmFrameReceived => exact execTdmFrameReceived_full hf ..
  | aes3FrameReceived => exact execAes3FrameReceived_full hf ..
  | linkUp => exact execLinkUp_full hf ..
  | mediaPacketReceived => exact execMediaPacketReceived_full hf ..
  | streamPacketSend => exact execStreamPacketSend_full hf ..
  | streamLost => exact execStreamLost_full hf ..
  | igmpQuery => exact execIgmpQuery_full hf ..
  | switchForward => exact execSwitchForward_full hf ..
  | coopBlockTrigger => exact execCoopBlockTrigger_full hf ..
  | coopOverrun => exact execCoopOverrun_full hf ..
  | dmaDone => exact execDmaDone_full hf ..
  | blkdone => exact execBlkdone_full hf ..
  | announceReceiptTimeout => exact execAnnounceReceiptTimeout_full hf ..
  | wclkInEdge => exact execWclkInEdge_full hf ..
  | aes3TransmitFrame => exact execAes3TransmitFrame_full hf ..
  | hsSideAtLimit => exact execHsSideAtLimit_full hf ..
  | illegalInstruction => exact execIllegalInstruction_full hf ..
  | testSelfComplete => exact execTestSelfComplete_full hf ..
  | eventMask | devMode | vintPolicy | boardDescribe | powerPolicy =>
    exact opcodeN_full _ _ _ _ _ _ (fun _ => landing_full _ _ _ _ _) hf
  | muteSet | sinkSet | genSet | override | overrideConfig | filtRun | filtConfig | outputSet | clearConfig
  | holdSet | speakerSet | aesCsSet | portStart | portStop | streamEnable | coopStart | coopStop =>
    exact opcode_full _ _ _ _ _ (fun _ => landing_full _ _ _ _ _) hf
  | gainSet | hsSet | inputSet => exact opcode_full _ _ _ _ _ (fun _ hu => landingRamped_full hu ..) hf
  | clockRefs | rampDefaults | tasterConfig =>
    exact opcodeN_full _ _ _ _ _ _ (fun _ hu => landLive_full hu _ _ _ _ hu) hf
  | ptpSet => exact opcodeN_full _ _ _ _ _ _ (fun _ hu => landLive_full hu _ _ _ _ (ptpStopped_full _ _ hu)) hf
  | wclkSet => exact opcodeN_full _ _ _ _ _ _ (fun _ hu => landLive_full hu _ _ _ _ (wclkStopped_full _ _ hu)) hf
  | aesSet => exact opcodeN_full _ _ _ _ _ _ (fun _ hu => landLive_full hu _ _ _ _ (aesStopped_full _ _ hu)) hf
  | netSet => exact opcodeN_full _ _ _ _ _ _ (fun _ hu => landLive_full hu _ _ _ _ (netStopped_full _ _ hu)) hf
  | alignGroupSet => exact opcodeN_full _ _ _ _ _ _ (fun _ hu => landLive_full hu _ _ _ _ (alignStopped_full _ _ hu)) hf
  | netAuthSet => exact opcodeN_full _ _ _ _ _ _ (fun _ hu => landLive_full hu _ _ _ _ (keysEnabled_full _ _ hu)) hf
  | timeRead | clockExpert | filtStatus | filtExpert | holdSafeSet | outputStatus | outputExpert | tdmSet
  | aesCsRead | portStamp | portStatus | netStatus | streamRxSet | streamTxSet | streamStatus | decantSet
  | clockStatus | latencyQuery | graphAbort | fsSet | coopStatus | hsStatus | hsEvents | hsExpert
  | inputStatus | devInfo | devState | devRun | devReset | lifeState | fwBegin | fwSelect | testSelf
  | vintCommit | vintStatus | vintClear | powerStatus | faultRead | thermalStatus =>
    exact opcodeN_full _ _ _ _ _ _ (fun _ hu => by simp [hu, full_mk]) hf
  | filtSync | coopParam | testLoop | keyInstall | lifeAdvance =>
    exact opcode_full _ _ _ _ _ (fun _ hu => by simp [hu, full_mk]) hf
  | writeCmd | readReply | readStatus | eventNotice | ptpAnnounce | ptpDelayResponse | taiTimeout | pllLock
  | pllLockLost | pllBandwidthStep | phaseMoveComplete | refLostGraceEnd | sweepEnd | ovrNLow | ovrNHigh
  | gpioMuteInput | bulkRecordStored | filtStopComplete | filtReloadClear | settlingEnd | syncInEdge
  | captureComplete | clearNLow | clearNHigh | holdShort | holdShortRelease | outputShort | outputShortProbe
  | servoLimit | loadCheckVerdict | loadCheckRepeat | outputThermal | portStartComplete | portStopComplete
  | aesCsBlockComplete | linkDown | arpRequest | icmpEcho | hostnetBridgeFrame | fdbAgeOut | ptpMasterTransmit
  | ptpDelayRequest | streamReportRepeat | pathLost | clockResumed | rackComplete | dipBankSwitch
  | coopInitComplete | coopRunaway | coopRestart | coopRestartCountReset | hsPlugInsertion | hsXlrPoll
  | hsMeasurementCycle | hsFaultRetry | buttonLongPress | buttonRepeat | buttonRelease | phantomRampEnd
  | extPhantomDetect | phantomOvercurrent | phantomRetry | inputOver | matchSuspect | matchReturnComplete
  | fwEraseComplete | pendingCommitStart | powerApplied | inputPowerGood | powerUpDelayEnd | lldpAllocation
  | hupReady | shedRestore | thermalWarnRelease | thermalTripRelease | resetNLow | watchdogExpiry
  | timedCommandApply | commandDatagram | auxRailsInRegulation | leesPurgeComplete | thermalResetHoldEnd
  | avsNegativeSlack =>
    unfold exec
    simp [execWriteCmd, execReadReply, execReadStatus, execEventNotice, execPtpAnnounce, execPtpDelayResponse,
      execTaiTimeout, execPllLock, execPllLockLost, execPllBandwidthStep, execPhaseMoveComplete, execRefLostGraceEnd,
      execSweepEnd, execOvrNLow, execOvrNHigh, execGpioMuteInput, execBulkRecordStored, execFiltStopComplete,
      execFiltReloadClear, execSettlingEnd, execSyncInEdge, execCaptureComplete, execClearNLow, execClearNHigh,
      execHoldShort, execHoldShortRelease, execOutputShort, execOutputShortProbe, execServoLimit,
      execLoadCheckVerdict, execLoadCheckRepeat, execOutputThermal, execPortStartComplete, execPortStopComplete,
      execAesCsBlockComplete, execLinkDown, execArpRequest, execIcmpEcho, execHostnetBridgeFrame, execFdbAgeOut,
      execPtpMasterTransmit, execPtpDelayRequest, execStreamReportRepeat, execPathLost, execClockResumed,
      execRackComplete, execDipBankSwitch, execCoopInitComplete, execCoopRunaway, execCoopRestart,
      execCoopRestartCountReset, execHsPlugInsertion, execHsXlrPoll, execHsMeasurementCycle, execHsFaultRetry,
      execButtonLongPress, execButtonRepeat, execButtonRelease, execPhantomRampEnd, execExtPhantomDetect,
      execPhantomOvercurrent, execPhantomRetry, execInputOver, execMatchSuspect, execMatchReturnComplete,
      execFwEraseComplete, execPendingCommitStart, execPowerApplied, execInputPowerGood, execPowerUpDelayEnd,
      execLldpAllocation, execHupReady, execShedRestore, execThermalWarnRelease, execThermalTripRelease,
      execResetNLow, execWatchdogExpiry, execTimedCommandApply, execCommandDatagram, execAuxRailsInRegulation,
      execLeesPurgeComplete, execThermalResetHoldEnd, execAvsNegativeSlack, hu, hsettled, full_mk]
  | govTest | pathForce | clampTest | trackFreeze | forceType | loopback | phyLoop | breakpointSet
  | coopRegisterWrite | injectCode => exact execRegWrite_full hf ..
  | mac | msu | mpy | add | sub | and | or | xor | shl | asr | norm | rnd | sat | cmp | ld | ldd | st | br
  | call | ret | rep | repRegisterCount | endrep | wait | halt | acs | bexp =>
    exact cooper_full hf rfl

end

/-- Settles O7: the front of the queue is executed, and every command keeps the bounds. -/
theorem listsStayBounded : Obligations.ListsStayBounded := by
  unfold Obligations.ListsStayBounded
  intro s t hf ht
  unfold step at ht
  split at ht
  · cases ht
    exact hf
  · rename_i c rest _
    exact (exec_full (s := { s with pending := rest }) hf c).full ht

end Sys2Proof.Machine

/-! # Packets

A packet that is not executed, the form of a reply, and the order in which the control core selects (R130 to R132, R147, R152). -/

namespace Sys2Proof.Machine

open Sys2Proof.Safety

/-! ### A packet that is not executed -/

section
variable {op : Op} {h : Hdr} {p : Bytes} {body : State → Ans} {s : State}

/-- A packet that is not admitted is refused with the status of its check (R132). -/
theorem opcode_refused (ha : accepting (advance h.dt s) = true) (hq : isQueued op h p (advance h.dt s).cmd = false)
    (hst : (admission op h p (advance h.dt s)).1 ≠ .ok) : opcode op h p body s =
      .next (refuseAt (opCode op) h (admission op h p (advance h.dt s)).1 (admission op h p (advance h.dt s)).2) := by
  unfold opcode
  dsimp only
  rw [if_neg (by simp [ha]), if_neg (by simp [hq])]
  split
  · rename_i e
    rw [e] at hst
    exact absurd rfl hst
  · rename_i e
    rw [e]

/-- A packet that was admitted before or is admitted now is served where it stands in the queue (R146, R147). -/
theorem opcode_entered (ha : accepting (advance h.dt s) = true)
    (hq : isQueued op h p (advance h.dt s).cmd = true ∨ (admission op h p (advance h.dt s)).1 = .ok) :
    opcode op h p body s = .next (serve op h p body (entered op h p s)) := by
  unfold opcode entered
  cases hi : isQueued op h p (advance h.dt s).cmd with
  | true => simp [ha, hi]
  | false =>
    have hok := hq.resolve_left (by simp [hi])
    simp only [ha, hi, Bool.not_true, Bool.false_eq_true, if_false]
    split
    · rename_i e
      rw [e]
    · rename_i hne e
      rw [e] at hok
      exact absurd hok hne

/-- A packet that the control core has not selected waits (R147). -/
theorem serve_waits (hs : selected op h p (select s.cmd) = false) : serve op h p body s = { s with cmd := select s.cmd } := by
  unfold selected at hs
  unfold serve
  dsimp only
  split
  · rfl
  · rename_i e
    rw [e] at hs
    simp [hs]

/-- A selected packet that checks 9 and 10, made again, refuse is answered so and changes nothing (R132). -/
theorem serve_refused (hs : selected op h p (select s.cmd) = true)
    (hst : check9and10 op h { s with cmd := select s.cmd } ≠ .ok) : serve op h p body s =
      answered op h (check9and10 op h { s with cmd := select s.cmd }) [] { s with cmd := select s.cmd } := by
  unfold selected at hs
  unfold serve
  dsimp only
  split
  · rename_i e
    simp [e] at hs
  · rename_i e
    rw [e] at hs
    dsimp only at hs
    simp only [hs, if_true, hst, if_false]
    rfl

theorem queueCommand_ok_or_same (op : Op) (h : Hdr) (p : Bytes) (s : State) :
    (queueCommand op h p s).1 = .ok ∨ (queueCommand op h p s).2 = s := by
  unfold queueCommand
  split
  · by_cases hroom : (if h.cls = 3 then 64 else 60) ≤ s.cmd.queue.length
    · rw [if_pos hroom]
      exact .inr rfl
    · rw [if_neg hroom]
      split
      · exact .inr rfl
      · exact .inl rfl
  · exact .inr rfl

/-- What a refusal at admission leaves: an authentication failure is recorded, and check 6 renews the requester's session (R132,
R141, R144). -/
theorem admission_refused (hst : (admission op h p s).1 ≠ .ok) :
    ((admission op h p s).1 = .authFail ∧ check5 op h.rq s ≠ 0 ∧
      (admission op h p s).2 = raise .authFail 0 0 (BitVec.ofNat 32 (check5 op h.rq s)) s) ∨
    (admission op h p s).2 = s ∨ holdSession h s = some (admission op h p s).2 := by
  unfold admission at hst ⊢
  dsimp only at hst ⊢
  split
  · rename_i h5
    exact .inl ⟨rfl, h5, rfl⟩
  · rename_i h5
    rw [if_neg h5] at hst
    split
    · exact .inr (.inl rfl)
    · rename_i s1 hsession
      simp only [hsession] at hst
      rw [hsession]
      refine .inr (.inr (congrArg some ?_))
      split
      · rfl
      · rename_i htimed
        rw [if_neg htimed] at hst
        exact ((queueCommand_ok_or_same ..).resolve_left hst).symm

end

/-- Settles O9: by what `opcode` does with a packet that is not heard, not admitted, not selected, or refused when selected. -/
theorem packetsRefused : Obligations.PacketsRefused := by
  unfold Obligations.PacketsRefused
  refine ⟨fun c op h p s hc ha => ?_, ⟨fun c op h p s hc => ?_, fun op h p s => admission_refused⟩,
    fun c op h p s n hc hr hlen hn => ?_⟩
  · obtain ⟨body, hbody⟩ := packet_exec c op h p hc
    rw [hbody, opcode_deaf ha]
  · obtain ⟨body, hbody⟩ := packet_exec c op h p hc
    intro t ha
    rw [hbody]
    refine ⟨fun hq hst => opcode_refused ha hq hst, fun hq => ?_⟩
    rw [opcode_entered ha hq]
    refine ⟨fun hs => congrArg _ (serve_waits hs), ?_⟩
    rintro st hs rfl hst
    exact congrArg _ (serve_refused hs hst)
  · obtain ⟨body, hbody⟩ := packet_length c op h p n hc hlen
    rw [hbody, opcodeN_length hr hn]

/-! ### The form of replies -/

/-- A reply of status class 2 or above has an empty body (R131). -/
theorem reply_refusal_payload {st : Status} (hst : 2 ≤ statusClass st) (code : BitVec 16) (h : Hdr) (pay : Bytes)
    (s : State) : reply code h st pay s = reply code h st [] s := by
  unfold reply
  simp only [if_neg (Nat.not_lt.mpr hst)]

/-- Settles O10: `reply` reads NO_REPLY only with a status class below 2, and drops the payload with one above. -/
theorem replyForm : Obligations.ReplyForm := by
  unfold Obligations.ReplyForm
  refine ⟨fun op h st pay s hst => ?_, fun code h st pay s hno hst => ?_, fun code h st pay s hst => ?_⟩
  · exact congrArg finish (reply_refusal_payload hst ..)
  · unfold reply
    simp [hno, hst]
  · unfold reply
    simp [Nat.not_lt.mpr hst]

/-! ### Selection (R147) -/

section
variable {c : Cmd} (hrun : c.running = none) (hpre : c.preempted = [])
include hrun hpre

/-- With nothing preempted a free control core takes the best queued command that may start. -/
theorem select_some {b : Queued} (hbest : bestQueued selClass c c.queue = some b) :
    select c = { c with running := some b, queue := c.queue.erase b } := by
  simp only [select, hrun, hpre, hbest]

theorem select_none (hbest : bestQueued selClass c c.queue = none) : select c = c := by
  simp only [select, hrun, hpre, hbest]

end

theorem bestQueued_eq_none {f : Queued → Nat} {c : Cmd} {l : List Queued} :
    bestQueued f c l = none ↔ ∀ q ∈ l, mayStart c q = false := by
  induction l with
  | nil => simp [bestQueued]
  | cons x t ih =>
    unfold bestQueued
    split
    · rename_i hnone
      simpa using fun _ => ih.mp hnone
    · rename_i b hb
      have hsome : ¬∀ q ∈ t, mayStart c q = false := fun h => by simp [ih.mpr h] at hb
      have hnot : ¬∀ q ∈ x :: t, mayStart c q = false := fun h => hsome fun q hq => h q (List.mem_cons_of_mem x hq)
      constructor
      · intro h
        split at h <;> cases h
      · exact fun h => absurd h hnot

/-- The command that is chosen stands in the queue, may start, and none that may start is of higher class. -/
theorem bestQueued_spec {f : Queued → Nat} {c : Cmd} {l : List Queued} {b : Queued} (h : bestQueued f c l = some b) :
    b ∈ l ∧ mayStart c b = true ∧ ∀ r ∈ l, mayStart c r = true → f r ≤ f b := by
  induction l generalizing b with
  | nil => cases h
  | cons x t ih =>
    unfold bestQueued at h
    split at h
    · rename_i hnone
      split at h <;> cases h
      rename_i hx
      refine ⟨List.mem_cons_self, hx, fun r hr hstart => ?_⟩
      rcases List.mem_cons.mp hr with rfl | hr
      · exact Nat.le_refl _
      · simp [bestQueued_eq_none.mp hnone r hr] at hstart
    · rename_i y hy
      obtain ⟨hmem, hstart, hmax⟩ := ih hy
      split at h <;> cases h
      · rename_i hx
        simp only [Bool.and_eq_true, decide_eq_true_eq] at hx
        refine ⟨List.mem_cons_self, hx.1, fun r hr hr' => ?_⟩
        rcases List.mem_cons.mp hr with rfl | hr
        · exact Nat.le_refl _
        · exact Nat.le_trans (hmax r hr hr') hx.2
      · rename_i hx
        refine ⟨List.mem_cons_of_mem _ hmem, hstart, fun r hr hr' => ?_⟩
        rcases List.mem_cons.mp hr with rfl | hr
        · simp only [hr', Bool.true_and, decide_eq_true_eq] at hx
          omega
        · exact hmax r hr hr'

/-- Within a class the command admitted first is chosen: those before it are of lower class. -/
theorem bestQueued_first {f : Queued → Nat} {c : Cmd} {b : Queued} {l m : List Queued}
    (h : bestQueued f c (l ++ b :: m) = some b) (hl : b ∉ l) : ∀ r ∈ l, mayStart c r = true → f r < f b := by
  induction l with
  | nil => intro r hr; cases hr
  | cons x t ih =>
    obtain ⟨hx, ht⟩ := not_or.mp (mt List.mem_cons.mpr hl)
    rw [List.cons_append] at h
    unfold bestQueued at h
    split at h
    · split at h <;> cases h
      exact absurd rfl hx
    · rename_i y hy
      split at h <;> cases h
      · exact absurd rfl hx
      · rename_i hlow
        intro r hr hstart
        rcases List.mem_cons.mp hr with rfl | hr
        · simp only [hstart, Bool.true_and, decide_eq_true_eq] at hlow
          omega
        · exact ih hy ht r hr hstart

/-- Settles O11: the choice by `bestQueued`, and the three events of the queue and of the notice as they are defined. -/
theorem selectionOrder : Obligations.SelectionOrder := by
  unfold Obligations.SelectionOrder
  refine ⟨fun c hrun hpre => ⟨fun q hq => ?_, fun hnone => ?_, fun q => ?_⟩, fun dt s r b => ?_,
    fun dt s => rfl, fun dt s hdue => ?_⟩
  · obtain ⟨hmem, hstart, hmax⟩ := bestQueued_spec hq
    refine ⟨by rw [select_some hrun hpre hq], hmem, hstart, hmax, fun l m hl hfirst => bestQueued_first (hl ▸ hq) hfirst⟩
  · exact select_none hrun hpre (bestQueued_eq_none.mpr hnone)
  · unfold selClass
    simp
  · intro t hrun hbest
    obtain ⟨hmem, -, -⟩ := bestQueued_spec hbest
    refine ⟨of_decide_eq_true (List.mem_filter.mp hmem).2, ?_⟩
    show execCommandPreemption dt s = _
    unfold execCommandPreemption
    simp [t, hrun, hbest]
  · show execEventNotice dt s = _
    unfold execEventNotice
    simp [hdue]

end Sys2Proof.Machine

/-! # The transport

SPI frames and the reply store, datagrams and their authentication, and the interrupt line (R132 to R141, R163, R164). -/

namespace Sys2Proof.Machine

open Sys2Proof.Safety

/-! ### SPI frames (R133 to R137) -/

theorem accepting_spiAlive {s : State} (ha : accepting s = true) : spiAlive s = true := by
  simp only [accepting, Bool.and_eq_true, Bool.or_eq_true] at ha
  obtain ⟨hup | ⟨hstart, -⟩, -⟩ := ha
  · simp [spiAlive, hup]
  · simp [spiAlive, hstart]

/-- A frame at a module that accepts commands does what its first byte selects (R133). -/
theorem spiFrame_accepting {s : State} (ha : accepting s = true) (op : Byte) (b : Bytes) :
    spiFrame (op :: b) s = if op = 3 then shiftOut b.length (statusWord s) s else if op = 1 then writeFrame b s
      else if op = 2 then readFrame b.length s else shiftOut b.length [] s := by
  unfold spiFrame
  simp [ha, accepting_spiAlive ha]

theorem zeros_length (n : Nat) : (zeros n).length = n := List.length_replicate

theorem shiftOut_eq (n : Nat) (out : Bytes) (s : State) :
    shiftOut n out s = { s with cmd := { s.cmd with miso := 0x5A :: (out.take n ++ zeros (n - out.length)) } } := by
  have htake : (out ++ zeros n).take n = out.take n ++ zeros (n - out.length) := by
    rw [List.take_append, zeros, List.take_replicate, Nat.min_eq_left (Nat.sub_le ..)]
    rfl
  unfold shiftOut
  rw [htake]

@[simp] theorem le_length (n v : Nat) : (le n v).length = n := by
  induction n generalizing v with
  | zero => rfl
  | succ n ih => exact congrArg (· + 1) (ih _)

theorem statusWord_accepting {s : State} (ha : accepting s = true) : statusWord s =
    le 1 s.cmd.store.length ++ le 1 (eventsNow s).toNat ++ le 2 (8192 - inBufUsed s.cmd) := by
  unfold statusWord
  rw [if_pos ha]

theorem readFrame_empty {s : State} (hstore : s.cmd.store = []) (n : Nat) : readFrame n s = shiftOut n [] s := by
  unfold readFrame
  rw [hstore]

theorem readFrame_part {s : State} {r : Reply} {l : List Reply} {n : Nat} (hstore : s.cmd.store = r :: l)
    (hn : n < (encodeReply r).length) : readFrame n s = shiftOut n (encodeReply r) s := by
  unfold readFrame
  simp only [hstore, if_pos hn]

@[simp] theorem spiPromote_inBuf (l : List Reply) (c : Cmd) : (spiPromote l c).inBuf = c.inBuf := by
  induction l generalizing c with
  | nil => rfl
  | cons r t ih =>
    unfold spiPromote
    split
    · exact ih _
    · rfl

theorem readmit_nothing {s : State} (hbuf : s.cmd.inBuf = []) : readmit s = s := by
  unfold readmit
  split
  · rfl
  · rw [hbuf]
    exact congrArg (fun b => { s with cmd := { s.cmd with inBuf := b } }) hbuf.symm

/-- A reply clocked out whole leaves the store, and replies of the holding list enter (R135, R137). -/
theorem readFrame_whole {s : State} {r : Reply} {l : List Reply} {n : Nat} (hstore : s.cmd.store = r :: l)
    (hn : (encodeReply r).length ≤ n) (hbuf : s.cmd.inBuf = []) : readFrame n s =
      { s with cmd := select (spiPromote s.cmd.holding { (shiftOut n (encodeReply r) s).cmd with store := l }) } := by
  unfold readFrame
  simp only [hstore, if_neg (Nat.not_lt.mpr hn)]
  rw [readmit_nothing]
  · rfl
  · simpa [shiftOut] using hbuf

/-- Settles O16: the frame by its first byte, and the branches of `spiPut`. -/
theorem repliesOverSpi : Obligations.RepliesOverSpi := by
  unfold Obligations.RepliesOverSpi
  refine ⟨?frames, fun r c => ?_⟩
  case frames =>
    intro dt n s ha t
    have hread : exec (.readReply dt n) s = .next (readFrame n t) := by
      show Host.Outcome.next (spiFrame (2 :: zeros n) t) = _
      rw [spiFrame_accepting ha, zeros_length]
      rfl
    rw [hread]
    refine ⟨fun hstore => ?_, fun r l hstore hn => ?_, fun r l hstore hn hbuf => ?_, ?_⟩
    · rw [readFrame_empty hstore, shiftOut_eq]
      simp
    · rw [readFrame_part hstore hn, shiftOut_eq, Nat.sub_eq_zero_of_le (Nat.le_of_lt hn)]
      simp [zeros]
    · rw [readFrame_whole hstore hn hbuf, shiftOut_eq, List.take_of_length_le hn]
    · show Host.Outcome.next (spiFrame (3 :: zeros 4) t) = _
      have hword : (statusWord t).length = 4 := by
        rw [statusWord_accepting ha]
        simp
      rw [spiFrame_accepting ha, zeros_length, if_pos rfl, shiftOut_eq, List.take_of_length_le (Nat.le_of_eq hword),
        hword, statusWord_accepting ha]
      simp [zeros, t]
  · refine ⟨fun h3 hroom => ?_, fun h3 hfull => ?_, fun h3 hhold hlow hroom => ?_, fun h3 hfull => ?_⟩
    · simp [spiPut, h3, hroom]
    · simp [spiPut, h3, Nat.not_lt.mpr hfull]
    · simp [spiPut, h3, hhold, hlow, hroom]
    · unfold spiPut
      rw [if_neg h3, if_neg]
      simp only [Bool.and_eq_true, List.isEmpty_iff, decide_eq_true_eq]
      rintro ⟨⟨hhold, hlow⟩, hroom⟩
      rcases hfull with h | h | h
      · exact h hhold
      · omega
      · omega

/-! ### WRITE_CMD frames (R133, R134) -/

/-- A module in HOLD with nothing stored. -/
def idleInHold : State := { life := { mode := .hold } }

/-- Refutes O15: its last clause writes the first byte of the frame as a number, of which the frame carries the low eight
bits. 259 is none of 1, 2 and 3, and its byte is 3, READ_STATUS: the frame clocks out the free room of the input buffer, 8192
bytes, where the clause asks for zeros. -/
theorem not_packetAdmitted : ¬ Obligations.PacketAdmitted := by
  unfold Obligations.PacketAdmitted
  rintro ⟨-, hignored⟩
  have hframe := hignored 0 259 (zeros 4) idleInHold (by decide) (by decide) (by decide) (by decide)
  have hmiso := congrArg (fun r => match r with
    | Host.Outcome.next s => s.cmd.miso
    | _ => []) hframe
  exact absurd hmiso (by decide)

/-! ### Command datagrams (R132, R138) -/

/-- A datagram at a declared port whose link is up is counted and meets the checks of R132 (R138). -/
theorem commandDatagram_checked {dt : Nat} {l : LinkPort} {s : State} (ip : BitVec 32) (udp : BitVec 16) (b : Bytes)
    (ha : accepting (advance dt s) = true) (hup : modeUp (advance dt s).life.mode = true)
    (hdecl : linkDeclared (advance dt s) l = true) (hlink : linkIsUp (advance dt s) l = true)
    (hhost : l = .hostnet → (netCfg (advance dt s)).switched = true) :
    exec (.commandDatagram dt l ip udp b) s = .next (admitDatagram l ip udp b (countRx l (advance dt s))) := by
  show execCommandDatagram dt l ip udp b s = _
  have hport : (l == .hostnet && !(netCfg (advance dt s)).switched) = false := by
    simpa using hhost
  unfold execCommandDatagram
  simp [ha, hup, hdecl, hlink, hport]

/-- Settles O17: the checks of `admitDatagram`, in the order of R132. -/
theorem datagramsChecked : Obligations.DatagramsChecked := by
  unfold Obligations.DatagramsChecked
  intro dt l ip udp b s ha hup hdecl hlink hhost t k h go
  have hgo : go = .next (admitDatagram l ip udp b t) := commandDatagram_checked ip udp b ha hup hdecl hlink hhost
  rw [hgo]
  unfold admitDatagram
  refine ⟨fun hdrop => ?drop, fun hlen hmagic => ⟨fun hver => ?version, fun hver hplen => ?length,
    fun hver hplen hsize => ⟨fun hcrc => ?crc, fun hcrc => ⟨fun st d hauth => ?refused, fun hauth => ?unsigned,
      fun id n hauth => ?signed⟩⟩⟩⟩
  case drop =>
    rw [if_pos (by simpa using hdrop)]
  all_goals rw [if_neg (by simp [hlen, hmagic])]
  case version => simp [hver, h, k]
  case length => simp [hver, hplen, h, k]
  all_goals
    have hfits : ¬ (1400 < k.plen ∨ b.length ≠ 16 + paddedLen k.plen + (if k.flags / 4 % 2 = 1 then 25 else 0)) := by
      simp [hplen, hsize]
  case crc => simp only [hver, hcrc, hfits, if_false, if_true, not_true, ne_eq, not_false_eq_true, h, k]
  all_goals
    simp only [hver, hcrc, hfits, if_false, not_true, ne_eq, hauth, h, k]

/-! ### Check 5 of a datagram -/

/-- An unsigned packet passes with an opcode that needs no AUTH while UNAUTH_READ is set (R141, R535). -/
theorem authCheck_open {s : State} {b : Bytes} {k : Packet} (hv : authCheck s b k = .open) :
    k.flags / 4 % 2 = 0 ∧ s.cfg.netAuth.unauthRead = true ∧ ∃ o, opOfCode k.opcode = some o ∧ opUnauth o = true := by
  unfold authCheck at hv
  split at hv
  · rename_i hplain
    split at hv
    · rename_i o ho
      split at hv
      · rename_i hread
        obtain ⟨hop, hun⟩ := Bool.and_eq_true_iff.mp hread
        exact ⟨hplain, hun, o, ho, hop⟩
      · cases hv
    · cases hv
  · dsimp only at hv
    (repeat' split at hv) <;> cases hv

/-- A signed packet passes under an installed and enabled key, with its tag and a counter not used before (R139, R140). -/
theorem authCheck_key {s : State} {b : Bytes} {k : Packet} {id : Fin 16} {n : Nat} (hv : authCheck s b k = .key id n) :
    k.flags / 4 % 2 = 1 ∧ s.cfg.netAuth.keyEnable.getLsbD id = true ∧ tget 0 s.cmd.keyHigh id < n ∧
      ∃ key, s.life.netKeys.getD id none = some key ∧
        (hmacSha256 key (b.take (16 + paddedLen k.plen) ++ le 8 s.life.nonce.toNat
          ++ (b.drop (16 + paddedLen k.plen)).take 9)).take 16 = (b.drop (16 + paddedLen k.plen + 9)).take 16 := by
  unfold authCheck at hv
  split at hv
  · (repeat' split at hv) <;> cases hv
  · rename_i hsigned
    dsimp only at hv
    split at hv
    · cases hv
    · rename_i key hkey
      split at hv
      · cases hv
      · rename_i htag
        split at hv
        · cases hv
        · rename_i hfresh
          cases hv
          split at hkey
          · rename_i hid
            obtain ⟨hlt, hen⟩ := Bool.and_eq_true_iff.mp hid
            have hval : (Fin.ofNat 16 (u8 b (16 + paddedLen k.plen))).val = u8 b (16 + paddedLen k.plen) :=
              Nat.mod_eq_of_lt (of_decide_eq_true hlt)
            rw [hval]
            exact ⟨by omega, hen, Nat.lt_of_not_le hfresh, key, hkey, Decidable.not_not.mp htag⟩
          · cases hkey

theorem opUnauth_cases {o : Op} (h : opUnauth o = true) : o = .nop ∨ o = .devInfo ∨ o = .devState ∨ o = .lifeState := by
  simpa [opUnauth, or_assoc] using h

/-- Settles O18: what check 5 verified of a packet it lets pass. -/
theorem authenticationRequired : Obligations.AuthenticationRequired := by
  unfold Obligations.AuthenticationRequired
  intro s b k
  refine ⟨fun id n => authCheck_key, fun hv => ?_⟩
  obtain ⟨hplain, hread, o, ho, hop⟩ := authCheck_open hv
  exact ⟨hplain, hread, o, ho, opUnauth_cases hop⟩

/-! ### IRQ_N (R163, R164) -/

theorem eventsNow_getLsbD_fault (s : State) : (eventsNow s).getLsbD 0 = !s.flt.queue.isEmpty := by
  unfold eventsNow
  cases s.flt.queue <;> cases s.cmd.store <;> simp

theorem eventsNow_getLsbD_reply (s : State) : (eventsNow s).getLsbD 1 = !s.cmd.store.isEmpty := by
  unfold eventsNow
  cases s.flt.queue <;> cases s.cmd.store <;> simp

/-- From bit 2 on the EVENTS byte is the latched sources. -/
theorem eventsNow_getLsbD_latched (s : State) (i : Fin 6) : (eventsNow s).getLsbD (i + 2) = s.cmd.events.getLsbD (i + 2) := by
  have h0 : ∀ i : Fin 6, (0 : BitVec 8).getLsbD (i + 2) = false := by decide
  have h1 : ∀ i : Fin 6, (1 : BitVec 8).getLsbD (i + 2) = false := by decide
  have h2 : ∀ i : Fin 6, (2 : BitVec 8).getLsbD (i + 2) = false := by decide
  have hcover : ∀ i : Fin 6, ((0xF8 : BitVec 8).getLsbD (i + 2) || (4 : BitVec 8).getLsbD (i + 2)) = true := by decide
  have hfault : (if s.flt.queue.isEmpty then 0 else 1 : BitVec 8).getLsbD (i + 2) = false := by
    split
    · exact h0 i
    · exact h1 i
  have hreply : (if s.cmd.store.isEmpty then 0 else 2 : BitVec 8).getLsbD (i + 2) = false := by
    split
    · exact h0 i
    · exact h2 i
  simp only [eventsNow, BitVec.getLsbD_or, BitVec.getLsbD_and, hfault, hreply, Bool.or_false, ← Bool.and_or_distrib_left,
    hcover i, Bool.and_true]

/-- Settles O19: IRQ_N follows the EVENTS byte under its mask, and the byte follows the fault queue, the reply store and the
latched sources, bit by bit. -/
theorem interruptLine : Obligations.InterruptLine := by
  unfold Obligations.InterruptLine
  intro s
  refine ⟨by simp [irqLow], ?_, ?_, eventsNow_getLsbD_latched s⟩
  · rw [eventsNow_getLsbD_fault]
    simp
  · rw [eventsNow_getLsbD_reply]
    simp

end Sys2Proof.Machine

/-! # Timed commands and the device's commands

Commands that wait for a time (R153 to R159), and the reports and commands of the device itself. -/

namespace Sys2Proof.Machine

open Sys2Proof.Safety

/-! ### Timed commands (R153 to R159) -/

theorem opcodeN_of_length {op : Op} {n : Nat} {h : Hdr} {p : Bytes} (hn : p.length = n) (body : State → Ans) (s : State) :
    opcodeN op n h p body s = opcode op h p body s := by
  unfold opcodeN
  simp only [hn, if_true]

theorem landingRamped_timed {op : Op} {h : Hdr} {p : Bytes} {check : State → Status} (ht : h.timed.isSome = true) :
    landingRamped op h p check = landing op h p check :=
  funext fun _ => if_pos ht

/-- A command of `landingOf` that names a time runs as a landing command. -/
theorem exec_landing_timed {c : Instr} {op : Op} {h : Hdr} {p : Bytes} {check : State → Status}
    (hc : landingOf c = some (op, h, p, check)) (ht : h.timed.isSome = true)
    (hlen : ∀ n, payloadLen op = some n → p.length = n) (s : State) : exec c s = opcode op h p (landing op h p check) s := by
  have hramped : ∀ op h' p check, h' = h → opcode op h' p (landingRamped op h' p check) s =
      opcode op h' p (landing op h' p check) s := by
    rintro op h' p check rfl
    rw [landingRamped_timed ht]
  unfold landingOf at hc
  split at hc
  case h_1 | h_2 | h_3 | h_4 | h_5 => cases hc; exact opcodeN_of_length (hlen _ rfl) _ s
  case h_6 | h_12 | h_24 => cases hc; exact hramped _ _ _ _ rfl
  case h_19 =>
    split at hc <;> cases hc
    show execFiltSync _ _ s = _
    unfold execFiltSync
    have hnone : h.timed.isNone = false := by simpa using ht
    simp only [hnone, Bool.false_and, Bool.false_eq_true, if_false]
  case h_27 =>
    split at hc <;> cases hc
    rename_i hzero
    show execCoopParam _ _ s = _
    unfold execCoopParam
    simp only [if_pos hzero]
  case h_28 => cases hc
  all_goals
    cases hc
    rfl

section
variable {op : Op} {h : Hdr} {p : Bytes} {check : State → Status} {s : State} {at' : BitVec 64}

theorem landing_timed_refused (ht : h.timed = some at') (hst : timedStatus at' s ≠ .ok) :
    landing op h p check s = refuse (timedStatus at' s) s := by
  simp [landing, ht, hst]

theorem landing_timed_check_refused (ht : h.timed = some at') (hst : timedStatus at' s = .ok) (hcheck : check s ≠ .ok) :
    landing op h p check s = refuse (check s) s := by
  simp [landing, ht, hst, hcheck]

theorem landing_timed_ok (ht : h.timed = some at') (hst : timedStatus at' s = .ok) (hcheck : check s = .ok) :
    landing op h p check s = prepareTimed op h p at' s := by
  simp [landing, ht, hst, hcheck]

end

theorem insertTimed_perm (l : Landing) (q : List Landing) : (insertTimed l q).Perm (l :: q) := by
  induction q with
  | nil => exact .rfl
  | cons x t ih =>
    unfold insertTimed
    split
    · exact .rfl
    · exact (ih.cons x).trans (.swap ..)

/-- A timed command enters the queue behind those that arrived before it (R159). -/
theorem insertTimed_sorted (l : Landing) {q : List Landing} (hq : q.Pairwise fun x y => x.arr ≤ y.arr) :
    (insertTimed l q).Pairwise fun x y => x.arr ≤ y.arr := by
  induction q with
  | nil => exact List.pairwise_singleton ..
  | cons x t ih =>
    obtain ⟨hx, ht⟩ := List.pairwise_cons.mp hq
    unfold insertTimed
    split
    · rename_i hlt
      refine List.pairwise_cons.mpr ⟨fun y hy => ?_, hq⟩
      rcases List.mem_cons.mp hy with rfl | hy
      · exact Nat.le_of_lt hlt
      · exact Nat.le_trans (Nat.le_of_lt hlt) (hx y hy)
    · rename_i hge
      refine List.pairwise_cons.mpr ⟨fun y hy => ?_, ih ht⟩
      rcases List.mem_cons.mp ((insertTimed_perm l t).mem_iff.mp hy) with rfl | hy
      · exact Nat.le_of_not_lt hge
      · exact hx y hy

/-- Over SPI a timed packet whose opcode cannot be timed is refused by the checks of its header (R153, R154). -/
theorem admission_untimeable {op : Op} {h : Hdr} {p : Bytes} {s : State} (hop : opTimed op = false)
    (ht : h.timed.isSome = true) (hspi : h.rq = .spi) : admission op h p s = (.badParam, s) := by
  simp [admission, check5, holdSession, hspi, ht, hop]

/-- Settles O33: `landing` of a command that names a time, the place `insertTimed` gives it, and admission of one whose opcode
cannot be timed. -/
theorem timedPrepared : Obligations.TimedPrepared := by
  unfold Obligations.TimedPrepared
  refine ⟨?prepared, fun l q hq => ⟨insertTimed_sorted l hq, insertTimed_perm l q⟩,
    fun c op h p s hc hop ht hspi ha hq => ?untimeable⟩
  case prepared =>
    intro c op h p check s at' hc hr ht hlen t waits
    have hexec := exec_landing_timed hc (by simp [ht]) hlen s
    have hreply : ∀ st pay u, landing op h p check t = .reply st pay u → exec c s = .next (answered op h st pay u) :=
      fun st pay u hb => hexec.trans (opcode_reply hr hb)
    have hstatus : ∀ st, timedStatus at' t = st → st ≠ .ok → exec c s = .next (answered op h st [] t) := by
      rintro st rfl hst
      exact hreply _ _ _ (landing_timed_refused ht hst)
    refine ⟨fun hfull => hstatus _ (if_pos hfull) (by decide), fun hroom => ⟨fun htai => ?_, fun htai =>
      ⟨fun hfar => ?_, fun hnear => ?_⟩⟩⟩
    · exact hstatus _ (by simp [timedStatus, hroom, htai]) (by decide)
    · exact hstatus _ (by simp [timedStatus, hroom, htai, hfar]) (by decide)
    · have hst : timedStatus at' t = .ok := by
        simp [timedStatus, Nat.not_le.mpr hroom, htai, Int.not_lt.mpr hnear]
      refine ⟨fun hcheck => hreply _ _ _ (landing_timed_check_refused ht hst hcheck), fun hcheck hlater => ?_,
        fun hcheck hpast => ?_⟩
      · refine hreply _ _ _ ((landing_timed_ok ht hst hcheck).trans ?_)
        simp [prepareTimed, Int.not_le.mpr hlater, waits]
      · refine hexec.trans (opcode_late hr ((landing_timed_ok ht hst hcheck).trans ?_))
        simp [prepareTimed, hpast, waits]
  case untimeable =>
    obtain ⟨body, hbody⟩ := packet_exec c op h p hc
    have hadm : admission op h p (advance h.dt s) = (.badParam, advance h.dt s) := admission_untimeable hop ht hspi
    rw [hbody, opcode_refused ha hq (by simp [hadm]), hadm]

/-! ### The device's own commands (R92 to R96, R119 to R121, R163, R165, R176, R177, R183, R535, R536) -/

theorem testLoop_replies {h : Hdr} {p : Bytes} {s : State} (hr : ready .testLoop h p s = true) (hlen : p.length ≤ 1400) :
    exec (.testLoop h p) s = .next (answered .testLoop h .ok p (during .testLoop h p s)) :=
  opcode_reply hr (if_neg (Nat.not_lt.mpr hlen))

theorem testLoop_tooLong {h : Hdr} {p : Bytes} {s : State} (hr : ready .testLoop h p s = true) (hlen : 1400 < p.length) :
    exec (.testLoop h p) s = .next (answered .testLoop h .badLength [] (during .testLoop h p s)) :=
  opcode_reply hr (if_pos hlen)

theorem nop_empty {h : Hdr} {p : Bytes} {s : State} (hr : ready .nop h p s = true) (hlen : p.length = 0) :
    exec (.nop h p) s = .next (answered .nop h .ok [] (during .nop h p s)) :=
  opcode_reply hr (if_pos hlen)

theorem nop_badLength {h : Hdr} {p : Bytes} {s : State} (hr : ready .nop h p s = true) (h0 : p.length ≠ 0)
    (h4 : p.length ≠ 4) : exec (.nop h p) s = .next (answered .nop h .badLength [] (during .nop h p s)) :=
  opcode_reply hr ((if_neg h0).trans (if_pos h4))

/-- What LIFE_ADVANCE checks is R119's table with the keys, the signatures and the authorisation it asks for. -/
theorem checkLifeAdvance_ok {p : Bytes} {s : State} (hdest : u8 p 0 ≤ 3) (hzero : zeroAt p 1 3 = true)
    (hstep : lifeStep s.life.state (lifeOf (u8 p 0)) = true)
    (hkeys : lifeOf (u8 p 0) = .provisioned → keysReady s.life = true)
    (hsigned : lifeOf (u8 p 0) = .deployed → committedSigned s = true)
    (hplain : s.life.state ≠ .returned → zeroAt p 4 88 = true)
    (hauth : s.life.state = .returned → (p.drop 4).take 16 = (List.range 16).map Config.moduleId ∧
      u64 p 20 = s.life.nonce.toNat ∧ Config.ecdsaVerify Config.planuvalKey (p.take 28) ((p.drop 28).take 64) = true) :
    checkLifeAdvance p s = .ok := by
  have hready : (lifeOf (u8 p 0) == .provisioned && !keysReady s.life) = false := by simpa using hkeys
  have hcommit : (lifeOf (u8 p 0) == .deployed && !committedSigned s) = false := by simpa using hsigned
  unfold checkLifeAdvance
  dsimp only
  rw [hready, hcommit]
  by_cases hret : s.life.state = .returned
  · obtain ⟨hid, hnonce, hsig⟩ := hauth hret
    have hto : lifeOf (u8 p 0) = .provisioned := by
      rw [hret] at hstep
      revert hstep
      cases lifeOf (u8 p 0) <;> simp [lifeStep]
    simp [checks, Nat.not_lt.mpr hdest, hzero, hret, hto, hid, hnonce, hsig, lifeStep]
  · simp [checks, Nat.not_lt.mpr hdest, hzero, hstep, hret, hplain hret]

@[simp] theorem setListener_listener (l : Option Requester) (c : Cmd) : (setListener l c).listener = l := by
  unfold setListener
  split
  · assumption
  · rfl

theorem landEventMask_cmd_spi {h : Hdr} (hspi : h.rq = .spi) (p : Bytes) (u : State) : (landEventMask h p u).cmd = u.cmd := by
  simp only [landEventMask, hspi]

theorem landEventMask_listener {h : Hdr} (hnet : h.rq ≠ .spi) (p : Bytes) (u : State) : (landEventMask h p u).cmd.listener =
    if u8 p 1 = 1 ∧ (sessionAt u.cmd h.rq).isSome = true then some h.rq else none := by
  cases hrq : h.rq with
  | spi => exact absurd hrq hnet
  | net ip udp key => simp [landEventMask, hrq]

/-- NET_AUTH_SET passes its checks unless it would disable the key it came with (R535). -/
theorem checkNetAuth_ok {h : Hdr} {p : Bytes} (s : State) (hread : u8 p 0 ≤ 1) (hzero : u8 p 1 = 0) (hrest : u32 p 4 = 0)
    (hown : ∀ ip udp i, h.rq = .net ip udp (some i) → (BitVec.ofNat 16 (u16 p 2)).getLsbD i = true) :
    checkNetAuth h p s = .ok := by
  unfold checkNetAuth
  rcases hrq : h.rq with _ | ⟨ip, udp, _ | i⟩
  · simp [keyOf, Nat.not_lt.mpr hread, hzero, hrest]
  · simp [keyOf, Nat.not_lt.mpr hread, hzero, hrest]
  · simp [keyOf, Nat.not_lt.mpr hread, hzero, hrest, hown ip udp i hrq]

theorem landLive_ok {op : Op} {h : Hdr} {p : Bytes} {check : State → Status} {now : State → State} {s : State}
    (hc : check s = .ok) : landLive op h p check now s = done (prepare op h p (now s)) := by
  simp [landLive, hc]

/-- Settles O12: the five reports and TEST_LOOP, then the commands that change what they name. -/
theorem deviceCommands : Obligations.DeviceCommands := by
  unfold Obligations.DeviceCommands
  constructor
  · intro h p s
    exact ⟨fun hr hlen => opcodeN_reply hr hlen rfl, fun hr hlen => opcodeN_reply hr hlen rfl,
      fun hr hlen => opcodeN_reply hr hlen rfl, fun hr hlen => opcodeN_reply hr hlen rfl, testLoop_replies, testLoop_tooLong⟩
  · intro h p s
    refine ⟨nop_empty, nop_badLength, fun hr hlen hzero => ?cancel, fun hr hlen hfade => ?run,
      fun hr hlen hfull hzero => ?reset, fun hr hlen hdest hzero hstep hkeys hsigned hplain hauth => ?advance,
      fun hr hlen huntimed hnotify hzero => ⟨?mask, fun u => ⟨rfl, fun hspi => landEventMask_cmd_spi hspi p u,
        fun hnet => landEventMask_listener hnet p u⟩⟩, fun hr hlen hread hzero hrest hown => ⟨?auth, fun u => rfl⟩⟩
    case cancel =>
      refine opcode_reply hr ?_
      rw [if_neg (by simp [hlen]), if_neg (by simp [hlen]), if_neg (by simp [hzero])]
    case run =>
      refine opcodeN_reply hr hlen (if_neg ?_)
      omega
    case reset =>
      refine opcodeN_reply hr hlen (if_neg ?_)
      simp [hfull, hzero]
    case advance =>
      refine opcodeN_reply hr hlen ?_
      rw [checkLifeAdvance_ok hdest hzero hstep hkeys hsigned hplain hauth]
      rfl
    case mask =>
      refine opcodeN_reply hr hlen (landing_ok huntimed ?_)
      simp [checkEventMask, Nat.not_lt.mpr hnotify, hzero]
    case auth =>
      exact opcodeN_reply hr hlen (landLive_ok (checkNetAuth_ok _ hread hzero hrest hown))

end Sys2Proof.Machine

/-! # Fades, frame by frame

How a chain, a mute and a move stand after a number of frames (R44, R260, R266, R285, R372, R385). -/

namespace Sys2Proof.Machine

/-! ### Repeated steps -/

/-- From where `P` holds and is kept, a measure `g` of what is repeated is repeated by `d`. -/
theorem iter_measure {α β : Type} {f : α → α} {P : α → Prop} (g : α → β) (d : β → β)
    (hstep : ∀ x, P x → P (f x) ∧ g (f x) = d (g x)) (n : Nat) {x : α} (hx : P x) :
    P (iter f n x) ∧ g (iter f n x) = iter d n (g x) := by
  induction n generalizing x with
  | zero => exact ⟨hx, rfl⟩
  | succ n ih =>
    obtain ⟨hP, hg⟩ := hstep x hx
    have htail := ih hP
    rw [hg] at htail
    exact htail

theorem iter_sub (c n a : Nat) : iter (fun a => a - c) n a = a - c * n := by
  induction n generalizing a with
  | zero => rfl
  | succ n ih =>
    show iter _ n (a - c) = a - c * (n + 1)
    rw [ih, Nat.sub_sub, Nat.mul_succ, Nat.add_comm c]

theorem iter_succ_capped {top a : Nat} (ha : a ≤ top) (n : Nat) : iter (fun a => min top (a + 1)) n a = min top (a + n) := by
  induction n generalizing a with
  | zero => exact (Nat.min_eq_right ha).symm
  | succ n ih =>
    show iter _ n (min top (a + 1)) = min top (a + (n + 1))
    rw [ih (Nat.min_le_left _ _)]
    omega

/-! ### A chain frame by frame (R260 to R266) -/

/-- A chain that settles, cleared before the latest tick. -/
def FChain.Settles (x : FChain) : Prop := x.state = .settling ∧ x.stampDue = false

/-- A chain that runs and fades in with the slope of its release. -/
def FChain.FadesIn (x : FChain) : Prop := x.state = .running ∧ x.back = false

theorem stepChain_settles (stamp : Nat) (x : FChain) (hx : x.Settles) :
    (stepChain stamp x).Settles ∧ (stepChain stamp x).left = x.left - 1 := by
  obtain ⟨hstate, hdue⟩ := hx
  simp [FChain.Settles, stepChain, fadeChain, hstate, hdue]

theorem stepChain_fadesIn (stamp : Nat) (x : FChain) (hx : x.FadesIn) :
    (stepChain stamp x).FadesIn ∧ (stepChain stamp x).w = min 64 (x.w + 1) := by
  obtain ⟨hstate, hback⟩ := hx
  simp [FChain.FadesIn, stepChain, fadeChain, hstate, hback]

theorem stepChain_fadesOut (stamp : Nat) {st : FState} (hst : st = .fadingStop ∨ st = .fadingReload) (x : FChain)
    (hx : x.state = st) : (stepChain stamp x).state = st ∧ (stepChain stamp x).w = x.w - 2 := by
  rcases hst with rfl | rfl <;> simp [stepChain, fadeChain, hx]

theorem iter_stepChain_settles (n stamp : Nat) {x : FChain} (hx : x.Settles) :
    (iter (stepChain stamp) n x).Settles ∧ (iter (stepChain stamp) n x).left = x.left - n := by
  obtain ⟨hsettles, hleft⟩ := iter_measure FChain.left (· - 1) (stepChain_settles stamp) n hx
  exact ⟨hsettles, by rw [hleft, iter_sub, Nat.one_mul]⟩

theorem iter_stepChain_fadesIn (n stamp : Nat) {x : FChain} (hx : x.FadesIn) (hw : x.w ≤ 64) :
    (iter (stepChain stamp) n x).FadesIn ∧ (iter (stepChain stamp) n x).w = min 64 (x.w + n) := by
  obtain ⟨hfades, hw'⟩ := iter_measure FChain.w (fun a => min 64 (a + 1)) (stepChain_fadesIn stamp) n hx
  exact ⟨hfades, by rw [hw', iter_succ_capped hw]⟩

theorem iter_stepChain_fadesOut (n stamp : Nat) {x : FChain} (hx : x.state = .fadingStop ∨ x.state = .fadingReload) :
    (iter (stepChain stamp) n x).state = x.state ∧ (iter (stepChain stamp) n x).w = x.w - 2 * n := by
  obtain ⟨hstate, hw⟩ :=
    iter_measure (P := fun y => y.state = x.state) FChain.w (· - 2) (stepChain_fadesOut stamp hx) n rfl
  exact ⟨hstate, by rw [hw, iter_sub]⟩

/-! ### A mute frame by frame (R372) -/

/-- The weight a mute goes to. -/
def muteGoal (m : MuteSt) : Nat := if m.muted = true then 0 else 32

/-- The weight of a mute, muted or not, after one step of its ramp. -/
def rampStep (muted : Bool) (w : Nat) : Nat := if muted = true then w - 1 else min 32 (w + 1)

/-- The stage in which a mute moves: a wait that has run out ramps. -/
def muteStage (ov : Nat → Bool) (cross : Bool) (m : MuteSt) : CorkStage :=
  if (m.stage == .waiting && !cross && ov m.since) = true then .ramping else m.stage

/-- The weight after a frame in a stage. -/
def muteMoved (cross : Bool) (m : MuteSt) : CorkStage → Nat
  | .waiting => if cross = true then muteGoal m else m.w
  | .ramping => rampStep m.muted m.w
  | .steady => m.w

theorem moveMute_muted (ov : Nat → Bool) (cross : Bool) (m : MuteSt) : (moveMute ov cross m).muted = m.muted := by
  simp only [moveMute, apply_ite MuteSt.muted, ite_self]

theorem moveMute_w (ov : Nat → Bool) (cross : Bool) (m : MuteSt) :
    (moveMute ov cross m).w = muteMoved cross m (muteStage ov cross m) := by
  simp only [moveMute, apply_ite MuteSt.w, ite_self]
  rfl

theorem moveMute_stage (ov : Nat → Bool) (cross : Bool) (m : MuteSt) : (moveMute ov cross m).stage =
    if (moveMute ov cross m).w = muteGoal m then .steady else muteStage ov cross m := by
  rw [moveMute_w]
  simp only [moveMute, apply_ite MuteSt.stage]
  rfl

theorem moveMute_crossed (ov : Nat → Bool) {m : MuteSt} (hm : m.stage = .waiting) : (moveMute ov true m).w = muteGoal m := by
  simp [moveMute_w, muteStage, muteMoved, hm]

theorem moveMute_waits {ov : Nat → Bool} {m : MuteSt} (hm : m.stage = .waiting) (hov : ov m.since = false) :
    (moveMute ov false m).w = m.w := by
  simp [moveMute_w, muteStage, muteMoved, hm, hov]

theorem moveMute_late {ov : Nat → Bool} {m : MuteSt} (hm : m.stage = .waiting) (hov : ov m.since = true) :
    (moveMute ov false m).w = rampStep m.muted m.w := by
  simp [moveMute_w, muteStage, muteMoved, hm, hov]

/-- A mute that ramps, or stands where its ramp has ended. -/
def MuteSt.Ramps (m : MuteSt) : Prop := m.stage = .ramping ∨ m.stage = .steady ∧ m.w = muteGoal m

theorem rampStep_of_goal {m : MuteSt} (hw : m.w = muteGoal m) : rampStep m.muted m.w = m.w := by
  unfold rampStep
  rw [hw]
  unfold muteGoal
  split <;> rfl

theorem muteStage_of_ne_waiting (ov : Nat → Bool) (cross : Bool) {m : MuteSt} (hm : m.stage ≠ .waiting) :
    muteStage ov cross m = m.stage := by
  simp [muteStage, hm]

/-- A ramp takes its step until it arrives, and then stays. -/
theorem moveMute_ramps (ov : Nat → Bool) {m : MuteSt} (hm : m.Ramps) :
    (moveMute ov false m).Ramps ∧ (moveMute ov false m).w = rampStep m.muted m.w := by
  have hgoal : muteGoal (moveMute ov false m) = muteGoal m := by simp only [muteGoal, moveMute_muted]
  rcases hm with hm | ⟨hm, harrived⟩
  · have hst := muteStage_of_ne_waiting ov false (m := m) (by simp [hm])
    refine ⟨?_, by rw [moveMute_w, hst, hm]; rfl⟩
    unfold MuteSt.Ramps
    rw [moveMute_stage, hst, hm, hgoal]
    split
    next hw => exact .inr ⟨rfl, hw⟩
    next => exact .inl rfl
  · have hst := muteStage_of_ne_waiting ov false (m := m) (by simp [hm])
    have hw : (moveMute ov false m).w = m.w := by rw [moveMute_w, hst, hm]; rfl
    refine ⟨.inr ⟨?_, by rw [hw, hgoal, harrived]⟩, by rw [hw, rampStep_of_goal harrived]⟩
    rw [moveMute_stage, hw, if_pos harrived]

/-- The mute keeps its direction `b` while it ramps. -/
theorem moveMute_rampsTo (ov : Nat → Bool) (b : Bool) (m : MuteSt) (hm : m.Ramps ∧ m.muted = b) :
    ((moveMute ov false m).Ramps ∧ (moveMute ov false m).muted = b) ∧
      (moveMute ov false m).w = rampStep b m.w := by
  obtain ⟨hramps, rfl⟩ := hm
  obtain ⟨hramps', hw⟩ := moveMute_ramps ov hramps
  exact ⟨⟨hramps', moveMute_muted ov false m⟩, hw⟩

/-- After `n` frames of a ramp the weight has taken `n` of its steps. -/
theorem iter_moveMute_ramps (n : Nat) (ov : Nat → Bool) {m : MuteSt} (hm : m.stage = .ramping) :
    (iter (moveMute ov false) n m).w = iter (rampStep m.muted) n m.w :=
  (iter_measure (P := fun x => x.Ramps ∧ x.muted = m.muted) MuteSt.w (rampStep m.muted) (moveMute_rampsTo ov m.muted) n
    ⟨.inl hm, rfl⟩).2

theorem iter_moveMute_muted (n : Nat) (ov : Nat → Bool) {m : MuteSt} (hm : m.stage = .ramping) (hmuted : m.muted = true) :
    (iter (moveMute ov false) n m).w = m.w - n := by
  rw [iter_moveMute_ramps n ov hm, hmuted]
  exact (iter_sub 1 n m.w).trans (by rw [Nat.one_mul])

theorem iter_moveMute_unmuted (n : Nat) (ov : Nat → Bool) {m : MuteSt} (hm : m.stage = .ramping) (hopen : m.muted = false)
    (hw : m.w ≤ 32) : (iter (moveMute ov false) n m).w = min 32 (m.w + n) := by
  rw [iter_moveMute_ramps n ov hm, hopen]
  exact iter_succ_capped hw n

/-! ### Moves, and values under a weight (R44, R285, R385) -/

theorem freeDiv_of_dvd (q : Nat) {num : Int} {den : Nat} (hden : 0 < den) (hd : (den : Int) ∣ num) :
    freeDiv q num den = num / den := by
  unfold freeDiv
  split
  next hle =>
    obtain rfl : den = 1 := by omega
    simp
  next => simp [Int.emod_eq_zero_of_dvd hd]

theorem iter_stepMove {v : Glide} {n : Nat} (hn : v.k + n ≤ v.m) : iter stepMove n v = { v with k := v.k + n } := by
  induction n generalizing v with
  | zero => rfl
  | succ n ih =>
    have hone : stepMove v = { v with k := v.k + 1 } := if_pos (by omega)
    show iter stepMove n (stepMove v) = _
    rw [hone, ih (by simp only; omega)]
    simp only [Nat.add_assoc, Nat.add_comm 1 n]

/-- A move whose length divides its way is in proportion to its frames, without rounding. -/
theorem moveVal_of_dvd {v : Glide} (hm : 0 < v.m) (hk : v.k ≤ v.m) (hd : (v.m : Int) ∣ v.dest - v.start) :
    moveVal v = v.start + (v.dest - v.start) / v.m * v.k := by
  unfold moveVal
  split
  next => rw [freeDiv_of_dvd _ hm (Int.dvd_mul_of_dvd_left hd), Int.mul_ediv_assoc' _ hd]
  next hend =>
    have hend' : v.k = v.m := by omega
    rw [hend', Int.ediv_mul_cancel hd]
    omega

theorem clearMix_one {x : OutRt} (hw : moveVal x.w = wOne) (v : Int) : clearMix x v = moveVal x.code := by
  have hne : wOne ≠ 0 := by decide
  simp [clearMix, hw, hne]

theorem clearMix_zero {x : OutRt} (hw : moveVal x.w = 0) (v : Int) : clearMix x v = v := by
  simp [clearMix, hw]

theorem rampW_open (v : Int) : rampW 32 v = v := if_pos rfl

theorem rampW_closed (v : Int) : rampW 0 v = 0 := by
  simp [rampW, freeDiv_of_dvd]

/-- The weight of the override in frame `k` of its crossfade. -/
theorem moveVal_override {k : Nat} (hk : k ≤ 8) : moveVal (iter stepMove k ⟨0, wOne, 0, 8⟩) = wOne / 8 * k := by
  have hd : ((8 : Nat) : Int) ∣ wOne - 0 := by decide
  rw [iter_stepMove (by simpa using hk), moveVal_of_dvd (by simp) (by simpa using hk) hd]
  simp

/-- Settles O35: the chains, the mutes and the move by what one frame does, repeated; the rest by what a weight of 0 or 1 is. -/
theorem fadesInFrames : Obligations.FadesInFrames := by
  unfold Obligations.FadesInFrames
  refine ⟨fun n stamp x hstate hdue => ?settling, fun n stamp x hstate hback hw => ?running,
    fun n stamp x hstate => (iter_stepChain_fadesOut n stamp hstate).symm,
    fun n ov m hm hmuted _ => iter_moveMute_muted n ov hm hmuted, fun n ov m hm hopen hn => ?unmuted,
    fun ov m hm => ⟨moveMute_crossed ov hm, moveMute_waits hm, moveMute_late hm⟩, fun k hk => moveVal_override hk,
    fun x v => ⟨fun hw => clearMix_one hw v, fun hw => clearMix_zero hw v⟩, fun v => ⟨rampW_closed v, rampW_open v⟩⟩
  case settling =>
    obtain ⟨⟨hstate', -⟩, hleft⟩ := iter_stepChain_settles n stamp ⟨hstate, hdue⟩
    exact ⟨hleft, hstate'⟩
  case running =>
    obtain ⟨⟨hstate', -⟩, hw'⟩ := iter_stepChain_fadesIn n stamp ⟨hstate, hback⟩ hw
    exact ⟨hw', hstate'⟩
  case unmuted =>
    rw [iter_moveMute_unmuted n ov hm hopen (by omega), Nat.min_eq_right hn]

end Sys2Proof.Machine

/-! # The limiter, and commands that wait for a tick

The limiter's applied gain (R377), and the commands that are checked at once and prepared for a tick (R16, R18, R34, R371). -/

namespace Sys2Proof.Machine

open Sys2Proof.Safety

/-! ### The limiter's gain (R377) -/

theorem limGain_le_release (last release : Int) (window : Nat) (need : Nat → Int) :
    limGain last release window need ≤ release :=
  (limGain_le last need (List.range (window + 1)) release).1

/-- The gain lies below the line to each required gain of the window. -/
theorem limGain_le_line (last release : Int) {window j : Nat} (need : Nat → Int) (hj : j ≤ window) :
    limGain last release window need ≤ last + (need j - last) / ((j : Int) + 1) :=
  (limGain_le last need (List.range (window + 1)) release).2.1 j (List.mem_range.mpr (Nat.lt_succ_of_le hj))

/-- The line to the sample that leaves now has arrived at its required gain. -/
theorem limGain_le_need (last release : Int) (window : Nat) (need : Nat → Int) :
    limGain last release window need ≤ need 0 := by
  have hline := limGain_le_line last release need (Nat.zero_le window)
  have harrived : last + (need 0 - last) / (((0 : Nat) : Int) + 1) = need 0 := by
    rw [Int.natCast_zero, Int.zero_add, Int.ediv_one, Int.add_comm, Int.sub_add_cancel]
  rwa [harrived] at hline

/-- The gain is the release or one of the lines of the window. -/
theorem limGain_attained (last release : Int) (window : Nat) (need : Nat → Int) :
    limGain last release window need = release ∨
      ∃ j, j ≤ window ∧ limGain last release window need = last + (need j - last) / ((j : Int) + 1) := by
  rcases (limGain_le last need (List.range (window + 1)) release).2.2 with hrelease | ⟨j, hj, hline⟩
  · exact .inl hrelease
  · exact .inr ⟨j, Nat.le_of_lt_succ (List.mem_range.mp hj), hline⟩

/-- Settles O36: the gain is the lowest of the release and the lines of the window. -/
theorem limiterHolds : Obligations.LimiterHolds := by
  unfold Obligations.LimiterHolds
  intro last release window need
  exact ⟨limGain_le_need .., limGain_le_release .., fun _ hj => limGain_le_line last release need hj, limGain_attained ..⟩

/-! ### Commands prepared for a tick (R16, R18, R34, R371) -/

/-- A command of `landingOf` runs as a landing command, and as one that may wait deferred where it has ramps. -/
theorem exec_landing {c : Instr} {op : Op} {h : Hdr} {p : Bytes} {check : State → Status}
    (hc : landingOf c = some (op, h, p, check)) (hlen : ∀ n, payloadLen op = some n → p.length = n) (s : State) :
    exec c s = opcode op h p (if mayDefer op = true then landingRamped op h p check else landing op h p check) s := by
  unfold landingOf at hc
  split at hc
  case h_1 | h_2 | h_3 | h_4 | h_5 => cases hc; exact opcodeN_of_length (hlen _ rfl) _ s
  case h_19 =>
    split at hc <;> cases hc
    rename_i hmode
    have htick : (h.timed.isNone && u8 p 16 != 2) = false := by
      cases ht : h.timed with
      | none => simpa [ht] using hmode
      | some _ => rfl
    show execFiltSync _ _ s = _
    simp only [execFiltSync, htick, Bool.false_eq_true, if_false]
    rfl
  case h_27 =>
    split at hc <;> cases hc
    rename_i hwrite
    show execCoopParam _ _ s = _
    simp only [execCoopParam, if_pos hwrite]
    rfl
  case h_28 => cases hc
  all_goals
    cases hc
    rfl

/-- A command of `liveOf` runs as a command with live fields. -/
theorem exec_live {c : Instr} {op : Op} {h : Hdr} {p : Bytes} {check : State → Status} {now : State → State}
    (hc : liveOf c = some (op, h, p, check, now)) (hlen : ∀ n, payloadLen op = some n → p.length = n) (s : State) :
    exec c s = opcode op h p (landLive op h p check now) s := by
  unfold liveOf at hc
  split at hc
  case h_10 => cases hc
  all_goals
    cases hc
    exact opcodeN_of_length (hlen _ rfl) _ s

theorem landLive_refused {op : Op} {h : Hdr} {p : Bytes} {check : State → Status} {now : State → State} {s : State}
    (hcheck : check s ≠ .ok) : landLive op h p check now s = refuse (check s) s :=
  if_neg hcheck

section
variable {op : Op} {h : Hdr} {p : Bytes} {check : State → Status} {s : State}

theorem landingRamped_refused (ht : h.timed = none) (hcheck : check s ≠ .ok) :
    landingRamped op h p check s = refuse (check s) s := by
  simp [landingRamped, ht, hcheck]

theorem landingRamped_undeferred (ht : h.timed = none) (hcheck : check s = .ok) (hwhy : deferReason op p s = 0) :
    landingRamped op h p check s = landing op h p check s := by
  simp [landingRamped, ht, hcheck, hwhy]

theorem landingRamped_deferred (ht : h.timed = none) (hcheck : check s = .ok) (hwhy : deferReason op p s ≠ 0)
    (hroom : s.mix.deferred.length < 64) : landingRamped op h p check s =
      .reply .okDeferred [] (deferCommand (deferReason op p s) ⟨op, h, p, false, arrivalOf s, false⟩ s) := by
  simp [landingRamped, ht, hcheck, hwhy, Nat.not_le.mpr hroom]

theorem landingRamped_noResource (ht : h.timed = none) (hcheck : check s = .ok) (hwhy : deferReason op p s ≠ 0)
    (hfull : 64 ≤ s.mix.deferred.length) : landingRamped op h p check s = refuse .noResource s := by
  simp [landingRamped, ht, hcheck, hwhy, hfull]

end

/-- Settles O32: what `landing`, `landingRamped` and `landLive` answer, under the command's header and selection. -/
theorem commandsPrepared : Obligations.CommandsPrepared := by
  unfold Obligations.CommandsPrepared
  refine ⟨fun c op h p check s hc hr ht hlen => ?landing, fun c op h p check now s hc hr hlen =>
    ⟨fun hcheck => ?refused, fun hcheck => ?live⟩⟩
  case landing =>
    have hexec := exec_landing hc hlen s
    by_cases hramps : mayDefer op = true
    · rw [if_pos hramps] at hexec
      rw [hexec]
      exact ⟨fun hcheck => opcode_reply hr (landingRamped_refused ht hcheck),
        fun hcheck hwhy => opcode_reply hr ((landingRamped_undeferred ht hcheck (hwhy hramps)).trans (landing_ok ht hcheck)),
        fun hcheck _ hwhy => ⟨fun hroom => opcode_reply hr (landingRamped_deferred ht hcheck hwhy hroom),
          fun hfull => opcode_reply hr (landingRamped_noResource ht hcheck hwhy hfull)⟩⟩
    · rw [if_neg hramps] at hexec
      rw [hexec]
      exact ⟨fun hcheck => opcode_reply hr (landing_refused ht hcheck),
        fun hcheck _ => opcode_reply hr (landing_ok ht hcheck), fun _ hdefers => absurd hdefers hramps⟩
  case refused =>
    rw [exec_live hc hlen s]
    exact opcode_reply hr (landLive_refused hcheck)
  case live =>
    rw [exec_live hc hlen s]
    exact opcode_reply hr (landLive_ok hcheck)

end Sys2Proof.Machine

/-! # The encoding of Cooper instructions

Decoding the word of an instruction gives the instruction back (R482 to R487). A decoder of a part of a word reads
nothing but the bits that part stands in, so each is shown to invert its encoder on every word with those bits. -/

namespace Sys2Proof.Machine

/-! ### The encodings of parts lie within their widths -/

theorem modCode_lt (m : PMod) : modCode m < 4 := by cases m <;> decide

@[simp] theorem modOf_modCode (m : PMod) : modOf (modCode m) = m := by cases m <;> rfl

theorem lddBits_lt (f : LddFields) : lddBits f < 2 ^ 16 := by
  have hma := modCode_lt f.ma
  have hmb := modCode_lt f.mb
  unfold lddBits
  omega

theorem srcBits_lt (s : StSrc) : srcBits s < 20 := by
  cases s <;> simp only [srcBits] <;> omega

theorem moveBits_lt (m : Sys2Proof.Move) : moveBits m < 2 ^ 18 := by
  cases m with
  | none => decide
  | ldd f =>
    have hf := lddBits_lt f
    simp only [moveBits]
    omega
  | ld d p m =>
    have hm := modCode_lt m
    simp only [moveBits]
    omega
  | st s p m =>
    have hs := srcBits_lt s
    have hm := modCode_lt m
    simp only [moveBits]
    omega

theorem aluBBits_lt (b : AluB) : aluBBits b < 2 ^ 17 := by
  cases b <;> simp only [aluBBits] <;> omega

theorem countBits_lt (n : ShCount) : countBits n < 2 ^ 17 := by
  cases n <;> simp only [countBits] <;> omega

theorem addBits_lt (f : AddForm) : addBits f < 2 ^ 26 := by
  cases f with
  | data d a b =>
    have hb := aluBBits_lt b
    simp only [addBits, dataBits]
    omega
  | acc d a b =>
    simp only [addBits, accBits]
    omega

theorem logicBits_lt (f : LogicForm) : logicBits f < 2 ^ 26 := by
  have hb := aluBBits_lt f.b
  simp only [logicBits, dataBits]
  omega

theorem shiftBits_lt (f : ShiftForm) : shiftBits f < 2 ^ 26 := by
  cases f with
  | data d a n | acc d a n =>
    have hn := countBits_lt n
    simp only [shiftBits, dataBits, accBits]
    omega

theorem normBits_lt (f : NormForm) : normBits f < 2 ^ 26 := by
  cases f <;> simp only [normBits, dataBits, toDataBits] <;> omega

theorem rndBits_lt (f : RndForm) : rndBits f < 2 ^ 26 := by
  cases f <;> simp only [rndBits, dataBits, toDataBits] <;> omega

theorem satBits_lt (f : SatForm) : satBits f < 2 ^ 26 := by
  cases f <;> simp only [satBits, dataBits, accBits] <;> omega

theorem cmpBits_lt (f : CmpForm) : cmpBits f < 2 ^ 26 := by
  cases f with
  | data a b =>
    have hb := aluBBits_lt b
    simp only [cmpBits, dataBits]
    omega
  | acc a b =>
    simp only [cmpBits, accBits]
    omega

/-- I stands at bit 14 in LD and at bit 15 in ST (R486). -/
theorem addrBits_lt {i : Nat} (hi : i = 14 ∨ i = 15) (ad : Addr) : addrBits i ad < 2 ^ (i + 3) := by
  cases ad with
  | post m =>
    have hm := modCode_lt m
    rcases hi with rfl | rfl <;> simp only [addrBits] <;> omega
  | disp d => rcases hi with rfl | rfl <;> simp only [addrBits] <;> omega

/-- ST leaves bit 14 zero below I (R486). -/
theorem addrBits_bit14 (ad : Addr) : addrBits 15 ad / 2 ^ 14 % 2 = 0 := by
  cases ad <;> simp only [addrBits] <;> omega

theorem ldBits_lt (f : LdForm) : ldBits f < 2 ^ 26 := by
  cases f with
  | mem d p ad =>
    have had := addrBits_lt (.inl rfl) ad
    simp only [ldBits]
    omega
  | immLow r v | immHigh r v | reg r v =>
    simp only [ldBits]
    omega

theorem stBits_lt (f : StForm) : stBits f < 2 ^ 26 := by
  have hs := srcBits_lt f.src
  have had := addrBits_lt (.inr rfl) f.ad
  unfold stBits
  omega

theorem targetBits_lt (t : BrTarget) : targetBits t < 2 ^ 22 := by
  cases t <;> simp only [targetBits] <;> omega

theorem acsBits_lt (f : AcsForm) : acsBits f < 2 ^ 26 := by
  have hha := f.ha.toNat_lt
  have hhb := f.hb.toNat_lt
  have hsw := f.sw.toNat_lt
  unfold acsBits
  omega

theorem bexpBits_lt (f : BexpForm) : bexpBits f < 2 ^ 26 := by
  have hma := modCode_lt f.ma
  have hmb := modCode_lt f.mb
  have hclr := f.clr.toNat_lt
  unfold bexpBits
  omega

theorem mulWord_lt {kind : Nat} (hkind : kind < 4) (f : MulFields) : mulWord kind f < 2 ^ 32 := by
  have hmv := moveBits_lt f.mv
  have hdual := f.dual.toNat_lt
  unfold mulWord
  omega

/-! ### A part is read back from a word that holds its encoding -/

section
variable {w : Word}

/-- A field is the value that stands at its bits. -/
theorem fld_eq {hi lo v : Nat} (h : w.toNat / 2 ^ lo % 2 ^ (hi + 1 - lo) = v) : fld w hi lo = v := h

/-- A one-bit field that holds a flag is read as the flag. -/
theorem flag_of_fld {hi lo : Nat} {b : Bool} (h : fld w hi lo = b.toNat) : (fld w hi lo == 1) = b := by
  rw [h]
  cases b <;> rfl

theorem lddOf_of_bits {f : LddFields} (hok : lddOk f = true) (h : w.toNat % 2 ^ 16 = lddBits f) : lddOf w = some f := by
  have hma := modCode_lt f.ma
  have hmb := modCode_lt f.mb
  unfold lddBits at h
  have h15 : fld w 15 13 = f.da.val := fld_eq (by omega)
  have h12 : fld w 12 10 = f.db.val := fld_eq (by omega)
  have h9 : fld w 9 7 = f.pa.val := fld_eq (by omega)
  have h6 : fld w 6 4 = f.pb.val := fld_eq (by omega)
  have h3 : fld w 3 2 = modCode f.ma := fld_eq (by omega)
  have h1 : fld w 1 0 = modCode f.mb := fld_eq (by omega)
  have hne : f.pa.val ≠ f.pb.val := by simpa [lddOk, Fin.ext_iff] using hok
  simp [lddOf, h15, h12, h9, h6, h3, h1, hne]

theorem stSrcOf_of_bits {s src : Nat} {x : StSrc} (hs : src < 16) (h : s * 16 + src = srcBits x) :
    stSrcOf s src = some x := by
  cases x with
  | data n =>
    simp only [srcBits] at h
    obtain ⟨rfl, rfl⟩ : s = 0 ∧ src = n.val := by omega
    simp [stSrcOf]
  | acc a =>
    simp only [srcBits] at h
    obtain ⟨rfl, rfl⟩ : s = 1 ∧ src = a.val := by omega
    simp [stSrcOf]

theorem moveOf_of_bits {m : Sys2Proof.Move} (hok : moveOk m = true) (h : w.toNat % 2 ^ 18 = moveBits m) :
    moveOf w = some m := by
  cases m with
  | none =>
    simp only [moveBits] at h
    have hmv : fld w 17 16 = 0 := fld_eq (by omega)
    have hz : fld w 15 0 = 0 := fld_eq (by omega)
    simp [moveOf, hmv, hz]
  | ldd f =>
    have hf := lddBits_lt f
    simp only [moveBits] at h
    have hmv : fld w 17 16 = 1 := fld_eq (by omega)
    have hldd : lddOf w = some f := lddOf_of_bits hok (by omega)
    simp [moveOf, hmv, hldd]
  | ld d p m =>
    have hm := modCode_lt m
    simp only [moveBits] at h
    have hmv : fld w 17 16 = 2 := fld_eq (by omega)
    have hz : fld w 6 0 = 0 := fld_eq (by omega)
    have hd : fld w 15 12 = d.val := fld_eq (by omega)
    have hp : fld w 11 9 = p.val := fld_eq (by omega)
    have hmod : fld w 8 7 = modCode m := fld_eq (by omega)
    simp [moveOf, hmv, hz, hd, hp, hmod]
  | st s p m =>
    have hs := srcBits_lt s
    have hm := modCode_lt m
    simp only [moveBits] at h
    have hmv : fld w 17 16 = 3 := fld_eq (by omega)
    have hz : fld w 5 0 = 0 := fld_eq (by omega)
    have hsrc : stSrcOf (fld w 15 15) (fld w 14 11) = some s := stSrcOf_of_bits (by unfold fld; omega) (by unfold fld; omega)
    have hp : fld w 10 8 = p.val := fld_eq (by omega)
    have hmod : fld w 7 6 = modCode m := fld_eq (by omega)
    simp [moveOf, hmv, hz, hsrc, hp, hmod]

theorem aluBOf_of_bits {b : AluB} (h : w.toNat % 2 ^ 17 = aluBBits b) : aluBOf w = some b := by
  cases b with
  | reg n =>
    simp only [aluBBits] at h
    have hi : fld w 16 16 = 0 := fld_eq (by omega)
    have hz : fld w 15 4 = 0 := fld_eq (by omega)
    have hn : fld w 3 0 = n.val := fld_eq (by omega)
    simp [aluBOf, hi, hz, hn]
  | imm v =>
    simp only [aluBBits] at h
    have hi : fld w 16 16 = 1 := fld_eq (by omega)
    have hv : fld w 15 0 = v.toNat := fld_eq (by omega)
    simp [aluBOf, hi, hv]

theorem countOf_of_bits {lim : Nat} {n : ShCount} (hlim : ∀ v, n = .imm v → v.val < lim)
    (h : w.toNat % 2 ^ 17 = countBits n) : countOf w lim = some n := by
  cases n with
  | reg n =>
    simp only [countBits] at h
    have hi : fld w 16 16 = 0 := fld_eq (by omega)
    have hz : fld w 15 4 = 0 := fld_eq (by omega)
    have hn : fld w 3 0 = n.val := fld_eq (by omega)
    simp [countOf, hi, hz, hn]
  | imm v =>
    simp only [countBits] at h
    have hi : fld w 16 16 = 1 := fld_eq (by omega)
    have hv : fld w 15 0 = v.val := fld_eq (by omega)
    simp [countOf, hi, hv, hlim v rfl]

theorem widthOf_of_bits {n : Fin 32} (hn : 8 ≤ n.val) (h : w.toNat % 2 ^ 17 = 2 ^ 16 + n.val) : widthOf w = some n := by
  have hi : fld w 16 16 = 1 := fld_eq (by omega)
  have hv : fld w 15 0 = n.val := fld_eq (by omega)
  have hle : n.val ≤ 31 := by omega
  simp [widthOf, hi, hv, hn, hle]

theorem addrOf_of_bits {k mod i disp : Nat} {ad : Addr} (hk : k = 14 ∨ k = 15) (hi : i < 2) (hdisp : disp < 2 ^ 14)
    (h : mod * 2 ^ (k + 1) + i * 2 ^ k + disp = addrBits k ad) : addrOf mod i disp = some ad := by
  cases ad with
  | post m =>
    simp only [addrBits] at h
    obtain ⟨rfl, rfl, rfl⟩ : mod = modCode m ∧ i = 0 ∧ disp = 0 := by rcases hk with rfl | rfl <;> omega
    simp [addrOf]
  | disp d =>
    simp only [addrBits] at h
    obtain ⟨rfl, rfl, rfl⟩ : mod = 0 ∧ i = 1 ∧ disp = d.toNat := by rcases hk with rfl | rfl <;> omega
    simp [addrOf]

theorem targetOf_of_bits {t : BrTarget} (h : w.toNat % 2 ^ 22 = targetBits t) : targetOf w = some t := by
  cases t with
  | imm v =>
    simp only [targetBits] at h
    have hr : fld w 21 21 = 0 := fld_eq (by omega)
    have hz : fld w 20 14 = 0 := fld_eq (by omega)
    have hv : fld w 13 0 = v.toNat := fld_eq (by omega)
    simp [targetOf, hr, hz, hv]
  | reg n =>
    simp only [targetBits] at h
    have hr : fld w 21 21 = 1 := fld_eq (by omega)
    have hz : fld w 20 18 = 0 := fld_eq (by omega)
    have hz' : fld w 13 0 = 0 := fld_eq (by omega)
    have hn : fld w 17 14 = n.val := fld_eq (by omega)
    simp [targetOf, hr, hz, hz', hn]

theorem condOf_val (c : Cond) : condOf c.val = some c := by simp [condOf]

/-! ### Destination and source A of the two forms -/

/-- The data form: T clear, Dd and Da above the 17 bits of source B. -/
theorem dataForm_of_bits {d a : Fin 16} {r : Nat} (hr : r < 2 ^ 17) (h : w.toNat % 2 ^ 26 = dataBits d a + r) :
    fld w 25 25 = 0 ∧ dataDest w = d ∧ dataSrcA w = a ∧ w.toNat % 2 ^ 17 = r := by
  unfold dataBits at h
  have hd : fld w 24 21 = d.val := fld_eq (by omega)
  have ha : fld w 20 17 = a.val := fld_eq (by omega)
  exact ⟨fld_eq (by omega), by simp [dataDest, hd], by simp [dataSrcA, ha], by omega⟩

/-- The accumulator form: T set, Ad and Aa in the low two bits of their fields. -/
theorem accForm_of_bits {d a : Fin 4} {r : Nat} (hr : r < 2 ^ 17) (h : w.toNat % 2 ^ 26 = accBits d a + r) :
    fld w 25 25 = 1 ∧ accDest w = some d ∧ accSrcA w = some a ∧ w.toNat % 2 ^ 17 = r := by
  unfold accBits at h
  have hdz : fld w 24 23 = 0 := fld_eq (by omega)
  have hd : fld w 22 21 = d.val := fld_eq (by omega)
  have haz : fld w 20 19 = 0 := fld_eq (by omega)
  have ha : fld w 18 17 = a.val := fld_eq (by omega)
  exact ⟨fld_eq (by omega), by simp [accDest, hdz, hd], by simp [accSrcA, haz, ha], by omega⟩

/-- The form from an accumulator to a data register: T set, nothing in the bits of source B. -/
theorem toDataForm_of_bits {d : Fin 16} {a : Fin 4} (h : w.toNat % 2 ^ 26 = toDataBits d a) :
    fld w 25 25 = 1 ∧ dataDest w = d ∧ accSrcA w = some a ∧ fld w 16 0 = 0 := by
  unfold toDataBits at h
  have hd : fld w 24 21 = d.val := fld_eq (by omega)
  have haz : fld w 20 19 = 0 := fld_eq (by omega)
  have ha : fld w 18 17 = a.val := fld_eq (by omega)
  exact ⟨fld_eq (by omega), by simp [dataDest, hd], by simp [accSrcA, haz, ha], fld_eq (by omega)⟩

theorem accSrcB_of_bits {b : Fin 4} (h : w.toNat % 2 ^ 17 = b.val) : accSrcB w = some b := by
  have hi : fld w 16 16 = 0 := fld_eq (by omega)
  have hz : fld w 15 2 = 0 := fld_eq (by omega)
  have hb : fld w 1 0 = b.val := fld_eq (by omega)
  simp [accSrcB, hi, hz, hb]

/-! ### The form of an instruction is read back from the bits below its opcode -/

theorem addOf_of_bits {f : AddForm} (h : w.toNat % 2 ^ 26 = addBits f) : addOf w = some f := by
  cases f with
  | data d a b =>
    obtain ⟨ht, hd, ha, hb⟩ := dataForm_of_bits (aluBBits_lt b) h
    simp [addOf, ht, hd, ha, aluBOf_of_bits hb]
  | acc d a b =>
    obtain ⟨ht, hd, ha, hb⟩ := accForm_of_bits (by omega) h
    simp [addOf, ht, hd, ha, accSrcB_of_bits hb]

theorem logicOf_of_bits {f : LogicForm} (h : w.toNat % 2 ^ 26 = logicBits f) : logicOf w = some f := by
  obtain ⟨ht, hd, ha, hb⟩ := dataForm_of_bits (aluBBits_lt f.b) h
  simp [logicOf, ht, hd, ha, aluBOf_of_bits hb]

theorem shiftOf_of_bits {f : ShiftForm} (hok : shiftOk f = true) (h : w.toNat % 2 ^ 26 = shiftBits f) :
    shiftOf w = some f := by
  cases f with
  | data d a n =>
    obtain ⟨ht, hd, ha, hn⟩ := dataForm_of_bits (countBits_lt n) h
    have hcount : countOf w 32 = some n := countOf_of_bits (by rintro v rfl; simpa [shiftOk] using hok) hn
    simp [shiftOf, ht, hd, ha, hcount]
  | acc d a n =>
    obtain ⟨ht, hd, ha, hn⟩ := accForm_of_bits (countBits_lt n) h
    have hcount : countOf w 72 = some n := countOf_of_bits (fun v _ => v.isLt) hn
    simp [shiftOf, ht, hd, ha, hcount]

theorem normOf_of_bits {f : NormForm} (h : w.toNat % 2 ^ 26 = normBits f) : normOf w = some f := by
  cases f with
  | data d a =>
    simp only [normBits] at h
    obtain ⟨ht, hd, ha, hz⟩ := dataForm_of_bits (by decide) (h.trans (Nat.add_zero _).symm)
    have hz : fld w 16 0 = 0 := fld_eq (by omega)
    simp [normOf, ht, hd, ha, hz]
  | acc d a =>
    obtain ⟨ht, hd, ha, hz⟩ := toDataForm_of_bits h
    simp [normOf, ht, hd, ha, hz]

theorem rndOf_of_bits {f : RndForm} (hok : rndOk f = true) (h : w.toNat % 2 ^ 26 = rndBits f) : rndOf w = some f := by
  cases f with
  | narrow d a =>
    obtain ⟨ht, hd, ha, hz⟩ := toDataForm_of_bits h
    simp [rndOf, ht, hd, ha, hz]
  | data d a n =>
    simp only [rndBits, Nat.add_assoc] at h
    obtain ⟨ht, hd, ha, hn⟩ := dataForm_of_bits (by omega) h
    simp [rndOf, ht, hd, ha, widthOf_of_bits (of_decide_eq_true hok) hn]

theorem satOf_of_bits {f : SatForm} (hok : satOk f = true) (h : w.toNat % 2 ^ 26 = satBits f) : satOf w = some f := by
  cases f with
  | acc d a =>
    simp only [satBits] at h
    obtain ⟨ht, hd, ha, hz⟩ := accForm_of_bits (by decide) (h.trans (Nat.add_zero _).symm)
    have hz : fld w 16 0 = 0 := fld_eq (by omega)
    simp [satOf, ht, hd, ha, hz]
  | data d a n =>
    simp only [satBits, Nat.add_assoc] at h
    obtain ⟨ht, hd, ha, hn⟩ := dataForm_of_bits (by omega) h
    simp [satOf, ht, hd, ha, widthOf_of_bits (of_decide_eq_true hok) hn]

theorem cmpOf_of_bits {f : CmpForm} (h : w.toNat % 2 ^ 26 = cmpBits f) : cmpOf w = some f := by
  cases f with
  | data a b =>
    have hb := aluBBits_lt b
    obtain ⟨ht, -, ha, hlow⟩ := dataForm_of_bits hb h
    simp only [cmpBits, dataBits] at h
    have hd : fld w 24 21 = 0 := fld_eq (by omega)
    simp [cmpOf, ht, hd, ha, aluBOf_of_bits hlow]
  | acc a b =>
    obtain ⟨ht, -, ha, hlow⟩ := accForm_of_bits (by omega) h
    simp only [cmpBits, accBits] at h
    have hd : fld w 24 21 = 0 := fld_eq (by omega)
    simp [cmpOf, ht, hd, ha, accSrcB_of_bits hlow]

theorem ldOf_of_bits {f : LdForm} (h : w.toNat % 2 ^ 26 = ldBits f) : ldOf w = some f := by
  cases f with
  | mem d p ad =>
    have had := addrBits_lt (.inl rfl) ad
    simp only [ldBits] at h
    have hk : fld w 25 24 = 0 := fld_eq (by omega)
    have hd : fld w 23 20 = d.val := fld_eq (by omega)
    have hp : fld w 19 17 = p.val := fld_eq (by omega)
    have haddr : addrOf (fld w 16 15) (fld w 14 14) (fld w 13 0) = some ad :=
      addrOf_of_bits (.inl rfl) (by unfold fld; omega) (by unfold fld; omega) (by unfold fld; omega)
    simp [ldOf, hk, hd, hp, haddr]
  | immLow r v =>
    simp only [ldBits] at h
    have hk : fld w 25 24 = 1 := fld_eq (by omega)
    have hr : fld w 23 18 = r.val := fld_eq (by omega)
    have hz : fld w 17 16 = 0 := fld_eq (by omega)
    have hv : fld w 15 0 = v.toNat := fld_eq (by omega)
    simp [ldOf, hk, hr, hz, hv]
  | immHigh r v =>
    simp only [ldBits] at h
    have hk : fld w 25 24 = 2 := fld_eq (by omega)
    have hr : fld w 23 18 = r.val := fld_eq (by omega)
    have hz : fld w 17 16 = 0 := fld_eq (by omega)
    have hv : fld w 15 0 = v.toNat := fld_eq (by omega)
    simp [ldOf, hk, hr, hz, hv]
  | reg d q =>
    simp only [ldBits] at h
    have hk : fld w 25 24 = 3 := fld_eq (by omega)
    have hd : fld w 23 18 = d.val := fld_eq (by omega)
    have hq : fld w 17 12 = q.val := fld_eq (by omega)
    have hz : fld w 11 0 = 0 := fld_eq (by omega)
    simp [ldOf, hk, hd, hq, hz]

theorem stOf_of_bits {f : StForm} (h : w.toNat % 2 ^ 26 = stBits f) : stOf w = some f := by
  have hsrcLt := srcBits_lt f.src
  have haddrLt := addrBits_lt (.inr rfl) f.ad
  have haddrGap := addrBits_bit14 f.ad
  unfold stBits at h
  have hz : fld w 14 14 = 0 := fld_eq (by omega)
  have hp : fld w 20 18 = f.p.val := fld_eq (by omega)
  have hsrc : stSrcOf (fld w 25 25) (fld w 24 21) = some f.src :=
    stSrcOf_of_bits (by unfold fld; omega) (by unfold fld; omega)
  have haddr : addrOf (fld w 17 16) (fld w 15 15) (fld w 13 0) = some f.ad :=
    addrOf_of_bits (.inr rfl) (by unfold fld; omega) (by unfold fld; omega) (by unfold fld; omega)
  simp [stOf, hz, hp, hsrc, haddr]

theorem decodeOp_acs_of_bits {f : AcsForm} (hop : fld w 30 26 = 0x18) (h : w.toNat % 2 ^ 26 = acsBits f) :
    decodeOp w = some (.acs f) := by
  have hhaLt := f.ha.toNat_lt
  have hhbLt := f.hb.toNat_lt
  have hswLt := f.sw.toNat_lt
  unfold acsBits at h
  have hz : fld w 6 0 = 0 := fld_eq (by omega)
  have hd : fld w 25 22 = f.d.val := fld_eq (by omega)
  have ha : fld w 21 18 = f.a.val := fld_eq (by omega)
  have hb : fld w 17 14 = f.b.val := fld_eq (by omega)
  have hl : fld w 13 10 = f.l.val := fld_eq (by omega)
  have hha : (fld w 9 9 == 1) = f.ha := flag_of_fld (fld_eq (by omega))
  have hhb : (fld w 8 8 == 1) = f.hb := flag_of_fld (fld_eq (by omega))
  have hsw : (fld w 7 7 == 1) = f.sw := flag_of_fld (fld_eq (by omega))
  simp [decodeOp, hop, hz, hd, ha, hb, hl, hha, hhb, hsw]

theorem bexpOf_of_bits {f : BexpForm} (hok : bexpOk f = true) (h : w.toNat % 2 ^ 26 = bexpBits f) : bexpOf w = some f := by
  have hmaLt := modCode_lt f.ma
  have hmbLt := modCode_lt f.mb
  have hclrLt := f.clr.toNat_lt
  unfold bexpBits at h
  have hpa : fld w 25 23 = f.pa.val := fld_eq (by omega)
  have hpb : fld w 22 20 = f.pb.val := fld_eq (by omega)
  have hma : fld w 19 18 = modCode f.ma := fld_eq (by omega)
  have hmb : fld w 17 16 = modCode f.mb := fld_eq (by omega)
  have hclr : (fld w 15 15 == 1) = f.clr := flag_of_fld (fld_eq (by omega))
  have hz : fld w 14 12 = 0 := fld_eq (by omega)
  have hn : fld w 11 0 = f.n.toNat := fld_eq (by omega)
  obtain ⟨hp, hn0⟩ : f.pa.val ≠ f.pb.val ∧ f.n ≠ 0 := by simpa [bexpOk, Fin.ext_iff] using hok
  have hn0 : f.n.toNat ≠ 0 := fun h0 => hn0 (BitVec.eq_of_toNat_eq h0)
  simp [bexpOf, hpa, hpb, hma, hmb, hclr, hz, hn, hp, hn0]

theorem coopDecode_of_mulBits {kind : Nat} {f : MulFields} (hkind : kind < 3) (hok : moveOk f.mv = true)
    (h : w.toNat = mulWord kind f) :
    coopDecode w = some (if kind = 0 then .mac f else if kind = 1 then .msu f else .mpy f) := by
  have hmvLt := moveBits_lt f.mv
  have hdualLt := f.dual.toNat_lt
  unfold mulWord at h
  have hmv : moveOf w = some f.mv := moveOf_of_bits hok (by omega)
  have hfmt : fld w 31 31 = 1 := fld_eq (by omega)
  have hk : fld w 30 29 = kind := fld_eq (by omega)
  have hdual : (fld w 28 28 == 1) = f.dual := flag_of_fld (fld_eq (by omega))
  have ha : fld w 27 26 = f.a.val := fld_eq (by omega)
  have hx : fld w 25 22 = f.x.val := fld_eq (by omega)
  have hy : fld w 21 18 = f.y.val := fld_eq (by omega)
  obtain rfl | rfl | rfl : kind = 0 ∨ kind = 1 ∨ kind = 2 := by omega
  all_goals simp [coopDecode, decodeMul, hmv, hfmt, hk, hdual, ha, hx, hy]

end

/-! ### Whole words -/

/-- A word of the opcode format decodes by its opcode and the bits below it. -/
theorem coopDecode_opWord {op rest : Nat} {i : CoopOp} (hop : op < 32) (hrest : rest < 2 ^ 26)
    (h : ∀ w : Word, fld w 30 26 = op → w.toNat % 2 ^ 26 = rest → decodeOp w = some i) :
    coopDecode (BitVec.ofNat 32 (opWord op rest)) = some i := by
  have hw : (BitVec.ofNat 32 (opWord op rest)).toNat = opWord op rest :=
    BitVec.toNat_ofNat .. |>.trans (Nat.mod_eq_of_lt (by unfold opWord; omega))
  generalize BitVec.ofNat 32 (opWord op rest) = w at hw
  unfold opWord at hw
  have hop31 : fld w 31 31 = 0 := fld_eq (by omega)
  simpa [coopDecode, hop31] using h w (fld_eq (by omega)) (by omega)

/-- A word of the multiply format decodes by its kind, with every field as it was. -/
theorem coopDecode_mulWord {kind : Nat} {f : MulFields} (hkind : kind < 3) (hok : moveOk f.mv = true) :
    coopDecode (BitVec.ofNat 32 (mulWord kind f)) =
      some (if kind = 0 then .mac f else if kind = 1 then .msu f else .mpy f) :=
  coopDecode_of_mulBits hkind hok
    ((BitVec.toNat_ofNat ..).trans (Nat.mod_eq_of_lt (mulWord_lt (Nat.lt_succ_of_lt hkind) f)))

/-- Settles O59: the format and the opcode select the decoder of the form, which reads the form back. -/
theorem cooperRoundTrip : Obligations.CooperRoundTrip := by
  unfold Obligations.CooperRoundTrip
  intro op hok
  cases op with
  | mac f => exact coopDecode_mulWord (by decide) hok
  | msu f => exact coopDecode_mulWord (by decide) hok
  | mpy f => exact coopDecode_mulWord (by decide) hok
  | add f => exact coopDecode_opWord (by decide) (addBits_lt f) fun w hop h => by simp [decodeOp, hop, addOf_of_bits h]
  | sub f => exact coopDecode_opWord (by decide) (addBits_lt f) fun w hop h => by simp [decodeOp, hop, addOf_of_bits h]
  | and f => exact coopDecode_opWord (by decide) (logicBits_lt f) fun w hop h => by simp [decodeOp, hop, logicOf_of_bits h]
  | or f => exact coopDecode_opWord (by decide) (logicBits_lt f) fun w hop h => by simp [decodeOp, hop, logicOf_of_bits h]
  | xor f => exact coopDecode_opWord (by decide) (logicBits_lt f) fun w hop h => by simp [decodeOp, hop, logicOf_of_bits h]
  | shl f => exact coopDecode_opWord (by decide) (shiftBits_lt f) fun w hop h => by simp [decodeOp, hop, shiftOf_of_bits hok h]
  | asr f => exact coopDecode_opWord (by decide) (shiftBits_lt f) fun w hop h => by simp [decodeOp, hop, shiftOf_of_bits hok h]
  | norm f => exact coopDecode_opWord (by decide) (normBits_lt f) fun w hop h => by simp [decodeOp, hop, normOf_of_bits h]
  | rnd f => exact coopDecode_opWord (by decide) (rndBits_lt f) fun w hop h => by simp [decodeOp, hop, rndOf_of_bits hok h]
  | sat f => exact coopDecode_opWord (by decide) (satBits_lt f) fun w hop h => by simp [decodeOp, hop, satOf_of_bits hok h]
  | cmp f => exact coopDecode_opWord (by decide) (cmpBits_lt f) fun w hop h => by simp [decodeOp, hop, cmpOf_of_bits h]
  | ld f => exact coopDecode_opWord (by decide) (ldBits_lt f) fun w hop h => by simp [decodeOp, hop, ldOf_of_bits h]
  | ldd f =>
    have hf := lddBits_lt f
    exact coopDecode_opWord (by decide) (by omega) fun w hop h => by
      have hz : fld w 25 16 = 0 := fld_eq (by omega)
      simp [decodeOp, hop, hz, lddOf_of_bits hok (w := w) (by omega)]
  | st f => exact coopDecode_opWord (by decide) (stBits_lt f) fun w hop h => by simp [decodeOp, hop, stOf_of_bits h]
  | br c t =>
    have ht := targetBits_lt t
    exact coopDecode_opWord (by decide) (by omega) fun w hop h => by
      have hc : fld w 25 22 = c.val := fld_eq (by omega)
      simp [decodeOp, hop, hc, condOf_val, targetOf_of_bits (w := w) (t := t) (by omega)]
  | call t =>
    have ht := targetBits_lt t
    exact coopDecode_opWord (by decide) (by omega) fun w hop h => by
      have hz : fld w 25 22 = 0 := fld_eq (by omega)
      simp [decodeOp, hop, hz, targetOf_of_bits (w := w) (t := t) (by omega)]
  | ret | blkdone | halt =>
    exact coopDecode_opWord (by decide) (by decide) fun w hop h => by
      have hz : fld w 25 0 = 0 := fld_eq (by omega)
      simp [decodeOp, hop, hz]
  | rep l c =>
    have hc : c.toNat ≠ 0 := fun h0 => by simp [CoopOp.wf, BitVec.eq_of_toNat_eq (y := 0#16) h0] at hok
    exact coopDecode_opWord (by decide) (by omega) fun w hop h => by
      have hl : fld w 25 16 = l.val := fld_eq (by omega)
      have hcount : fld w 15 0 = c.toNat := fld_eq (by omega)
      simp [decodeOp, hop, hl, hcount, hc]
  | repReg l n =>
    exact coopDecode_opWord (by decide) (by omega) fun w hop h => by
      have hl : fld w 25 16 = l.val := fld_eq (by omega)
      have hz : fld w 15 4 = 0 := fld_eq (by omega)
      have hn : fld w 3 0 = n.val := fld_eq (by omega)
      simp [decodeOp, hop, hl, hz, hn]
  | endrep c =>
    exact coopDecode_opWord (by decide) (by omega) fun w hop h => by
      have hc : fld w 25 22 = c.val := fld_eq (by omega)
      have hz : fld w 21 0 = 0 := fld_eq (by omega)
      simp [decodeOp, hop, hc, hz, condOf_val]
  | wait m =>
    exact coopDecode_opWord (by decide) (by omega) fun w hop h => by
      have hz : fld w 25 4 = 0 := fld_eq (by omega)
      have hm : fld w 3 0 = m.toNat := fld_eq (by omega)
      simp [decodeOp, hop, hz, hm]
  | acs f => exact coopDecode_opWord (by decide) (acsBits_lt f) fun w hop h => decodeOp_acs_of_bits hop h
  | bexp f => exact coopDecode_opWord (by decide) (bexpBits_lt f) fun w hop h => by simp [decodeOp, hop, bexpOf_of_bits hok h]

end Sys2Proof.Machine

/-! # Cooper arithmetic and trellis instructions

The instructions that compute (R490 to R493) and those that serve decoders (R499, R500): what each leaves in its core,
over one rule for an instruction that issues. -/

namespace Sys2Proof.Machine

open Sys2Proof.Safety

/-! ### An instruction that issues -/

section
variable {k : Fin 4} {op : CoopOp} {body : Core → CoopRes} {s : State}

theorem issues_iff : issues k op s = true ↔ executing (coreOf s k) = true ∧ fetched (coreOf s k) = some op ∧
    atBreak (coreOf s k) = false ∧ (endsFlow op && (coreOf s k).reps.any (fun l => l.last == (coreOf s k).pc)) = false := by
  simp only [issues, Bool.and_eq_true, Bool.not_eq_true', beq_iff_eq, and_assoc]

/-- An instruction that issues leaves the core that its body leaves. -/
theorem coopExec_go {c : Core} (h : issues k op s = true) (hbody : body (coreOf s k) = .go c) :
    coopExec k op body s = .next (went k c s) := by
  obtain ⟨hruns, hfetched, hbreak, hflow⟩ := issues_iff.mp h
  simp [coopExec, hruns, hfetched, hbreak, hflow, hbody, went]

/-- An instruction that issues traps as its body does. -/
theorem coopExec_trap {r : Nat} {c : Core} (h : issues k op s = true) (hbody : body (coreOf s k) = .trap r c) :
    coopExec k op body s = .next (trappedAs k r c s) := by
  obtain ⟨hruns, hfetched, hbreak, hflow⟩ := issues_iff.mp h
  simp [coopExec, hruns, hfetched, hbreak, hflow, hbody, trappedAs, went]

/-- An instruction that only writes registers retires after one cycle. -/
theorem coopExec_regs {g : CoopRegs} (h : issues k op s = true) (hbody : body (coreOf s k) = seqRegs g (coreOf s k)) :
    coopExec k op body s = .next (retired k 1 { coreOf s k with regs := g } s) := coopExec_go h hbody

end

/-! ### Bits of SR -/

theorem getLsbD_srMask (i j : Nat) : (BitVec.ofNat 13 (2 ^ j)).getLsbD i = (decide (i < 13) && decide (j = i)) := by
  rw [BitVec.getLsbD_ofNat, Nat.testBit_two_pow]

theorem srBit_srPut_same (r : BitVec 13) {j : Nat} (b : Bool) (hj : j < 13) : srBit (srPut r j b) j = b := by
  cases b <;> simp only [srBit, srPut, Bool.false_eq_true, if_true, if_false, BitVec.getLsbD_or, BitVec.getLsbD_and,
    BitVec.getLsbD_not, getLsbD_srMask] <;> simp [hj]

theorem srBit_srPut_ne (r : BitVec 13) {i j : Nat} (b : Bool) (hij : j ≠ i) : srBit (srPut r j b) i = srBit r i := by
  cases b <;> simp only [srBit, srPut, Bool.false_eq_true, if_true, if_false, BitVec.getLsbD_or, BitVec.getLsbD_and,
    BitVec.getLsbD_not, getLsbD_srMask]
  · by_cases hi : i < 13
    · simp [hi, hij]
    · simp [hi, BitVec.getLsbD_of_ge r i (Nat.le_of_not_lt hi)]
  · simp [hij]

/-! ### Results within their width and beyond it (R491, R493) -/

section
variable {r : BitVec 13} {a : Fin 4} {x : Int}

theorem over72_eq_true_iff : over72 x = true ↔ x < -2361183241434822606848 ∨ 2361183241434822606847 < x := by
  simp [over72]

theorem over32_eq_true_iff : over32 x = true ↔ x < -2147483648 ∨ 2147483647 < x := by
  simp [over32]

/-- The signed reading of a value modulo 2^32. -/
theorem signed_emod (x : Int) : signed 32 (x % 4294967296).toNat = (BitVec.ofInt 32 x).toInt := by
  rw [BitVec.toInt_ofInt, Int.bmod_def]
  unfold signed
  split <;> omega

theorem satS_72_of_over (h : over72 x = true) :
    satS 72 x = if x < 0 then -2361183241434822606848 else 2361183241434822606847 := by
  rw [satS, clampI]
  rcases over72_eq_true_iff.mp h with hlow | hhigh
  · rw [if_pos (by omega), if_pos (by omega)]
    rfl
  · rw [if_neg (by omega), if_pos (by omega), if_neg (by omega)]
    rfl

theorem satS_32_of_over (h : over32 x = true) : satS 32 x = if x < 0 then -2147483648 else 2147483647 := by
  rw [satS, clampI]
  rcases over32_eq_true_iff.mp h with hlow | hhigh
  · rw [if_pos (by omega), if_pos (by omega)]
    rfl
  · rw [if_neg (by omega), if_pos (by omega), if_neg (by omega)]
    rfl

theorem accResult_within (h : over72 x = false) : accResult r a x = (BitVec.ofInt 72 x, r) := by
  simp [accResult, h]

theorem accResult_wraps (h : over72 x = true) (hsat : srBit r bitAsat = false) :
    accResult r a x = (BitVec.ofInt 72 x, srPut r a true) := by
  simp [accResult, h, hsat]

theorem accResult_clamps (h : over72 x = true) (hsat : srBit r bitAsat = true) : accResult r a x =
    (BitVec.ofInt 72 (if x < 0 then -2361183241434822606848 else 2361183241434822606847),
      srPut (srPut r a true) bitSov true) := by
  simp [accResult, h, hsat, satS_72_of_over h]

theorem dataResult_wraps (h : over32 x = false ∨ srBit r bitDsat = false) :
    dataResult r x = ((BitVec.ofInt 32 x).toInt, r) := by
  rw [← signed_emod]
  rcases h with h | h <;> simp [dataResult, h]

theorem dataResult_clamps (h : over32 x = true) (hsat : srBit r bitDsat = true) :
    dataResult r x = (if x < 0 then -2147483648 else 2147483647, srPut r bitSov true) := by
  simp [dataResult, h, hsat, satS_32_of_over h]

end

/-! ### Multiplies (R490) -/

theorem mulBody_unmoved (k : Nat) (o : Int → Int → Int) {f : MulFields} (hmv : f.mv = .none) (c : Core) :
    mulBody k o f c = seqRegs (multiplied o f c.regs) c := by
  rw [mulBody, hmv]
  cases hdual : f.dual <;> simp [multiplied, mulOne, doMove, hdual]

/-! ### ADD, SUB and CMP (R485, R493) -/

theorem addData_eq (d : Nat) (x : Int) (carry : Bool) (c : Core) :
    addData d x carry c = seqRegs { putD d (BitVec.ofInt 32 (dataResult c.regs.sr x).1) c.regs with
      sr := srZNVC (dataResult c.regs.sr x).2 (dataResult c.regs.sr x).1 (over32 x) carry } c := by
  simp only [addData, resD]

theorem addAcc_eq (d : Fin 4) (x : Int) (c : Core) :
    addAcc d x c = seqRegs { putA d (accResult c.regs.sr d x).1 c.regs with
      sr := srZN (accResult c.regs.sr d x).2 (accResult c.regs.sr d x).1.toInt } c := by
  simp only [addAcc]

/-- Settles O54: exact results, and how accumulators and data registers take them. -/
theorem cooperArithmetic : Obligations.CooperArithmetic := by
  unfold Obligations.CooperArithmetic
  refine ⟨fun k f s i op o hmem h hmv => ?multiply, fun r a x => ⟨fun hlo hhi => ?accWithin, fun hover => ?accOver⟩,
    fun r x => ⟨fun hlo hhi => ?dataWithin, fun hover => ?dataOver⟩,
    fun k d a b s => ⟨fun h => ?addData, fun h => ?subData, fun h => ?cmpData⟩,
    fun k d a b s => ⟨fun h => ?addAcc, fun h => ?subAcc, fun h => ?cmpAcc⟩⟩
  case multiply =>
    simp only [multiplies, List.mem_cons, List.not_mem_nil, or_false, Prod.mk.injEq] at hmem
    rcases hmem with ⟨rfl, rfl, rfl⟩ | ⟨rfl, rfl, rfl⟩ | ⟨rfl, rfl, rfl⟩ <;>
      exact coopExec_regs h (mulBody_unmoved k _ hmv _)
  case accWithin =>
    have hin : over72 x = false := by
      rw [Bool.eq_false_iff, ne_eq, over72_eq_true_iff]
      omega
    have hx : (BitVec.ofInt 72 x).toInt = x := BitVec.toInt_ofInt_eq_self (by decide) (by omega) (by omega)
    simp only [accResult_within hin]
    exact ⟨hx, trivial⟩
  case accOver =>
    have hout : over72 x = true := over72_eq_true_iff.mpr hover
    have ha : a.val < 13 := by omega
    have hsov : bitSov ≠ a.val := by unfold bitSov; omega
    cases hsat : srBit r bitAsat with
    | false =>
      simp only [accResult_wraps hout hsat]
      exact ⟨srBit_srPut_same r true ha, fun _ => ⟨trivial, srBit_srPut_ne r true hsov.symm⟩,
        fun hset => absurd hset Bool.false_ne_true⟩
    | true =>
      simp only [accResult_clamps hout hsat]
      refine ⟨?_, fun hclear => absurd hclear.symm Bool.false_ne_true, fun _ => ⟨srBit_srPut_same _ true (by decide), ?_⟩⟩
      · rw [srBit_srPut_ne _ true hsov, srBit_srPut_same r true ha]
      · split <;> decide
  case dataWithin =>
    have hin : over32 x = false := by
      rw [Bool.eq_false_iff, ne_eq, over32_eq_true_iff]
      omega
    have hx : (BitVec.ofInt 32 x).toInt = x := BitVec.toInt_ofInt_eq_self (by decide) (by omega) (by omega)
    rw [dataResult_wraps (.inl hin), hx]
  case dataOver =>
    exact ⟨fun hsat => dataResult_wraps (.inr hsat), dataResult_clamps (over32_eq_true_iff.mpr hover)⟩
  case addData =>
    have hcarry : (2 : Nat) ^ 32 = 4294967296 := by simp
    rw [hcarry]
    show execAdd k _ s = _
    unfold execAdd
    refine coopExec_regs h ?_
    exact addData_eq ..
  case subData =>
    show execSub k _ s = _
    unfold execSub
    refine coopExec_regs h ?_
    exact addData_eq ..
  case cmpData =>
    show execCmp k _ s = _
    unfold execCmp
    refine coopExec_regs h ?_
    rfl
  case addAcc =>
    show execAdd k _ s = _
    unfold execAdd
    refine coopExec_regs h ?_
    exact addAcc_eq ..
  case subAcc =>
    show execSub k _ s = _
    unfold execSub
    refine coopExec_regs h ?_
    exact addAcc_eq ..
  case cmpAcc =>
    show execCmp k _ s = _
    unfold execCmp
    refine coopExec_regs h ?_
    rfl

/-! ### ACS and BEXP (R499, R500) -/

/-- The decision by the 16-bit signed difference (R499). -/
theorem survivor_eq (a b : Nat) : survivor a b =
    if (BitVec.ofNat 16 b - BitVec.ofNat 16 a).msb then (b % 65536, 1) else (a % 65536, 0) := by
  have hmsb : (BitVec.ofNat 16 b - BitVec.ofNat 16 a).msb = decide (32768 ≤ (b % 65536 + 65536 - a % 65536) % 65536) := by
    rw [BitVec.msb_eq_decide, BitVec.toNat_sub, BitVec.toNat_ofNat, BitVec.toNat_ofNat]
    congr 2
    omega
  simp [survivor, hmsb]

/-- Two decisions appended at the low end of TB. -/
theorem ofNat_append_two {d : Nat} (tb : BitVec 64) (hd : d < 4) :
    BitVec.ofNat 64 (tb.toNat * 4 + d) = (tb <<< 2) ||| BitVec.ofNat 64 d := by
  have h4 : tb.toNat * 4 + d = tb.toNat <<< 2 ||| d := by
    rw [← Nat.shiftLeft_add_eq_or_of_lt (i := 2) hd, Nat.shiftLeft_eq]
  rw [h4]
  apply BitVec.eq_of_toNat_eq
  simp

theorem survivor_bit_lt {a b v d : Nat} (h : survivor a b = (v, d)) : d < 2 := by
  rw [survivor_eq] at h
  split at h <;> cases h <;> decide

theorem beMerge_be (w : Word) (c : Core) : (beMerge w c).regs.be.toNat = min c.regs.be.toNat (normD w) := by
  have hbe := c.regs.be.isLt
  simp only [beMerge, BitVec.toNat_ofNat]
  omega

/-- What a scan of BEXP does to a core: BE never rises; memories, data registers, accumulators and SR stay. -/
def ScanKeeps (c r : Core) : Prop :=
  r.regs.be.toNat ≤ c.regs.be.toNat ∧ r.xmem = c.xmem ∧ r.ymem = c.ymem ∧ r.regs.d = c.regs.d ∧ r.regs.a = c.regs.a ∧
    r.regs.sr = c.regs.sr

theorem ScanKeeps.refl (c : Core) : ScanKeeps c c := ⟨Nat.le_refl _, rfl, rfl, rfl, rfl, rfl⟩

theorem ScanKeeps.trans {a b c : Core} (hab : ScanKeeps a b) (hbc : ScanKeeps b c) : ScanKeeps a c := by
  obtain ⟨hbe, hx, hy, hd, ha, hsr⟩ := hab
  obtain ⟨hbe', hx', hy', hd', ha', hsr'⟩ := hbc
  exact ⟨Nat.le_trans hbe' hbe, hx'.trans hx, hy'.trans hy, hd'.trans hd, ha'.trans ha, hsr'.trans hsr⟩

theorem beMerge_keeps (w : Word) (c : Core) : ScanKeeps c (beMerge w c) :=
  ⟨beMerge_be w c ▸ Nat.min_le_left .., rfl, rfl, rfl, rfl, rfl⟩

theorem ctrlRead_regs (k draw : Nat) (c : Core) (g : CoopRegs) (off : Nat) :
    ctrlRead k draw { c with regs := g } off = ctrlRead k draw c off := by
  unfold ctrlRead
  rfl

/-- A load at a given address does not depend on the registers, so not on BE. -/
theorem coreLoad_regs (k draw : Nat) (c : Core) (g : CoopRegs) (a : Nat) :
    coreLoad k draw { c with regs := g } a = coreLoad k draw c a := by
  simp only [coreLoad, ctrlRead_regs]

theorem loadAt_beMerge (k : Nat) (w : Word) (c : Core) (p : Nat) : loadAt k (beMerge w c) p = loadAt k c p :=
  coreLoad_regs ..

/-- The core after one cycle of a scan that loaded `x` and `y`. -/
def bexpCycle (f : BexpForm) (x y : Word) (c : Core) : Core :=
  let m := beMerge y (beMerge x c)
  { m with
    regs := putP f.pb (postMod c.regs f.pb f.mb) (putP f.pa (postMod c.regs f.pa f.ma) m.regs)
    cycles := c.cycles + 1 + bankClash c.regs f.pa f.pb }

theorem bexpCycle_keeps (f : BexpForm) (x y : Word) (c : Core) : ScanKeeps c (bexpCycle f x y c) :=
  (beMerge_keeps x c).trans (beMerge_keeps y _)

section
variable {k : Nat} {f : BexpForm} {n : Nat} {c : Core} {x y : Word}

theorem bexpLoop_first_refused (hx : loadAt k c f.pa = none) : bexpLoop k f (n + 1) c = (c, false) := by
  rw [bexpLoop, hx]

theorem bexpLoop_second_refused (hx : loadAt k c f.pa = some x) (hy : loadAt k c f.pb = none) :
    bexpLoop k f (n + 1) c = (beMerge x c, false) := by
  simp only [bexpLoop, hx, hy]

theorem bexpLoop_cycle (hx : loadAt k c f.pa = some x) (hy : loadAt k c f.pb = some y) :
    bexpLoop k f (n + 1) c = bexpLoop k f n (bexpCycle f x y c) := by
  simp only [bexpLoop, bexpCycle, hx, hy]

end

theorem bexpLoop_keeps (k : Nat) (f : BexpForm) (n : Nat) (c : Core) : ScanKeeps c (bexpLoop k f n c).1 := by
  induction n generalizing c with
  | zero => exact .refl c
  | succ n ih =>
    cases hx : loadAt k c f.pa with
    | none =>
      rw [bexpLoop_first_refused hx]
      exact .refl c
    | some x =>
      cases hy : loadAt k c f.pb with
      | none =>
        rw [bexpLoop_second_refused hx hy]
        exact beMerge_keeps x c
      | some y =>
        rw [bexpLoop_cycle hx hy]
        exact (bexpCycle_keeps f x y c).trans (ih _)

theorem exec_bexp {k : Fin 4} {f : BexpForm} {s : State} (h : issues k (.bexp f) s = true) :
    let c := coreOf s k
    let c0 := if f.clr then { c with regs := { c.regs with be := 31 } } else c
    let r := bexpLoop k f f.n.toNat c0
    exec (.bexp k f) s = if r.2 then .next (went k (afterInstr c.pc r.1) s) else .next (trappedAs k 2 r.1 s) := by
  intro c c0 r
  show execBexp k f s = _
  unfold execBexp
  by_cases hok : r.2 = true
  · rw [if_pos hok]
    exact coopExec_go h (if_pos hok)
  · rw [if_neg hok]
    exact coopExec_trap h (if_neg hok)

/-- ACS leaves in Dd the two survivors, and appends their decisions to TB. -/
theorem exec_acs {k : Fin 4} {f : AcsForm} {s : State} {g : CoopRegs} {v0 d0 v1 d1 : Nat}
    (h : issues k (.acs f) s = true) (hg : (coreOf s k).regs = g)
    (h0 : survivor (half (regD g f.a) f.ha + half (regD g f.l) f.sw)
      (half (regD g f.b) f.hb + half (regD g f.l) (!f.sw)) = (v0, d0))
    (h1 : survivor (half (regD g f.a) f.ha + half (regD g f.l) (!f.sw))
      (half (regD g f.b) f.hb + half (regD g f.l) f.sw) = (v1, d1)) :
    exec (.acs k f) s = .next (retired k 1 { coreOf s k with
      regs := { putD f.d (BitVec.ofNat 32 (v1 * 65536 + v0)) g with
        tb := (g.tb <<< 2) ||| BitVec.ofNat 64 (d0 * 2 + d1) } } s) := by
  have hd0 := survivor_bit_lt h0
  have hd1 := survivor_bit_lt h1
  rw [← ofNat_append_two g.tb (by omega), ← Nat.add_assoc]
  show execAcs k f s = _
  unfold execAcs
  refine coopExec_regs h ?_
  subst hg
  extract_lets g pa pb l0 l1
  rw [show survivor (pa + l0) (pb + l1) = (v0, d0) from h0, show survivor (pa + l1) (pb + l0) = (v1, d1) from h1]

/-- Settles O56: the survivors of ACS by the 16-bit difference, and what every scan of BEXP keeps. -/
theorem cooperTrellis : Obligations.CooperTrellis := by
  unfold Obligations.CooperTrellis
  refine ⟨fun k f s => ?acs, fun k f s h => ⟨fun hok => ?bexp, fun hok => ?trap⟩, bexpLoop_keeps,
    fun k f c x y hx hy => ?scan⟩
  case acs =>
    intro c g part pick pa pb l0 l1 r0 r1 h
    exact exec_acs h rfl (survivor_eq (pa + l0) (pb + l1)) (survivor_eq (pa + l1) (pb + l0))
  case bexp => exact (exec_bexp h).trans (if_pos hok)
  case trap => exact (exec_bexp h).trans (if_neg (Bool.eq_false_iff.mp hok))
  case scan =>
    rw [loadAt_beMerge] at hy
    have hloop : bexpLoop k f 1 c = (bexpCycle f x y c, true) := bexpLoop_cycle hx hy
    have hbe : (bexpCycle f x y c).regs.be.toNat = min (min c.regs.be.toNat (normD x)) (normD y) :=
      (beMerge_be y (beMerge x c)).trans (by rw [beMerge_be])
    rw [hloop]
    exact ⟨rfl, hbe, rfl⟩

end Sys2Proof.Machine

/-! # The fault queue and the conditions in force

Which record gives way to a new one (R505), and what a detection and a release leave of the queue and of the conditions in force
(R504). -/

namespace Sys2Proof.Machine

/-! ### Which record gives way -/

/-- The record dropped is the first that satisfies `f`. -/
theorem dropFirst_eq_eraseP (f : FaultRec → Bool) (q : List FaultRec) :
    dropFirst f q = if q.any f then some (q.eraseP f) else none := by
  induction q with
  | nil => rfl
  | cons r t ih =>
    rw [dropFirst, ih, List.any_cons, List.eraseP_cons]
    cases f r <;> cases t.any f <;> rfl

theorem dropFirst_eq_none_iff {f : FaultRec → Bool} {q : List FaultRec} :
    dropFirst f q = none ↔ ∀ r ∈ q, f r = false := by
  simp [dropFirst_eq_eraseP]

/-- Only a record that satisfies `f` leaves. -/
theorem dropFirst_leaves {f : FaultRec → Bool} {q q' : List FaultRec} {x : FaultRec} (h : dropFirst f q = some q')
    (hx : x ∈ q) (hout : x ∉ q') : f x = true := by
  obtain ⟨-, rfl⟩ : q.any f = true ∧ q.eraseP f = q' := by simpa [dropFirst_eq_eraseP] using h
  cases hf : f x with
  | true => rfl
  | false => exact absurd ((List.mem_eraseP_of_neg (by rw [hf]; exact Bool.false_ne_true)).mpr hx) hout

/-- A record of class `c` that R505 may remove: R507 excepts FAULT_OVERFLOW. -/
def givesWay (c : FaultClass) (r : FaultRec) : Bool := r.cls == c && r.code != .faultOverflow

theorem givesWay_iff {c : FaultClass} {r : FaultRec} : givesWay c r = true ↔ r.cls = c ∧ r.code ≠ .faultOverflow := by
  simp [givesWay]

/-- The classes whose records may give way, in the order in which R505 tries them. -/
def removable : List FaultClass := [.note, .channel, .port, .device]

theorem mem_removable {c : FaultClass} : c ∈ removable ↔ c ≠ .safety := by
  cases c <;> decide

theorem removable_sorted : removable.Pairwise (fun c d => classCode c < classCode d) := by decide

theorem not_safety_of_lt {c d : FaultClass} (h : classCode d < classCode c) : d ≠ .safety := by
  rintro rfl
  cases c <;> exact absurd h (by decide)

theorem findSome_removable (f : FaultClass → Option (List FaultRec)) : removable.findSome? f = match f .note with
    | some q => some q
    | none => match f .channel with
      | some q => some q
      | none => match f .port with
        | some q => some q
        | none => f .device := by
  cases hnote : f .note with
  | some q => simp [removable, hnote]
  | none => cases hchannel : f .channel with
    | some q => simp [removable, hnote, hchannel]
    | none => cases hport : f .port <;> simp [removable, hnote, hchannel, hport]

/-- Room is made in the first removable class, not above `k`, that has a record to give. -/
theorem makeRoom_eq_findSome (k : FaultClass) (q : List FaultRec) : makeRoom k q =
    removable.findSome? (fun c => if classCode c ≤ classCode k then dropFirst (givesWay c) q else none) := by
  rw [findSome_removable]
  unfold makeRoom
  rfl

/-- Room is made by a record of the lowest class that has one to give. -/
theorem makeRoom_eq_some {k : FaultClass} {q q' : List FaultRec} (h : makeRoom k q = some q') :
    ∃ c, classCode c ≤ classCode k ∧ c ≠ .safety ∧ dropFirst (givesWay c) q = some q' ∧
      ∀ d, classCode d < classCode c → dropFirst (givesWay d) q = none := by
  rw [makeRoom_eq_findSome, List.findSome?_eq_some_iff] at h
  obtain ⟨before, c, after, hsplit, hc, hbefore⟩ := h
  have hmem : c ∈ removable := by simp [hsplit]
  by_cases hk : classCode c ≤ classCode k
  · refine ⟨c, hk, mem_removable.mp hmem, by simpa [hk] using hc, fun d hd => ?_⟩
    have hd' : d ∈ before ++ c :: after := hsplit ▸ mem_removable.mpr (not_safety_of_lt hd)
    obtain ⟨-, hafter, -⟩ := List.pairwise_append.mp (hsplit ▸ removable_sorted)
    rcases List.mem_append.mp hd' with hb | hca
    · simpa [(by omega : classCode d ≤ classCode k)] using hbefore d hb
    · rcases List.mem_cons.mp hca with rfl | ha
      · omega
      · have := (List.pairwise_cons.mp hafter).1 d ha
        omega
  · simp [hk] at hc

/-- The record that gives way is of the lowest class queued, not above `k`, and is no FAULT_OVERFLOW record. -/
theorem makeRoom_leaves {k : FaultClass} {q q' : List FaultRec} {x : FaultRec} (h : makeRoom k q = some q')
    (hx : x ∈ q) (hout : x ∉ q') : classCode x.cls ≤ classCode k ∧ x.code ≠ .faultOverflow ∧ x.cls ≠ .safety ∧
      ∀ y ∈ q, y.code ≠ .faultOverflow → classCode x.cls ≤ classCode y.cls := by
  obtain ⟨c, hk, hsafe, hdrop, hlower⟩ := makeRoom_eq_some h
  obtain ⟨rfl, hcode⟩ := givesWay_iff.mp (dropFirst_leaves hdrop hx hout)
  refine ⟨hk, hcode, hsafe, fun y hy hyc => ?_⟩
  refine Nat.le_of_not_lt fun hlt => ?_
  have hnot := dropFirst_eq_none_iff.mp (hlower y.cls hlt) y hy
  rw [givesWay_iff.mpr ⟨rfl, hyc⟩] at hnot
  cases hnot

/-- A record finds a place, is itself lost, or takes the place of one that is removed. -/
theorem enqueue_cases (k : FaultClass) (r : FaultRec) (q : List FaultRec) :
    (placeOpen k q = true ∧ enqueue k r q = (q ++ [r], true, 0)) ∨
    (placeOpen k q = false ∧ enqueue k r q = (q, false, 1)) ∨
    (placeOpen k q = false ∧ ∃ q', makeRoom k q = some q' ∧ enqueue k r q = (q' ++ [r], true, 1)) := by
  unfold enqueue
  cases hopen : placeOpen k q with
  | true => exact .inl ⟨rfl, rfl⟩
  | false =>
    refine .inr ?_
    cases hroom : makeRoom k q with
    | none => exact .inl ⟨rfl, rfl⟩
    | some q' =>
      cases hopen' : placeOpen k q' with
      | true => exact .inr ⟨rfl, q', rfl, by simp [hopen']⟩
      | false => exact .inl ⟨rfl, by simp [hopen']⟩

/-- A queued record leaves only where room is made. -/
theorem enqueue_leaves {k : FaultClass} {r x : FaultRec} {q : List FaultRec} (hx : x ∈ q) (hout : x ∉ (enqueue k r q).1) :
    ∃ q', makeRoom k q = some q' ∧ x ∉ q' := by
  rcases enqueue_cases k r q with ⟨-, he⟩ | ⟨-, he⟩ | ⟨-, q', hroom, he⟩ <;> rw [he] at hout
  · exact absurd (List.mem_append_left _ hx) hout
  · exact absurd hx hout
  · exact ⟨q', hroom, fun h => hout (List.mem_append_left _ h)⟩

/-- Settles O22: the three ways a record can fare, and the lowest class with a record to give. -/
theorem overflowOrder : Obligations.OverflowOrder := by
  unfold Obligations.OverflowOrder
  intro k r q hk hfits
  refine ⟨enqueue_fits k r q (fun h => hk.trans h) hfits, ?_, ?_, ?_, fun x hx hout => ?leaves⟩
  case leaves =>
    obtain ⟨q', hroom, hout'⟩ := enqueue_leaves hx hout
    exact makeRoom_leaves hroom hx hout'
  all_goals rcases enqueue_cases k r q with ⟨hopen, he⟩ | ⟨hopen, he⟩ | ⟨hopen, q', -, he⟩ <;> simp [hopen, he]

/-! ### Detections -/

theorem raise_of_inForce {code : FaultCode} {object : BitVec 16} {index : Nat} {s : State} (detail : Word)
    (hcond : isCondition code = true) (h : inForce code object index s = true) : raise code object index detail s = s := by
  simp [raise, hcond, h]

theorem raise_eq_detect {code : FaultCode} {object : BitVec 16} {index : Nat} {s : State} (detail : Word)
    (h : isCondition code = false ∨ inForce code object index s = false) :
    raise code object index detail s = detect code object index detail s := by
  rcases h with h | h <;> simp [raise, h]

/-- A detection of a queued identity leaves the queue and the sequence numbers as coalescing leaves them. -/
theorem detect_queued {code : FaultCode} {object : BitVec 16} {index : Nat} {s : State} {r : FaultRec} (detail : Word)
    (h : queuedRec code object index s = some r) :
    (detect code object index detail s).flt.queue = (coalesce r detail s).flt.queue ∧
      (detect code object index detail s).flt.nextSeq = s.flt.nextSeq := by
  unfold detect
  rw [h]
  dsimp only
  split <;> exact ⟨rfl, rfl⟩

theorem coalesce_queue_length (r : FaultRec) (detail : Word) (s : State) :
    (coalesce r detail s).flt.queue.length = s.flt.queue.length := List.length_map _

theorem one_le_sat32_succ (n : Nat) : 1 ≤ sat32 (n + 1) := by
  unfold sat32
  omega

/-- The record into which a detection coalesces is stamped with it and counts it. -/
theorem coalesce_stamps {r x : FaultRec} {detail : Word} {s : State} (hx : x ∈ (coalesce r detail s).flt.queue)
    (hseq : x.seq = r.seq) (hcode : x.code = r.code) : x.lastStamp = s.sysCnt ∧ 1 ≤ x.repeats := by
  obtain ⟨y, -, rfl⟩ := List.mem_map.mp hx
  by_cases hy : y.seq = r.seq ∧ y.code = r.code
  · rw [if_pos hy]
    exact ⟨rfl, one_le_sat32_succ y.repeats⟩
  · simp only [if_neg hy] at hseq hcode
    exact absurd ⟨hseq, hcode⟩ hy

/-- A condition newly put in force is in force. -/
theorem inForce_append (code : FaultCode) (object : BitVec 16) (index : Nat) (seq : BitVec 8) (stamp : Nat) (detail : Word)
    (s : State) : inForce code object index { s with flt := { s.flt with
      active := s.flt.active ++ [⟨code, object, index, seq, stamp, detail⟩] } } = true := by
  simp [inForce]

theorem inForce_detect {code : FaultCode} {object : BitVec 16} {index : Nat} {s : State} (detail : Word)
    (hcond : isCondition code = true) (h : inForce code object index s = false) :
    inForce code object index (detect code object index detail s) = true := by
  have hnew : (isCondition code && !inForce code object index s) = true := by rw [hcond, h]; rfl
  unfold detect
  split
  all_goals
    rw [if_pos hnew]
    exact inForce_append ..

/-! ### Releases -/

/-- The condition is that of an identity (R504). -/
def Condition.matches (code : FaultCode) (object : BitVec 16) (index : Nat) (c : Condition) : Bool :=
  c.code == code && c.object == object && c.index == index

theorem Condition.matches_iff {code : FaultCode} {object : BitVec 16} {index : Nat} {c : Condition} :
    c.matches code object index = true ↔ c.code = code ∧ c.object = object ∧ c.index = index := by
  simp [Condition.matches, and_assoc]

theorem inForce_iff {code : FaultCode} {object : BitVec 16} {index : Nat} {s : State} :
    inForce code object index s = true ↔ ∃ c ∈ s.flt.active, c.matches code object index = true :=
  List.any_eq_true

/-- A release of nothing changes nothing. -/
theorem release_none {code : FaultCode} {object : BitVec 16} {index : Nat} {s : State}
    (h : s.flt.active.find? (Condition.matches code object index) = none) : release code object index s = s := by
  unfold release
  rw [show s.flt.active.find? (fun c => c.code == code && c.object == object && c.index == index) = none from h]

/-- A release ends its condition and marks the records of the detection that put it in force. -/
theorem release_some {code : FaultCode} {object : BitVec 16} {index : Nat} {s : State} {c : Condition}
    (h : s.flt.active.find? (Condition.matches code object index) = some c) :
    release code object index s = { s with flt := { s.flt with
      active := s.flt.active.filter (fun x => !x.matches code object index)
      queue := s.flt.queue.map (fun r => if r.seq = c.seq ∧ r.code = code then { r with released := true } else r) } } := by
  unfold release
  rw [show s.flt.active.find? (fun c => c.code == code && c.object == object && c.index == index) = some c from h]
  rfl

theorem release_active (code : FaultCode) (object : BitVec 16) (index : Nat) (s : State) :
    (release code object index s).flt.active = s.flt.active.filter (fun x => !x.matches code object index) := by
  cases h : s.flt.active.find? (Condition.matches code object index) with
  | none =>
    rw [release_none h]
    exact (List.filter_eq_self.mpr (by simpa using h)).symm
  | some c => rw [release_some h]

theorem release_keeps (code : FaultCode) (object : BitVec 16) (index : Nat) (s : State) :
    (release code object index s).flt.queue.length = s.flt.queue.length ∧
      (release code object index s).flt.log = s.flt.log ∧ (release code object index s).flt.lost = s.flt.lost := by
  cases h : s.flt.active.find? (Condition.matches code object index) with
  | none =>
    rw [release_none h]
    exact ⟨rfl, rfl, rfl⟩
  | some c =>
    rw [release_some h]
    exact ⟨List.length_map _, rfl, rfl⟩

/-- In force after a release is what was in force and is not what was released. -/
theorem inForce_release_iff {code c : FaultCode} {object o : BitVec 16} {index i : Nat} {s : State} :
    inForce c o i (release code object index s) = true ↔
      inForce c o i s = true ∧ ¬ (c = code ∧ o = object ∧ i = index) := by
  simp only [inForce_iff, release_active, List.mem_filter, Bool.not_eq_true', ← Bool.not_eq_true, Condition.matches_iff]
  constructor
  · rintro ⟨x, ⟨hx, hother⟩, rfl, rfl, rfl⟩
    exact ⟨⟨x, hx, rfl, rfl, rfl⟩, hother⟩
  · rintro ⟨⟨x, hx, rfl, rfl, rfl⟩, hother⟩
    exact ⟨x, ⟨hx, hother⟩, rfl, rfl, rfl⟩

/-- The records of the detection that put a condition in force show RELEASED after its release. -/
theorem release_marks {code : FaultCode} {object : BitVec 16} {index : Nat} {s : State} {c : Condition} {r : FaultRec}
    (h : s.flt.active.find? (Condition.matches code object index) = some c)
    (hr : r ∈ (release code object index s).flt.queue) (hseq : r.seq = c.seq) (hcode : r.code = code) : r.released = true := by
  rw [release_some h] at hr
  obtain ⟨y, -, rfl⟩ := List.mem_map.mp hr
  by_cases hy : y.seq = c.seq ∧ y.code = code
  · rw [if_pos hy]
  · rw [if_neg hy] at hseq hcode
    exact absurd ⟨hseq, hcode⟩ hy

/-- Settles O21: a detection coalesces or is recorded, and a release filters the conditions in force. -/
theorem conditions : Obligations.Conditions := by
  unfold Obligations.Conditions
  refine ⟨fun code object index detail s => ⟨raise_of_inForce detail, fun hnew => ?_⟩, fun code object index s => ?_⟩
  · rw [raise_eq_detect detail hnew]
    refine ⟨fun r hr => ?queued, fun hcond => ?started⟩
    case queued =>
      obtain ⟨hqueue, hseq⟩ := detect_queued detail hr
      rw [hqueue]
      exact ⟨coalesce_queue_length r detail s, hseq, fun x hx => coalesce_stamps hx⟩
    case started =>
      exact inForce_detect detail hcond (hnew.resolve_left (by simp [hcond]))
  · obtain ⟨hlength, hlog, hlost⟩ := release_keeps code object index s
    refine ⟨?ended, fun c o i hother => ?others, hlength, hlog, hlost, fun c hc r hr => release_marks hc hr⟩
    case ended =>
      rw [← Bool.not_eq_true, inForce_release_iff]
      exact fun h => h.2 ⟨rfl, rfl, rfl⟩
    case others =>
      rw [Bool.eq_iff_iff, inForce_release_iff]
      refine and_iff_left fun ⟨hc, ho, hi⟩ => ?_
      rcases hother with h | h | h
      · exact h hc
      · exact h ho
      · exact h hi

end Sys2Proof.Machine

/-! # Every command answers, and leaves the queue alone

Each command ends in a next state, and what waits in the queue is only taken from it by a step. -/

namespace Sys2Proof.Machine

open Sys2Proof.Safety

/-! ### Every command answers -/

/-- The outcome is a next state. -/
def Answers (r : R) : Prop := ∃ t, r = .next t

@[simp] theorem answers_next (t : State) : Answers (.next t) := ⟨t, rfl⟩

@[simp] theorem answers_ite (c : Prop) [Decidable c] (a b : R) :
    Answers (if c then a else b) ↔ if c then Answers a else Answers b := by
  split <;> rfl

theorem Answers.ite {c : Prop} [Decidable c] {a b : R} (ha : Answers a) (hb : Answers b) :
    Answers (if c then a else b) := by
  split
  · exact ha
  · exact hb

theorem packet_answers {c : Instr} {op : Op} {h : Hdr} {p : Bytes} (hc : packetOf c = some (op, h, p)) (s : State) :
    Answers (exec c s) := by
  obtain ⟨body, hbody⟩ := packet_exec c op h p hc
  rw [hbody]
  exact opcode_next ..

/-- A Cooper instruction goes on, halts before a breakpoint or traps, and each is a next state. -/
theorem coopExec_answers (k op body s) : Answers (coopExec k op body s) := by
  dsimp only [coopExec]
  (repeat' split) <;> simp

/-- BLKDONE is the one instruction that does not run through `coopExec`. -/
theorem cooper_answers {c : Instr} {k : Fin 4} {op : CoopOp} (hc : coopOf c = some (k, op)) (s : State) :
    Answers (exec c s) := by
  unfold coopOf at hc
  split at hc <;> cases hc
  case h_25 =>
    show Answers (execBlkdone k s)
    simp [execBlkdone]
  all_goals
    unfold exec
    exact coopExec_answers ..

/-! The events that answer by a case of the state. -/

theorem execCommandPreemption_answers (dt s) : Answers (execCommandPreemption dt s) := by
  dsimp only [execCommandPreemption]
  (repeat' split) <;> simp

theorem execSessionTimeout_answers (dt session s) : Answers (execSessionTimeout dt session s) := by
  dsimp only [execSessionTimeout]
  (repeat' split) <;> simp

theorem execExpertIdleTimeout_answers (dt s) : Answers (execExpertIdleTimeout dt s) := by
  dsimp only [execExpertIdleTimeout]
  (repeat' split) <;> simp

theorem execCorkTimeout_answers (dt o s) : Answers (execCorkTimeout dt o s) := by
  dsimp only [execCorkTimeout]
  (repeat' split) <;> simp

theorem execDeferredCommandLands_answers (dt s) : Answers (execDeferredCommandLands dt s) := by
  dsimp only [execDeferredCommandLands]
  (repeat' split) <;> simp

theorem execBootImageVerified_answers (dt s) : Answers (execBootImageVerified dt s) := by
  dsimp only [execBootImageVerified]
  (repeat' split) <;> simp

theorem execServiceEntry_answers (dt s) : Answers (execServiceEntry dt s) := by
  dsimp only [execServiceEntry]
  (repeat' split) <;> simp

theorem execPowerBudgetRelease_answers (dt s) : Answers (execPowerBudgetRelease dt s) := by
  dsimp only [execPowerBudgetRelease]
  (repeat' split) <;> simp

theorem execDevResetStart_answers (dt startupHoldN s) : Answers (execDevResetStart dt startupHoldN s) := by
  dsimp only [execDevResetStart]
  (repeat' split) <;> simp

theorem execLifeTransitionStart_answers (dt startupHoldN s) : Answers (execLifeTransitionStart dt startupHoldN s) := by
  dsimp only [execLifeTransitionStart]
  (repeat' split) <;> simp

theorem execVintCommitComplete_answers (dt rb durationUs s) : Answers (execVintCommitComplete dt rb durationUs s) := by
  dsimp only [execVintCommitComplete]
  (repeat' split) <;> simp

theorem execRecoveryEntry_answers (dt s) : Answers (execRecoveryEntry dt s) := by
  dsimp only [execRecoveryEntry]
  (repeat' split) <;> simp

theorem execFaultLogWrite_answers (dt s) : Answers (execFaultLogWrite dt s) := by
  dsimp only [execFaultLogWrite]
  (repeat' split) <;> simp

theorem execReferenceQualified_answers (dt entry s) : Answers (execReferenceQualified dt entry s) := by
  dsimp only [execReferenceQualified]
  (repeat' split) <;> simp

theorem execClockLost_answers (dt c reason s) : Answers (execClockLost dt c reason s) := by
  dsimp only [execClockLost]
  (repeat' split) <;> simp

theorem execTasterVisitStart_answers (dt t s) : Answers (execTasterVisitStart dt t s) := by
  dsimp only [execTasterVisitStart]
  (repeat' split) <;> simp

theorem execTasterSettleEnd_answers (dt t s) : Answers (execTasterSettleEnd dt t s) := by
  dsimp only [execTasterSettleEnd]
  (repeat' split) <;> simp

theorem execTasterWindowEnd_answers (dt t m other between s) :
    Answers (execTasterWindowEnd dt t m other between s) := by
  dsimp only [execTasterWindowEnd]
  (repeat' split) <;> simp

theorem execTasterSubstituted_answers (dt s) : Answers (execTasterSubstituted dt s) := by
  dsimp only [execTasterSubstituted]
  (repeat' split) <;> simp

theorem execFiltSyncClear_answers (dt s) : Answers (execFiltSyncClear dt s) := by
  dsimp only [execFiltSyncClear]
  (repeat' split) <;> simp

theorem execRangeChangeComplete_answers (dt n s) : Answers (execRangeChangeComplete dt n s) := by
  dsimp only [execRangeChangeComplete]
  (repeat' split) <;> simp

theorem execOutputThermalRelease_answers (dt stage s) : Answers (execOutputThermalRelease dt stage s) := by
  dsimp only [execOutputThermalRelease]
  (repeat' split) <;> simp

theorem execPendingGraphTrigger_answers (dt s) : Answers (execPendingGraphTrigger dt s) := by
  dsimp only [execPendingGraphTrigger]
  (repeat' split) <;> simp

theorem execStreamPacketSend_answers (dt slot s) : Answers (execStreamPacketSend dt slot s) := by
  dsimp only [execStreamPacketSend]
  (repeat' split) <;> simp

theorem execCoopOverrun_answers (dt core s) : Answers (execCoopOverrun dt core s) := by
  dsimp only [execCoopOverrun]
  (repeat' split) <;> simp

theorem execDmaDone_answers (dt core ch s) : Answers (execDmaDone dt core ch s) := by
  dsimp only [execDmaDone]
  (repeat' split) <;> simp

theorem execTestSelfComplete_answers (dt durationUs s) : Answers (execTestSelfComplete dt durationUs s) := by
  dsimp only [execTestSelfComplete]
  (repeat' split) <;> simp

theorem execAutoCommit_answers (dt s) : Answers (execAutoCommit dt s) :=
  .ite (answers_next _) (.ite (answers_next _) (.ite (answers_next _) (.ite (answers_next _) (answers_next _))))

/-- Packets answer through `opcode`, Cooper instructions through `coopExec`, and the events branch by branch. -/
theorem exec_answers (c : Instr) (s : State) : Answers (exec c s) := by
  cases c with
  | nop | devInfo | devState | devRun | devMode | devReset | boardDescribe | timeRead | eventMask | vintCommit |
    vintStatus | vintPolicy | vintClear | lifeState | lifeAdvance | fwBegin | fwData | fwEnd | fwSelect | keyInstall |
    graphStage | graphCommit | graphAbort | graphQuery | routeSet | latencyQuery | gainSet | muteSet | rampDefaults |
    sinkSet | genSet | override | overrideConfig | meterRead | inputSet | inputStatus | tasterConfig | tasterRun |
    tasterSubstitute | inputExpert | outputSet | outputStatus | holdSet | holdSafeSet | speakerSet | clearConfig |
    outputExpert | filtConfig | filtCoefLoad | filtRun | filtSync | filtPhase | filtStatus | filtExpert | tdmSet | aesSet |
    portStart | portStop | portStatus | portStamp | aesCsSet | aesCsRead | clockRefs | clockStatus | ptpSet | wclkSet |
    fsSet | decantSet | alignGroupSet | clockExpert | netSet | streamRxSet | streamTxSet | streamEnable | streamStatus |
    netStatus | netAuthSet | hsSet | hsStatus | hsEvents | hsExpert | coopLoad | coopStart | coopStop | coopStatus |
    coopParam | coopDebug | faultRead | faultAck | powerStatus | powerPolicy | thermalStatus | expertOpen | expertClose |
    regRead | regWrite | govTest | pathForce | clampTest | trackFreeze | forceType | loopback | phyLoop | breakpointSet |
    coopRegisterWrite | injectCode | testLoop | testSelf =>
    exact packet_answers rfl s
  | mac | msu | mpy | add | sub | and | or | xor | shl | asr | norm | rnd | sat | cmp | ld | ldd | st | br | call | ret |
    rep | repRegisterCount | endrep | wait | blkdone | halt | acs | bexp =>
    exact cooper_answers rfl s
  | commandPreemption => exact execCommandPreemption_answers ..
  | sessionTimeout => exact execSessionTimeout_answers ..
  | expertIdleTimeout => exact execExpertIdleTimeout_answers ..
  | corkTimeout => exact execCorkTimeout_answers ..
  | deferredCommandLands => exact execDeferredCommandLands_answers ..
  | bootImageVerified => exact execBootImageVerified_answers ..
  | serviceEntry => exact execServiceEntry_answers ..
  | powerBudgetRelease => exact execPowerBudgetRelease_answers ..
  | devResetStart => exact execDevResetStart_answers ..
  | lifeTransitionStart => exact execLifeTransitionStart_answers ..
  | vintCommitComplete => exact execVintCommitComplete_answers ..
  | recoveryEntry => exact execRecoveryEntry_answers ..
  | faultLogWrite => exact execFaultLogWrite_answers ..
  | referenceQualified => exact execReferenceQualified_answers ..
  | clockLost => exact execClockLost_answers ..
  | tasterVisitStart => exact execTasterVisitStart_answers ..
  | tasterSettleEnd => exact execTasterSettleEnd_answers ..
  | tasterWindowEnd => exact execTasterWindowEnd_answers ..
  | tasterSubstituted => exact execTasterSubstituted_answers ..
  | filtSyncClear => exact execFiltSyncClear_answers ..
  | rangeChangeComplete => exact execRangeChangeComplete_answers ..
  | outputThermalRelease => exact execOutputThermalRelease_answers ..
  | pendingGraphTrigger => exact execPendingGraphTrigger_answers ..
  | streamPacketSend => exact execStreamPacketSend_answers ..
  | coopOverrun => exact execCoopOverrun_answers ..
  | dmaDone => exact execDmaDone_answers ..
  | testSelfComplete => exact execTestSelfComplete_answers ..
  | autoCommit => exact execAutoCommit_answers ..
  | writeCmd | readReply | readStatus | commandDatagram | commandAgeing | timedCommandApply | eventNotice | frameTick |
    sweepEnd | powerApplied | inputPowerGood | powerUpDelayEnd | auxRailsInRegulation | aoReady | leesPurgeComplete |
    restore | portSupplyStopped | holdUpExhausted | hupReady | lldpAllocation | governorPeriod | shedRestore | auxFault |
    auxRetry | resetNLow | resetNHigh | watchdogExpiry | bulkRecordStored | pendingCommitStart | thermalSensorRead |
    thermalWarnRelease | thermalTripRelease | thermalResetHoldEnd | avsStep | avsNegativeSlack | avsMarginRelease | ptpSync
    | ptpAnnounce | phaseMoveComplete | pllLock | pllLockLost | pllBandwidthStep | refLostGraceEnd | taiTimeout |
    clockResumed | decantRelock | syncInEdge | clearNLow | clearNHigh | ovrNLow | ovrNHigh | gpioMuteInput | inputOver |
    extPhantomDetect | phantomRampEnd | phantomOvercurrent | phantomRetry | matchLimit | matchReturnComplete | settlingEnd |
    filtStopComplete | filtReloadClear | captureComplete | outputShort | outputShortProbe | servoLimit | holdShort |
    holdShortRelease | loadCheckVerdict | loadCheckRepeat | speakerShortInOperation | outputThermal | hsPlugInsertion |
    hsXlrPoll | hsMeasurementCycle | hsVerdict | hsFaultRetry | hsRemoval | buttonPress | buttonLongPress | buttonRepeat |
    buttonRelease | rackComplete | dipBankSwitch | tdmFrameReceived | aes3FrameReceived | aesCsBlockComplete |
    portStartComplete | portStopComplete | linkUp | linkDown | mediaPacketReceived | streamLost | streamReportRepeat |
    pathLost | arpRequest | icmpEcho | igmpQuery | switchForward | fdbAgeOut | coopBlockTrigger | coopInitComplete |
    coopRunaway | coopRestart | coopRestartCountReset | announceReceiptTimeout | ptpMasterTransmit | ptpDelayRequest |
    ptpDelayResponse | wclkInEdge | aes3TransmitFrame | matchSuspect | hsSideAtLimit | illegalInstruction | fwEraseComplete
    | hostnetBridgeFrame =>
    unfold exec
    simp [execWriteCmd, execReadReply, execReadStatus, execCommandDatagram, execCommandAgeing, execTimedCommandApply,
      execEventNotice, execFrameTick, execSweepEnd, execPowerApplied, execInputPowerGood, execPowerUpDelayEnd,
      execAuxRailsInRegulation, execAoReady, execLeesPurgeComplete, execRestore, execPortSupplyStopped, execHoldUpExhausted,
      execHupReady, execLldpAllocation, execGovernorPeriod, execShedRestore, execAuxFault, execAuxRetry, execResetNLow,
      execResetNHigh, execWatchdogExpiry, execBulkRecordStored, execPendingCommitStart, execThermalSensorRead,
      execThermalWarnRelease, execThermalTripRelease, execThermalResetHoldEnd, execAvsStep, execAvsNegativeSlack,
      execAvsMarginRelease, execPtpSync, execPtpAnnounce, execPhaseMoveComplete, execPllLock, execPllLockLost,
      execPllBandwidthStep, execRefLostGraceEnd, execTaiTimeout, execClockResumed, execDecantRelock, execSyncInEdge,
      execClearNLow, execClearNHigh, execOvrNLow, execOvrNHigh, execGpioMuteInput, execInputOver, execExtPhantomDetect,
      execPhantomRampEnd, execPhantomOvercurrent, execPhantomRetry, execMatchLimit, execMatchReturnComplete, execSettlingEnd,
      execFiltStopComplete, execFiltReloadClear, execCaptureComplete, execOutputShort, execOutputShortProbe, execServoLimit,
      execHoldShort, execHoldShortRelease, execLoadCheckVerdict, execLoadCheckRepeat, execSpeakerShortInOperation,
      execOutputThermal, execHsPlugInsertion, execHsXlrPoll, execHsMeasurementCycle, execHsVerdict, execHsFaultRetry,
      execHsRemoval, execButtonPress, execButtonLongPress, execButtonRepeat, execButtonRelease, execRackComplete,
      execDipBankSwitch, execTdmFrameReceived, execAes3FrameReceived, execAesCsBlockComplete, execPortStartComplete,
      execPortStopComplete, execLinkUp, execLinkDown, execMediaPacketReceived, execStreamLost, execStreamReportRepeat,
      execPathLost, execArpRequest, execIcmpEcho, execIgmpQuery, execSwitchForward, execFdbAgeOut, execCoopBlockTrigger,
      execCoopInitComplete, execCoopRunaway, execCoopRestart, execCoopRestartCountReset, execAnnounceReceiptTimeout,
      execPtpMasterTransmit, execPtpDelayRequest, execPtpDelayResponse, execWclkInEdge, execAes3TransmitFrame,
      execMatchSuspect, execHsSideAtLimit, execIllegalInstruction, execFwEraseComplete, execHostnetBridgeFrame]

/-- Settles O1: the definition of a step on a queue that is not empty. -/
theorem stepRunsFront : Obligations.StepRunsFront := by
  unfold Obligations.StepRunsFront
  intro c rest s
  rfl

/-- Settles O2: every command answers, a step is that of the command at the front, and an empty queue idles. -/
theorem stepAnswers : Obligations.StepAnswers := by
  unfold Obligations.StepAnswers
  refine ⟨⟨exec_answers, fun s => ?runs⟩, fun s hs => ?idle⟩
  case runs =>
    unfold Runs step
    split
    · exact ⟨s, rfl⟩
    · exact exec_answers ..
  case idle =>
    unfold step
    rw [hs]

/-! ### No command touches the queue of waiting commands

The commands that move the mode, let a reset end or land what waits for a tick; every other command keeps all of the core. -/

theorem pending_of_core {s t : State} (h : t.core = s.core) : t.pending = s.pending := congrArg (·.1) h

@[simp] theorem settleReset_pending (s : State) : (settleReset s).pending = s.pending := (settleReset_settled s).1

@[simp] theorem warmReset_pending (cause stay holdN thermal s) :
    (warmReset cause stay holdN thermal s).pending = s.pending := (warmReset_reset cause stay holdN thermal s).1

@[simp] theorem resetHot_pending (s : State) : (resetHot s).pending = s.pending := (resetHot_reset s).1

@[simp] theorem beginTick_pending (s : State) : (beginTick s).pending = s.pending := (beginTick_ticked s).1

@[simp] theorem tickAhead_pending (s : State) : (tickAhead s).pending = s.pending := (tickAhead_ticked s).1

@[simp] theorem frameIn_pending (i s) : (frameIn i s).pending = s.pending := (frameIn_ticked i s).1

@[simp] theorem lastFrame_pending (i s) : (lastFrame i s).pending = s.pending := (lastFrame_ticked i s).1

@[simp] theorem frameEnd_pending (s : State) : (frameEnd s).pending = s.pending := pending_of_core (frameEnd_core s)

@[simp] theorem enterMode_pending (m s) : (enterMode m s).pending = s.pending := congrArg (·.1) (enterMode_core m s)

@[simp] theorem startAo_pending (s : State) : (startAo s).pending = s.pending := congrArg (·.1) (startAo_core s)

@[simp] theorem beginStart_pending (holdN s) : (beginStart holdN s).pending = s.pending :=
  congrArg (·.1) (beginStart_core holdN s)

@[simp] theorem leaveReset_pending (holdN s) : (leaveReset holdN s).pending = s.pending :=
  congrArg (·.1) (leaveReset_core holdN s)

@[simp] theorem regain_pending (s x) : (regain s x).pending = s.pending := congrArg (·.1) (regain_core s x)

@[simp] theorem powerOff_pending (s : State) : (powerOff s).pending = s.pending := congrArg (·.1) (settleMark_core s)

@[simp] theorem holdRefreshAll_pending (n s) : (holdRefreshAll n s).pending = s.pending :=
  pending_of_core (holdRefreshAll_core n s)

theorem execResetNLow_pending (dt s) : Keeps State.pending (advance dt s) (execResetNLow dt s) :=
  (keeps_next _ _ _).mpr (by simp)

theorem execResetNHigh_pending (dt holdN s) : Keeps State.pending (advance dt s) (execResetNHigh dt holdN s) := by
  refine (keeps_next _ _ _).mpr ?_
  split
  · simp
  · split <;> simp

theorem execWatchdogExpiry_pending (dt holdN s) : Keeps State.pending (advance dt s) (execWatchdogExpiry dt holdN s) := by
  refine (keeps_next _ _ _).mpr ?_
  split <;> simp

theorem execDevResetStart_pending (dt holdN s) : Keeps State.pending (advance dt s) (execDevResetStart dt holdN s) := by
  dsimp only [execDevResetStart]
  split <;> simp [apply_ite State.pending]

theorem execTimedCommandApply_pending (dt tickTai s) :
    Keeps State.pending (advance dt s) (execTimedCommandApply dt tickTai s) := by
  dsimp only [execTimedCommandApply]
  split <;> simp

theorem execDeferredCommandLands_pending (dt s) : Keeps State.pending (advance dt s) (execDeferredCommandLands dt s) := by
  dsimp only [execDeferredCommandLands]
  (repeat' split) <;> simp

theorem execFrameTick_pending (dt i s) : Keeps State.pending (advance dt s) (execFrameTick dt i s) := by
  dsimp only [execFrameTick]
  split
  · simp
  · simp [apply_ite State.pending]

theorem execRestore_pending (dt s) : Keeps State.pending (advance dt s) (execRestore dt s) := by
  dsimp only [execRestore]
  split
  · simp
  · rw [keeps_next, holdRefreshAll_pending, enterMode_pending, ← settleReset_pending (advance dt s)]
    refine pending_of_core ((foldl_core restoreCore_core _ _).trans ?_)
    simp

theorem execServiceEntry_pending (dt s) : Keeps State.pending (advance dt s) (execServiceEntry dt s) := by
  dsimp only [execServiceEntry]
  split
  · simp
  · split <;> simp [pending_of_core (startRunning_core _), pending_of_core (closeExpert_core _)]

theorem execRecoveryEntry_pending (dt s) : Keeps State.pending (advance dt s) (execRecoveryEntry dt s) := by
  dsimp only [execRecoveryEntry]
  split
  · simp
  · split <;> simp [pending_of_core (cancelTriggers_core _), pending_of_core (dropWaiting_core _)]

theorem execLifeAdvance_pending (h p s) : Keeps State.pending (advance h.dt s) (execLifeAdvance h p s) :=
  keeps_opcode pending_of_core (fun _ => by simp [apply_ite State.pending]) s

theorem execLifeTransitionStart_pending (dt holdN s) :
    Keeps State.pending (advance dt s) (execLifeTransitionStart dt holdN s) := by
  dsimp only [execLifeTransitionStart]
  split
  · simp
  · split
    · simp
    · split <;> simp [pending_of_core (wipeReturned_core _)]

theorem execThermalSensorRead_pending (dt t s) : Keeps State.pending (advance dt s) (execThermalSensorRead dt t s) := by
  dsimp only [execThermalSensorRead]
  split
  · simp
  · have htemps := pending_of_core ((warnNow_core _).trans (takeTemps_core t (settleReset (advance dt s))))
    split <;> simp [pending_of_core (tripNow_core _), htemps]

theorem execThermalResetHoldEnd_pending (dt holdN s) :
    Keeps State.pending (advance dt s) (execThermalResetHoldEnd dt holdN s) := by
  dsimp only [execThermalResetHoldEnd]
  split <;> simp

theorem execInputPowerGood_pending (dt port s) : Keeps State.pending (advance dt s) (execInputPowerGood dt port s) := by
  dsimp only [execInputPowerGood]
  split <;> simp [apply_ite State.pending]

theorem execAoReady_pending (dt holdN s) : Keeps State.pending (advance dt s) (execAoReady dt holdN s) := by
  dsimp only [execAoReady]
  split
  · simp
  · simp [apply_ite State.pending, pending_of_core (readSafe_core _)]

theorem execHoldUpExhausted_pending (dt s) : Keeps State.pending (advance dt s) (execHoldUpExhausted dt s) := by
  dsimp only [execHoldUpExhausted]
  split <;> simp

theorem execPortSupplyStopped_pending (dt a b s) :
    Keeps State.pending (advance dt s) (execPortSupplyStopped dt a b s) := by
  dsimp only [execPortSupplyStopped]
  (repeat' split) <;> simp [pending_of_core (portStops_core ..), pending_of_core (notePads_core _),
    pending_of_core (powerLoss_core _), pending_of_core (raise_core ..)]

/-! ### Every command -/

theorem Keeps.pending {s u : State} {r : R} (h : Keeps State.pending u r)
    (hu : u.pending = s.pending := by simp [advance_pending]) : Keeps State.pending s r :=
  ⟨fun t ht => (h.eq t ht).trans hu⟩

theorem Keeps.core_pending {s u : State} {r : R} (h : Keeps State.core u r)
    (hu : u.pending = s.pending := by simp [advance_pending]) : Keeps State.pending s r :=
  ⟨fun t ht => (pending_of_core (h.eq t ht)).trans hu⟩

theorem exec_keeps_pending (c : Instr) (s : State) : Keeps State.pending s (exec c s) := by
  cases c with
  | nop => exact (execNop_core ..).core_pending
  | devInfo => exact (execDevInfo_core ..).core_pending
  | devState => exact (execDevState_core ..).core_pending
  | devRun => exact (execDevRun_core ..).core_pending
  | devMode => exact (execDevMode_core ..).core_pending
  | devReset => exact (execDevReset_core ..).core_pending
  | boardDescribe => exact (execBoardDescribe_core ..).core_pending
  | timeRead => exact (execTimeRead_core ..).core_pending
  | eventMask => exact (execEventMask_core ..).core_pending
  | vintCommit => exact (execVintCommit_core ..).core_pending
  | vintStatus => exact (execVintStatus_core ..).core_pending
  | vintPolicy => exact (execVintPolicy_core ..).core_pending
  | vintClear => exact (execVintClear_core ..).core_pending
  | lifeState => exact (execLifeState_core ..).core_pending
  | lifeAdvance => exact (execLifeAdvance_pending ..).pending
  | fwBegin => exact (execFwBegin_core ..).core_pending
  | fwData => exact (execFwData_core ..).core_pending
  | fwEnd => exact (execFwEnd_core ..).core_pending
  | fwSelect => exact (execFwSelect_core ..).core_pending
  | keyInstall => exact (execKeyInstall_core ..).core_pending
  | graphStage => exact (execGraphStage_core ..).core_pending
  | graphCommit => exact (execGraphCommit_core ..).core_pending
  | graphAbort => exact (execGraphAbort_core ..).core_pending
  | graphQuery => exact (execGraphQuery_core ..).core_pending
  | routeSet => exact (execRouteSet_core ..).core_pending
  | latencyQuery => exact (execLatencyQuery_core ..).core_pending
  | gainSet => exact (execGainSet_core ..).core_pending
  | muteSet => exact (execMuteSet_core ..).core_pending
  | rampDefaults => exact (execRampDefaults_core ..).core_pending
  | sinkSet => exact (execSinkSet_core ..).core_pending
  | genSet => exact (execGenSet_core ..).core_pending
  | override => exact (execOverride_core ..).core_pending
  | overrideConfig => exact (execOverrideConfig_core ..).core_pending
  | meterRead => exact (execMeterRead_core ..).core_pending
  | inputSet => exact (execInputSet_core ..).core_pending
  | inputStatus => exact (execInputStatus_core ..).core_pending
  | tasterConfig => exact (execTasterConfig_core ..).core_pending
  | tasterRun => exact (execTasterRun_core ..).core_pending
  | tasterSubstitute => exact (execTasterSubstitute_core ..).core_pending
  | inputExpert => exact (execInputExpert_core ..).core_pending
  | outputSet => exact (execOutputSet_core ..).core_pending
  | outputStatus => exact (execOutputStatus_core ..).core_pending
  | holdSet => exact (execHoldSet_core ..).core_pending
  | holdSafeSet => exact (execHoldSafeSet_core ..).core_pending
  | speakerSet => exact (execSpeakerSet_core ..).core_pending
  | clearConfig => exact (execClearConfig_core ..).core_pending
  | outputExpert => exact (execOutputExpert_core ..).core_pending
  | filtConfig => exact (execFiltConfig_core ..).core_pending
  | filtCoefLoad => exact (execFiltCoefLoad_core ..).core_pending
  | filtRun => exact (execFiltRun_core ..).core_pending
  | filtSync => exact (execFiltSync_core ..).core_pending
  | filtPhase => exact (execFiltPhase_core ..).core_pending
  | filtStatus => exact (execFiltStatus_core ..).core_pending
  | filtExpert => exact (execFiltExpert_core ..).core_pending
  | tdmSet => exact (execTdmSet_core ..).core_pending
  | aesSet => exact (execAesSet_core ..).core_pending
  | portStart => exact (execPortStart_core ..).core_pending
  | portStop => exact (execPortStop_core ..).core_pending
  | portStatus => exact (execPortStatus_core ..).core_pending
  | portStamp => exact (execPortStamp_core ..).core_pending
  | aesCsSet => exact (execAesCsSet_core ..).core_pending
  | aesCsRead => exact (execAesCsRead_core ..).core_pending
  | clockRefs => exact (execClockRefs_core ..).core_pending
  | clockStatus => exact (execClockStatus_core ..).core_pending
  | ptpSet => exact (execPtpSet_core ..).core_pending
  | wclkSet => exact (execWclkSet_core ..).core_pending
  | fsSet => exact (execFsSet_core ..).core_pending
  | decantSet => exact (execDecantSet_core ..).core_pending
  | alignGroupSet => exact (execAlignGroupSet_core ..).core_pending
  | clockExpert => exact (execClockExpert_core ..).core_pending
  | netSet => exact (execNetSet_core ..).core_pending
  | streamRxSet => exact (execStreamRxSet_core ..).core_pending
  | streamTxSet => exact (execStreamTxSet_core ..).core_pending
  | streamEnable => exact (execStreamEnable_core ..).core_pending
  | streamStatus => exact (execStreamStatus_core ..).core_pending
  | netStatus => exact (execNetStatus_core ..).core_pending
  | netAuthSet => exact (execNetAuthSet_core ..).core_pending
  | hsSet => exact (execHsSet_core ..).core_pending
  | hsStatus => exact (execHsStatus_core ..).core_pending
  | hsEvents => exact (execHsEvents_core ..).core_pending
  | hsExpert => exact (execHsExpert_core ..).core_pending
  | coopLoad => exact (execCoopLoad_core ..).core_pending
  | coopStart => exact (execCoopStart_core ..).core_pending
  | coopStop => exact (execCoopStop_core ..).core_pending
  | coopStatus => exact (execCoopStatus_core ..).core_pending
  | coopParam => exact (execCoopParam_core ..).core_pending
  | coopDebug => exact (execCoopDebug_core ..).core_pending
  | faultRead => exact (execFaultRead_core ..).core_pending
  | faultAck => exact (execFaultAck_core ..).core_pending
  | powerStatus => exact (execPowerStatus_core ..).core_pending
  | powerPolicy => exact (execPowerPolicy_core ..).core_pending
  | thermalStatus => exact (execThermalStatus_core ..).core_pending
  | expertOpen => exact (execExpertOpen_core ..).core_pending
  | expertClose => exact (execExpertClose_core ..).core_pending
  | regRead => exact (execRegRead_core ..).core_pending
  | regWrite => exact (execRegWrite_core ..).core_pending
  | testLoop => exact (execTestLoop_core ..).core_pending
  | testSelf => exact (execTestSelf_core ..).core_pending
  | writeCmd => exact (execWriteCmd_core ..).core_pending
  | readReply => exact (execReadReply_core ..).core_pending
  | readStatus => exact (execReadStatus_core ..).core_pending
  | commandDatagram => exact (execCommandDatagram_core ..).core_pending
  | commandPreemption => exact (execCommandPreemption_core ..).core_pending
  | commandAgeing => exact (execCommandAgeing_core ..).core_pending
  | timedCommandApply dt tickTai => exact (execTimedCommandApply_pending dt tickTai s).pending
  | eventNotice => exact (execEventNotice_core ..).core_pending
  | sessionTimeout => exact (execSessionTimeout_core ..).core_pending
  | expertIdleTimeout => exact (execExpertIdleTimeout_core ..).core_pending
  | frameTick => exact (execFrameTick_pending ..).pending
  | corkTimeout => exact (execCorkTimeout_core ..).core_pending
  | deferredCommandLands => exact (execDeferredCommandLands_pending ..).pending
  | sweepEnd => exact (execSweepEnd_core ..).core_pending
  | powerApplied => exact (execPowerApplied_core ..).core_pending
  | inputPowerGood => exact (execInputPowerGood_pending ..).pending
  | powerUpDelayEnd => exact (execPowerUpDelayEnd_core ..).core_pending
  | auxRailsInRegulation => exact (execAuxRailsInRegulation_core ..).core_pending
  | aoReady => exact (execAoReady_pending ..).pending
  | leesPurgeComplete => exact (execLeesPurgeComplete_core ..).core_pending
  | bootImageVerified => exact (execBootImageVerified_core ..).core_pending
  | restore => exact (execRestore_pending ..).pending
  | serviceEntry => exact (execServiceEntry_pending ..).pending
  | portSupplyStopped => exact (execPortSupplyStopped_pending ..).pending
  | holdUpExhausted => exact (execHoldUpExhausted_pending ..).pending
  | hupReady => exact (execHupReady_core ..).core_pending
  | lldpAllocation => exact (execLldpAllocation_core ..).core_pending
  | governorPeriod => exact (execGovernorPeriod_core ..).core_pending
  | shedRestore => exact (execShedRestore_core ..).core_pending
  | powerBudgetRelease => exact (execPowerBudgetRelease_core ..).core_pending
  | auxFault => exact (execAuxFault_core ..).core_pending
  | auxRetry => exact (execAuxRetry_core ..).core_pending
  | resetNLow => exact (execResetNLow_pending ..).pending
  | resetNHigh => exact (execResetNHigh_pending ..).pending
  | watchdogExpiry => exact (execWatchdogExpiry_pending ..).pending
  | devResetStart => exact (execDevResetStart_pending ..).pending
  | lifeTransitionStart => exact (execLifeTransitionStart_pending ..).pending
  | bulkRecordStored => exact (execBulkRecordStored_core ..).core_pending
  | vintCommitComplete => exact (execVintCommitComplete_core ..).core_pending
  | pendingCommitStart => exact (execPendingCommitStart_core ..).core_pending
  | autoCommit => exact (execAutoCommit_core ..).core_pending
  | thermalSensorRead => exact (execThermalSensorRead_pending ..).pending
  | thermalWarnRelease => exact (execThermalWarnRelease_core ..).core_pending
  | thermalTripRelease => exact (execThermalTripRelease_core ..).core_pending
  | thermalResetHoldEnd => exact (execThermalResetHoldEnd_pending ..).pending
  | avsStep => exact (execAvsStep_core ..).core_pending
  | avsNegativeSlack => exact (execAvsNegativeSlack_core ..).core_pending
  | avsMarginRelease => exact (execAvsMarginRelease_core ..).core_pending
  | recoveryEntry => exact (execRecoveryEntry_pending ..).pending
  | faultLogWrite => exact (execFaultLogWrite_core ..).core_pending
  | ptpSync => exact (execPtpSync_core ..).core_pending
  | ptpAnnounce => exact (execPtpAnnounce_core ..).core_pending
  | referenceQualified => exact (execReferenceQualified_core ..).core_pending
  | phaseMoveComplete => exact (execPhaseMoveComplete_core ..).core_pending
  | pllLock => exact (execPllLock_core ..).core_pending
  | pllLockLost => exact (execPllLockLost_core ..).core_pending
  | pllBandwidthStep => exact (execPllBandwidthStep_core ..).core_pending
  | refLostGraceEnd => exact (execRefLostGraceEnd_core ..).core_pending
  | taiTimeout => exact (execTaiTimeout_core ..).core_pending
  | clockLost => exact (execClockLost_core ..).core_pending
  | clockResumed => exact (execClockResumed_core ..).core_pending
  | decantRelock => exact (execDecantRelock_core ..).core_pending
  | syncInEdge => exact (execSyncInEdge_core ..).core_pending
  | clearNLow => exact (execClearNLow_core ..).core_pending
  | clearNHigh => exact (execClearNHigh_core ..).core_pending
  | ovrNLow => exact (execOvrNLow_core ..).core_pending
  | ovrNHigh => exact (execOvrNHigh_core ..).core_pending
  | gpioMuteInput => exact (execGpioMuteInput_core ..).core_pending
  | inputOver => exact (execInputOver_core ..).core_pending
  | extPhantomDetect => exact (execExtPhantomDetect_core ..).core_pending
  | phantomRampEnd => exact (execPhantomRampEnd_core ..).core_pending
  | phantomOvercurrent => exact (execPhantomOvercurrent_core ..).core_pending
  | phantomRetry => exact (execPhantomRetry_core ..).core_pending
  | matchLimit => exact (execMatchLimit_core ..).core_pending
  | matchReturnComplete => exact (execMatchReturnComplete_core ..).core_pending
  | tasterVisitStart => exact (execTasterVisitStart_core ..).core_pending
  | tasterSettleEnd => exact (execTasterSettleEnd_core ..).core_pending
  | tasterWindowEnd => exact (execTasterWindowEnd_core ..).core_pending
  | tasterSubstituted => exact (execTasterSubstituted_core ..).core_pending
  | settlingEnd => exact (execSettlingEnd_core ..).core_pending
  | filtStopComplete => exact (execFiltStopComplete_core ..).core_pending
  | filtReloadClear => exact (execFiltReloadClear_core ..).core_pending
  | filtSyncClear => exact (execFiltSyncClear_core ..).core_pending
  | captureComplete dt samples => exact (execCaptureComplete_core dt samples s).core_pending
  | outputShort => exact (execOutputShort_core ..).core_pending
  | outputShortProbe => exact (execOutputShortProbe_core ..).core_pending
  | servoLimit => exact (execServoLimit_core ..).core_pending
  | holdShort => exact (execHoldShort_core ..).core_pending
  | holdShortRelease => exact (execHoldShortRelease_core ..).core_pending
  | rangeChangeComplete => exact (execRangeChangeComplete_core ..).core_pending
  | loadCheckVerdict => exact (execLoadCheckVerdict_core ..).core_pending
  | loadCheckRepeat => exact (execLoadCheckRepeat_core ..).core_pending
  | speakerShortInOperation => exact (execSpeakerShortInOperation_core ..).core_pending
  | outputThermal => exact (execOutputThermal_core ..).core_pending
  | outputThermalRelease => exact (execOutputThermalRelease_core ..).core_pending
  | hsPlugInsertion => exact (execHsPlugInsertion_core ..).core_pending
  | hsXlrPoll => exact (execHsXlrPoll_core ..).core_pending
  | hsMeasurementCycle => exact (execHsMeasurementCycle_core ..).core_pending
  | hsVerdict => exact (execHsVerdict_core ..).core_pending
  | hsFaultRetry => exact (execHsFaultRetry_core ..).core_pending
  | hsRemoval => exact (execHsRemoval_core ..).core_pending
  | buttonPress => exact (execButtonPress_core ..).core_pending
  | buttonLongPress => exact (execButtonLongPress_core ..).core_pending
  | buttonRepeat => exact (execButtonRepeat_core ..).core_pending
  | buttonRelease => exact (execButtonRelease_core ..).core_pending
  | rackComplete => exact (execRackComplete_core ..).core_pending
  | dipBankSwitch => exact (execDipBankSwitch_core ..).core_pending
  | pendingGraphTrigger => exact (execPendingGraphTrigger_core ..).core_pending
  | tdmFrameReceived => exact (execTdmFrameReceived_core ..).core_pending
  | aes3FrameReceived => exact (execAes3FrameReceived_core ..).core_pending
  | aesCsBlockComplete => exact (execAesCsBlockComplete_core ..).core_pending
  | portStartComplete => exact (execPortStartComplete_core ..).core_pending
  | portStopComplete => exact (execPortStopComplete_core ..).core_pending
  | linkUp => exact (execLinkUp_core ..).core_pending
  | linkDown => exact (execLinkDown_core ..).core_pending
  | mediaPacketReceived => exact (execMediaPacketReceived_core ..).core_pending
  | streamPacketSend => exact (execStreamPacketSend_core ..).core_pending
  | streamLost => exact (execStreamLost_core ..).core_pending
  | streamReportRepeat => exact (execStreamReportRepeat_core ..).core_pending
  | pathLost => exact (execPathLost_core ..).core_pending
  | arpRequest => exact (execArpRequest_core ..).core_pending
  | icmpEcho => exact (execIcmpEcho_core ..).core_pending
  | igmpQuery => exact (execIgmpQuery_core ..).core_pending
  | switchForward => exact (execSwitchForward_core ..).core_pending
  | fdbAgeOut => exact (execFdbAgeOut_core ..).core_pending
  | coopBlockTrigger => exact (execCoopBlockTrigger_core ..).core_pending
  | coopInitComplete => exact (execCoopInitComplete_core ..).core_pending
  | coopOverrun => exact (execCoopOverrun_core ..).core_pending
  | coopRunaway => exact (execCoopRunaway_core ..).core_pending
  | coopRestart => exact (execCoopRestart_core ..).core_pending
  | coopRestartCountReset => exact (execCoopRestartCountReset_core ..).core_pending
  | dmaDone => exact (execDmaDone_core ..).core_pending
  | announceReceiptTimeout => exact (execAnnounceReceiptTimeout_core ..).core_pending
  | ptpMasterTransmit => exact (execPtpMasterTransmit_core ..).core_pending
  | ptpDelayRequest => exact (execPtpDelayRequest_core ..).core_pending
  | ptpDelayResponse => exact (execPtpDelayResponse_core ..).core_pending
  | wclkInEdge => exact (execWclkInEdge_core ..).core_pending
  | aes3TransmitFrame => exact (execAes3TransmitFrame_core ..).core_pending
  | matchSuspect => exact (execMatchSuspect_core ..).core_pending
  | hsSideAtLimit => exact (execHsSideAtLimit_core ..).core_pending
  | illegalInstruction => exact (execIllegalInstruction_core ..).core_pending
  | fwEraseComplete => exact (execFwEraseComplete_core ..).core_pending
  | testSelfComplete => exact (execTestSelfComplete_core ..).core_pending
  | hostnetBridgeFrame => exact (execHostnetBridgeFrame_core ..).core_pending
  | govTest | pathForce | clampTest | trackFreeze | forceType | loopback | phyLoop | breakpointSet | coopRegisterWrite |
    injectCode =>
    exact (execRegWrite_core ..).core_pending
  | mac | msu | mpy | add | sub | and | or | xor | shl | asr | norm | rnd | sat | cmp | ld | ldd | st | br | call | ret |
    rep | repRegisterCount | endrep | wait | blkdone | halt | acs | bexp =>
    exact (cooper_core s rfl).core_pending rfl

/-- Settles O3: what each command leaves of the core of the machine, or of the queue where it moves the core. -/
theorem queueUntouched : Obligations.QueueUntouched := by
  unfold Obligations.QueueUntouched
  intro c s t ht
  exact (exec_keeps_pending c s).eq t ht

end Sys2Proof.Machine

/-! # Issue, and the instructions that work on bits

When an instruction of a Cooper core issues at all (R477, R478, R497), and what the logic, shift and width instructions leave
(R485, R492, R494). -/

namespace Sys2Proof.Machine

open Sys2Proof.Safety

/-! ### Issue -/

theorem coopExec_checks (k : Fin 4) (op : CoopOp) (body : Core → CoopRes) (s : State) :
    ∃ r : R, coopExec k op body s =
      if !executing (coreOf s k) || fetched (coreOf s k) ≠ some op then .next s
      else if atBreak (coreOf s k) then .next (debugHalt k s)
      else if endsFlow op && (coreOf s k).reps.any (fun l => l.last == (coreOf s k).pc) then
        .next (coreTrap k 1 (coreOf s k).pc s)
      else r := ⟨_, rfl⟩

/-- Every Cooper command checks the same three things before its own effect. -/
theorem exec_cooper_checks {i : Instr} {k : Fin 4} {op : CoopOp} (hi : coopOf i = some (k, op)) (s : State) :
    ∃ r : R, exec i s =
      if !executing (coreOf s k) || fetched (coreOf s k) ≠ some op then .next s
      else if atBreak (coreOf s k) then .next (debugHalt k s)
      else if endsFlow op && (coreOf s k).reps.any (fun l => l.last == (coreOf s k).pc) then
        .next (coreTrap k 1 (coreOf s k).pc s)
      else r := by
  unfold coopOf at hi
  split at hi
  case h_29 => cases hi
  all_goals
    obtain ⟨rfl, rfl⟩ := Prod.mk.inj (Option.some.inj hi)
  case h_25 =>
    rename_i core
    exact ⟨.next (blockDone core s), rfl⟩
  all_goals
    unfold exec
    exact coopExec_checks ..

/-- Settles O53: the three checks in their order. -/
theorem cooperIssue : Obligations.CooperIssue := by
  unfold Obligations.CooperIssue
  intro i k op s hi c
  obtain ⟨r, hr⟩ := exec_cooper_checks hi s
  rw [hr]
  refine ⟨fun hidle => ?idle, fun hruns hfetched hbreak => ?stops, fun hruns hfetched hbreak hflow hlast => ?traps⟩
  case idle => exact if_pos (by simpa using hidle)
  case stops => rw [if_neg (by simp [c, hruns, hfetched]), if_pos hbreak]
  case traps =>
    have hends : (endsFlow op && c.reps.any (fun l => l.last == c.pc)) = true := by simpa [hflow] using hlast
    rw [if_neg (by simp [c, hruns, hfetched]), if_neg (by simp [c, hbreak]), if_pos hends]

/-! ### Shifts (R485, R494) -/

theorem ofInt_ediv_two_pow {w : Nat} (x : BitVec w) (n : Nat) :
    BitVec.ofInt w (x.toInt / (2 ^ n : Nat)) = x.sshiftRight n := by
  rw [BitVec.sshiftRight, Int.shiftRight_eq_div_pow]

theorem toInt_sshiftRight_eq_ediv {w : Nat} (x : BitVec w) (n : Nat) :
    (x.sshiftRight n).toInt = x.toInt / (2 ^ n : Nat) := by
  rw [BitVec.toInt_sshiftRight, Int.shiftRight_eq_div_pow]

section
variable {k : Fin 4} {s : State}

theorem exec_shl_data {d a : Fin 16} {b : ShCount} (h : issues k (.shl (.data d a b)) s = true) :
    let c := coreOf s k
    let g := c.regs
    let n := shCount g b
    let x := regD g a
    let e := x.toInt * (2 ^ n : Nat)
    let r := dataResult g.sr e
    let cy := if n = 0 then Config.shiftC (coreDraw c) else decide (n ≤ 32) && x.getLsbD (32 - n)
    exec (.shl k (.data d a b)) s = .next (retired k 1 { c with regs := { putD d (BitVec.ofInt 32 r.1) g with
      sr := srZNVC r.2 r.1 (over32 e) cy } } s) := by
  intros
  show execShl k _ s = _
  unfold execShl
  refine coopExec_regs h ?_
  rfl

theorem exec_shl_acc {d a : Fin 4} {b : ShCount} (h : issues k (.shl (.acc d a b)) s = true) :
    let c := coreOf s k
    let g := c.regs
    let n := shCount g b
    let x := regA g a
    let r := accResult g.sr d (x.toInt * (2 ^ n : Nat))
    let cy := if n = 0 then Config.shiftC (coreDraw c) else decide (n ≤ 72) && x.getLsbD (72 - n)
    exec (.shl k (.acc d a b)) s = .next (retired k 1 { c with regs := { putA d r.1 g with
      sr := srPut (srZN r.2 r.1.toInt) bitC cy } } s) := by
  intros
  show execShl k _ s = _
  unfold execShl
  refine coopExec_regs h ?_
  rfl

theorem exec_asr_data {d a : Fin 16} {b : ShCount} (h : issues k (.asr (.data d a b)) s = true) :
    let c := coreOf s k
    let g := c.regs
    let n := shCount g b
    let x := regD g a
    let cy := if n = 0 then Config.shiftC (coreDraw c) else x.getLsbD (min (n - 1) 31)
    exec (.asr k (.data d a b)) s = .next (retired k 1 { c with regs := { putD d (x.sshiftRight n) g with
      sr := srZNVC g.sr (x.sshiftRight n).toInt false cy } } s) := by
  intro c g n x cy
  rw [toInt_sshiftRight_eq_ediv, ← ofInt_ediv_two_pow]
  show execAsr k _ s = _
  unfold execAsr
  refine coopExec_regs h ?_
  rfl

theorem exec_asr_acc {d a : Fin 4} {b : ShCount} (h : issues k (.asr (.acc d a b)) s = true) :
    let c := coreOf s k
    let g := c.regs
    let n := shCount g b
    let x := regA g a
    let cy := if n = 0 then Config.shiftC (coreDraw c) else x.getLsbD (min (n - 1) 71)
    exec (.asr k (.acc d a b)) s = .next (retired k 1 { c with regs := { putA d (x.sshiftRight n) g with
      sr := srZNVC g.sr (x.sshiftRight n).toInt false cy } } s) := by
  intro c g n x cy
  rw [toInt_sshiftRight_eq_ediv, ← ofInt_ediv_two_pow]
  show execAsr k _ s = _
  unfold execAsr
  refine coopExec_regs h ?_
  rfl

end

/-! ### Redundant sign bits (R494) -/

/-- The run counted from bit `k - 1` down: its length, its bits, and the bit that ends it. -/
theorem signRun_spec (x : Nat) (b : Bool) (k : Nat) :
    signRun x b k ≤ k ∧ (∀ i, i < signRun x b k → x.testBit (k - 1 - i) = b) ∧
      (signRun x b k < k → x.testBit (k - 1 - signRun x b k) = !b) := by
  induction k with
  | zero => exact ⟨Nat.le_refl 0, fun i hi => absurd hi (Nat.not_lt_zero i), fun h => absurd h (Nat.lt_irrefl 0)⟩
  | succ k ih =>
    obtain ⟨hle, hrun, hend⟩ := ih
    unfold signRun
    split
    · rename_i hbit
      have hk : x.testBit k = b := beq_iff_eq.mp hbit
      refine ⟨by omega, fun i hi => ?_, fun hlt => ?_⟩
      · cases i with
        | zero => exact hk
        | succ i =>
          rw [show k + 1 - 1 - (i + 1) = k - 1 - i by omega]
          exact hrun i (by omega)
      · rw [show k + 1 - 1 - (1 + signRun x b k) = k - 1 - signRun x b k by omega]
        exact hend (by omega)
    · rename_i hbit
      refine ⟨Nat.zero_le _, fun i hi => absurd hi (Nat.not_lt_zero i), fun _ => ?_⟩
      show x.testBit k = !b
      revert hbit
      cases x.testBit k <;> cases b <;> simp

theorem normD_spec (x : Word) : normD x ≤ 31 ∧ (∀ i, i < normD x → x.getLsbD (30 - i) = x.msb) ∧
    (normD x < 31 → x.getLsbD (30 - normD x) = !x.msb) := signRun_spec x.toNat x.msb 31

theorem normA_spec (x : BitVec 72) : -9 ≤ normA x ∧ normA x ≤ 62 ∧
    (∀ i : Nat, (i : Int) < normA x + 9 → x.getLsbD (70 - i) = x.msb) ∧
    (normA x < 62 → x.getLsbD (70 - (normA x + 9).toNat) = !x.msb) := by
  obtain ⟨hle, hrun, hend⟩ := signRun_spec x.toNat x.msb 71
  have hcount : (normA x + 9).toNat = signRun x.toNat x.msb 71 := by
    unfold normA
    omega
  unfold normA at *
  refine ⟨by omega, by omega, fun i hi => hrun i (by omega), fun hlt => ?_⟩
  rw [hcount]
  exact hend (by omega)

/-! ### Rounding and clamping (R492) -/

theorem clampI_eq_max_min {lo hi : Int} (h : lo ≤ hi) (x : Int) : clampI lo hi x = max lo (min hi x) := by
  unfold clampI
  split <;> (try split) <;> omega

theorem signed_emod_two_pow {w : Nat} (hw : 1 ≤ w) (x : Int) :
    signed w (x % (2 ^ w : Nat)).toNat = (BitVec.ofInt w x).toInt := by
  obtain ⟨n, rfl⟩ : ∃ n, w = n + 1 := ⟨w - 1, by omega⟩
  have hpow : (2 : Nat) ^ (n + 1) = 2 * 2 ^ n := by rw [Nat.pow_succ, Nat.mul_comm]
  have hpos : 0 < (2 : Nat) ^ n := Nat.two_pow_pos n
  rw [BitVec.toInt_ofInt, Int.bmod_def, hpow]
  unfold signed
  rw [Nat.add_sub_cancel, hpow]
  generalize (2 : Nat) ^ n = m at *
  have hnonneg : 0 ≤ x % ((2 * m : Nat) : Int) := Int.emod_nonneg x (by omega)
  have hhalf : (((2 * m : Nat) : Int) + 1) / 2 = m := by omega
  rw [hhalf]
  split <;> split <;> omega

section
variable {r : BitVec 13} {w : Nat} {x : Int}

theorem satS_eq (w : Nat) (x : Int) : satS w x =
    if x < -(2 : Int) ^ (w - 1) then -(2 : Int) ^ (w - 1)
    else if (2 : Int) ^ (w - 1) - 1 < x then (2 : Int) ^ (w - 1) - 1 else x := by
  simp only [satS, clampI, Nat.cast_pow, Nat.cast_ofNat]

theorem narrowTo_within (hlo : -(2 : Int) ^ (w - 1) ≤ x) (hhi : x < 2 ^ (w - 1)) : narrowTo r w x = (x, r) := by
  have hsat : satS w x = x := by
    rw [satS_eq, if_neg (by omega), if_neg (by omega)]
  simp only [narrowTo, hsat, if_true]

theorem satS_ne_of_out (h : x < -(2 : Int) ^ (w - 1) ∨ (2 : Int) ^ (w - 1) ≤ x) : satS w x ≠ x := by
  have hpos : (0 : Int) < 2 ^ (w - 1) := by positivity
  rw [satS_eq]
  rcases h with h | h
  · rw [if_pos h]
    omega
  · rw [if_neg (by omega), if_pos (by omega)]
    omega

theorem narrowTo_clamps (h : x < -(2 : Int) ^ (w - 1) ∨ (2 : Int) ^ (w - 1) ≤ x) (hsat : srBit r bitNsat = true) :
    narrowTo r w x = (satS w x, srPut r bitSov true) := by
  simp only [narrowTo, satS_ne_of_out h, hsat, if_true, if_false]

theorem narrowTo_wraps (hw : 1 ≤ w) (h : x < -(2 : Int) ^ (w - 1) ∨ (2 : Int) ^ (w - 1) ≤ x)
    (hsat : srBit r bitNsat = false) : narrowTo r w x = ((BitVec.ofInt w x).toInt, r) := by
  simp only [narrowTo, satS_ne_of_out h, hsat, if_false, Bool.false_eq_true, signed_emod_two_pow hw]

/-- Rounding toward minus infinity (R492, RNONE). -/
theorem roundDrop_floor (n : Nat) (hr : srBit r bitRnone = true) :
    roundDrop r x n * 2 ^ n ≤ x ∧ x < (roundDrop r x n + 1) * 2 ^ n := by
  have hpos : (0 : Int) < 2 ^ n := by positivity
  simp only [roundDrop, hr, if_true, Nat.cast_pow, Nat.cast_ofNat]
  exact ⟨Int.ediv_mul_le x (ne_of_gt hpos), Int.lt_ediv_add_one_mul_self x hpos⟩

end

theorem exec_norm_data {k : Fin 4} {s : State} {d a : Fin 16} (h : issues k (.norm (.data d a)) s = true) :
    let c := coreOf s k
    let g := c.regs
    exec (.norm k (.data d a)) s = .next (retired k 1 { c with
      regs := { putD d (BitVec.ofNat 32 (normD (regD g a))) g with sr := srZN g.sr (normD (regD g a)) } } s) := by
  intro c g
  rw [← BitVec.ofInt_natCast]
  show execNorm k _ s = _
  unfold execNorm
  refine coopExec_regs h ?_
  rfl

theorem exec_norm_acc {k : Fin 4} {s : State} {d : Fin 16} {b : Fin 4} (h : issues k (.norm (.acc d b)) s = true) :
    let c := coreOf s k
    let g := c.regs
    exec (.norm k (.acc d b)) s = .next (retired k 1 { c with
      regs := { putD d (BitVec.ofInt 32 (normA (regA g b))) g with sr := srZN g.sr (normA (regA g b)) } } s) :=
  coopExec_regs h rfl

theorem exec_rnd_narrow {k : Fin 4} {s : State} {d : Fin 16} {b : Fin 4} (h : issues k (.rnd (.narrow d b)) s = true) :
    let c := coreOf s k
    let g := c.regs
    let r := narrowTo g.sr 32 (roundDrop g.sr (regA g b).toInt 31)
    let v := BitVec.ofInt 32 r.1
    exec (.rnd k (.narrow d b)) s =
      .next (retired k 1 { c with regs := { putD d v g with sr := srZN r.2 v.toInt } } s) := by
  intros
  show execRnd k _ s = _
  unfold execRnd
  refine coopExec_regs h ?_
  rfl

theorem exec_rnd_data {k : Fin 4} {s : State} {d a : Fin 16} {w : Fin 32} (h : issues k (.rnd (.data d a w)) s = true) :
    let c := coreOf s k
    let g := c.regs
    let n := 32 - w.val
    let r := narrowTo g.sr w (roundDrop g.sr (regD g a).toInt n)
    let v := r.1 * (2 ^ n : Nat)
    exec (.rnd k (.data d a w)) s =
      .next (retired k 1 { c with regs := { putD d (BitVec.ofInt 32 v) g with sr := srZN r.2 v } } s) := by
  intros
  show execRnd k _ s = _
  unfold execRnd
  refine coopExec_regs h ?_
  rfl

theorem exec_sat_acc {k : Fin 4} {s : State} {e b : Fin 4} (h : issues k (.sat (.acc e b)) s = true) :
    let c := coreOf s k
    let g := c.regs
    let x := (regA g b).toInt
    let v := max (-(2 : Int) ^ 62) (min ((2 : Int) ^ 62 - 2 ^ 31) x)
    exec (.sat k (.acc e b)) s = .next (retired k 1 { c with regs := { putA e (BitVec.ofInt 72 v) g with
      sr := srStick g.sr bitSov (v != x) } } s) := by
  intro c g x v
  have hv : v = clampI (-4611686018427387904) (4611686018427387904 - 2147483648) x :=
    (clampI_eq_max_min (by decide) x).symm
  rw [hv]
  show execSat k _ s = _
  unfold execSat
  refine coopExec_regs h ?_
  rfl

theorem exec_sat_data {k : Fin 4} {s : State} {d a : Fin 16} {w : Fin 32} (h : issues k (.sat (.data d a w)) s = true) :
    let c := coreOf s k
    let g := c.regs
    let x := (regD g a).toInt
    let v := max (-(2 : Int) ^ 31) (min (((2 : Int) ^ (w.val - 1) - 1) * 2 ^ (32 - w.val)) x)
    exec (.sat k (.data d a w)) s = .next (retired k 1 { c with regs := { putD d (BitVec.ofInt 32 v) g with
      sr := srStick g.sr bitSov (v != x) } } s) := by
  intro c g x v
  have hhi : (0 : Int) ≤ ((2 ^ (w.val - 1) : Nat) - 1) * (2 ^ (32 - w.val) : Nat) := by
    have hone : 1 ≤ 2 ^ (w.val - 1) := Nat.one_le_two_pow
    exact mul_nonneg (by omega) (Int.natCast_nonneg _)
  have hv : v = clampI (-2147483648) (((2 ^ (w.val - 1) : Nat) - 1) * (2 ^ (32 - w.val) : Nat)) x := by
    rw [clampI_eq_max_min (by omega)]
    simp only [v, Nat.cast_pow, Nat.cast_ofNat]
    rfl
  rw [hv]
  show execSat k _ s = _
  unfold execSat
  refine coopExec_regs h ?_
  rfl

/-- Settles O55: each instruction by the registers it leaves, the counts by `signRun`, the widths by `satS`. -/
theorem cooperLogic : Obligations.CooperLogic := by
  unfold Obligations.CooperLogic
  refine ⟨fun k f s => ⟨fun h => coopExec_regs h rfl, fun h => coopExec_regs h rfl, fun h => coopExec_regs h rfl⟩,
    fun k d a b s => ⟨exec_shl_data, exec_asr_data⟩, fun k d a b s => ⟨exec_shl_acc, exec_asr_acc⟩,
    fun k d a b s => ⟨exec_norm_data, exec_norm_acc⟩, normD_spec, normA_spec,
    fun k d a b w s => ⟨exec_rnd_narrow, exec_rnd_data, fun e => exec_sat_acc, exec_sat_data⟩,
    fun r w x hw => ⟨narrowTo_within, fun hlow hsat => ?low, fun hhigh hsat => ?high, narrowTo_wraps hw⟩,
    fun r x n => roundDrop_floor n⟩
  case low => rw [narrowTo_clamps (.inl hlow) hsat, satS_eq, if_pos hlow]
  case high =>
    have hpos : (0 : Int) < 2 ^ (w - 1) := by positivity
    rw [narrowTo_clamps (.inr hhigh) hsat, satS_eq, if_neg (by omega), if_pos (by omega)]

end Sys2Proof.Machine

/-! # Cooper memory and control

Loads, stores and parallel moves (R456 to R459, R484, R486 to R489), and branches, repeats and traps (R473, R495 to R498). -/

namespace Sys2Proof.Machine

open Sys2Proof.Safety

/-! ### Regions (R456) -/

section
variable {k draw : Nat} {c : Core} {a : Nat} {v : Word}

/-- Outside the regions, and beside the words, a load and a store trap. -/
theorem coreLoad_store_outside (h : a % 4 ≠ 0 ∨ a < 0x20000 ∨ (0x65000 ≤ a ∧ a < 0x70000) ∨ (0x74400 ≤ a ∧ a < 0x7F000) ∨
    0x7F100 ≤ a) : coreLoad k draw c a = none ∧ coreStore c a v = .error 2 := by
  by_cases hword : a % 4 = 0
  · have hout := h.resolve_left (not_not.mpr hword)
    simp only [coreLoad, coreStore, hword, ne_eq, not_true_eq_false, if_false, Bool.and_eq_true, decide_eq_true_eq]
    constructor <;> (repeat rw [if_neg (by omega)])
  · simp [coreLoad, coreStore, hword]

/-- IN and PARAM are read-only. -/
theorem coreStore_readOnly (hlo : 0x60000 ≤ a) (hhi : a < 0x65000) : coreStore c a v = .error 2 := by
  by_cases hword : a % 4 = 0
  · simp only [coreStore, hword, ne_eq, not_true_eq_false, if_false, Bool.and_eq_true, decide_eq_true_eq]
    repeat rw [if_neg (by omega)]
  · simp [coreStore, hword]

theorem coreLoad_store_xmem (hword : a % 4 = 0) (hlo : 0x20000 ≤ a) (hhi : a < 0x40000) :
    coreLoad k draw c a = some (tget 0 c.xmem ((a - 0x20000) / 4)) ∧
      coreStore c a v = .ok { c with xmem := tset 0 c.xmem ((a - 0x20000) / 4) v } := by
  simp [coreLoad, coreStore, hword, hlo, hhi]

theorem coreLoad_store_ymem (hword : a % 4 = 0) (hlo : 0x40000 ≤ a) (hhi : a < 0x60000) :
    coreLoad k draw c a = some (tget 0 c.ymem ((a - 0x40000) / 4)) ∧
      coreStore c a v = .ok { c with ymem := tset 0 c.ymem ((a - 0x40000) / 4) v } := by
  simp [coreLoad, coreStore, hword, hlo, hhi, Nat.not_lt.mpr hlo]

theorem coreLoad_param (hword : a % 4 = 0) (hlo : 0x64000 ≤ a) (hhi : a < 0x65000) :
    coreLoad k draw c a = some (tget 0 c.param ((a - 0x64000) / 4)) := by
  simp only [coreLoad, hword, ne_eq, not_true_eq_false, if_false, Bool.and_eq_true, decide_eq_true_eq]
  rw [if_neg (by omega), if_neg (by omega), if_neg (by omega), if_pos (by omega)]

theorem coreLoad_store_rb (hword : a % 4 = 0) (hlo : 0x74000 ≤ a) (hhi : a < 0x74400) :
    coreLoad k draw c a = some (tget 0 c.rb ((a - 0x74000) / 4)) ∧
      coreStore c a v = .ok { c with rb := tset 0 c.rb ((a - 0x74000) / 4) v } := by
  simp only [coreLoad, coreStore, hword, ne_eq, not_true_eq_false, if_false, Bool.and_eq_true, decide_eq_true_eq]
  constructor <;> (repeat rw [if_neg (by omega)]) <;> rw [if_pos (by omega)]

end

/-! ### What a store leaves (R456, R457, R461) -/

/-- What a store may do to a core: its memories keep their canonical form, and what it executes, where and in which state,
stays. -/
structure StoreKeeps (c c1 : Core) : Prop where
  state : c1.state = c.state
  pc : c1.pc = c.pc
  wf : MemoriesWf c → MemoriesWf c1

theorem StoreKeeps.refl (c : Core) : StoreKeeps c c := ⟨rfl, rfl, id⟩

theorem dmaControl_keeps {c c1 : Core} {d : Nat} {v : Word} (h : dmaControl c d v = .ok c1) : StoreKeeps c c1 := by
  unfold dmaControl at h
  dsimp only at h
  (repeat' split at h) <;> cases h <;> exact ⟨rfl, rfl, id⟩

theorem ctrlWrite_keeps {c c1 : Core} {off : Nat} {v : Word} (h : ctrlWrite c off v = .ok c1) : StoreKeeps c c1 := by
  unfold ctrlWrite at h
  dsimp only at h
  split at h
  · split at h
    case h_4 => exact dmaControl_keeps h
    all_goals
      cases h
      exact ⟨rfl, rfl, id⟩
  · cases h
    exact .refl c

theorem coreStore_keeps {c c1 : Core} {a : Nat} {v : Word} (h : coreStore c a v = .ok c1) : StoreKeeps c c1 := by
  unfold coreStore at h
  dsimp only at h
  split at h
  · cases h
  · split at h
    · cases h
      exact ⟨rfl, rfl, fun ⟨hprog, hx, hy, hcask⟩ => ⟨hprog, tset_wf _ _ _ _ hx, hy, hcask⟩⟩
    · split at h
      · cases h
        exact ⟨rfl, rfl, fun ⟨hprog, hx, hy, hcask⟩ => ⟨hprog, hx, tset_wf _ _ _ _ hy, hcask⟩⟩
      · split at h
        · cases h
          split <;> exact ⟨rfl, rfl, id⟩
        · split at h
          · cases h
            exact ⟨rfl, rfl, id⟩
          · split at h
            · exact ctrlWrite_keeps h
            · cases h

/-! ### Instructions that sequence on -/

section
variable {k : Fin 4} {op : CoopOp} {body : Core → CoopRes} {s : State}

/-- An instruction that goes on after `n` cycles, where it leaves its core's place, retires. -/
theorem coopExec_seqOn {n : Nat} {c : Core} (h : issues k op s = true) (hpc : c.pc = (coreOf s k).pc)
    (hbody : body (coreOf s k) = seqOn n c) : coopExec k op body s = .next (retired k n c s) := by
  rw [coopExec_go h hbody, hpc]
  rfl

end

/-! ### LD, LDD and ST (R486 to R489) -/

section
variable {k : Fin 4} {s : State}

theorem exec_ld_mem {d : Fin 16} {p : Fin 8} {ad : Addr} (h : issues k (.ld (.mem d p ad)) s = true) :
    let c := coreOf s k
    let e := effAddr c.regs p ad
    (∀ x, coreLoad k (coreDraw c) c e.1 = some x → exec (.ld k (.mem d p ad)) s =
      .next (retired k 1 { c with regs := putP p e.2 (putD d x c.regs) } s)) ∧
    (coreLoad k (coreDraw c) c e.1 = none → exec (.ld k (.mem d p ad)) s = .next (trappedAs k 2 c s)) := by
  intro c e
  show (∀ x, _ → execLd k _ s = _) ∧ (_ → execLd k _ s = _)
  unfold execLd
  refine ⟨fun x hx => coopExec_regs h ?_, fun hx => coopExec_trap h ?_⟩
  all_goals
    dsimp only [c, e] at hx ⊢
    rw [hx]

/-- An immediate for the upper half is joined to the lower half that is there. -/
theorem append_low_half (v : BitVec 16) (w : Word) :
    BitVec.ofNat 32 (v.toNat * 65536 + w.toNat % 65536) = v ++ w.setWidth 16 := by
  apply BitVec.eq_of_toNat_eq
  rw [BitVec.toNat_append, BitVec.toNat_setWidth, ← Nat.shiftLeft_add_eq_or_of_lt (Nat.mod_lt _ (Nat.two_pow_pos 16)),
    Nat.shiftLeft_eq, BitVec.toNat_ofNat]
  have hv := v.isLt
  omega

theorem exec_ld_immHigh {r : Fin 42} {v : BitVec 16} (h : issues k (.ld (.immHigh r v)) s = true) :
    let c := coreOf s k
    exec (.ld k (.immHigh r v)) s =
      .next (retired k 1 { c with regs := writeCode r (v ++ (readCode c r).setWidth 16) c.regs } s) := by
  intro c
  rw [← append_low_half]
  show execLd k _ s = _
  unfold execLd
  refine coopExec_regs h ?_
  rfl

section
variable {c : Core} {f : LddFields} {g : CoopRegs}

theorem lddMove_some {j : Nat} {x y : Word} (hx : loadAt j c f.pa = some x) (hy : loadAt j c f.pb = some y) :
    lddMove j c f g = some (putP f.pb (postMod c.regs f.pb f.mb) (putP f.pa (postMod c.regs f.pa f.ma)
      (putD f.db y (putD f.da x g))), 1 + bankClash c.regs f.pa f.pb) := by
  simp only [lddMove, hx, hy]

theorem lddMove_none {j : Nat} (h : loadAt j c f.pa = none ∨ loadAt j c f.pb = none) : lddMove j c f g = none := by
  rcases h with h | h
  · simp only [lddMove, h]
  · cases hx : loadAt j c f.pa <;> simp only [lddMove, h, hx]

end

theorem exec_ldd {f : LddFields} (h : issues k (.ldd f) s = true) :
    let c := coreOf s k
    let g := c.regs
    (∀ x y, loadAt k c f.pa = some x → loadAt k c f.pb = some y → exec (.ldd k f) s =
      .next (retired k (1 + bankClash g f.pa f.pb) { c with
        regs := putP f.pb (postMod g f.pb f.mb) (putP f.pa (postMod g f.pa f.ma) (putD f.db y (putD f.da x g))) } s)) ∧
    (loadAt k c f.pa = none ∨ loadAt k c f.pb = none → exec (.ldd k f) s = .next (trappedAs k 2 c s)) := by
  intro c g
  show (∀ x y, _ → _ → execLdd k f s = _) ∧ (_ → execLdd k f s = _)
  unfold execLdd
  refine ⟨fun x y hx hy => coopExec_seqOn h rfl ?_, fun hnone => coopExec_trap h ?_⟩
  · rw [lddMove_some hx hy]
  · rw [lddMove_none hnone]

theorem exec_st {f : StForm} (h : issues k (.st f) s = true) :
    let c := coreOf s k
    let g := c.regs
    let e := effAddr g f.p f.ad
    let v := stValue g g.sr f.src
    (∀ c1, coreStore c e.1 v.1 = .ok c1 → exec (.st k f) s =
      .next (retired k 1 { c1 with regs := putP f.p e.2 { g with sr := v.2 } } s)) ∧
    (∀ r, coreStore c e.1 v.1 = .error r → exec (.st k f) s = .next (trappedAs k r c s)) := by
  intro c g e v
  show (∀ c1, _ → execSt k f s = _) ∧ (∀ r, _ → execSt k f s = _)
  unfold execSt
  refine ⟨fun c1 hc => coopExec_seqOn h (coreStore_keeps hc).pc ?_, fun r hc => coopExec_trap h ?_⟩
  all_goals
    dsimp only [c, g, e, v] at hc ⊢
    rw [hc]
  rfl

/-! ### Moves beside a multiply (R481, R484) -/

theorem mulBody_eq (j : Nat) (o : Int → Int → Int) (f : MulFields) (c : Core) :
    mulBody j o f c = doMove j c (multiplied o f c.regs) f.mv := by
  cases hdual : f.dual <;> simp [mulBody, multiplied, mulOne, hdual]

/-- A multiply runs as its parallel move over the registers it has computed. -/
theorem exec_multiply {f : MulFields} {i : Instr} {op : CoopOp} {o : Int → Int → Int}
    (hmem : (i, op, o) ∈ multiplies k f) :
    exec i s = coopExec k op (fun c => doMove k c (multiplied o f c.regs) f.mv) s := by
  simp only [multiplies, List.mem_cons, List.not_mem_nil, or_false, Prod.mk.injEq] at hmem
  rcases hmem with ⟨rfl, rfl, rfl⟩ | ⟨rfl, rfl, rfl⟩ | ⟨rfl, rfl, rfl⟩ <;>
    exact congrArg (fun b => coopExec k _ b s) (funext fun c => mulBody_eq ..)

end

/-- Settles O57: the regions one by one, then each form by the load or store it makes. -/
theorem cooperMemory : Obligations.CooperMemory := by
  unfold Obligations.CooperMemory
  refine ⟨fun k draw c a v => ⟨coreLoad_store_outside, coreStore_readOnly, fun hword => ⟨coreLoad_store_xmem hword,
      coreLoad_store_ymem hword, coreLoad_param hword, coreLoad_store_rb hword⟩⟩,
    fun k d p ad s => ?load, fun k s => ⟨fun r v => ⟨fun h => coopExec_regs h rfl, exec_ld_immHigh⟩,
      fun d q h => coopExec_regs h rfl⟩, fun k f s => ?pair, fun k f s => ?store,
    fun k f s i op o hmem h => ⟨fun m x y hmv hx hy => ?movePair, fun d p m x hmv hx => ?moveLoad,
      fun src p m c1 hmv hc => ?moveStore, fun d p m hmv hx => ?moveTraps⟩,
    fun g p => ⟨rfl, rfl, rfl, fun hm => ?modulo⟩⟩
  case load => exact fun h => exec_ld_mem h
  case pair => exact fun h => exec_ldd h
  case store => exact fun h => exec_st h
  case movePair =>
    rw [exec_multiply hmem]
    refine coopExec_seqOn h rfl ?_
    simp only [hmv, doMove, lddMove_some hx hy]
  case moveLoad =>
    rw [exec_multiply hmem]
    refine coopExec_seqOn h rfl ?_
    simp only [hmv, doMove, hx]
    rfl
  case moveStore =>
    rw [exec_multiply hmem]
    refine coopExec_seqOn h (coreStore_keeps hc).pc ?_
    simp only [hmv, doMove, hc]
    rfl
  case moveTraps =>
    rw [exec_multiply hmem]
    refine coopExec_trap h ?_
    simp only [hmv, doMove, hx]
  case modulo => simp [postMod, hm]

end Sys2Proof.Machine

/-! # Control and traps of a Cooper core

Branches, calls, repeats and traps (R473, R495 to R498), and what no Cooper instruction touches: the other cores. -/

namespace Sys2Proof.Machine

open Sys2Proof.Safety

/-! ### What a report leaves alone

A detection, a release and an event write the fault unit's, the command unit's and the links' parts of the state, and nothing else. -/

/-- `t` differs from `s` in these three parts at most. -/
def Reported (t s : State) : Prop := t = { s with cmd := t.cmd, flt := t.flt, net := t.net }

theorem Reported.refl (s : State) : Reported s s := rfl

theorem Reported.trans {a b c : State} (hab : Reported a b) (hbc : Reported b c) : Reported a c := by
  unfold Reported at *
  rw [hab, hbc]

theorem Reported.ite {p : Prop} [Decidable p] {a b s : State} (ha : Reported a s) (hb : Reported b s) :
    Reported (if p then a else b) s := by
  split
  · exact ha
  · exact hb

theorem Reported.foldl {α : Type} {g : State → α → State} (hg : ∀ s a, Reported (g s a) s) (l : List α) (s : State) :
    Reported (l.foldl g s) s := by
  induction l generalizing s with
  | nil => exact .refl s
  | cons x t ih => exact (ih _).trans (hg s x)

section
variable {t s : State} (h : Reported t s)
include h

theorem Reported.coop : t.coop = s.coop := congrArg (·.coop) h
theorem Reported.cfg : t.cfg = s.cfg := congrArg (·.cfg) h

end

theorem setLink_reported (l : LinkPort) (x : LinkRt) (s : State) : Reported (setLink l x s) s := by
  cases l <;> rfl

theorem serveLink_reported (l : LinkPort) (s : State) : Reported (serveLink l s) s :=
  Reported.trans (b := setLink l _ s) rfl (setLink_reported ..)

theorem sendFrame_reported (l : LinkPort) (o : NetOut) (len : Nat) (s : State) : Reported (sendFrame l o len s) s :=
  .ite ((serveLink_reported ..).trans ((setLink_reported ..).trans (serveLink_reported ..))) (.refl s)

theorem sendDatagram_reported (l ip udp key r s) : Reported (sendDatagram l ip udp key r s) s := by
  cases key with
  | none => exact Reported.trans (b := sendFrame l _ _ s) rfl (sendFrame_reported ..)
  | some k => exact Reported.trans (b := sendFrame l _ _ s) rfl (sendFrame_reported ..)

theorem sendNotice_reported (s : State) : Reported (sendNotice s) s := by
  unfold sendNotice
  split
  · exact Reported.trans (b := sendDatagram _ _ _ _ _ s) rfl (sendDatagram_reported ..)
  · exact .refl s

theorem noticed_reported (s0 s : State) : Reported (noticed s0 s) s := by
  unfold noticed
  refine .ite (.refl s) ?_
  split
  · exact .refl s
  · exact .ite rfl (sendNotice_reported s)

theorem recordLosses_reported (n : Nat) (s : State) : Reported (recordLosses n s) s := by
  unfold recordLosses
  exact .ite (.refl s) (.ite rfl rfl)

theorem newRecord_reported (code object index detail injected s) :
    Reported (newRecord code object index detail injected s) s :=
  (noticed_reported ..).trans ((recordLosses_reported ..).trans rfl)

theorem detect_reported (code object index detail s) : Reported (detect code object index detail s) s := by
  unfold detect
  split
  · exact .ite rfl rfl
  · have hnew := newRecord_reported code object index detail false s
    exact .ite (Reported.trans (b := newRecord code object index detail false s) rfl hnew) hnew

theorem raise_reported (code object index detail s) : Reported (raise code object index detail s) s :=
  .ite (.refl s) (detect_reported ..)

theorem release_reported (code object index s) : Reported (release code object index s) s := by
  unfold release
  split
  · exact .refl s
  · rfl

/-! ### Cores in their table -/

/-- A value that is not the default is read back from any table, and leaves every other key alone. -/
theorem tget_tset_of_ne {α : Type} [DecidableEq α] {d v : α} (hv : v ≠ d) (t : Tab α) (k i : Nat) :
    tget d (tset d t k v) i = if i = k then v else tget d t i := by
  induction t with
  | nil => simp [tset, tget, hv, eq_comm]
  | cons e t ih =>
    obtain ⟨j, w⟩ := e
    unfold tset
    by_cases hlt : k < j
    · simp only [hlt, if_true, hv, if_false, tget]
      by_cases hi : i = k
      · simp [hi]
      · simp only [hi, Ne.symm hi, if_false]
        by_cases hik : i < k
        · rw [if_pos hik, if_neg (by omega), if_pos (by omega)]
        · rw [if_neg hik]
    · by_cases hkj : k = j
      · subst hkj
        simp only [hlt, if_true, hv, if_false, tget]
        by_cases hi : i = k
        · simp [hi]
        · simp [hi, Ne.symm hi]
      · simp only [hlt, hkj, if_false, tget, ih]
        by_cases hi : i = k
        · subst hi
          simp [Ne.symm hkj, hlt]
        · simp only [hi, if_false]

/-- A core in any state but EMPTY is not the default one. -/
theorem coreOf_setCore {c : Core} (hc : c.state ≠ .empty) (k j : Nat) (s : State) :
    coreOf (setCore k c s) j = if j = k then c else coreOf s j := by
  refine tget_tset_of_ne (fun h => hc ?_) _ _ _
  rw [h]

theorem Reported.coreOf {t s : State} (h : Reported t s) (k : Nat) : coreOf t k = coreOf s k := by
  unfold Machine.coreOf
  rw [h.coop]

/-! ### Traps (R473) -/

/-- A core as a trap leaves it. -/
def trappedCore (k reason pc : Nat) (s : State) : Core :=
  let c := coreOf s k
  { c with
    state := .trapped, active := false, trapReason := reason, trapPc := 4 * pc, trapAt := s.sysCnt, haltReq := false, steps := 0
    dma := c.dma.map (fun x => { x with now := none }), ready := none, waiting := none
    exhausted := c.exhausted || ((coopCfg s k).restart && decide (3 ≤ c.restarts)) }

theorem coreOf_coreTrap (k reason pc j : Nat) (s : State) :
    coreOf (coreTrap k reason pc s) j = if j = k then trappedCore k reason pc s else coreOf s j := by
  have hreport : Reported (coreTrap k reason pc s) (setCore k (trappedCore k reason pc s) s) := raise_reported ..
  rw [hreport.coreOf, coreOf_setCore (fun h => CoopState.noConfusion h)]

theorem coreTrap_keeps (k reason pc : Nat) (s : State) : (coreTrap k reason pc s).sysCnt = s.sysCnt ∧
    (coreTrap k reason pc s).cfg = s.cfg ∧ (coreTrap k reason pc s).pending = s.pending := by
  have hreport : Reported (coreTrap k reason pc s) (setCore k (trappedCore k reason pc s) s) := raise_reported ..
  exact ⟨congrArg (·.sysCnt) hreport, hreport.cfg, congrArg (·.pending) hreport⟩

/-! ### Branches and conditions (R495) -/

theorem srBits_condHolds (r : BitVec 13) : let z := srBit r bitZ
    let n := srBit r bitN
    let v := srBit r bitV
    let c := srBit r bitC
    condHolds r 0 = true ∧ (condHolds r 1 = true ↔ z = true) ∧ (condHolds r 2 = true ↔ z = false) ∧
    (condHolds r 3 = true ↔ n ≠ v) ∧ (condHolds r 4 = true ↔ n = v) ∧ (condHolds r 5 = true ↔ z = false ∧ n = v) ∧
    (condHolds r 6 = true ↔ z = true ∨ n ≠ v) ∧ (condHolds r 7 = true ↔ c = true) ∧ (condHolds r 8 = true ↔ c = false) ∧
    (condHolds r 9 = true ↔ v = true) ∧ (condHolds r 10 = true ↔ v = false) ∧ (condHolds r 11 = true ↔ n = true) ∧
    (condHolds r 12 = true ↔ n = false) := by
  simp [condHolds]

/-- BR and ENDREP with a condition code above 12 are illegal. -/
theorem coopDecode_unknown_condition {w : Word} (hop : fld w 31 26 = 0x10 ∨ fld w 31 26 = 0x14) (hcond : 13 ≤ fld w 25 22) :
    coopDecode w = none := by
  have hnone : condOf (fld w 25 22) = none := if_neg (Nat.not_lt.mpr hcond)
  have h31 : fld w 31 31 ≠ 1 := by
    simp only [fld] at hop ⊢
    omega
  have h30 : fld w 30 26 = 0x10 ∨ fld w 30 26 = 0x14 := by
    simp only [fld] at hop ⊢
    omega
  rcases h30 with h30 | h30 <;> simp [coopDecode, decodeOp, h31, h30, hnone]

/-- A branch leaves the repeat levels whose body its target is not in, and only those on top. -/
theorem jumpTo_spec (c : Core) (t : Nat) : (jumpTo t c).pc = t ∧ ∃ l, c.reps = l ++ (jumpTo t c).reps ∧
    (∀ x ∈ l, t < x.first ∨ x.last < t) ∧ (∀ x ∈ (jumpTo t c).reps.head?, x.first ≤ t ∧ t ≤ x.last) := by
  refine ⟨rfl, c.reps.takeWhile (fun l => decide (t < l.first) || decide (l.last < t)),
    List.takeWhile_append_dropWhile.symm, fun x hx => ?_, fun x hx => ?_⟩
  · simpa using List.mem_takeWhile_imp hx
  · have hnot := List.head?_dropWhile_not (fun l : RepLevel => decide (t < l.first) || decide (l.last < t)) c.reps
    have hhead : (c.reps.dropWhile (fun l => decide (t < l.first) || decide (l.last < t))).head? = some x := hx
    rw [hhead] at hnot
    simpa using hnot

/-! ### The control instructions -/

section
variable {k : Fin 4} {s : State}

theorem brTarget_eq (g : CoopRegs) (t : BrTarget) :
    brTarget g t = match t with | .imm v => v.toNat | .reg d => (regD g d).toNat % 16384 := by
  cases t <;> rfl

theorem exec_br {cc : Cond} {t : BrTarget} (h : issues k (.br cc t) s = true) :
    let c := coreOf s k
    (condHolds c.regs.sr cc = true → exec (.br k cc t) s =
      .next (went k (jumpTo (brTarget c.regs t) { c with cycles := c.cycles + 2 }) s)) ∧
    (condHolds c.regs.sr cc = false → exec (.br k cc t) s = .next (retired k 1 c s)) := by
  intro c
  show (_ → execBr k cc t s = _) ∧ (_ → execBr k cc t s = _)
  unfold execBr
  exact ⟨fun hcc => coopExec_go h (if_pos hcc), fun hcc => coopExec_seqOn h rfl (if_neg (Bool.eq_false_iff.mp hcc))⟩

theorem exec_call {t : BrTarget} (h : issues k (.call t) s = true) :
    let c := coreOf s k
    (c.rstack.length < 16 → exec (.call k t) s = .next (went k
      { c with pc := brTarget c.regs t, rstack := (c.pc + 1) :: c.rstack, cycles := c.cycles + 2 } s)) ∧
    (16 ≤ c.rstack.length → exec (.call k t) s = .next (trappedAs k 7 c s)) := by
  intro c
  show (_ → execCall k t s = _) ∧ (_ → execCall k t s = _)
  unfold execCall
  exact ⟨fun hroom => coopExec_go h (if_neg (Nat.not_le.mpr hroom)), fun hfull => coopExec_trap h (if_pos hfull)⟩

theorem exec_ret (h : issues k .ret s = true) :
    let c := coreOf s k
    (∀ t l, c.rstack = t :: l → exec (.ret k) s =
      .next (went k (jumpTo t { c with rstack := l, cycles := c.cycles + 2 }) s)) ∧
    (c.rstack = [] → exec (.ret k) s = .next (trappedAs k 7 c s)) := by
  intro c
  show (∀ t l, _ → execRet k s = _) ∧ (_ → execRet k s = _)
  unfold execRet
  refine ⟨fun t l hstack => coopExec_go h ?_, fun hstack => coopExec_trap h ?_⟩ <;> dsimp only [c] at hstack <;> rw [hstack]

theorem exec_blkdone (h : issues k .blkdone s = true) : exec (.blkdone k) s = .next (blockDone k s) := by
  obtain ⟨hruns, hfetched, hbreak, hflow⟩ := issues_iff.mp h
  have hlast : (coreOf s k).reps.any (fun l => l.last == (coreOf s k).pc) = false := hflow
  show execBlkdone k s = _
  unfold execBlkdone
  dsimp only
  rw [if_neg (by simp [hruns, hfetched]), if_neg (Bool.eq_false_iff.mp hbreak), if_neg (Bool.eq_false_iff.mp hlast)]

theorem mem_bitsOf {n m d : Nat} : d ∈ bitsOf n m ↔ d < n ∧ m.testBit d = true := by
  simp [bitsOf]

theorem exec_wait {m : BitVec 4} (h : issues k (.wait m) s = true) :
    let c := coreOf s k
    ((∀ d, d < 4 → m.getLsbD d = true → (c.dma.getD d {}).now = none) →
      exec (.wait k m) s = .next (retired k 1 c s)) ∧
    ((∃ d, d < 4 ∧ m.getLsbD d = true ∧ (c.dma.getD d {}).now ≠ none) →
      exec (.wait k m) s = .next (went k { c with steps := c.steps + 1 } s)) := by
  intro c
  show (_ → execWait k m s = _) ∧ (_ → execWait k m s = _)
  unfold execWait
  refine ⟨fun hidle => coopExec_seqOn h rfl (if_neg ?_), fun ⟨d, hd, hm, hbusy⟩ => coopExec_go h (if_pos ?_)⟩
  · intro hany
    obtain ⟨d, hd, hbusy⟩ := List.any_eq_true.mp hany
    obtain ⟨hd4, hm⟩ := mem_bitsOf.mp hd
    have hnone : (c.dma.getD d {}).now = none := hidle d hd4 hm
    rw [hnone] at hbusy
    cases hbusy
  · exact List.any_eq_true.mpr ⟨d, mem_bitsOf.mpr ⟨hd, hm⟩, Option.isSome_iff_ne_none.mpr hbusy⟩

theorem exec_illegalInstruction (hruns : executing (coreOf s k) = true) (hfetched : fetched (coreOf s k) = none)
    (hbreak : atBreak (coreOf s k) = false) : exec (.illegalInstruction k) s =
      .next (coreTrap k (if (coreOf s k).image.progWords ≤ (coreOf s k).pc then 4 else 1) (coreOf s k).pc s) := by
  show execIllegalInstruction k s = _
  simp [execIllegalInstruction, hruns, hfetched, hbreak]

/-- Both forms of REP run `repBody` with their own count. -/
theorem exec_repeats {len : Fin 1024} {i : Instr} {op : CoopOp} {count : Nat}
    (hi : (∃ n, i = .rep k len n ∧ op = .rep len n ∧ count = n.toNat) ∨
      (∃ d, i = .repRegisterCount k len d ∧ op = .repReg len d ∧ count = (regD (coreOf s k).regs d).toNat % 65536)) :
    ∃ body : Core → CoopRes, exec i s = coopExec k op body s ∧ body (coreOf s k) = repBody (len.val + 1) count (coreOf s k) := by
  rcases hi with ⟨n, rfl, rfl, rfl⟩ | ⟨d, rfl, rfl, rfl⟩
  · exact ⟨_, rfl, rfl⟩
  · exact ⟨_, rfl, rfl⟩

section
variable {len count : Nat} {c : Core}

theorem repBody_crosses (h : ∃ l ∈ c.reps, l.last < c.pc + len) : repBody len count c = .trap 1 c := by
  unfold repBody
  exact if_pos (by simpa using h)

variable (h : ∀ l ∈ c.reps, c.pc + len ≤ l.last)
include h

theorem repBody_nests : repBody len count c = if count = 0 then .go (afterInstr (c.pc + len) { c with cycles := c.cycles + 2 })
    else if 4 ≤ c.reps.length then .trap 7 c
    else .go { c with pc := c.pc + 1, reps := ⟨c.pc + 1, c.pc + len, count⟩ :: c.reps, cycles := c.cycles + 1 } := by
  unfold repBody
  exact if_neg (by simpa using h)

end

theorem exec_endrep {cc : Cond} (h : issues k (.endrep cc) s = true) :
    let c := coreOf s k
    (condHolds c.regs.sr cc = false → exec (.endrep k cc) s = .next (retired k 1 c s)) ∧
    (condHolds c.regs.sr cc = true → c.reps = [] → exec (.endrep k cc) s = .next (trappedAs k 7 c s)) ∧
    (∀ l t, condHolds c.regs.sr cc = true → c.reps = l :: t → exec (.endrep k cc) s =
      .next (went k (afterInstr l.last { c with reps := t, cycles := c.cycles + 2 }) s)) := by
  intro c
  show (_ → execEndrep k cc s = _) ∧ (_ → _ → execEndrep k cc s = _) ∧ (∀ l t, _ → _ → execEndrep k cc s = _)
  unfold execEndrep
  refine ⟨fun hcc => coopExec_seqOn h rfl (if_neg (Bool.eq_false_iff.mp hcc)), fun hcc hreps => coopExec_trap h ?_,
    fun l t hcc hreps => coopExec_go h ?_⟩
  all_goals
    dsimp only [c] at hcc hreps
    rw [if_pos hcc, hreps]

end

/-! ### After an instruction (R497) -/

theorem afterInstr_spec (pc : Nat) (c : Core) :
    ((∀ l ∈ c.reps.head?, l.last ≠ pc) → afterInstr pc c = { c with pc := pc + 1 }) ∧
    (∀ l t, c.reps = l :: t → l.last = pc → 1 < l.left →
      afterInstr pc c = { c with pc := l.first, reps := { l with left := l.left - 1 } :: t }) ∧
    (∀ l t, c.reps = l :: t → l.last = pc → l.left ≤ 1 → afterInstr pc c = afterInstr pc { c with reps := t }) := by
  refine ⟨fun hfree => ?_, fun l t hreps hlast hleft => ?_, fun l t hreps hlast hleft => ?_⟩
  · have hgoes : endBodies pc c.reps = (pc + 1, c.reps) := by
      cases hreps : c.reps with
      | nil => rfl
      | cons l t => exact if_neg (hfree l (by simp [hreps]))
    simp only [afterInstr, hgoes]
  · simp [afterInstr, endBodies, hreps, hlast, hleft]
  · simp [afterInstr, endBodies, hreps, hlast, Nat.not_lt.mpr hleft]

/-- Settles O58: the instructions one by one, over the rules of branches, repeats and traps. -/
theorem cooperControl : Obligations.CooperControl := by
  unfold Obligations.CooperControl
  refine ⟨fun k cc t s => ?branches, jumpTo_spec, srBits_condHolds, fun w => coopDecode_unknown_condition,
    fun k s => ⟨exec_ret, fun h => coopExec_trap h rfl, exec_blkdone, fun m => exec_wait,
      fun hruns hfetched hbreak => ⟨fun hend => ?fetchBeyond, fun hin => ?illegal⟩⟩,
    fun k len i op count s => ?repeats, fun k cc s => exec_endrep, afterInstr_spec, fun k reason pc s => ?trap⟩
  case branches =>
    intro c n
    rw [show n = brTarget c.regs t from (brTarget_eq ..).symm]
    exact ⟨exec_br, exec_call⟩
  case fetchBeyond => rw [exec_illegalInstruction hruns hfetched hbreak, if_pos hend]
  case illegal => rw [exec_illegalInstruction hruns hfetched hbreak, if_neg (Nat.not_le.mpr hin)]
  case repeats =>
    intro c hi h last
    obtain ⟨body, hexec, hbody⟩ := exec_repeats hi
    rw [hexec]
    refine ⟨fun hcross => coopExec_trap h (hbody.trans (repBody_crosses hcross)), fun hnest =>
      ⟨fun hzero => coopExec_go h ?_, fun hcount hroom => coopExec_go h ?_, fun hcount hfull => coopExec_trap h ?_⟩⟩
    all_goals refine hbody.trans ((repBody_nests hnest).trans ?_)
    · exact if_pos hzero
    · rw [if_neg hcount, if_neg (Nat.not_le.mpr hroom)]
      rfl
    · rw [if_neg hcount, if_pos hfull]
  case trap =>
    intro c t
    obtain ⟨hcnt, hcfg, hqueue⟩ := coreTrap_keeps k reason pc s
    have hcore : coreOf t k = trappedCore k reason pc s := (coreOf_coreTrap ..).trans (if_pos rfl)
    rw [hcore]
    exact ⟨hcnt, hcfg, hqueue, rfl, rfl, rfl, rfl, rfl, rfl, rfl, rfl, by simp [trappedCore]⟩

end Sys2Proof.Machine

/-! # The memories of a Cooper core

Every Cooper instruction keeps the memories of its core in canonical form and leaves the other cores alone (R456). -/

namespace Sys2Proof.Machine

open Sys2Proof.Safety

/-! ### What a body leaves of its core -/

/-- The core keeps its state, and its memories their canonical form. -/
def MemoriesKept (c c1 : Core) : Prop := c1.state = c.state ∧ (MemoriesWf c → MemoriesWf c1)

theorem MemoriesKept.refl (c : Core) : MemoriesKept c c := ⟨rfl, id⟩

theorem MemoriesKept.trans {a b c : Core} (hab : MemoriesKept a b) (hbc : MemoriesKept b c) : MemoriesKept a c :=
  ⟨hbc.1.trans hab.1, hbc.2 ∘ hab.2⟩

theorem StoreKeeps.memoriesKept {c c1 : Core} (h : StoreKeeps c c1) : MemoriesKept c c1 := ⟨h.state, h.wf⟩

/-- The core an instruction leaves, before a trap is taken. -/
def CoopRes.core : CoopRes → Core
  | .go c => c
  | .trap _ c => c

theorem seqRegs_kept (g : CoopRegs) (c : Core) : MemoriesKept c (seqRegs g c).core := ⟨rfl, id⟩

theorem seqOn_kept (n : Nat) (c : Core) : MemoriesKept c (seqOn n c).core := ⟨rfl, id⟩

theorem doMove_kept (k : Nat) (c : Core) (g : CoopRegs) (m : Sys2Proof.Move) : MemoriesKept c (doMove k c g m).core := by
  unfold doMove
  split
  · exact seqRegs_kept ..
  · split
    · exact ⟨rfl, id⟩
    · exact .refl c
  · split
    · exact seqRegs_kept ..
    · exact .refl c
  · split
    split
    · rename_i hstore
      exact (coreStore_keeps hstore).memoriesKept.trans (seqRegs_kept ..)
    · exact .refl c

theorem repBody_kept (len count : Nat) (c : Core) : MemoriesKept c (repBody len count c).core := by
  unfold repBody
  dsimp only
  (repeat' split) <;> exact ⟨rfl, id⟩

theorem bexpLoop_kept (k : Nat) (f : BexpForm) (n : Nat) (c : Core) : MemoriesKept c (bexpLoop k f n c).1 := by
  induction n generalizing c with
  | zero => exact .refl c
  | succ n ih =>
    cases hx : loadAt k c f.pa with
    | none =>
      rw [bexpLoop_first_refused hx]
      exact .refl c
    | some x =>
      cases hy : loadAt k c f.pb with
      | none =>
        rw [bexpLoop_second_refused hx hy]
        exact ⟨rfl, id⟩
      | some y =>
        rw [bexpLoop_cycle hx hy]
        exact MemoriesKept.trans ⟨rfl, id⟩ (ih _)

/-! ### What a command leaves of the cores -/

/-- The command leaves every core but `k` as it was, and the memories of `k` in canonical form. -/
structure CoresKept (k : Nat) (s t : State) : Prop where
  other : ∀ j : Nat, j ≠ k → coreOf t j = coreOf s j
  wf : MemoriesWf (coreOf s k) → MemoriesWf (coreOf t k)

theorem CoresKept.refl (k : Nat) (s : State) : CoresKept k s s := ⟨fun _ _ => rfl, id⟩

theorem CoresKept.trans {k : Nat} {a b c : State} (hab : CoresKept k a b) (hbc : CoresKept k b c) : CoresKept k a c :=
  ⟨fun j hj => (hbc.other j hj).trans (hab.other j hj), hbc.wf ∘ hab.wf⟩

theorem CoresKept.ite {p : Prop} [Decidable p] {k : Nat} {s a b : State} (ha : CoresKept k s a) (hb : CoresKept k s b) :
    CoresKept k s (if p then a else b) := by
  split
  · exact ha
  · exact hb

theorem Reported.coresKept {t s : State} (h : Reported t s) (k : Nat) : CoresKept k s t :=
  ⟨fun j _ => h.coreOf j, fun hwf => (h.coreOf k).symm ▸ hwf⟩

/-- The core `k` is written, not as an empty one. -/
theorem setCore_kept {k : Nat} {c : Core} {s : State} (hc : c.state ≠ .empty)
    (hwf : MemoriesWf (coreOf s k) → MemoriesWf c) : CoresKept k s (setCore k c s) :=
  ⟨fun j hj => (coreOf_setCore hc k j s).trans (if_neg hj),
    fun h => by
      rw [coreOf_setCore hc, if_pos rfl]
      exact hwf h⟩

theorem coreTrap_kept (k reason pc : Nat) (s : State) : CoresKept k s (coreTrap k reason pc s) :=
  ⟨fun _ hj => (coreOf_coreTrap ..).trans (if_neg hj), fun h => by
    rw [coreOf_coreTrap, if_pos rfl]
    exact h⟩

theorem debugHalt_kept (k : Nat) (s : State) : CoresKept k s (debugHalt k s) :=
  setCore_kept (fun h => CoopState.noConfusion h) id

theorem executing_nonempty {c : Core} (h : executing c = true) : c.state ≠ .empty := by
  intro hempty
  simp [executing, hempty] at h

/-- An instruction whose body keeps its core's memories keeps them as a command. -/
theorem coopExec_kept {k : Fin 4} {op : CoopOp} {body : Core → CoopRes} {s t : State}
    (hbody : ∀ c, MemoriesKept c (body c).core) (ht : coopExec k op body s = .next t) : CoresKept k s t := by
  have hsettled : executing (coreOf s k) = true → ∀ c1, MemoriesKept (coreOf s k) c1 →
      CoresKept k s (setCore k (settleStep (coreOf s k) c1) s) :=
    fun hruns c1 hkept => setCore_kept (hkept.1.trans_ne (executing_nonempty hruns)) hkept.2
  unfold coopExec at ht
  dsimp only at ht
  split at ht
  · cases ht
    exact .refl ..
  · rename_i hissue
    have hruns : executing (coreOf s k) = true := by
      by_contra hidle
      exact hissue (by simp [hidle])
    split at ht
    · cases ht
      exact debugHalt_kept ..
    · split at ht
      · cases ht
        exact coreTrap_kept ..
      · have hkept := hbody (coreOf s k)
        split at ht <;> rename_i hres <;> rw [hres] at hkept <;> cases ht
        · exact hsettled hruns _ hkept
        · exact (hsettled hruns _ hkept).trans (coreTrap_kept ..)

/-! ### BLKDONE (R464) -/

theorem startBlock_kept {k : Nat} {s : State} (hs : (coreOf s k).state ≠ .empty) (b : InBlock) (late : Bool) :
    CoresKept k s (startBlock k b late s) := by
  unfold startBlock
  extract_lets c p fresh c1
  have hset : CoresKept k s (setCore k c1 s) := setCore_kept hs id
  exact ⟨hset.other, hset.wf⟩

theorem blockDone_kept {k : Nat} {s : State} (hs : (coreOf s k).state ≠ .empty) : CoresKept k s (blockDone k s) := by
  unfold blockDone fresh
  extract_lets c late onTime halt
  dsimp -zeta only
  extract_lets n c1 s1 s2 s3
  have hc1 : c1.state ≠ .empty := by
    show (if halt = true then CoopState.halted else c.state) ≠ .empty
    split
    · exact fun h => CoopState.noConfusion h
    · exact hs
  have hset := setCore_kept (k := k) (s := { s with seed := s.seed + 1 }) hc1 id
  have h1 : CoresKept k s s1 := ⟨hset.other, hset.wf⟩
  have hreport : Reported s3 s1 :=
    .trans (.ite (release_reported ..) (.refl _)) (.foldl (fun _ _ => raise_reported ..) _ _)
  have h3 : CoresKept k s s3 := h1.trans (hreport.coresKept k)
  have hs3 : (coreOf s3 k).state ≠ .empty := by
    rw [hreport.coreOf, show coreOf s1 k = c1 from (coreOf_setCore hc1 k k _).trans (if_pos rfl)]
    exact hc1
  clear_value s3
  split
  · exact h3
  · split
    · exact h3
    · exact h3.trans (startBlock_kept hs3 ..)

theorem execBlkdone_kept {k : Fin 4} {s t : State} (ht : execBlkdone k s = .next t) : CoresKept k s t := by
  unfold execBlkdone at ht
  dsimp only at ht
  split at ht
  · cases ht
    exact .refl ..
  · rename_i hissue
    split at ht
    · cases ht
      exact debugHalt_kept ..
    · split at ht <;> cases ht
      · exact coreTrap_kept ..
      · refine blockDone_kept (executing_nonempty ?_)
        by_contra hidle
        exact hissue (by simp [hidle])

/-! ### Every Cooper instruction -/

theorem mulBody_kept (k o f) (c : Core) : MemoriesKept c (mulBody k o f c).core := doMove_kept ..

theorem logicBody_kept (o f) (c : Core) : MemoriesKept c (logicBody o f c).core := seqRegs_kept ..

theorem bexpBody_kept (k : Nat) (f : BexpForm) (c c0 : Core) (hc : MemoriesKept c c0) :
    MemoriesKept c (if (bexpLoop k f f.n.toNat c0).2 then CoopRes.go (afterInstr c.pc (bexpLoop k f f.n.toNat c0).1)
      else .trap 2 (bexpLoop k f f.n.toNat c0).1).core := by
  have hloop := hc.trans (bexpLoop_kept k f f.n.toNat c0)
  split
  · exact hloop.trans ⟨rfl, id⟩
  · exact hloop

/-- The bodies that write registers or move on keep the memories as they stand; the others store, or are BLKDONE. -/
theorem cooper_kept {i : Instr} {k : Fin 4} {op : CoopOp} (hi : coopOf i = some (k, op)) {s t : State}
    (ht : exec i s = .next t) : CoresKept k s t := by
  unfold coopOf at hi
  split at hi
  case h_29 => cases hi
  all_goals
    obtain ⟨rfl, rfl⟩ := Prod.mk.inj (Option.some.inj hi)
    unfold exec at ht
  case h_1 | h_2 | h_3 => exact coopExec_kept (fun c => mulBody_kept _ _ _ c) ht
  case h_6 | h_7 | h_8 => exact coopExec_kept (fun c => logicBody_kept _ _ c) ht
  case h_21 | h_22 => exact coopExec_kept (fun c => repBody_kept _ _ c) ht
  case h_25 => exact execBlkdone_kept ht
  case h_26 | h_27 => exact coopExec_kept (fun c => ⟨rfl, id⟩) ht
  case h_28 =>
    refine coopExec_kept (fun c => bexpBody_kept _ _ c _ ?_) ht
    split <;> exact ⟨rfl, id⟩
  case h_15 =>
    refine coopExec_kept (fun c => ?_) ht
    dsimp only
    (repeat' split) <;> exact ⟨rfl, id⟩
  case h_17 =>
    refine coopExec_kept (fun c => ?_) ht
    dsimp only
    split
    · rename_i hstore
      exact (coreStore_keeps hstore).memoriesKept.trans (seqRegs_kept ..)
    · exact .refl c
  all_goals
    refine coopExec_kept (fun c => ?_) ht
    (repeat' split) <;> exact ⟨rfl, id⟩

/-- Settles O60: what each instruction's body leaves of its core, and BLKDONE apart. -/
theorem cooperMemoryForm : Obligations.CooperMemoryForm := by
  unfold Obligations.CooperMemoryForm
  intro s t i k op hi hwf ht
  have hkept := cooper_kept hi ht
  exact ⟨hkept.other, hkept.wf hwf⟩

end Sys2Proof.Machine

/-! # The self test, firmware images, the expert session and keys

Sums of powers of 2 as masks; what EXPERT_CLOSE and a timeout leave of a session (R80, R530). -/

namespace Sys2Proof.Machine

open Sys2Proof.Safety

/-! ### Masks as sums of powers of 2 -/

theorem testBit_sum_two_pow {l : List Nat} (hl : l.SortedLT) (i : Nat) :
    (l.map (2 ^ ·)).sum.testBit i = decide (i ∈ l) := by
  have hmem : i ∈ l ↔ (l.map (2 ^ ·)).sum.testBit i = true := by
    rw [← Nat.mem_bitIndices, Nat.bitIndices_sum_map_two_pow hl]
  rw [Bool.eq_iff_iff, ← hmem, decide_eq_true_iff]

theorem bitsOf_filter_sorted (n m : Nat) (f : Nat → Bool) : ((bitsOf n m).filter f).SortedLT := by
  have hrange : (List.range n).Pairwise (· < ·) := List.pairwise_lt_range
  exact (hrange.sublist (List.filter_sublist.trans List.filter_sublist)).sortedLT

theorem bitsOf_sorted (n m : Nat) : (bitsOf n m).SortedLT :=
  (List.pairwise_lt_range.sublist List.filter_sublist).sortedLT

theorem sum_two_pow_eq_zero {l : List Nat} : (l.map (2 ^ ·)).sum = 0 ↔ l = [] := by
  cases l with
  | nil => simp
  | cons a t => simp

/-- A set of bits is split by a test into those that fail it and those that pass. -/
theorem mask_split (n m : Nat) (f : Nat → Bool) :
    (((bitsOf n m).filter fun k => !f k).map (2 ^ ·)).sum &&& (((bitsOf n m).filter f).map (2 ^ ·)).sum = 0 ∧
    (((bitsOf n m).filter fun k => !f k).map (2 ^ ·)).sum ||| (((bitsOf n m).filter f).map (2 ^ ·)).sum = m % 2 ^ n := by
  constructor
  · apply Nat.eq_of_testBit_eq
    intro i
    rw [Nat.testBit_and, testBit_sum_two_pow (bitsOf_filter_sorted n m _), testBit_sum_two_pow (bitsOf_filter_sorted n m _)]
    cases hf : f i <;> simp [hf]
  · apply Nat.eq_of_testBit_eq
    intro i
    rw [Nat.testBit_or, testBit_sum_two_pow (bitsOf_filter_sorted n m _), testBit_sum_two_pow (bitsOf_filter_sorted n m _),
      Nat.testBit_mod_two_pow]
    cases hf : f i <;> simp [hf, mem_bitsOf, Bool.decide_and]

/-- The tests that passed are those that did not fail. -/
theorem passed_eq (n m : Nat) (f : Nat → Bool) :
    ((bitsOf n m).filter fun k => !((bitsOf n m).filter f).contains k) = (bitsOf n m).filter fun k => !f k := by
  refine List.filter_congr fun k hk => ?_
  simp [hk]

/-- The detail of a self test is 0xFF where no test of the first five failed, and only there. -/
theorem firstFailure_none (m : Nat) (f : Nat → Bool) (s : State) :
    (bitsOf 5 m).filter f = [] ↔ (match (bitsOf 5 m).filter f with
      | k :: _ => k + 256 * (selfTest s k).getD 0
      | [] => 0xFF) = 0xFF := by
  cases hl : (bitsOf 5 m).filter f with
  | nil => simp
  | cons k t =>
    have hk : k ∈ (bitsOf 5 m).filter f := by simp [hl]
    have hlt := (mem_bitsOf.mp (List.mem_of_mem_filter hk)).1
    simp only [reduceCtorEq, false_iff]
    omega

/-- Settles O13: the masks of a self test split what was asked for; the packets of an image answer by the file of O12. -/
theorem selfTestAndFirmware : Obligations.SelfTestAndFirmware := by
  unfold Obligations.SelfTestAndFirmware
  refine ⟨⟨fun h p s hr hlen hzero hmax hrest hfree => ?ask, fun dt us s w hw => ?complete⟩,
    fun h p s hr hlen hmin hmax htarget hrest himage hidle => ?begin, fun dt s he => ?erased,
    fun h p s i n d ok hr hlen htarget himage hoff hroom hidle => ?data,
    fun h p s i n d ok hr hlen htarget himage hidle => ?finish,
    fun h p s hr hlen himage hzero => ⟨fun hmark hver hboot => ?mark, fun hconfirm htrial hcur => ?confirm⟩⟩
  case ask =>
    refine opcodeN_late hr hlen ?_
    simp [hzero, Nat.not_lt.mpr hmax, hrest, hfree]
  case complete =>
    show ∃ _ _ _, execTestSelfComplete dt us s = _ ∧ _
    unfold execTestSelfComplete
    simp only [hw]
    obtain ⟨hdisjoint, hall⟩ := mask_split 5 w.toNat fun k => (selfTest (advance dt s) k).isSome
    refine ⟨_, _, _, rfl, ?_⟩
    rw [passed_eq]
    exact ⟨hdisjoint, hall, sum_two_pow_eq_zero.trans (firstFailure_none _ _ _)⟩
  case begin =>
    refine opcodeN_late hr hlen ?_
    simp [-Fin.ofNat_eq_cast, Nat.not_lt.mpr hmin, Nat.not_lt.mpr hmax, Nat.not_lt.mpr htarget, himage, hrest, hidle]
  case erased =>
    show execFwEraseComplete dt s = _
    simp [execFwEraseComplete, he]
  case data =>
    refine opcode_reply hr ?_
    have hroom' : ¬ n < (d ++ p.drop 4).length := by
      rw [List.length_append, List.length_drop]
      omega
    simp only [htarget, himage, hidle]
    rw [if_neg (Nat.not_lt.mpr hlen), if_neg (not_not.mpr hoff), if_neg hroom', if_neg Bool.false_ne_true]
  case finish =>
    refine opcodeN_reply hr hlen ?_
    simp [htarget, himage, hidle]
  case mark =>
    refine opcodeN_reply hr hlen ?_
    simp [-Fin.ofNat_eq_cast, hmark, hver, hboot, hzero, Nat.not_lt.mpr himage]
  case confirm =>
    refine opcodeN_reply hr hlen ?_
    simp [-Fin.ofNat_eq_cast, hconfirm, htrial, hcur, hzero, Nat.not_lt.mpr himage]

/-! ### The owner of the expert session

What EXPERT_CLOSE releases (the tests of the expert registers) opens no session. -/

theorem foldl_expert {α : Type} {g : State → α → State} (hg : ∀ s a, (g s a).cmd.expert = s.cmd.expert) (l : List α) (s : State) :
    (l.foldl g s).cmd.expert = s.cmd.expert := by
  induction l generalizing s with
  | nil => rfl
  | cons x t ih => rw [List.foldl_cons, ih, hg]

@[simp] theorem sendFrame_expert (l o n s) : (sendFrame l o n s).cmd.expert = s.cmd.expert := by
  unfold sendFrame
  split <;> cases l <;> rfl

@[simp] theorem sendDatagram_expert (l ip udp key r s) : (sendDatagram l ip udp key r s).cmd.expert = s.cmd.expert := by
  unfold sendDatagram
  cases key <;> exact sendFrame_expert l _ _ s

@[simp] theorem sendNotice_expert (s : State) : (sendNotice s).cmd.expert = s.cmd.expert := by
  unfold sendNotice
  split
  · exact sendDatagram_expert _ _ _ _ _ s
  · rfl

@[simp] theorem noticed_expert (s t : State) : (noticed s t).cmd.expert = t.cmd.expert := by
  unfold noticed
  (repeat' split) <;> simp

@[simp] theorem postEvent_expert (n : Nat) (s : State) : (postEvent n s).cmd.expert = s.cmd.expert := noticed_expert _ _

@[simp] theorem seqEnd_expert (s : State) : (seqEnd s).cmd.expert = s.cmd.expert := by
  unfold seqEnd
  split
  · rw [postEvent_expert]
  · rfl

theorem freeTaster_expert (t : Fin 2) (s : State) : (freeTaster t s).cmd.expert = s.cmd.expert := seqEnd_expert _

theorem failAction_expert (c : Nat) (s : State) : (failAction c s).cmd.expert = s.cmd.expert := by
  unfold failAction
  split <;> rfl

@[simp] theorem endVisit_expert (t : Fin 2) (s : State) : (endVisit t s).cmd.expert = s.cmd.expert := by
  unfold endVisit
  split
  · split
    · exact seqEnd_expert _
    · refine (freeTaster_expert t _).trans ?_
      split
      · exact failAction_expert _ _
      · rfl
  · exact freeTaster_expert t s

@[simp] theorem releaseInputs_expert (s : State) : (releaseInputs s).cmd.expert = s.cmd.expert := by
  simp only [releaseInputs, apply_ite State.cmd, apply_ite Cmd.expert, endVisit_expert, ite_self]

@[simp] theorem hsTrigger_expert (n : Nat) (s : State) : (hsTrigger n s).cmd.expert = s.cmd.expert := by
  unfold hsTrigger
  dsimp only
  (repeat' split) <;> rfl

@[simp] theorem forceHs_expert (n : Fin 2) (k : Nat) (s : State) : (forceHs n k s).cmd.expert = s.cmd.expert := by
  unfold forceHs
  dsimp only
  (repeat' split)
  case isTrue.isTrue => exact hsTrigger_expert _ _
  all_goals rfl

@[simp] theorem unforceHs_expert (n : Fin 2) (s : State) : (unforceHs n s).cmd.expert = s.cmd.expert := forceHs_expert n 0 s

@[simp] theorem fadeCore_expert (s : State) (k : Nat) : (fadeCore s k).cmd.expert = s.cmd.expert := by
  unfold fadeCore
  dsimp only
  split <;> rfl

@[simp] theorem landCoreStop_expert (s : State) (k : Nat) : (landCoreStop s k).cmd.expert = s.cmd.expert := by
  unfold landCoreStop
  split
  case h_3 => exact fadeCore_expert _ k
  all_goals rfl

@[simp] theorem debugRelease_expert (k : Nat) (s : State) : (debugRelease k s).cmd.expert = s.cmd.expert := by
  unfold debugRelease
  dsimp only
  split
  · exact landCoreStop_expert _ k
  · rfl

@[simp] theorem holdRefresh_expert (m n : Nat) (s : State) : (holdRefresh m n s).cmd.expert = s.cmd.expert := by
  unfold holdRefresh
  dsimp only
  (repeat' split) <;> rfl

@[simp] theorem holdRefreshAll_expert (m : Nat) (s : State) : (holdRefreshAll m s).cmd.expert = s.cmd.expert :=
  foldl_expert (fun s n => holdRefresh_expert m n s) _ s

@[simp] theorem revertTests_expert (s : State) : (revertTests s).cmd.expert = s.cmd.expert := by
  simp only [revertTests, holdRefreshAll_expert, foldl_expert (fun a k => debugRelease_expert k a), unforceHs_expert,
    releaseInputs_expert]
  rfl

theorem closeExpert_expert (s : State) : (closeExpert s).cmd.expert = none := by
  unfold closeExpert
  split
  case h_1 hnone => exact hnone
  case h_2 => exact revertTests_expert _

/-- Settles O14: the sessions' commands, and the installing of a key after its reply. -/
theorem expertAndKeys : Obligations.ExpertAndKeys := by
  unfold Obligations.ExpertAndKeys
  refine ⟨⟨fun h p s hr hlen hidle hzero => ⟨fun hown => ?own, fun e he hother => ?other⟩,
    fun h p s e hr hlen he hown => ?close, fun dt s e he hdue => ?idle, fun dt i s x hx hdue => ?gone, closeExpert_expert⟩,
    fun h p s hr hcheck => ⟨fun hnet => ?netKey, fun hint => ?integrator⟩⟩
  case own =>
    refine opcodeN_reply hr hlen ?_
    have hrange : ¬ (u16 p 0 ≠ 0 ∧ (u16 p 0 < 10 ∨ 3600 < u16 p 0)) := by omega
    simp only [if_neg hrange, hzero]
    cases he : (during .expertOpen h p s).cmd.expert with
    | none => rfl
    | some e => exact if_pos (hown e he)
  case other =>
    refine opcodeN_reply hr hlen ?_
    have hrange : ¬ (u16 p 0 ≠ 0 ∧ (u16 p 0 < 10 ∨ 3600 < u16 p 0)) := by omega
    simp [if_neg hrange, hzero, he, hother]
  case close =>
    refine opcodeN_reply hr hlen ?_
    simp [he, hown]
  case idle =>
    show execExpertIdleTimeout dt s = _
    simp [execExpertIdleTimeout, he, hdue]
  case gone =>
    show execSessionTimeout dt i s = _
    simp only [execSessionTimeout, hx, if_pos hdue]
  case netKey =>
    refine opcode_late hr ?_
    simp [guardSt, hcheck, hnet]
  case integrator =>
    refine opcode_late hr ?_
    simp [guardSt, hcheck, hint]

end Sys2Proof.Machine

/-! # The fault log, temperature and supply voltage

What FAULT_ACK takes out of the queue (R507); thermal faults and adaptive voltage scaling (R515 to R520). -/

namespace Sys2Proof.Machine

open Sys2Proof.Safety

/-! ### Acknowledged records -/

theorem length_dropOne_of_any {α : Type} {f : α → Bool} {l : List α} (hany : l.any f = true) :
    (dropOne f l).length + 1 = l.length := by
  induction l with
  | nil => cases hany
  | cons x t ih =>
    unfold dropOne
    split
    next => rfl
    next hx =>
      have htail : t.any f = true := by simpa [hx] using hany
      exact congrArg (· + 1) (ih htail)

theorem mem_dropOne_of_not {α : Type} {f : α → Bool} {l : List α} {x : α} (hx : x ∈ l) (hf : f x = false) : x ∈ dropOne f l := by
  induction l with
  | nil => cases hx
  | cons y t ih =>
    unfold dropOne
    rcases List.mem_cons.mp hx with rfl | hmem
    · simp [hf]
    · split
      · exact hmem
      · exact List.mem_cons_of_mem y (ih hmem)

/-- What one acknowledged sequence number does: the first record with it leaves the queue and is counted. -/
def ackOne (a : List FaultRec × Nat) (n : Nat) : List FaultRec × Nat :=
  if a.1.any (fun r => r.seq.toNat == n) then (dropOne (fun r => r.seq.toNat == n) a.1, a.2 + 1) else a

theorem ackAll_eq_foldl (l : List Nat) (q : List FaultRec) : ackAll l q = l.foldl ackOne (q, 0) := rfl

theorem ackOne_length (a : List FaultRec × Nat) (n : Nat) : (ackOne a n).1.length + (ackOne a n).2 = a.1.length + a.2 := by
  unfold ackOne
  split
  next hany =>
    have hlen := length_dropOne_of_any hany
    dsimp only
    omega
  next => rfl

theorem ackOne_count_le (a : List FaultRec × Nat) (n : Nat) : (ackOne a n).2 ≤ a.2 + 1 := by
  unfold ackOne
  split
  · exact le_rfl
  · exact Nat.le_succ _

theorem mem_ackOne_of_ne {a : List FaultRec × Nat} {n : Nat} {r : FaultRec} (hr : r ∈ a.1) (hn : r.seq.toNat ≠ n) :
    r ∈ (ackOne a n).1 := by
  unfold ackOne
  split
  · exact mem_dropOne_of_not hr (beq_eq_false_iff_ne.mpr hn)
  · exact hr

theorem ackAll_length (l : List Nat) (q : List FaultRec) : (ackAll l q).1.length + (ackAll l q).2 = q.length := by
  rw [ackAll_eq_foldl]
  exact List.foldlRecOn (motive := fun a : List FaultRec × Nat => a.1.length + a.2 = q.length) l _ rfl fun a ha n _ =>
    (ackOne_length a n).trans ha

theorem foldl_ackOne_count_le (l : List Nat) (a : List FaultRec × Nat) : (l.foldl ackOne a).2 ≤ a.2 + l.length := by
  induction l generalizing a with
  | nil => exact le_rfl
  | cons n t ih =>
    have hone := ackOne_count_le a n
    have htail := ih (ackOne a n)
    simp only [List.foldl_cons, List.length_cons]
    omega

theorem ackAll_count_le (l : List Nat) (q : List FaultRec) : (ackAll l q).2 ≤ l.length := by
  have hcount := foldl_ackOne_count_le l (q, 0)
  rwa [Nat.zero_add] at hcount

theorem mem_ackAll_of_not {l : List Nat} {q : List FaultRec} {r : FaultRec} (hr : r ∈ q) (hl : r.seq.toNat ∉ l) :
    r ∈ (ackAll l q).1 := by
  rw [ackAll_eq_foldl]
  exact List.foldlRecOn (motive := fun a : List FaultRec × Nat => r ∈ a.1) l _ hr fun a ha n hn =>
    mem_ackOne_of_ne ha fun he => hl (he ▸ hn)

/-- The record of the log that FAULT_LOG_WRITE makes of a record that waits. -/
def logRecord (s : State) (r : FaultRec) : LogRec where
  code := r.code
  cls := r.cls
  injected := r.injected
  boot := s.flt.boot
  object := r.object
  ms := if s.clk.taiValid then BitVec.ofInt 16 (taiAt s.clk r.stamp % 1000000000 / 1000000)
    else BitVec.ofNat 16 (r.stamp % secCounts / msCounts)
  time := if s.clk.taiValid then BitVec.ofInt 32 (taiAt s.clk r.stamp / 1000000000)
    else BitVec.ofNat 32 (r.stamp / secCounts) ||| 0x80000000
  detail := r.detail

/-- Settles O20: the reports of FAULT_READ, FAULT_ACK, the log, and what `ackAll` leaves. -/
theorem faultRecords : Obligations.FaultRecords := by
  unfold Obligations.FaultRecords
  refine ⟨⟨fun h p s hr hlen hmin hmax => ⟨fun hmode => ?queue, fun hmode => ?active, fun hmode => ?log⟩,
    fun h p s hr hmin hmax hzero hlen hpad => ?ack, fun dt s r l hl => ?write⟩, fun l q =>
      ⟨ackAll_sublist l q, ackAll_length l q, ackAll_count_le l q, fun r => mem_ackAll_of_not⟩⟩
  case queue | active | log =>
    refine opcodeN_reply hr hlen ?_
    simp [hmode, Nat.one_le_iff_ne_zero.mp hmin, hmax]
  case ack =>
    refine opcode_reply hr ?_
    have hcount : ¬ (u8 p 0 < 1 ∨ 32 < u8 p 0) := by omega
    have hshort : ¬ p.length < 4 := by omega
    simp only [if_neg hshort, if_neg hcount, hzero, hpad, if_neg (not_not.mpr hlen)]
    rfl
  case write =>
    refine ⟨logRecord (advance dt s) r, rfl, rfl, rfl, rfl, rfl, rfl, fun hv => ?_, fun hv => ?_, ?_⟩
    · simp [logRecord, hv, secCounts]
    · simp [logRecord, hv]
    · show execFaultLogWrite dt s = _
      simp only [execFaultLogWrite, hl]
      rfl

/-! ### Temperature and supply voltage -/

theorem heldFor_some {n now since : Nat} (hn : since + n ≤ now) : heldFor n now (some since) = true := by
  simp [heldFor, hn]

theorem warnNow_idle {s : State} (hs : s.flt.th.over105 < 4 ∨ anyInForce .thermalWarn s = true) : warnNow s = s := by
  simp [warnNow, hs]

theorem warnNow_detects {s : State} (hover : 4 ≤ s.flt.th.over105) (hfree : anyInForce .thermalWarn s = false) :
    warnNow s = raise .thermalWarn 0 0 (thermalDetail s.flt.th.temp) (withTh { s.flt.th with warnStep := s.sysCnt } s) := by
  simp [warnNow, Nat.not_lt.mpr hover, hfree]

theorem tripNow_idle {s : State} (hs : s.flt.th.over125 < 4 ∨ anyInForce .thermalTrip s = true) : tripNow s = s := by
  simp [tripNow, hs]

theorem tripNow_detects {s : State} (hover : 4 ≤ s.flt.th.over125) (hfree : anyInForce .thermalTrip s = false) :
    tripNow s = tripAction (raise .thermalTrip 0 0 (thermalDetail s.flt.th.temp) s) := by
  simp [tripNow, Nat.not_lt.mpr hover, hfree]

/-- Eight readings in a powered AO island are taken, and a warning follows them before a trip or a reset. -/
theorem thermalSensorRead_taken {dt : Nat} {t : List Int} {s : State} (hao : (settleReset (advance dt s)).pwr.aoOn = true)
    (hloss : (settleReset (advance dt s)).pwr.loss = none) (hlen : t.length = 8) :
    let w := warnNow (takeTemps t (settleReset (advance dt s)))
    execThermalSensorRead dt t s =
      .next (if w.flt.th.over135 = 4 && !thermalReset w.life.phase && resettable w then resetHot w else tripNow w) := by
  simp [execThermalSensorRead, hao, hloss, hlen]

theorem avsMargin_within {r : AvsRail} {mv : Nat} {x : Int} {m : Fin 16} {s : State} (hmv : mv < 900) :
    avsMargin r mv x m s = s := by
  simp [avsMargin, hmv]

theorem avsNegativeSlack_raises {dt : Nat} {r : AvsRail} {x : Int} {m : Fin 16} {s : State}
    (hrun : railsRun (settleReset (advance dt s)) = true) (hx : x < 0) :
    let t := settleReset (advance dt s)
    execAvsNegativeSlack dt r x m s = .next (avsMargin r (railMv t r) x m (setRail r (min 900 (railMv t r + 5)) x t)) := by
  simp [execAvsNegativeSlack, hrun, Int.not_le.mpr hx]

theorem sinceWhen_decide (P : Prop) [Decidable P] (now : Nat) (t : Option Nat) :
    sinceWhen (decide P) now t = if P then some (t.getD now) else none := by
  by_cases hP : P <;> simp [sinceWhen, hP]

/-- The time from which a rail's slack has been good. -/
def slackOk (s : State) : AvsRail → Option Nat
  | .blend => s.flt.th.blendOk
  | .coop => s.flt.th.coopOk

/-- A condition of a rail whose slack has been good for 10 s is released; the cores it marked start where audio runs. -/
theorem avsMargin_released {dt : Nat} {r : AvsRail} {s : State} {since : Nat}
    (hforce : inForce .avsMargin 0 (railIdx r) (settleReset (advance dt s)) = true)
    (hsince : slackOk (settleReset (advance dt s)) r = some since)
    (hdue : since + 10 * secCounts ≤ (settleReset (advance dt s)).sysCnt) :
    let u := release .avsMargin 0 (railIdx r) (settleReset (advance dt s))
    execAvsMarginRelease dt r s = if r = .coop ∧ modeLive (settleReset (advance dt s)).life.mode = true
      then .next ((bitsOf 4 u.flt.markedAvs.toNat).foldl (restartCore (nextFrame u)) u) else .next u := by
  unfold execAvsMarginRelease
  generalize settleReset (advance dt s) = t at *
  cases r <;> unfold slackOk at hsince <;> simp only [hsince, hforce, heldFor_some hdue] <;> rfl

/-- Settles O23: the report, the readings and their thresholds, the releases, and the two rails. -/
theorem temperatureAndSupply : Obligations.TemperatureAndSupply := by
  unfold Obligations.TemperatureAndSupply
  refine ⟨⟨fun h p s hr hlen => opcodeN_reply hr hlen rfl, fun dt t s hao hloss hlen => ?reading,
      fun dt s since hforce hsince hdue => ?warnEnds, fun dt s since hforce hsince hdue => ?tripEnds,
      fun dt hold s since hphase hmode hloss hsince hdue => ⟨fun hpad => ?starts, fun hpad => ?waits⟩⟩,
    fun dt b c mb mc s hrun => ?step, fun dt r x m s hrun hx => ⟨fun hmv => ?raised, fun hmv => ?top⟩,
    fun dt r s since hforce hsince hdue => ⟨fun hcoop hlive => ?restarts, fun hstays => ?stays⟩⟩
  case reading =>
    refine ⟨rfl, rfl, rfl, rfl, rfl, sinceWhen_decide _ _ _, sinceWhen_decide _ _ _, warnNow_idle, warnNow_detects,
      fun x => tripNow_idle, fun x => tripNow_detects,
      fun hcool => ?_, fun hhot hphase hreset => ?_⟩
    · exact (thermalSensorRead_taken hao hloss hlen).trans (by simp [hcool])
    · exact (thermalSensorRead_taken hao hloss hlen).trans (by simp [hhot, hphase, hreset])
  case warnEnds =>
    show execThermalWarnRelease dt s = _
    simp only [execThermalWarnRelease, hforce, hsince, heldFor_some hdue, Bool.and_self, if_true]
  case tripEnds =>
    show execThermalTripRelease dt s = _
    simp only [execThermalTripRelease, hsince, heldFor_some hdue, if_true]
  case starts =>
    show execThermalResetHoldEnd dt hold s = _
    unfold execThermalResetHoldEnd leaveReset
    generalize settleReset (advance dt s) = t at *
    rcases hmode with hmode | hmode <;> simp [hphase, hmode, hloss, hsince, heldFor_some hdue, hpad]
  case waits =>
    show execThermalResetHoldEnd dt hold s = _
    unfold execThermalResetHoldEnd leaveReset
    generalize settleReset (advance dt s) = t at *
    rcases hmode with hmode | hmode <;> simp [hphase, hmode, hloss, hsince, heldFor_some hdue, hpad]
  case step =>
    show execAvsStep dt b c mb mc s = _
    simp [execAvsStep, hrun]
  case raised =>
    exact (avsNegativeSlack_raises hrun hx).trans (by rw [avsMargin_within hmv])
  case top =>
    exact (avsNegativeSlack_raises hrun hx).trans (by rw [hmv]; rfl)
  case restarts =>
    refine (avsMargin_released hforce hsince hdue).trans (if_pos ⟨hcoop, hlive⟩)
  case stays =>
    refine (avsMargin_released hforce hsince hdue).trans (if_neg ?_)
    rintro ⟨rfl, hlive⟩
    rcases hstays with hblend | hdead
    · cases hblend
    · rw [hdead] at hlive
      cases hlive

end Sys2Proof.Machine

/-! # PTP messages, the PLL, references and monitored inputs (R180 to R212) -/

namespace Sys2Proof.Machine

open Sys2Proof.Safety

/-! ### What a Sync changes (R183, R184) -/

/-- How far the module's TAI time is ahead of a Sync. -/
def syncOffset (t : State) (m : SyncMsg) : Int := taiNow t - m.taiNs

/-- The port that has heard a Sync. -/
def syncHeard (t : State) (x : NetPort) (m : SyncMsg) : PtpPort :=
  let q := ptpPortOf t.clk x
  { q with
    offset := syncOffset t m * 65536, syncs := q.syncs + 1, gmId := m.gmId, gmClass := m.gmClass, steps := m.steps
    goodRun := if -100 < syncOffset t m ∧ syncOffset t m < 100 then q.goodRun + 1 else 0
    badRun := if 1000 < syncOffset t m ∨ syncOffset t m < -1000 then q.badRun + 1 else 0 }

/-- The clock with the port that has heard a Sync, which its monitor has seen. -/
def syncClock (t : State) (x : NetPort) (m : SyncMsg) : Clk :=
  { setPtpPort t.clk x (syncHeard t x m) with
    monitors := tset {} t.clk.monitors (9 + portIdx x)
      { tget {} t.clk.monitors (9 + portIdx x) with seen := true, lost := false, lastEdge := t.sysCnt } }

/-- A Sync adjusts the servo where its port is the one in use, or none is. -/
def syncTaken (t : State) (x : NetPort) (m : SyncMsg) : State :=
  if activePort (syncClock t x m) = none ∨ activePort (syncClock t x m) = some x
  then servo (syncOffset t m) m { t with clk := { syncClock t x m with ptpPort := some x } }
  else { t with clk := { syncClock t x m with lastSync := t.sysCnt } }

/-- The port locks, and time is valid again. -/
def syncLocks (t : State) (x : NetPort) (m : SyncMsg) : State :=
  let u := syncTaken t x m
  let v := release .ptpUnlocked 0 (portIdx x)
    { u with clk := { setPtpPort u.clk x { syncHeard t x m with locked := true, badRun := 0 } with taiValid := true } }
  updatePtpQual (if u.clk.taiValid = true then v else postEvent 4 v)

theorem execPtpSync_eq {dt : Nat} {x : NetPort} {m : SyncMsg} {s : State}
    (hrun : ptpRuns (countRx (linkPortOf x) (advance dt s)) x = true)
    (hgm : (countRx (linkPortOf x) (advance dt s)).clk.grandmaster = false)
    (hsl : slaves (countRx (linkPortOf x) (advance dt s)) x = true) :
    let t := countRx (linkPortOf x) (advance dt s)
    execPtpSync dt x m s = .next (
      if (ptpPortOf t.clk x).locked = false ∧ 16 ≤ (syncHeard t x m).goodRun then syncLocks t x m
      else if (ptpPortOf t.clk x).locked = true ∧ 8 ≤ (syncHeard t x m).badRun then ptpLose x 2 (syncTaken t x m)
      else syncTaken t x m) := by
  unfold execPtpSync
  generalize countRx (linkPortOf x) (advance dt s) = t at *
  rw [if_neg (by simp [hrun, hgm, hsl])]
  extract_lets _ q off small large q1 i seen mon clk c used c1 s1 s2 c2 s3
  have hq : q1 = syncHeard t x m := by
    simp only [q1, small, large, Bool.and_eq_true, Bool.or_eq_true, decide_eq_true_eq]
    rfl
  have hc : c = syncClock t x m := by
    simp only [c, clk, hq]
    rfl
  have hs : s2 = syncTaken t x m := by
    simp only [s2, s1, c1, used, syncTaken, hc]
    cases hactive : activePort (syncClock t x m) with
    | none => rfl
    | some y => 
      by_cases hy : y = x
      · simp [hy]
        rfl
      · simp [hy]
  clear_value s2
  subst hs
  clear_value q1
  subst hq
  simp only [apply_ite Host.Outcome.next, Bool.and_eq_true, Bool.not_eq_true', decide_eq_true_eq]
  rfl

/-- Settles O24: each message, and each absence, under the conditions that let it count. -/
theorem ptpEvents : Obligations.PtpEvents := by
  unfold Obligations.PtpEvents
  refine ⟨fun dt x m s hrun hgm hsl => ?sync, fun dt x m s hrun => ?announce, fun dt x s hrun hlate => ?absent,
    fun dt x d s hrun => ?delay,
    fun dt s hvalid hgm hlate => ?stale,
    fun dt x k s hgm hrun => ⟨fun hk hdue => ?sendAnnounce, fun hk hdue => ?sendSync⟩, fun dt x s hgm hrun hsl hmaster hdue => ?ask⟩
  case sync =>
    refine ⟨fun hgood hbad => ?_, fun hlocked hbad => ?_, fun hlocked hgood => ?_⟩ <;>
      refine (execPtpSync_eq hrun hgm hsl).trans (congrArg Host.Outcome.next ?_)
    · exact (if_neg fun hl => Nat.not_le.mpr (hgood hl.1) hl.2).trans (if_neg fun hl => Nat.not_le.mpr (hbad hl.1) hl.2)
    · exact (if_neg fun hl => by simp [hlocked] at hl).trans (if_pos ⟨hlocked, hbad⟩)
    · exact if_pos ⟨hlocked, hgood⟩
  case announce =>
    show execPtpAnnounce dt x m s = _
    unfold execPtpAnnounce
    generalize countRx (linkPortOf x) (advance dt s) = t at *
    simp [hrun]
  case absent =>
    have hwait := Nat.not_lt.mpr hlate
    refine ⟨fun hseen hgm => ?_, fun hnone => ?_⟩ <;> show execAnnounceReceiptTimeout dt x s = _ <;>
      unfold execAnnounceReceiptTimeout <;> generalize advance dt s = t at *
    · simp only [hrun, hwait, hseen, hgm]
      rfl
    · rcases hnone with hseen | hgm
      · simp only [hrun, hwait, hseen]
        rfl
      · simp only [hrun, hwait, hgm, Bool.not_true, Bool.and_false]
        rfl
  case delay =>
    show execPtpDelayResponse dt x d s = _
    unfold execPtpDelayResponse
    generalize countRx (linkPortOf x) (advance dt s) = t at *
    simp [hrun]
  case stale =>
    show execTaiTimeout dt s = _
    unfold execTaiTimeout
    generalize advance dt s = t at *
    simp [hvalid, hgm, secCounts, hlate]
  case sendAnnounce =>
    show execPtpMasterTransmit dt x k s = _
    unfold execPtpMasterTransmit
    generalize advance dt s = t at *
    subst hk
    simp only [hgm, hrun, hdue]
    rfl
  case sendSync =>
    show execPtpMasterTransmit dt x k s = _
    unfold execPtpMasterTransmit
    generalize advance dt s = t at *
    simp only [hgm, hrun, hdue, if_neg hk, sendPtp]
    rfl
  case ask =>
    show execPtpDelayRequest dt x s = _
    unfold execPtpDelayRequest
    generalize advance dt s = t at *
    simp [hgm, hrun, hsl, hmaster, hdue]

/-! ### The PLL, its references and the monitored clocks -/

/-- A clock that is monitored and present is lost for the reason given, where that is not an edge that is merely awaited. -/
theorem clockLost_heard {t : State} {c : ClockIn} {why : Nat}
    (hseen : (tget {} t.clk.monitors (clockInKey c) : Monitor).seen = true)
    (hlive : (tget {} t.clk.monitors (clockInKey c) : Monitor).lost = false) (hup : modeUp t.life.mode = true)
    (hoverdue : why = 1 → clockOverdue t c = true) :
    ¬ (!(tget {} t.clk.monitors (clockInKey c) : Monitor).seen || (tget {} t.clk.monitors (clockInKey c) : Monitor).lost
      || !modeUp t.life.mode || (why == 1 && !clockOverdue t c)) = true := by
  by_cases hwhy : why = 1
  · simp [hseen, hlive, hup, hoverdue hwhy]
  · simp [hseen, hlive, hup, hwhy]

/-- Settles O25: each event under the condition that makes it due. -/
theorem clockEvents : Obligations.ClockEvents := by
  unfold Obligations.ClockEvents
  refine ⟨fun dt s => ⟨fun hactive hstate hgood => ?lock, fun hstate hbad => ?unlock,
      fun hfree hstate => ⟨fun herrs hphase => ?widen, fun hquiet => ?narrow⟩, fun hstate hdir => ?moved, fun hup hnone hgrace => ?lost⟩,
    fun dt i e s he hup husable hseen hlive hmean hclean => ?qualified,
    fun dt c r s hseen hlive hup hoverdue => ⟨fun hc => ?wclkLost, fun x hc hgm => ?ptpLost, fun hw hp hruns => ?portLost⟩,
    fun dt p s hk hlost hgood hdirect => ?resumed, fun dt d rate s hdec hruns hmeasured hmin hmax => ?relock,
    fun dt period s hup hwired => ⟨fun hkept hheld => ?edge, fun hlost => ?edgeLost⟩⟩
  case lock =>
    show execPllLock dt s = _
    unfold execPllLock
    generalize advance dt s = t at *
    simp [hactive, hstate, hgood]
  case unlock =>
    show execPllLockLost dt s = _
    unfold execPllLockLost
    generalize advance dt s = t at *
    simp [hstate, hbad]
  case widen =>
    show execPllBandwidthStep dt true s = _
    unfold execPllBandwidthStep
    generalize advance dt s = t at *
    rcases hstate with hstate | hstate <;> simp [hfree, hstate, herrs, hphase]
  case narrow =>
    show execPllBandwidthStep dt false s = _
    unfold execPllBandwidthStep
    generalize advance dt s = t at *
    rcases hstate with hstate | hstate <;> simp [hfree, hstate, hquiet]
  case moved =>
    show execPhaseMoveComplete dt s = _
    unfold execPhaseMoveComplete
    generalize advance dt s = t at *
    simp [hstate, hdir]
  case lost =>
    show execRefLostGraceEnd dt s = _
    unfold execRefLostGraceEnd
    generalize advance dt s = t at *
    simp [hup, hnone, hgrace]
  case qualified =>
    show execReferenceQualified dt i s = _
    unfold execReferenceQualified
    generalize advance dt s = t at *
    simp [he, hup, refSteady, husable, hseen, hlive, hmean, hclean]
  case wclkLost =>
    show execClockLost dt c r s = _
    unfold execClockLost
    generalize advance dt s = t at *
    refine (if_neg (clockLost_heard hseen hlive hup hoverdue)).trans ?_
    subst hc
    rfl
  case ptpLost =>
    show execClockLost dt c r s = _
    unfold execClockLost
    generalize advance dt s = t at *
    refine (if_neg (clockLost_heard hseen hlive hup hoverdue)).trans ?_
    subst hc
    exact if_neg (by simp [hgm])
  case portLost =>
    show execClockLost dt c r s = _
    unfold execClockLost
    generalize advance dt s = t at *
    refine (if_neg (clockLost_heard hseen hlive hup hoverdue)).trans ?_
    cases c with
    | wclk => exact absurd rfl hw
    | ptp x => exact absurd rfl (hp x)
    | tdm x | aes x =>
      refine (if_neg (by simp [hruns])).trans ?_
      exact (apply_ite Host.Outcome.next _ _ _).symm
  case resumed =>
    show execClockResumed dt p s = _
    unfold execClockResumed
    generalize advance dt s = t at *
    refine if_neg ?_
    rcases hlost with hlost | hforce
    · simp [Nat.not_le.mpr hk, Nat.not_lt.mpr hgood, hdirect, hlost]
    · simp only [Nat.not_le.mpr hk, Nat.not_lt.mpr hgood, hdirect, hforce, Bool.or_true, List.isEmpty_nil, Bool.not_true,
        decide_false, Bool.or_false, Bool.false_eq_true, not_false_eq_true]
  case relock =>
    refine ⟨fun hnone => ?_, fun k hk => ?_⟩ <;> show execDecantRelock dt d rate s = _ <;> unfold execDecantRelock <;>
      generalize advance dt s = t at * <;>
      refine (if_neg (by simp [hdec, hruns, hmeasured, Nat.not_lt.mpr hmin, Nat.not_lt.mpr hmax])).trans ?_
    · simp only [hnone]
    · simp only [hk]
  case edge =>
    show execWclkInEdge dt period s = _
    unfold execWclkInEdge
    generalize advance dt s = t at *
    refine (if_neg (by simp [hup, hwired])).trans ((if_neg (not_not.mpr hkept)).trans (if_neg ?_))
    rw [Bool.and_eq_true, not_and]
    intro hl
    exact absurd (hheld.symm.trans hl) Bool.false_ne_true
  case edgeLost =>
    show execWclkInEdge dt period s = _
    unfold execWclkInEdge
    generalize advance dt s = t at *
    exact (if_neg (by simp [hup, hwired])).trans (if_pos hlost)

end Sys2Proof.Machine

/-! # The commands of the clock chapter (R185 to R212) -/

namespace Sys2Proof.Machine

open Sys2Proof.Safety

theorem checks_ok {l : List (Bool × Status)} (hl : ∀ c ∈ l, c.1 = false) : checks l = .ok := by
  induction l with
  | nil => rfl
  | cons c t ih =>
    obtain ⟨hc, ht⟩ := List.forall_mem_cons.mp hl
    exact (if_neg (by simp [hc])).trans (ih ht)

theorem postEvent_cfg (n : Nat) (s : State) : (postEvent n s).cfg = s.cfg := (noticed_reported _ _).cfg

theorem runBmca_cfg (s : State) : (runBmca s).cfg = s.cfg := by
  unfold runBmca becomeGrandmaster resignGrandmaster
  dsimp only
  (repeat' split) <;> simp only [postEvent_cfg]

theorem activePort_forced {c : Clk} {x : NetPort} (hforced : c.pll.forcedPort = some x) (hlocked : (ptpPortOf c x).locked = true) :
    activePort c = some x := by
  simp [activePort, hforced, hlocked]

/-! ### The checks of the clock's settings -/

section

variable {p : Bytes} {s : State}

theorem refsOf_of_le (hn : u8 p 0 ≤ 8) : refsOf p = (List.range (u8 p 0)).map (refOf p) := by
  rw [refsOf, min_eq_left hn]

theorem checkClockRefs_ok (hmin : 1 ≤ u8 p 0) (hmax : u8 p 0 ≤ 8) (hrevert : u8 p 1 ≤ 1) (hlo : 10 ≤ u16 p 2)
    (hhi : u16 p 2 ≤ 3600) (hzero : ∀ i < 8, u16 p (6 + 4 * i) = 0 ∧ (u8 p 0 ≤ i → u32 p (4 + 4 * i) = 0))
    (hrange : ∀ e ∈ (List.range (u8 p 0)).map (refOf p), refInRange e = true)
    (honce : hasRepeat ((List.range (u8 p 0)).map (refOf p)) = false)
    (huse : ∀ e ∈ (List.range (u8 p 0)).map (refOf p),
      refDeclared s.cfg.board e = true ∧ refDecant s.cfg.clock.decant e = false) :
    checkClockRefs p s = .ok := by
  refine checks_ok ?_
  rw [refsOf_of_le hmax]
  have hreserved : ((List.range 8).any fun i =>
      u16 p (6 + 4 * i) != 0 || (decide (u8 p 0 ≤ i) && u32 p (4 + 4 * i) != 0)) = false := by
    rw [List.any_eq_false]
    intro i hi
    obtain ⟨hpad, hrest⟩ := hzero i (List.mem_range.mp hi)
    by_cases hle : u8 p 0 ≤ i <;> simp [hpad, hle, hrest]
  have hall : ((List.range (u8 p 0)).map (refOf p)).any (fun e => !refInRange e) = false := by
    rw [List.any_eq_false]
    intro e he
    simp [hrange e he]
  have hdeclared : ((List.range (u8 p 0)).map (refOf p)).any
      (fun e => !refDeclared s.cfg.board e || refDecant s.cfg.clock.decant e) = false := by
    rw [List.any_eq_false]
    intro e he
    simp [huse e he]
  simp only [List.forall_mem_cons, hreserved, hall, honce, hdeclared]
  refine ⟨?_, ?_, ?_, rfl, rfl, nofun⟩ <;> simp <;> omega

theorem checkWclkSet_ok (hin : u8 p 0 = 1 ∨ u8 p 0 = 2 ∨ u8 p 0 = 4) (hedge : u8 p 1 ≤ 1) (hw : u8 p 2 ≤ 3) (hm : u8 p 3 ≤ 3)
    (hwired : u8 p 2 ≠ 0 → s.cfg.board.miscWired.getLsbD 1 = true)
    (hmclk : u8 p 3 ≠ 0 → s.cfg.board.miscWired.getLsbD 2 = true)
    (hkept : clockStopped s = false → u8 p 0 = s.cfg.clock.wclk.inDiv ∧ (u8 p 1 == 1) = s.cfg.clock.wclk.inEdge) :
    checkWclkSet p s = .ok := by
  refine checks_ok ?_
  simp only [List.forall_mem_cons, wclkOf]
  refine ⟨?_, ?_, ?_, ?_, ?_, ?_, ?_, ?_, nofun⟩
  · rcases hin with hin | hin | hin <;> simp [hin]
  · cases hstop : clockStopped s <;> simp
    exact (hkept hstop).1
  · simp [hedge]
  · cases hstop : clockStopped s <;> simp
    exact (hkept hstop).2
  · exact decide_eq_false (Nat.not_lt.mpr hw)
  · by_cases h0 : u8 p 2 = 0 <;> simp [h0]
    exact hwired h0
  · exact decide_eq_false (Nat.not_lt.mpr hm)
  · by_cases h0 : u8 p 3 = 0 <;> simp [h0]
    exact hmclk h0

theorem checkAlignGroup_ok (hg : u8 p 0 ≤ 15) (hkind : u8 p 1 ≤ 2) (hlimit : u8 p 2 ≤ 64) (hzero : u8 p 3 = 0)
    (hlink : u8 p 1 ≠ 2 → 250 ≤ u32 p 4 ∧ u32 p 4 ≤ 20000)
    (hkept : groupRuns s (u8 p 0) = true →
      u8 p 1 = (alignOf s (u8 p 0)).kind ∧ (u8 p 1 ≠ 2 → u32 p 4 = (alignOf s (u8 p 0)).linkUs))
    (hempty : u8 p 1 = 0 → groupMembers s (u8 p 0) = []) :
    checkAlignGroup p s = .ok := by
  refine checks_ok ?_
  simp only [List.forall_mem_cons]
  refine ⟨?_, ?_, ?_, ?_, ?_, ?_, ?_, ?_, nofun⟩
  · simp [hg]
  · simp [hkind]
  · cases hrun : groupRuns s (u8 p 0) <;> simp
    exact (hkept hrun).1
  · simp [hlimit]
  · simp [hzero]
  · by_cases h2 : u8 p 1 = 2 <;> simp [h2]
    exact hlink h2
  · cases hrun : groupRuns s (u8 p 0) <;> simp
    exact (hkept hrun).2
  · by_cases h0 : u8 p 1 = 0 <;> simp [h0]
    exact hempty h0

end

/-- Settles O26: each command's checks hold under its conditions; what each stores at once and at the tick. -/
theorem clockCommands : Obligations.ClockCommands := by
  unfold Obligations.ClockCommands
  intro h p s
  refine ⟨fun hr hlen hmin hmax hrevert hlo hhi hzero hrange honce huse => ⟨?refs, fun u => ?refsLand⟩,
    fun hr hlen hcheck => ⟨?ptp, fun hanew => ?anew, fun hprofile hdomain hports => ?same,
      fun hprofile hdomain hports => ?ports, fun v => ?ptpLand⟩,
    fun hr hlen hin hedge hw hm hwired hmclk hkept => ⟨?wclk, fun u => rfl⟩,
    fun hr hlen => opcodeN_reply hr hlen rfl,
    fun hr hlen hzero => ⟨fun ha => ?free, fun ha hbw => ?bandwidth, fun ha => ?hold, fun x ha hx hlocked => ?port⟩,
    fun hr hlen hcheck => ⟨fun hf => ?fsSame, fun hf => ?fsNew⟩,
    fun hr hlen hmin hmax hcount hon hzero hkept hfree href hgroup hroom => ?decant,
    fun hr hlen hg hkind hlimit hzero hlink hkept hempty => ⟨?align, fun u => rfl⟩⟩
  case refs => exact opcodeN_reply hr hlen (landLive_ok (checkClockRefs_ok hmin hmax hrevert hlo hhi hzero hrange honce huse))
  case refsLand =>
    unfold landClockRefs
    rw [refsOf_of_le hmax]
  case ptp => exact opcodeN_reply hr hlen (landLive_ok hcheck)
  case anew =>
    refine if_pos ?_
    simpa using hanew
  case same =>
    refine (if_neg ?_).trans (if_neg ?_) <;> simp [hprofile, hdomain, hports]
  case ports =>
    refine (if_neg ?_).trans (if_pos ?_) <;> simp [hprofile, hdomain, hports]
  case ptpLand =>
    unfold landPtpSet
    dsimp only
    rw [runBmca_cfg]
  case wclk => exact opcodeN_reply hr hlen (landLive_ok (checkWclkSet_ok hin hedge hw hm hwired hmclk hkept))
  case free | hold =>
    refine opcodeN_reply hr hlen ?_
    simp [ha, hzero]
  case bandwidth =>
    refine opcodeN_reply hr hlen ?_
    simp [ha, hzero, Nat.not_lt.mpr hbw]
  case port =>
    refine opcodeN_reply hr hlen ?_
    have hport : (if u8 p 1 = 0 then NetPort.a else NetPort.b) = x := by rw [hx]; cases x <;> rfl
    have hle : ¬ 1 < u8 p 1 := by rw [hx]; cases x <;> decide
    simp only [ha, hzero, hport, hle]
    refine (if_neg (by simp)).trans ((if_neg (by decide)).trans ((if_neg (by decide)).trans ((if_neg (by decide)).trans
      ((if_neg not_false).trans ((if_neg (by simp [hlocked])).trans ?_)))))
    have hactive : activePort { (during .clockExpert h p s).clk with
        pll := { (during .clockExpert h p s).clk.pll with forcedPort := some x } } = some x := activePort_forced rfl hlocked
    rw [hactive]
  case fsSame =>
    refine opcodeN_reply hr hlen ?_
    simp only [guardSt, hcheck, if_true]
    exact if_pos hf
  case fsNew =>
    refine opcodeN_late hr hlen ?_
    simp only [guardSt, hcheck, if_true]
    exact if_neg hf
  case decant =>
    refine opcodeN_reply hr hlen ((if_pos (checks_ok ?_)).trans rfl)
    simp only [List.forall_mem_cons]
    refine ⟨?_, ?_, ?_, ?_, ?_, ?_, ?_, nofun⟩
    · simp
      omega
    · simp [hcount]
    · simp [hon]
    · cases hrun : targetRuns (during .decantSet h p s) (u8 p 0) (u8 p 1)
      · rfl
      · simp [hkept hrun]
    · simp [hzero]
    · rw [hfree, hgroup]
      cases hon' : (u8 p 2 == 1)
      · rfl
      · simp [href hon']
    · simp [hroom]
  case align => exact opcodeN_reply hr hlen (landLive_ok (checkAlignGroup_ok hg hkind hlimit hzero hlink hkept hempty))

end Sys2Proof.Machine

/-! # Warm resets, the start sequence, modes and the lifecycle (R84 to R120) -/

namespace Sys2Proof.Machine

open Sys2Proof.Safety

/-- What no step of a fold changes, the fold does not change. -/
theorem foldl_proj {α β : Type} {g : State → α → State} (m : State → β) (hg : ∀ s a, m (g s a) = m s) (l : List α) (s : State) :
    m (l.foldl g s) = m s := by
  induction l generalizing s with
  | nil => rfl
  | cons x t ih => rw [List.foldl_cons, ih, hg]

theorem Reported.life {t s : State} (h : Reported t s) : t.life = s.life := congrArg (·.life) h

theorem holdRefresh_life (m n : Nat) (s : State) : (holdRefresh m n s).life = s.life := by
  unfold holdRefresh
  dsimp only
  (repeat' split) <;> rfl

theorem holdRefreshAll_life (m : Nat) (s : State) : (holdRefreshAll m s).life = s.life :=
  foldl_proj State.life (fun s n => holdRefresh_life m n s) _ s

/-! ### Warm resets -/

/-- The lifecycle and start record of a module that goes to RESET. -/
theorem beginReset_life (cause : Nat) (stay hold thermal : Bool) (s : State) :
    (beginReset cause stay hold thermal s).life = { (closeExpert s).life with
      mode := .reset, prev := (closeExpert s).life.mode, since := s.sysCnt, cause := cause, stayHold := stay
      phase := .muting s.sysCnt hold thermal, runPending := none, resetDue := none, lifeDue := none, testSelf := none } := by
  refine (holdRefreshAll_life 64 _).trans ((noticed_reported _ _).life.trans ?_)
  dsimp only
  rw [closeExpert_sysCnt]

/-- Settles O27: the causes of a warm reset, then what a reset, its first 2 ms and its end do. -/
theorem warmResets : Obligations.WarmResets := by
  unfold Obligations.WarmResets
  refine ⟨fun dt s => rfl, fun dt hold s => ⟨fun hw => ?starts, fun n h thermal hphase => ?muting, fun hw hphase => ?other⟩,
    fun dt hold s hdog => ?watchdog, fun dt hold stay due s hdue hnow => ?ordered,
    fun cause stay hold thermal s => ⟨fun hr => ?ignored, fun hr hm => ?again, fun hr hm => ?begins⟩,
    fun n hold thermal s hphase hmode hloss => ⟨fun hdue => ?settled, fun hearly => ?early⟩,
    fun hold s => ⟨rfl, fun hpad => if_pos hpad, fun hpad => ?low⟩,
    fun s => ⟨rfl, rfl, rfl, rfl, rfl, rfl, rfl, rfl, rfl, rfl, rfl, rfl, rfl, rfl, rfl⟩⟩
  case starts => exact congrArg Host.Outcome.next (if_pos hw)
  case muting =>
    show execResetNHigh dt hold s = _
    unfold execResetNHigh
    have hphase' : (settleReset (advance dt s)).life.phase = .muting n h thermal := hphase
    simp [waitsReset, hphase']
  case other =>
    show execResetNHigh dt hold s = _
    unfold execResetNHigh
    dsimp only at hw hphase ⊢
    rw [if_neg (Bool.eq_false_iff.mp hw)]
    split
    next hmuting => exact absurd hmuting (hphase _ _ _)
    next => rfl
  case watchdog => exact congrArg Host.Outcome.next (if_pos hdog)
  case ordered =>
    show execDevResetStart dt hold s = _
    unfold execDevResetStart
    simp only [hdue, if_pos hnow]
  case ignored => simp [warmReset, hr]
  case again => simp [warmReset, hr, hm]
  case begins =>
    refine ⟨by simp [warmReset, hr, hm], ?_, ?_, ?_, ?_⟩ <;> rw [beginReset_life]
  case settled =>
    simp only [settleReset, hphase]
    exact if_pos ⟨hmode, by simp [hloss], hdue⟩
  case early =>
    simp only [settleReset, hphase]
    exact if_neg fun hsettled => absurd hsettled.2.2 (Nat.not_le.mpr hearly)
  case low =>
    show leaveReset hold s = _
    simp [leaveReset, hpad]

/-! ### The start sequence -/

/-- Settles O28: each step of the start under the conditions that make it due. -/
theorem startSequence : Obligations.StartSequence := by
  unfold Obligations.StartSequence
  refine ⟨fun dt s hon hreg hloss => ?rails, fun dt hold s hmode hreg hcrystal hloss => ⟨fun hpad => ?ready, fun hpad => ?waits⟩,
    fun dt s hstart hdone hheld => ⟨?clean, fun htries => ?repeats, fun htries => ?holds⟩,
    fun dt s hstart hdone hheld => ⟨fun i trial hchoice => ?boots, fun hchoice => ?none⟩,
    fun dt s hstart hpurge hboot hheld => ?restore, fun dt f s hrun hmode hlock hticks hloss => ?service⟩
  case rails =>
    show execAuxRailsInRegulation dt s = _
    simp [execAuxRailsInRegulation, hon, hreg, hloss]
  case ready =>
    show execAoReady dt hold s = _
    unfold execAoReady
    refine (if_neg (by simp [hmode, hreg, hcrystal, hloss])).trans ?_
    exact congrArg Host.Outcome.next (if_pos hpad)
  case waits =>
    show execAoReady dt hold s = _
    unfold execAoReady
    refine (if_neg (by simp [hmode, hreg, hcrystal, hloss])).trans ?_
    exact congrArg Host.Outcome.next (if_neg (Bool.eq_false_iff.mp hpad))
  case clean | repeats | holds =>
    show execLeesPurgeComplete dt _ s = _
    unfold execLeesPurgeComplete
    generalize settleReset (advance dt s) = t at *
    simp [*]
  case boots =>
    show execBootImageVerified dt s = _
    unfold execBootImageVerified
    generalize settleReset (advance dt s) = t at *
    simp [hstart, hdone, hheld, hchoice]
  case none =>
    show execBootImageVerified dt s = _
    unfold execBootImageVerified
    generalize settleReset (advance dt s) = t at *
    simp [hstart, hdone, hheld, hchoice]
  case restore =>
    show execRestore dt s = _
    unfold execRestore
    generalize settleReset (advance dt s) = t at *
    exact if_neg (by simp [hstart, hpurge, hboot, hheld])
  case service =>
    show execServiceEntry dt s = _
    unfold execServiceEntry
    generalize advance dt s = t at *
    simp [hrun, hmode, hlock, hticks, hloss]

/-! ### Modes and the lifecycle -/

/-- The transitions of R90 that DEV_MODE may ask for. -/
theorem checkDevMode_ok {p : Bytes} {s : State} (hzero : zeroAt p 1 3 = true)
    (hmove : (s.life.mode = .service ∧ (u8 p 0 = 5 ∨ u8 p 0 = 3)) ∨ (s.life.mode = .maintenance ∧ (u8 p 0 = 4 ∨ u8 p 0 = 3)) ∨
      (s.life.mode = .recovery ∧ u8 p 0 = 3 ∧ mayLeaveRecovery s = true)) : checkDevMode p s = .ok := by
  unfold checkDevMode
  rcases hmove with ⟨hmode, hx | hx⟩ | ⟨hmode, hx | hx⟩ | ⟨hmode, hx, hfree⟩ <;> simp [*]

theorem checkDevMode_busy {p : Bytes} {s : State} (hzero : zeroAt p 1 3 = true) (hmode : s.life.mode = .recovery)
    (hx : u8 p 0 = 3) (hheld : mayLeaveRecovery s = false) : checkDevMode p s = .busy := by
  simp [checkDevMode, hzero, hmode, hx, hheld]

theorem checkDevMode_wrongMode {p : Bytes} {s : State} (hzero : zeroAt p 1 3 = true) (hmax : u8 p 0 ≤ 6)
    (hrefused : u8 p 0 ≤ 2 ∨ u8 p 0 = 6 ∨ s.life.mode = .hold) : checkDevMode p s = .wrongMode := by
  unfold checkDevMode
  rw [if_neg (by simp [hzero, hmax])]
  split <;> rename_i hmode hx <;> simp_all

theorem checkDevMode_of_hold {p : Bytes} {s : State}
    (hs : s.life.mode = .hold ∨ (s.life.mode = .recovery ∧ mayLeaveRecovery s = false)) : checkDevMode p s ≠ .ok := by
  unfold checkDevMode
  rcases hs with hmode | ⟨hmode, hheld⟩ <;> (repeat' split) <;> simp_all

/-- Settles O29: DEV_MODE and its landing, RECOVERY, the lifecycle, and BOARD_DESCRIBE. -/
theorem modesAndLifecycle : Obligations.ModesAndLifecycle := by
  unfold Obligations.ModesAndLifecycle
  refine ⟨⟨fun h p s hr hlen hzero huntimed => ⟨fun hmove => ?moves, fun hmode hx hheld => ?busy, fun hrefused hmax => ?refused⟩,
      fun p s hzero => ⟨fun hmode hx => ?maintenance, fun hmode hx => ?service, fun hmode hx => ?hold, fun hmode => ?stays⟩,
      fun l s hop hfirst => ?lands, fun dt q s hdue => ⟨fun hmode => ?enters, fun hmode => ?dropped⟩⟩,
    fun h p s hr hlen => ⟨fun hcheck => ⟨lifeStep_of_checkLifeAdvance hcheck, ?promised⟩, fun hcheck => ?notPromised⟩,
    fun dt due hold x s hdue hnow hloss => ?transition,
    fun s => ⟨rfl, rfl, rfl, rfl, rfl, rfl, fun e he => List.eq_of_mem_replicate he⟩,
    fun h p s hr hlen hcheck huntimed => opcodeN_reply hr hlen (landing_ok huntimed hcheck),
    fun l s hop hfirst => ?board, fun p s => ⟨rfl, rfl⟩⟩
  case moves => exact opcodeN_reply hr hlen (landing_ok huntimed (checkDevMode_ok hzero hmove))
  case busy =>
    have hcheck := checkDevMode_busy hzero hmode hx hheld
    exact opcodeN_reply hr hlen ((landing_refused huntimed (by simp [hcheck])).trans (by rw [hcheck]))
  case refused =>
    have hcheck := checkDevMode_wrongMode hzero hmax hrefused
    exact opcodeN_reply hr hlen ((landing_refused huntimed (by simp [hcheck])).trans (by rw [hcheck]))
  case maintenance => simp [landDevMode, checkDevMode_ok hzero (.inl ⟨hmode, .inl hx⟩), hx]
  case service => simp [landDevMode, checkDevMode_ok hzero (.inr (.inl ⟨hmode, .inl hx⟩)), hx]
  case hold =>
    have hcheck : checkDevMode p s = .ok := by
      rcases hmode with hmode | hmode | ⟨hmode, hfree⟩
      · exact checkDevMode_ok hzero (.inl ⟨hmode, .inr hx⟩)
      · exact checkDevMode_ok hzero (.inr (.inl ⟨hmode, .inr hx⟩))
      · exact checkDevMode_ok hzero (.inr (.inr ⟨hmode, hx, hfree⟩))
    simp [landDevMode, hcheck, hx]
  case stays => exact if_neg (checkDevMode_of_hold hmode)
  case lands => simp [landCommand, landEffect, hop, hfirst]
  case enters =>
    show execRecoveryEntry dt s = _
    unfold execRecoveryEntry
    generalize advance dt s = t at *
    rcases hmode with hmode | hmode | hmode <;> simp [hdue, hmode, modeLive]
  case dropped =>
    show execRecoveryEntry dt s = _
    unfold execRecoveryEntry
    generalize advance dt s = t at *
    rcases hmode with hmode | hmode | hmode | hmode <;> simp [hdue, hmode, modeLive]
  case promised =>
    refine opcodeN_reply hr hlen ?_
    simp only [guardSt, hcheck, if_true]
    rfl
  case notPromised =>
    refine opcodeN_reply hr hlen ?_
    simp only [guardSt, if_neg hcheck]
  case transition =>
    show execLifeTransitionStart dt hold s = _
    unfold execLifeTransitionStart
    generalize settleReset (advance dt s) = t at *
    simp only [hdue]
    exact if_neg (by simp [hloss, hnow])
  case board => simp [landCommand, landEffect, hop, hfirst]

end Sys2Proof.Machine

/-! # The power path and the governor (R40 to R70) -/

namespace Sys2Proof.Machine

open Sys2Proof.Safety

theorem settleMark_eq (s : State) : settleMark s = { s with vint := (settleMark s).vint } := by
  unfold settleMark
  (repeat' split) <;> rfl

/-- Settles O30: each port event, the rails and the hold-up, and what is left without power. -/
theorem powerEvents : Obligations.PowerEvents := by
  unfold Obligations.PowerEvents
  refine ⟨fun dt x g s hoff hg => ?applied, fun dt x s happlied hoff hloss => ?good,
    fun dt x s hon hnew hloss hdue => ?counts, fun dt mw x s hon hlldp => ?lldp,
    fun dt s => ⟨fun hcharge hloss => ?charged, fun hon => ⟨?fault3, ?fault5⟩, fun ok hfault hdue => ?retry3,
      fun ok hfault hdue => ?retry5⟩,
    fun dt x s hloss hcounts => ⟨fun hother => ?lostOne, fun hother => ?lostLast⟩,
    fun dt s hloss => ?exhausted, fun s => ?off⟩
  case applied =>
    show execPowerApplied dt x g s = _
    simp [execPowerApplied, hoff, hg]
  case good =>
    show execInputPowerGood dt x s = _
    simp [execInputPowerGood, happlied, hoff, hloss]
  case counts =>
    show execPowerUpDelayEnd dt x s = _
    unfold execPowerUpDelayEnd
    exact if_neg (by simp [hon, hnew, hloss, hdue])
  case lldp =>
    show execLldpAllocation dt x mw s = _
    simp [execLldpAllocation, hon, hlldp]
  case charged =>
    show execHupReady dt s = _
    simp [execHupReady, hcharge, hloss]
  case fault3 =>
    show execAuxFault dt .aux3v3 s = _
    simp [execAuxFault, hon]
  case fault5 =>
    show execAuxFault dt .aux5v0 s = _
    simp [execAuxFault, hon]
  case retry3 =>
    show execAuxRetry dt .aux3v3 ok s = _
    simp [execAuxRetry, hfault, hdue]
  case retry5 =>
    show execAuxRetry dt .aux5v0 ok s = _
    simp [execAuxRetry, hfault, hdue]
  case lostOne =>
    cases x <;> show execPortSupplyStopped dt _ _ s = _ <;> unfold execPortSupplyStopped <;> unfold pdPort at hcounts hother <;>
      generalize advance dt s = t at * <;>
      exact (if_neg (by simp [hloss])).trans ((if_pos (by simp [portStops, setPd, hother])).trans
        (by simp [portStops, setPd, hcounts]))
  case lostLast =>
    cases x <;> show execPortSupplyStopped dt _ _ s = _ <;> unfold execPortSupplyStopped <;> unfold pdPort at hcounts hother <;>
      generalize advance dt s = t at * <;>
      exact (if_neg (by simp [hloss])).trans ((if_neg (by simp [portStops, setPd, hother])).trans
        (if_pos (by simp [hcounts])))
  case exhausted =>
    show execHoldUpExhausted dt s = _
    unfold execHoldUpExhausted
    exact if_neg (by simp [Option.ne_none_iff_isSome.mpr hloss])
  case off =>
    unfold powerOff
    rw [settleMark_eq]
    exact ⟨rfl, rfl, rfl, rfl, rfl, rfl, rfl, rfl, rfl, rfl, rfl⟩

/-! ### The governor -/

/-- Settles O31: a period, a step of restoring, the release, the commands, and the levels' steps. -/
theorem governor : Obligations.Governor := by
  unfold Obligations.Governor
  refine ⟨fun dt m s hao hloss => ⟨?measured, ?period⟩, fun dt s hshed hbudget htrip hloss hdue hdraw => ?restore,
    fun dt since s hsince hdue => ?release, fun h p s hr hlen => opcodeN_reply hr hlen rfl,
    fun h p s hr hlen hone hlldp hmin hmax hzero ha hb hfits => ⟨fun huntimed => ?policy, fun u => rfl⟩,
    fun v hlo hhi => ?down, rfl, rfl, fun v hlo hhi => ?up⟩
  case measured =>
    rfl
  case period =>
    show execGovernorPeriod dt m s = _
    simp [execGovernorPeriod, hao, hloss]
  case restore =>
    show execShedRestore dt s = _
    unfold execShedRestore
    generalize advance dt s = t at *
    exact if_neg (by simp [hshed, hbudget, htrip, hloss, hdue, hdraw])
  case release =>
    show execPowerBudgetRelease dt s = _
    unfold execPowerBudgetRelease
    generalize advance dt s = t at *
    simp [hsince, hdue]
  case policy =>
    refine opcodeN_reply hr hlen (landing_ok huntimed (checks_ok ?_))
    simp only [List.forall_mem_cons]
    refine ⟨?_, ?_, ?_, ?_, ?_, ?_, ?_, nofun⟩
    · simp [hone]
    · simp [hlldp]
    · simp [hmax]
      omega
    · simp [hzero]
    · simp [ha]
    · simp [hb]
    · cases hport : (policyOf p).onePort
      · rfl
      · simp [hfits hport]
  case down =>
    have hdown : levelDown v = max (-40000) (v - 1000) := if_neg (Int.not_le.mpr hlo)
    exact ⟨hdown, by omega⟩
  case up =>
    have hup : levelUp v = min 0 (v + 1000) := if_neg (Int.not_lt.mpr hlo)
    exact ⟨hup, by omega⟩

end Sys2Proof.Machine

/-! # What a tick lands, and mixing's reports and events (R33 to R35, R152 to R160, R370 to R390) -/

namespace Sys2Proof.Machine

open Sys2Proof.Safety

/-! ### A tick and what lands at it -/

theorem landCommand_plain {s : State} {l : Landing} (hgraph : l.op ≠ .graphCommit) (hroute : l.op ≠ .routeSet)
    (hsync : l.op ≠ .filtSync) : landCommand s l = if l.completion = true
      then reply (opCode l.op) l.hdr .ok (completionPrefix s.clk.tickTai s.clk.frame) (landEffect l s) else landEffect l s := by
  unfold landCommand
  extract_lets pre
  split
  next hop => exact absurd hop hgraph
  next hop => exact absurd hop hroute
  next hop => exact absurd hop hsync
  next =>
    split
    next hlate => rw [show pre = completionPrefix s.clk.tickTai s.clk.frame from if_pos hlate]
    next => rfl

/-- Settles O34: the tick, then the landing of timed, deferred and prepared commands. -/
theorem framesAndLanding : Obligations.FramesAndLanding := by
  unfold Obligations.FramesAndLanding
  refine ⟨fun dt i s hrun => ⟨fun hfs => ?tick, fun hfs => ?last⟩,
    fun s => ⟨rfl, rfl, fun hbase hstarted => ?next, fun hbase hstarted => ?first⟩, fun s => rfl, fun s l m hl => ?prepared,
    fun s l => ⟨fun hfit => ?unfit, fun hfit hcheck => ?refused, fun hfit hcheck hfree => ?timed⟩,
    fun s l hgraph hroute hsync => landCommand_plain hgraph hroute hsync,
    fun s l m => ⟨fun hfree => if_pos hfree, fun hfull => if_neg (Bool.eq_false_iff.mp hfull)⟩,
    fun dt s hrun hbegun => ⟨fun hdue tai => ?ahead, fun l m hl hfree => ?deferred⟩⟩
  case tick =>
    show execFrameTick dt i s = _
    unfold execFrameTick
    generalize settleReset (advance dt s) = t at *
    refine (if_neg (by simp [hrun])).trans (congrArg Host.Outcome.next (if_neg ?_))
    dsimp only at hfs ⊢
    simp [hfs]
  case last =>
    show execFrameTick dt i s = _
    unfold execFrameTick
    generalize settleReset (advance dt s) = t at *
    exact (if_neg (by simp [hrun])).trans (congrArg Host.Outcome.next (if_pos hfs))
  case next => simp [nextFrame, hbase, hstarted]
  case first => simp [nextFrame, hbase, hstarted]
  case prepared =>
    unfold landWaiting
    rw [hl, List.foldl_append]
  case unfit =>
    unfold landTimed
    dsimp only
    split
    next hok => exact absurd hok hfit
    next => rfl
  case refused =>
    unfold landTimed
    simp only [hfit]
  case timed =>
    unfold landTimed
    simp only [hfit, hcheck, hfree, ne_eq, not_true_eq_false, if_false]
  case ahead =>
    show execTimedCommandApply dt tai s = _
    unfold execTimedCommandApply
    generalize settleReset (advance dt s) = t at *
    exact if_pos (by simp [hrun, hbegun, hdue])
  case deferred =>
    show execDeferredCommandLands dt s = _
    unfold execDeferredCommandLands
    generalize settleReset (advance dt s) = t at *
    simp only [hl]
    exact if_pos (by simp [hrun, hbegun, hfree])

/-! ### Mixing -/

theorem getLsbD_two_pow {n : Nat} (i k : Fin n) : (BitVec.ofNat n (2 ^ i.val)).getLsbD k = decide (i = k) := by
  rw [BitVec.getLsbD_ofNat, Nat.testBit_two_pow]
  simp [Fin.ext_iff]

/-- A pin's level is taken into its bit and no other. -/
theorem gpioIn_bits (w : BitVec 16) (g : Fin 16) (v : Bool) (k : Fin 16) :
    (if v = true then w ||| BitVec.ofNat 16 (2 ^ g.val) else w &&& ~~~BitVec.ofNat 16 (2 ^ g.val)).getLsbD k =
      if k = g then v else w.getLsbD k := by
  have hbit := getLsbD_two_pow g k
  cases v
  · rw [if_neg Bool.false_ne_true, BitVec.getLsbD_and, BitVec.getLsbD_not, hbit]
    by_cases hk : k = g <;> simp [hk, eq_comm (a := g)]
  · rw [if_pos rfl, BitVec.getLsbD_or, hbit]
    by_cases hk : k = g <;> simp [hk, eq_comm (a := g)]

/-- Settles O37: the reports, the ramp defaults, and the events of generators, pins and corks. -/
theorem mixingEvents : Obligations.MixingEvents := by
  unfold Obligations.MixingEvents
  refine ⟨fun h p s hr hlen hmode hmin hmax hzero hfull hall hpad => ?meters,
    fun h p s hr hlen hzero hsrc hsink => ?latency,
    fun h p s hr hlen hlo hhi hshape hzero hclo hchi => ⟨opcodeN_reply hr hlen (landLive_ok ?defaults), fun u => rfl⟩,
    fun dt g s htype honce hdone => ?sweep, fun dt s => ⟨rfl, rfl⟩, fun dt g v s => ⟨_, rfl, ?pin, fun k hk => ?pins⟩,
    fun dt a b s => rfl⟩
  case meters =>
    refine opcode_reply hr ((if_pos (checks_ok ?_)).trans rfl)
    have hknown : (handlesAt p 4 (u8 p 1)).any (fun x =>
        !(isSrcT (fsOf (during .meterRead h p s)) x || isSink (fsOf (during .meterRead h p s)) x)) = false := by
      rw [List.any_eq_false]
      intro x hx
      rcases hall x hx with hx | hx <;> simp [hx]
    simp only [List.forall_mem_cons, hknown]
    refine ⟨?_, ?_, ?_, ?_, ?_, trivial, ?_, nofun⟩
    · simp [hlen]
    · simp [hmode]
    · simp [hmax, Nat.one_le_iff_ne_zero.mp hmin]
    · simp [hzero]
    · simp [hfull]
    · simp [hpad]
  case latency =>
    refine opcodeN_reply hr hlen ((if_pos (checks_ok ?_)).trans rfl)
    simp only [List.forall_mem_cons]
    refine ⟨?_, ?_, ?_, nofun⟩
    · simp [hzero]
    · rcases hsrc with hsrc | hsrc <;> simp [hsrc]
    · simp [hsink]
  case defaults =>
    refine checks_ok ?_
    simp only [List.forall_mem_cons]
    refine ⟨?_, ?_, ?_, ?_, nofun⟩
    · simp [hlo, hhi]
    · rcases hshape with hshape | hshape <;> simp [hshape]
    · simp [hzero]
    · simp [hclo, hchi]
  case sweep =>
    show execSweepEnd dt g s = _
    unfold execSweepEnd
    refine if_pos ?_
    rw [Bool.and_eq_true, Bool.and_eq_true, decide_eq_true_iff, decide_eq_true_iff, honce]
    exact ⟨⟨htype, rfl⟩, hdone⟩
  case pin => exact (gpioIn_bits _ g v g).trans (if_pos rfl)
  case pins => exact (gpioIn_bits _ g v k).trans (if_neg hk)

end Sys2Proof.Machine

/-! # Vintages (R106 to R118) -/

namespace Sys2Proof.Machine

open Sys2Proof.Safety

/-! ### The two slots -/

theorem slotOf_setSlot_same (v : Vint) (i : Fin 2) (x : Slot) : slotOf (setSlot v i x) i = x := by
  unfold slotOf setSlot
  split <;> rfl

theorem slotOf_setSlot_other (v : Vint) (i : Fin 2) (x : Slot) : slotOf (setSlot v i x) (otherSlot i) = slotOf v (otherSlot i) := by
  unfold slotOf setSlot otherSlot
  split <;> rfl

theorem slotValid_of_badRead {v : Vint} {f : FwImage} {x : Slot} (hbad : x.headerOk = false ∨ x.stateOk = false) :
    slotValid v f x = false := by
  rcases hbad with hbad | hbad
  · simp [slotValid, slotReason, hbad]
  · cases hhead : x.headerOk <;> simp [slotValid, slotReason, hbad, hhead]

/-- Settles O38: a commit from its request to its end, and the commands of the vintages. -/
theorem vintages : Obligations.Vintages := by
  unfold Obligations.Vintages
  refine ⟨fun h p s hr hlen => ⟨fun hwaits => ?dropped, fun hnone hruns => ?waits, fun hnone hfree =>
      ⟨fun hfull => ?noRoom, fun hroom => ?armed⟩⟩,
    fun s q hq => ⟨fun hroom => ?taken, fun hfull hcommand => ?given⟩,
    fun t tai label kind s => ⟨rfl, ?interrupted, slotOf_setSlot_other _ _ _⟩,
    fun dt s hfree => ?starts,
    fun dt s hon hup hloss hdue => ⟨fun hsame => ?unchanged, fun hnew =>
      ⟨fun hwaits => ?autoDropped, fun hnone hruns => ?autoWaits, fun hnone hfree => ?autoArmed⟩⟩,
    fun dt us c s hrun hbulk => ⟨?good, ?content, rfl, slotOf_setSlot_other _ _ _,
      fun rb hrb hkind honce => ?again, fun rb hrb hkind => ⟨?spoilt, ?spoiltSlot⟩, fun rb hrb hkind htwice => ?fails⟩,
    fun dt id s => rfl, fun h p s hr hlen => opcodeN_reply hr hlen rfl,
    fun h p s hr hlen hauto hloss hzero hlo hhi hperiod huntimed =>
      ⟨opcodeN_reply hr hlen (landing_ok huntimed ?policy), fun u => ⟨rfl, rfl⟩⟩,
    fun h p s hr hlen => ⟨fun hkey => ?wrongKey, fun hkey hbusy => ?busy, fun hkey hfree hnone => ?clears⟩⟩
  case dropped => exact opcodeN_reply hr hlen (if_pos hwaits)
  case waits =>
    refine opcodeN_late hr hlen ?_
    simp [hnone, hruns]
  case noRoom =>
    refine opcodeN_reply hr hlen ?_
    simp [hnone, hfree, hfull]
  case armed =>
    refine opcodeN_late hr hlen ?_
    simp [hnone, hfree, hroom]
  case taken =>
    simp only [takeCommit, hq]
    exact if_neg (Bool.eq_false_iff.mp hroom)
  case given =>
    simp only [takeCommit, hq]
    exact (if_pos hfull).trans (if_pos hcommand)
  case interrupted =>
    show (slotOf (setSlot s.vint t _) t).interrupted = true
    rw [slotOf_setSlot_same]
  case starts => exact if_neg (Bool.eq_false_iff.mp hfree)
  case unchanged =>
    show execAutoCommit dt s = _
    unfold execAutoCommit
    generalize advance dt s = t at *
    exact (if_neg (by simp [hon, hup, hloss, hdue])).trans (if_pos hsame)
  case autoDropped =>
    show execAutoCommit dt s = _
    unfold execAutoCommit
    generalize advance dt s = t at *
    exact (if_neg (by simp [hon, hup, hloss, hdue])).trans ((if_neg hnew).trans (if_pos hwaits))
  case autoWaits =>
    show execAutoCommit dt s = _
    unfold execAutoCommit
    generalize advance dt s = t at *
    exact (if_neg (by simp [hon, hup, hloss, hdue])).trans ((if_neg hnew).trans ((if_neg (by simp [hnone])).trans (if_pos hruns)))
  case autoArmed =>
    show execAutoCommit dt s = _
    unfold execAutoCommit
    generalize advance dt s = t at *
    exact (if_neg (by simp [hon, hup, hloss, hdue])).trans ((if_neg hnew).trans ((if_neg (by simp [hnone])).trans
      (if_neg (Bool.eq_false_iff.mp hfree))))
  case good =>
    show execVintCommitComplete dt .good us s = _
    unfold execVintCommitComplete
    simp only [hrun, hbulk]
    rfl
  case content =>
    show (slotOf (setSlot _ c.target (writtenSlot c _)) c.target).content = c.content
    rw [slotOf_setSlot_same]
    rfl
  case again =>
    show execVintCommitComplete dt rb us s = _
    unfold execVintCommitComplete
    simp only [hrun, hbulk, if_neg hrb, if_neg hkind, honce]
    rfl
  case spoilt =>
    show execVintCommitComplete dt rb us s = _
    unfold execVintCommitComplete
    simp only [hrun, hbulk, if_neg hrb, if_pos hkind]
    rfl
  case spoiltSlot =>
    refine slotValid_of_badRead ?_
    show (slotOf (setSlot _ c.target _) c.target).headerOk = false ∨ (slotOf (setSlot _ c.target _) c.target).stateOk = false
    rw [slotOf_setSlot_same]
    cases rb with
    | good => exact absurd rfl hrb
    | headerCrc => exact .inl rfl
    | stateCrc => exact .inr rfl
  case fails =>
    show execVintCommitComplete dt rb us s = _
    unfold execVintCommitComplete
    simp only [hrun, hbulk, if_neg hrb, if_neg hkind, htwice]
    rfl
  case policy =>
    refine checks_ok ?_
    simp only [List.forall_mem_cons]
    refine ⟨?_, ?_, ?_, ?_, ?_, nofun⟩
    · simp [hauto]
    · simp [hloss]
    · simp [hzero]
    · simp [hlo, hhi]
    · rcases hperiod with hoff | ⟨hmin, hmax⟩
      · simp [hoff]
      · simp [hmin, hmax]
  case wrongKey => exact opcodeN_reply hr hlen (if_pos hkey)
  case busy =>
    refine opcodeN_reply hr hlen ((if_neg (not_not.mpr hkey)).trans (if_pos ?_))
    simpa using hbusy
  case clears =>
    refine opcodeN_reply hr hlen ((if_neg (not_not.mpr hkey)).trans (if_neg ?_))
    simp [hfree, hnone]

end Sys2Proof.Machine

/-! # Staging and committing a graph (R302 to R330) -/

namespace Sys2Proof.Machine

open Sys2Proof.Safety

/-! ### Staging -/

section

variable {h : Hdr} {p : Bytes} {s : State}

theorem stageBegin_done (hown : stageOther s h.rq = false) (hlen : p.length = 24) (hdip : u8 p 1 ≤ 1) (hgroups : u8 p 2 ≤ 32)
    (hpad : u8 p 3 = 0) (hedges : u32 p 4 ≤ 65536) (hlo : 500 ≤ u32 p 8) (hhi : u32 p 8 ≤ 1000000) (hzero : u32 p 20 = 0) :
    stageBegin h p s = done { s with gr := { s.gr with stage :=
      { state := .loading, owner := h.rq, noDip := u8 p 1 == 1, groups := u8 p 2, edges := u32 p 4, rackUs := u32 p 8
        graphId := BitVec.ofNat 32 (u32 p 12), crc := BitVec.ofNat 32 (u32 p 16) } } } := by
  refine if_pos (checks_ok ?_)
  simp [hlen, hdip, hgroups, hpad, hedges, hlo, hhi, hzero, hown]

theorem stageEdges_done (hown : stageOther s h.rq = false) (hzero : zeroAt p 1 3 = true) (hlen : 12 ≤ p.length)
    (hmin : 1 ≤ u16 p 8) (hmax : u16 p 8 ≤ (if h.rq = .spi then 340 else 115)) (hfull : p.length = 12 + 12 * u16 p 8)
    (hpad : u16 p 10 = 0) (hload : s.gr.stage.state = .loading) (hnext : u32 p 4 = s.gr.stage.recv.length)
    (hroom : s.gr.stage.recv.length + u16 p 8 ≤ s.gr.stage.edges) :
    stageEdges h p s = done { s with gr := { s.gr with stage := { s.gr.stage with
      recv := s.gr.stage.recv ++ (List.range (u16 p 8)).map (fun i => edgeAt p (12 + 12 * i))
      raw := s.gr.stage.raw ++ [p.drop 12] } } } := by
  refine if_pos (checks_ok ?_)
  have hcount : ¬ (if h.rq = .spi then 340 else 115) < u16 p 8 := Nat.not_lt.mpr hmax
  simp only [List.forall_mem_cons]
  refine ⟨?_, ?_, ?_, ?_, ?_, ?_, ?_, nofun⟩
  · simp [hlen]
  · simp [hzero]
  · rw [decide_eq_false hcount]
    simp [Nat.one_le_iff_ne_zero.mp hmin]
  · simp [hfull]
  · simp [hpad]
  · exact hown
  · simp [hload, hnext, hroom]

theorem stageGroup_done (hown : stageOther s h.rq = false) (hzero : zeroAt p 1 3 = true) (hlen : 12 ≤ p.length)
    (hfollow : u8 p 5 ≤ 1) (hfull : p.length = handleLen 12 (u16 p 6))
    (hpad : zeroAt p (12 + 2 * u16 p 6) (handleLen 12 (u16 p 6) - 12 - 2 * u16 p 6) = true)
    (hload : s.gr.stage.state = .loading) :
    let x : EqGroup := { num := u8 p 4, follow := u8 p 5 == 1, target := u32 p 8, members := handlesAt p 12 (u16 p 6) }
    stageGroup h p s = done { s with gr := { s.gr with stage := { s.gr.stage with
      recvGroups := s.gr.stage.recvGroups ++ [(x, (p.drop 4).take (8 + 2 * u16 p 6))] } } } := by
  refine if_pos (checks_ok ?_)
  rw [hfull] at hlen
  simp [hlen, hzero, hfollow, hfull, hpad, hown, hload]

end

/-- Settles O41: each step of the staging, its abort and the query's parts. -/
theorem graphStaged : Obligations.GraphStaged := by
  unfold Obligations.GraphStaged
  refine ⟨fun h p s hr hown hzero => ⟨fun hstep hlen hdip hgroups hpad hedges hlo hhi hrest => ?begin,
      fun hstep hlen hmin hmax hfull hpad hload hnext hroom => ?edges,
      fun hstep hlen hfollow hfull hpad hload => ?group, fun st pay u hstep hlen hload hend => ?finish⟩,
    fun h p s hr hlen => opcodeN_reply hr hlen rfl,
    fun h p s hr hlen hmax hzero hstaged => ⟨fun hwhat => ?summary, fun hwhat hlive => ?live, fun hwhat hstage => ?staged⟩⟩
  case begin =>
    refine opcode_reply hr ?_
    rw [if_neg (by omega)]
    simp only [hstep]
    exact stageBegin_done hown hlen hdip hgroups hpad hedges hlo hhi hrest
  case edges =>
    refine opcode_reply hr ?_
    have hzero' := hzero.resolve_right (by omega)
    rw [if_neg (by omega)]
    simp only [hstep]
    exact stageEdges_done hown hzero' hlen hmin hmax hfull hpad hload hnext hroom
  case group =>
    refine opcode_reply hr ?_
    have hzero' := hzero.resolve_right (by omega)
    rw [if_neg (by omega)]
    simp only [hstep]
    exact stageGroup_done hown hzero' hlen hfollow hfull hpad hload
  case finish =>
    refine opcode_reply hr ?_
    have hzero' := hzero.resolve_right (by omega)
    rw [if_neg (by omega)]
    simp only [hstep]
    refine (if_pos (checks_ok ?_)).trans hend
    simp [hlen, hzero', hown, hload]
  case summary =>
    refine opcodeN_reply hr hlen ((if_pos (checks_ok ?_)).trans (by simp only [hwhat]))
    by_cases hs : u8 p 1 = 1
    · simp [hwhat, hzero, hs, hstaged hs]
    · simp [hwhat, hzero, hs, hmax]
  case live =>
    refine opcodeN_reply hr hlen ((if_pos (checks_ok ?_)).trans ?_)
    · simp [hwhat, hzero, hlive]
    · simp [hwhat, hlive]
  case staged =>
    refine opcodeN_reply hr hlen ((if_pos (checks_ok ?_)).trans ?_)
    · simp [hwhat, hzero, hstage, hstaged hstage]
    · simp [hwhat, hstage]

/-! ### Committing -/

section

variable {k : Captured} {s : State}

theorem graphTrigger_arms (hidle : s.gr.rack = .idle) (hfree : s.gr.armed = none) : graphTrigger k s = (.ok, armCommit k s) :=
  if_pos ⟨hidle, by simp [hfree]⟩

theorem graphTrigger_waits (hbusy : s.gr.rack ≠ .idle ∨ s.gr.armed.isSome = true) (hfree : s.gr.pendingTrig = none) :
    graphTrigger k s = (.ok, { s with gr := { s.gr with pendingTrig := some k } }) := by
  refine (if_neg fun hidle => ?_).trans (if_pos (by simp [hfree]))
  rcases hbusy with hrack | harmed
  · exact hrack hidle.1
  · exact absurd hidle.2 (by simp [Option.isSome_iff_ne_none.mp harmed])

theorem graphTrigger_busy (hbusy : s.gr.rack ≠ .idle ∨ s.gr.armed.isSome = true) (hwaits : s.gr.pendingTrig.isSome = true) :
    graphTrigger k s = (.busy, { s with gr := { s.gr with overruns := sat32 (s.gr.overruns + 1) } }) := by
  have hsome := Option.isSome_iff_ne_none.mp hwaits
  refine (if_neg fun hidle => ?_).trans ((if_neg (by simp [hsome])).trans (congrArg _ (if_pos ⟨rfl, hwaits⟩)))
  rcases hbusy with hrack | harmed
  · exact hrack hidle.1
  · exact absurd hidle.2 (by simp [Option.isSome_iff_ne_none.mp harmed])

/-- A ROUTE_SET that passes its checks finds no trigger waiting. -/
theorem pendingTrig_of_checkRouteSet {h : Hdr} {p : Bytes} (hcheck : checkRouteSet h p s = .ok) : s.gr.pendingTrig = none := by
  cases hwaits : s.gr.pendingTrig with
  | none => rfl
  | some k =>
    unfold checkRouteSet at hcheck
    obtain ⟨c, i, x⟩ := routeCapture h p s
    simp only [hwaits] at hcheck
    (repeat' split at hcheck) <;> simp_all

end

/-- What is in force gives an edge its gain, not its ends. -/
theorem edgeInForce_ends (s : State) (e : Edge) : ((edgeInForce s e).src, (edgeInForce s e).sink) = (e.src, e.sink) := by
  unfold edgeInForce
  split <;> rfl

/-- Settles O42: the triggers, the end of racking in, the switch of banks and the waiting trigger. -/
theorem graphCommitted : Obligations.GraphCommitted := by
  unfold Obligations.GraphCommitted
  refine ⟨fun h p s hr huntimed => ⟨fun hcheck => ?refused, fun hcheck => ⟨fun hidle hfree => ?armed, fun hbusy hfree => ?waits,
      fun hbusy hwaits => ?busy⟩⟩,
    fun h p s hr huntimed => ⟨fun hcheck => ?routeRefused, fun hcheck hrack => ?routeWaits, fun hcheck hidle hfree => ?routeArmed⟩,
    fun dt s => ⟨fun hrack hdone => ?racked, fun hrack hdone hswitched => ?dipped, fun hrack hold hhalf => ?switch,
      fun k hk hidle hfree => ⟨fun hok => ?pendingArmed, fun hbad => ?pendingRefused⟩⟩,
    fun g c s => ⟨?prog, ?generation, ?bank, ?groups, ?edges⟩⟩
  case refused =>
    refine opcode_reply hr ?_
    simp only [huntimed]
    exact if_pos hcheck
  case armed =>
    refine opcode_late hr ?_
    simp only [huntimed, hcheck, graphTrigger_arms hidle hfree]
    rfl
  case waits =>
    refine opcode_late hr ?_
    simp only [huntimed, hcheck, graphTrigger_waits hbusy hfree]
    rfl
  case busy =>
    refine opcode_reply hr ?_
    simp only [huntimed, hcheck, graphTrigger_busy hbusy hwaits]
    rfl
  case routeRefused =>
    refine opcode_reply hr ?_
    simp only [huntimed]
    exact if_pos hcheck
  case routeWaits =>
    refine opcode_late hr ?_
    simp only [huntimed, hcheck, graphTrigger_waits (.inl hrack) (pendingTrig_of_checkRouteSet hcheck)]
    rfl
  case routeArmed =>
    refine opcode_late hr ?_
    simp only [huntimed, hcheck, graphTrigger_arms hidle hfree]
    rfl
  case racked =>
    show execRackComplete dt s = _
    unfold execRackComplete
    generalize advance dt s = t at *
    refine (if_neg (by simp [hrack, hdone])).trans ?_
    simp [hrack]
  case dipped =>
    show execRackComplete dt s = _
    unfold execRackComplete
    generalize advance dt s = t at *
    refine (if_neg (by simp [hrack, hdone, hswitched])).trans ?_
    simp [hrack]
  case switch =>
    show execDipBankSwitch dt s = _
    unfold execDipBankSwitch
    generalize advance dt s = t at *
    exact if_neg (by simp [hrack, hold, hhalf])
  case pendingArmed =>
    show execPendingGraphTrigger dt s = _
    unfold execPendingGraphTrigger
    simp only [hk]
    refine (if_neg (by simp [hidle, hfree])).trans (if_neg (not_not.mpr hok))
  case pendingRefused =>
    show execPendingGraphTrigger dt s = _
    unfold execPendingGraphTrigger
    simp only [hk]
    refine (if_neg (by simp [hidle, hfree])).trans (if_pos hbad)
  case prog => rfl
  case generation => rfl
  case bank => rfl
  case groups => rfl
  case edges =>
    show ((g.edges.map (edgeInForce s)).map fun e => (e.src, e.sink)) = _
    rw [List.map_map]
    exact List.map_congr_left fun e _ => edgeInForce_ends s e

end Sys2Proof.Machine

/-! # Phantom power, matching and the Tasters (R220 to R256) -/

namespace Sys2Proof.Machine

open Sys2Proof.Safety

/-! ### Phantom power and matching -/

/-- Settles O43: each event of an input under the condition that makes it due. -/
theorem inputEvents : Obligations.InputEvents := by
  unfold Obligations.InputEvents
  refine ⟨fun dt ch s => ⟨fun hstage hdue => ?ramped, fun above hoff hlow => ?supply, fun hfold hup hpos => ?overcurrent,
      fun i hfold hleft hdue => ⟨fun hi => ?recovered, fun hi => ?again⟩⟩,
    fun dt ch s => rfl, fun dt ch r s => ⟨fun hover hnew => ?suspect, fun hunder => ?cleared, fun hstays => ?kept⟩,
    fun dt ch s => ⟨fun hlimit hreturn hpinned hsecond hauto => ?limit, fun hreturn hgain hdelay => ?returned⟩⟩
  case ramped =>
    show execPhantomRampEnd dt ch s = _
    unfold execPhantomRampEnd
    generalize advance dt s = t at *
    simp [hstage, hdue]
  case supply =>
    show execExtPhantomDetect dt ch above s = _
    unfold execExtPhantomDetect
    generalize advance dt s = t at *
    simp [hoff, hlow]
  case overcurrent =>
    show execPhantomOvercurrent dt ch s = _
    unfold execPhantomOvercurrent
    generalize advance dt s = t at *
    exact if_neg (by simp [hfold, hup, hpos])
  case recovered =>
    show execPhantomRetry dt ch i s = _
    unfold execPhantomRetry
    generalize advance dt s = t at *
    exact (if_neg (by simp [hfold, hleft, hdue])).trans (if_pos hi)
  case again =>
    show execPhantomRetry dt ch i s = _
    unfold execPhantomRetry
    generalize advance dt s = t at *
    exact (if_neg (by simp [hfold, hleft, hdue])).trans (if_neg (Nat.not_le.mpr hi))
  case suspect =>
    show execMatchSuspect dt ch r s = _
    unfold execMatchSuspect
    generalize advance dt s = t at *
    exact if_pos ⟨hover, hnew⟩
  case cleared =>
    show execMatchSuspect dt ch r s = _
    unfold execMatchSuspect
    generalize advance dt s = t at *
    exact (if_neg fun hover => absurd hover.1 (Int.not_lt.mpr (Int.le_of_lt hunder))).trans (if_pos hunder)
  case kept =>
    show execMatchSuspect dt ch r s = _
    unfold execMatchSuspect
    generalize advance dt s = t at *
    rcases hstays with rfl | ⟨hover, hold⟩
    · exact (if_neg fun hnew => absurd hnew.1 (Int.lt_irrefl _)).trans (if_neg (Int.lt_irrefl _))
    · exact (if_neg fun hnew => absurd (hold.symm.trans hnew.2) Bool.noConfusion).trans
        (if_neg (Int.not_lt.mpr (Int.le_of_lt hover)))
  case limit =>
    show execMatchLimit dt ch s = _
    unfold execMatchLimit
    generalize advance dt s = t at *
    refine (if_neg (by simp [hlimit, hreturn, hpinned, hsecond])).trans (if_neg ?_)
    rw [hauto]
    simp
  case returned =>
    show execMatchReturnComplete dt ch s = _
    unfold execMatchReturnComplete
    generalize advance dt s = t at *
    exact if_neg (by simp [hreturn, hgain, hdelay])

/-! ### The Tasters -/

section

variable {dt : Nat} {i : Fin 2} {c : Fin 32} {m o b : TasterMeas} {s : State}

/-- The end of a first window: a pair is judged at once, a single verdict is noted or asks for a second window. -/
theorem tasterWindowEnd_first (hc : (tasterOf (advance dt s) i).channel = some c) (hleft : (tasterOf (advance dt s) i).winLeft = 0)
    (hphase : (tasterOf (advance dt s) i).phase = .window) :
    let t := advance dt s
    let x := tasterOf t i
    let v := verdictOf t.cfg.input.taster m
    execTasterWindowEnd dt i m o b s = if x.pair = true
      then .next (if x.state = .roving then endRound (pairVerdict i c m o b t) else pairVerdict i c m o b t)
      else if v = 2 then .next (visitOver i (noteVerdict i c 2 m t))
      else if v = 1 then .next (plainVerdict i c 1 m t)
      else .next (setTaster i { x with phase := .second, winLeft := windowLen t } t) := by
  unfold execTasterWindowEnd
  generalize advance dt s = t at *
  refine (if_neg (not_not.mpr hleft)).trans ?_
  simp only [hphase, hc]

/-- The end of a second window confirms a failure or clears it. -/
theorem tasterWindowEnd_second (hc : (tasterOf (advance dt s) i).channel = some c) (hleft : (tasterOf (advance dt s) i).winLeft = 0)
    (hphase : (tasterOf (advance dt s) i).phase = .second) :
    let t := advance dt s
    let v := verdictOf t.cfg.input.taster m
    execTasterWindowEnd dt i m o b s =
      if 3 ≤ v then .next (confirmFail i c v m t) else .next (plainVerdict i c v m t) := by
  unfold execTasterWindowEnd
  generalize advance dt s = t at *
  refine (if_neg (not_not.mpr hleft)).trans ?_
  simp only [hphase, hc]

end

/-- A sequence of checks runs at once, waits behind the one that runs, or is counted as an overrun. -/
theorem seqTrigger_idle {m : BitVec 32} {pair : Bool} {s : State} (hidle : s.inp.seqRunning = none) :
    seqTrigger m pair s = done (seqEnd { s with inp := { s.inp with seqRunning := some m, seqPair := pair } }) := by
  simp only [seqTrigger, hidle]

/-- Settles O44: visits, windows and substitutions, and the Tasters' commands. -/
theorem tasterCommands : Obligations.TasterCommands := by
  unfold Obligations.TasterCommands
  refine ⟨fun dt i s hfree hrested hnext => ?visit, fun dt i s hfree hrested hround hnext => ?round,
    fun dt i s hphase hleft => ⟨fun hrove => ?window, fun c hparked hc => ?parks⟩,
    fun dt i c m o b s hc hleft => ⟨fun hphase hpair => ?pair, fun hphase hsingle => ⟨fun hv => ?doubt, fun hv => ?passed,
      fun h1 h2 => ?second⟩, fun hphase => ⟨fun hv => ?confirmed, fun hv => ?unconfirmed⟩⟩,
    fun dt c i s hstage hc hi hdone => ?substituted,
    fun h p s hr hlen hzero hch => ⟨fun hact hheld hc => ?restore, fun hact hwired hnone h0 h1 hp0 hp1 => ?substitute⟩,
    fun h p s hr hlen he hp ha hf hwlo hwhi hllo hlhi hclo hchi hnlo hnhi hrlo hrhi htlo hthi hpause hzero =>
      opcodeN_reply hr hlen (landLive_ok ?config),
    fun h p arr s => rfl,
    fun h p s hr hlen hmask => ⟨fun hidle => ?run, fun hruns hfree => ?queue, fun hruns hwaits => ?busy⟩,
    fun h p s hr hlen hzero => ⟨fun hclear => ?status, fun hclear => ?statusClear⟩,
    fun h p s hr hlen hzero => ⟨fun hact => ?release, fun i hact hi hch hpark hwith hpend hother => ?force,
      fun hact hch => ?factory, fun hact hch hidle => ?check⟩⟩
  case visit =>
    show execTasterVisitStart dt i s = _
    unfold execTasterVisitStart
    generalize advance dt s = t at *
    refine (if_neg (by simp [hfree, hrested])).trans ?_
    cases hv : nextVisit t i with
    | newRound => exact absurd hv hnext
    | _ => rfl
  case round =>
    show execTasterVisitStart dt i s = _
    unfold execTasterVisitStart
    generalize advance dt s = t at *
    refine (if_neg (by simp [hfree, hrested])).trans ?_
    simp only [hround]
  case window =>
    show execTasterSettleEnd dt i s = _
    unfold execTasterSettleEnd
    generalize advance dt s = t at *
    refine (if_neg (by simp [hphase, hleft])).trans ?_
    dsimp only
    split
    next hparked _ => exact absurd hparked hrove
    next => rfl
  case parks =>
    show execTasterSettleEnd dt i s = _
    unfold execTasterSettleEnd
    generalize advance dt s = t at *
    refine (if_neg (by simp [hphase, hleft])).trans ?_
    simp only [hparked, hc]
  case pair => exact (tasterWindowEnd_first hc hleft hphase).trans (if_pos hpair)
  case doubt =>
    exact (tasterWindowEnd_first hc hleft hphase).trans ((if_neg (Bool.eq_false_iff.mp hsingle)).trans (if_pos hv))
  case passed =>
    exact (tasterWindowEnd_first hc hleft hphase).trans ((if_neg (Bool.eq_false_iff.mp hsingle)).trans
      ((if_neg (by omega)).trans (if_pos hv)))
  case second =>
    exact (tasterWindowEnd_first hc hleft hphase).trans ((if_neg (Bool.eq_false_iff.mp hsingle)).trans
      ((if_neg h2).trans (if_neg h1)))
  case confirmed => exact (tasterWindowEnd_second hc hleft hphase).trans (if_pos hv)
  case unconfirmed => exact (tasterWindowEnd_second hc hleft hphase).trans (if_neg (Nat.not_le.mpr hv))
  case substituted =>
    show execTasterSubstituted dt s = _
    unfold execTasterSubstituted
    generalize advance dt s = t at *
    simp only [hstage, hc, hi]
    exact if_neg (Nat.not_lt.mpr hdone)
  case restore =>
    refine opcodeN_reply hr hlen ((if_pos (checks_ok ?_)).trans ((if_pos hact).trans ?_))
    · simp [-Fin.ofNat_eq_cast, hact, hheld, hc, hch, hzero]
    · simp [hheld]
  case substitute =>
    refine opcodeN_reply hr hlen ((if_pos (checks_ok ?_)).trans ((if_neg (by simp [hact])).trans ?_))
    · generalize Fin.ofNat 32 (u8 p 1) = c at *
      simp [hact, hwired, hnone, h0, h1, hch, hzero, bit]
    · generalize Fin.ofNat 32 (u8 p 1) = c at *
      generalize during .tasterSubstitute h p s = t at *
      have hoff1 : (tasterRoves t.inp.t1 && t.inp.t1.channel == some c && t.inp.t1.phase != .none) = false := by
        rcases hp1 with hp1 | hp1 <;> simp [hp1]
      have hfirst : tasterOf t 0 = t.inp.t0 := rfl
      simp only [hoff1, hp0, hfirst, bne_self_eq_false, Bool.and_false, Bool.false_and, Bool.false_eq_true, if_false, if_true]
  case config =>
    refine checks_ok ?_
    simp only [List.forall_mem_cons]
    refine ⟨?_, ?_, ?_, ?_, ?_, ?_, ?_, ?_, ?_, nofun⟩
    · simp [he, hp, ha, hf]
    · simp [hwlo, hwhi]
    · simp [hllo, hlhi]
    · simp [Nat.one_le_iff_ne_zero.mp hclo, hchi]
    · simp [hnlo, hnhi]
    · simp [hrlo, hrhi]
    · simp [htlo, hthi]
    · simp [hpause]
    · simp [hzero]
  case run => exact opcodeN_reply hr hlen ((if_neg hmask).trans (seqTrigger_idle hidle))
  case queue =>
    obtain ⟨x, hx⟩ := Option.isSome_iff_exists.mp hruns
    exact opcodeN_reply hr hlen ((if_neg hmask).trans (by simp only [seqTrigger, hx, hfree]))
  case busy =>
    obtain ⟨x, hx⟩ := Option.isSome_iff_exists.mp hruns
    obtain ⟨y, hy⟩ := Option.isSome_iff_exists.mp hwaits
    exact opcodeN_reply hr hlen ((if_neg hmask).trans (by simp only [seqTrigger, hx, hy]))
  case status =>
    refine opcodeN_reply hr hlen ((if_neg (by simp [hclear, hzero])).trans ?_)
    simp only [hclear]
    rfl
  case statusClear =>
    refine opcodeN_reply hr hlen ((if_neg (by simp [hclear, hzero])).trans ?_)
    simp only [hclear]
    rfl
  case release =>
    refine opcodeN_reply hr hlen ((if_pos (checks_ok ?_)).trans (by simp only [hact]))
    simp [hact, hzero]
  case force =>
    have htaster : Fin.ofNat 2 (u8 p 1) = i := by rw [hi, Fin.ofNat_val_eq_self]
    refine opcodeN_reply hr hlen ((if_pos (checks_ok ?_)).trans (by simp only [hact, htaster]))
    have hle : ¬ 1 < u8 p 1 := by omega
    simp only [htaster]
    simp [hact, hle, hch, hzero, hpark, hwith, hpend, hother]
  case factory =>
    refine opcodeN_reply hr hlen ((if_pos (checks_ok ?_)).trans (by simp only [hact]))
    simp [hact, hch, hzero]
  case check =>
    refine opcodeN_reply hr hlen ((if_pos (checks_ok ?_)).trans ?_)
    · simp [hact, hch, hzero]
    · simp only [hact]
      exact seqTrigger_idle hidle

end Sys2Proof.Machine

/-! # Outputs and filter chains (R260 to R300, R420 to R455) -/

namespace Sys2Proof.Machine

open Sys2Proof.Safety

/-! ### Outputs -/

/-- Settles O45: what becomes of each output, and the outputs' commands. -/
theorem outputs : Obligations.Outputs := by
  unfold Obligations.Outputs
  refine ⟨⟨fun dt s => ⟨rfl, rfl⟩,
      fun dt n s => ⟨fun a b hlive hleg => ?short, fun i hforce hdue => ⟨fun hi => ?probed, fun hi => ?still⟩,
        fun hpinned hlimit => ?servo⟩,
      fun dt n s => ⟨fun hdeclared => ?holdShort, rfl, fun g hg hdone => ?range⟩,
      fun dt n s => ⟨fun z hcheck hdue => ⟨fun hv => ?good, fun hv => ?bad⟩, fun hclamp hidle hon hwired hup hdue => ?repeats,
        fun hcarries => ?spkShort⟩,
      fun dt i z s => ⟨fun hz => ?cool, fun hz hfree => ?hot, fun hz hforce => ?stillHot, fun c hforce hc hdue => ?cooled⟩⟩,
    fun h p s => ⟨fun hr hlen hmode hzero => ⟨fun hkeep => ?status, fun hclear => ?statusClear⟩,
      fun hr hlen hzero => ⟨fun hact => ?free, fun hact hn hwired hfree => ?check, fun hact hn => ?servoNew⟩,
      fun hr hlen hn hzero hlo hhi hdeclared hrange hnext => ?safe, fun arr => rfl⟩⟩
  case short =>
    show execOutputShort dt n a b s = _
    unfold execOutputShort
    generalize advance dt s = t at *
    exact if_neg (by rcases hleg with hleg | hleg <;> simp [hlive, hleg])
  case probed =>
    show execOutputShortProbe dt n i s = _
    unfold execOutputShortProbe
    generalize advance dt s = t at *
    refine (if_neg ?_).trans (if_pos hi)
    rw [hforce]
    simp [hdue]
  case still =>
    show execOutputShortProbe dt n i s = _
    unfold execOutputShortProbe
    generalize advance dt s = t at *
    refine (if_neg ?_).trans (if_neg (Nat.not_lt.mpr hi))
    rw [hforce]
    simp [hdue]
  case servo =>
    show execServoLimit dt n s = _
    unfold execServoLimit
    generalize advance dt s = t at *
    exact if_neg (by simp [hpinned, hlimit])
  case holdShort =>
    show execHoldShort dt n s = _
    unfold execHoldShort
    exact if_pos hdeclared
  case range =>
    show execRangeChangeComplete dt n s = _
    unfold execRangeChangeComplete
    simp only [hg]
    exact if_neg (Nat.not_lt.mpr hdone)
  case good =>
    show execLoadCheckVerdict dt n z s = _
    unfold execLoadCheckVerdict
    generalize advance dt s = t at *
    exact (if_neg (by simp [hcheck, hdue])).trans (congrArg Host.Outcome.next (if_pos hv))
  case bad =>
    show execLoadCheckVerdict dt n z s = _
    unfold execLoadCheckVerdict
    generalize advance dt s = t at *
    exact (if_neg (by simp [hcheck, hdue])).trans (congrArg Host.Outcome.next (if_neg hv))
  case repeats =>
    show execLoadCheckRepeat dt n s = _
    unfold execLoadCheckRepeat
    generalize advance dt s = t at *
    refine if_pos ?_
    rw [hclamp, hidle, hon, hwired, hup, decide_eq_true hdue]
    rfl
  case spkShort =>
    show execSpeakerShortInOperation dt n s = _
    unfold execSpeakerShortInOperation
    exact if_neg (by rw [hcarries]; decide)
  case cool =>
    show execOutputThermal dt i z s = _
    exact if_neg (Int.not_lt.mpr hz)
  case hot =>
    show execOutputThermal dt i z s = _
    refine (if_pos hz).trans ?_
    rw [hfree]
    rfl
  case stillHot =>
    show execOutputThermal dt i z s = _
    refine (if_pos hz).trans ?_
    rw [hforce, if_pos rfl]
    exact congrArg Host.Outcome.next (raise_of_inForce _ rfl hforce)
  case cooled =>
    show execOutputThermalRelease dt i s = _
    unfold execOutputThermalRelease
    generalize advance dt s = t at *
    simp only [hc]
    refine if_pos ?_
    rw [hforce, decide_eq_true hdue]
    rfl
  case status =>
    refine opcodeN_reply hr hlen ((if_neg (by simp [hkeep, hzero])).trans ?_)
    simp only [hkeep]
    rfl
  case statusClear =>
    refine opcodeN_reply hr hlen ((if_neg (by simp [hclear, hzero])).trans ?_)
    simp only [hclear]
    rfl
  case free =>
    refine opcodeN_reply hr hlen ((if_pos (checks_ok ?_)).trans (if_pos hact))
    simp [hact, hzero]
  case check =>
    refine opcodeN_reply hr hlen ((if_pos (checks_ok ?_)).trans ((if_neg (by simp [hact])).trans (if_pos hact)))
    simp only [List.forall_mem_cons, hwired]
    refine ⟨?_, ?_, ?_, ?_, ?_, nofun⟩
    · simp [hact]
    · simp [hact, hn]
    · simp [hzero]
    · simp
    · rcases hfree with hfree | hfree | hfree <;> rw [hfree] <;> simp
  case servoNew =>
    refine opcodeN_reply hr hlen ((if_pos (checks_ok ?_)).trans ((if_neg (by simp [hact])).trans (if_neg (by simp [hact]))))
    simp [hact, hn, hzero]
  case safe =>
    refine opcodeN_late hr hlen (if_pos (checks_ok ?_))
    simp only [List.forall_mem_cons, hrange, hdeclared]
    refine ⟨?_, ?_, ?_, rfl, ?_, nofun⟩
    · simp [hn]
    · simp [hzero]
    · simp [Nat.one_le_iff_ne_zero.mp hlo, hhi]
    · cases hrc : (holdRt (during .holdSafeSet h p s) (u8 p 0)).rc with
      | none => rfl
      | some g => simp [hnext g hrc]

/-! ### Filter chains -/

/-- Settles O46: the events of a chain, and the chains' commands. -/
theorem chains : Obligations.Chains := by
  unfold Obligations.Chains
  refine ⟨⟨fun dt ch s => ⟨fun hstate hleft => ?stops, fun hstate hreload hleft => ?reloads, rfl⟩, fun dt s hup => ?sync,
      fun dt s r l hl hleft => ?syncClear, fun dt s hrun hfull v => ?captured⟩,
    fun h p s => ⟨fun hr huntimed hmode => ⟨fun hcheck => ?waits, fun hcheck => ?refused⟩,
      fun hr hlen hpour hfine hzero hmask hok hstop => ?phase,
      fun hr hcheck => ⟨fun htaps husers => ?removes, fun htaps hfirst hruns => ?busy, fun st pay u htaps hfirst hstop hpart => ?begins,
        fun l st pay u htaps hnext hl hsame hsym hlen hpart => ?continues⟩,
      fun hr hlen => opcodeN_reply hr hlen rfl,
      fun hr hlen hzero => ⟨fun hact => ?gates, fun hact hpour hc hmode => ?opens, fun hact hpour hc hidle => ?capture⟩⟩⟩
  case stops =>
    show execFiltStopComplete dt ch s = _
    exact if_pos ⟨hstate, hleft⟩
  case reloads =>
    show execFiltReloadClear dt ch s = _
    exact if_pos ⟨hstate, hreload, hleft⟩
  case sync =>
    show execSyncInEdge dt s = _
    exact if_pos hup
  case syncClear =>
    show execFiltSyncClear dt s = _
    unfold execFiltSyncClear
    simp only [hl]
    exact if_neg (not_not.mpr hleft)
  case captured =>
    show execCaptureComplete dt v s = _
    exact if_pos ⟨hrun, hfull⟩
  case waits =>
    refine opcode_late hr ((if_pos (by simp [huntimed, hmode])).trans (if_pos hcheck))
  case refused =>
    refine opcode_reply hr ((if_pos (by simp [huntimed, hmode])).trans (if_neg hcheck))
  case phase =>
    refine opcodeN_reply hr hlen (if_pos (checks_ok ?_))
    have hall : (bitsOf 46 (u64 p 4)).any (chainRuns (during .filtPhase h p s) (u8 p 0 == 1)) = false := by
      rw [List.any_eq_false]
      intro c hc
      rw [hstop c hc]
      exact Bool.false_ne_true
    simp only [List.forall_mem_cons, hall, hok]
    simp [hpour, hfine, hzero, hmask]
  case removes =>
    refine opcode_reply hr ((if_pos hcheck).trans ((if_pos htaps).trans (if_neg ?_)))
    rw [husers]
    decide
  case busy => exact opcode_reply hr ((if_pos hcheck).trans ((if_neg htaps).trans ((if_pos hfirst).trans (if_pos hruns))))
  case begins =>
    exact opcode_reply hr ((if_pos hcheck).trans ((if_neg htaps).trans ((if_pos hfirst).trans
      ((if_neg (Bool.eq_false_iff.mp hstop)).trans hpart))))
  case continues =>
    refine opcode_reply hr ((if_pos hcheck).trans ((if_neg htaps).trans ((if_neg hnext).trans ?_)))
    simp only [hl]
    exact (if_neg (by simp [hsame, hsym, hlen])).trans hpart
  case gates =>
    refine opcodeN_reply hr hlen ((if_pos (checks_ok ?_)).trans (if_pos hact))
    simp [hact, hzero]
  case opens =>
    refine opcodeN_reply hr hlen ((if_pos (checks_ok ?_)).trans ((if_neg (by simp [hact])).trans (if_pos hact)))
    simp [hact, hzero, hpour, hc, hmode]
  case capture =>
    refine opcodeN_reply hr hlen ((if_pos (checks_ok ?_)).trans ((if_neg (by simp [hact])).trans (if_neg (by simp [hact]))))
    simp [hact, hzero, hpour, hc, hidle]

end Sys2Proof.Machine

/-! # Headset ports (R340 to R368) -/

namespace Sys2Proof.Machine

open Sys2Proof.Safety

/-- A port whose measurement has given its verdict on what is plugged in (R349). -/
def hsIdentified (n : Fin 2) (m : HsMeas) (s : State) : HsRt :=
  let r := hsRt s n
  let xlr := hsXlr s n
  let v := hsVerdict xlr m
  let sides := hsSides xlr v.1 m.zL m.zR
  { r with
    zL := m.zL, zR := m.zR, zMic := m.zMic, cycles := (r.cycles + 1) % 4294967296
    state := if v.1 = 7 then .fault else .identified, type := v.1, reason := v.2.1, left := sides.1, right := sides.2
    micUnknown := v.2.2, bias := v.1 == 4 || v.1 == 5
    order := if v.1 = 4 then false else if v.1 = 5 then !xlr else !xlr && decide (0 < Config.measure qHsOrder n s.sysCnt)
    vIdle := if v.1 = 4 then some (1000 * m.vIdle5) else if v.1 = 5 then some (1000 * if xlr then m.vIdle5 else m.vIdle6)
      else r.vIdle
    idleFine := if v.1 = 4 ∨ v.1 = 5 then 0 else r.idleFine, holdUntil := s.sysCnt + 200 * msCounts
    identStamp := s.sysCnt, faultAt := s.sysCnt, micLiveAt := s.sysCnt + micDelay v.1
    micFade := ⟨wOne, wOne, 0, 0⟩ }

/-- The end of a cycle on a port that runs with a plug: identified, or a fault. -/
theorem hsVerdict_plugged {dt : Nat} {n : Fin 2} {m : HsMeas} {s : State} (hstate : (hsRt (advance dt s) n).state = .measuring)
    (hdue : (hsRt (advance dt s) n).cycleAt + verdictMs (hsXlr (advance dt s) n) m * msCounts ≤ (advance dt s).sysCnt)
    (hplug : (hsRt (advance dt s) n).present = true) (hruns : hsRuns (advance dt s) n = true) :
    let t := advance dt s
    let v := hsVerdict (hsXlr t n) m
    let y := hsIdentified n m t
    execHsVerdict dt n m s = .next (hsEnd n (
      if v.1 = 7 then hsEvent ⟨n, 7, 0, v.2.1, 0, t.sysCnt⟩ (raise .hsFault (hsHandle n) 0
        (BitVec.ofNat 32 (v.2.1 + if v.2.1 = 1 ∨ outWindow m.zL then 0 else 256)) (setHs n y t))
      else hsEvent ⟨n, 1, 0, v.1, 0, t.sysCnt⟩ (release .hsFault (hsHandle n) 0 (setHs n y t)))) := by
  unfold execHsVerdict
  generalize advance dt s = t at *
  exact (if_neg (by simp [hstate, hdue])).trans ((if_neg (by simp [hplug, hruns])).trans rfl)

/-- Settles O47: the plugs, the cycles and their verdicts, the buttons, and the ports' commands. -/
theorem headsets : Obligations.Headsets := by
  unfold Obligations.Headsets
  refine ⟨⟨fun dt n s hruns => ⟨fun hplug => ?plug, fun zL zMic hxlr hempty hidle hpoll => ⟨fun hlow htwice => ?plugged,
        fun hlow honce => ?poll, fun hl hm => ?open_⟩, fun hdue => ?cycle, fun hfault hplug hdue => ?retry, fun hplug => ?removal⟩,
      fun dt n m s hstate hdue => ⟨fun hgone => ?gone, fun hplug hruns =>
        ⟨hsIdentified n m (advance dt s), rfl, rfl, fun hv => if_pos hv, fun hv => if_neg hv, hplug, rfl, rfl, rfl, rfl, rfl,
          hsVerdict_plugged hstate hdue hplug hruns⟩⟩,
      fun dt n right s hdriven => ?limit,
      fun dt uv ago n s => ⟨fun hon hb hnew hago => ?press, fun hb hnew hlong => ?long, fun hb hlong hrep hdue => ?repeats,
        fun hago => ?release⟩⟩,
    fun h p s => ⟨fun hr hlen => opcodeN_reply hr hlen rfl, fun hr hlen hmin hmax hzero => ?events,
      fun n hr hlen hn hzero => ⟨fun hact => ?free, fun hact hwired => ?measure, fun hact hwired hup => ?idle⟩⟩⟩
  case plug =>
    show execHsPlugInsertion dt n s = _
    exact if_pos (by rw [hruns, hplug]; rfl)
  case plugged =>
    show execHsXlrPoll dt n zL zMic s = _
    unfold execHsXlrPoll
    generalize advance dt s = t at *
    refine (if_neg ?_).trans ((if_pos hlow).trans (if_pos htwice))
    rcases hpoll with hpoll | hpoll <;> simp [hruns, hxlr, hempty, hidle, hpoll]
  case poll =>
    show execHsXlrPoll dt n zL zMic s = _
    unfold execHsXlrPoll
    generalize advance dt s = t at *
    refine (if_neg ?_).trans ((if_pos hlow).trans ((if_neg (by simp [honce])).trans (by rw [honce])))
    rcases hpoll with hpoll | hpoll <;> simp [hruns, hxlr, hempty, hidle, hpoll]
  case open_ =>
    show execHsXlrPoll dt n zL zMic s = _
    unfold execHsXlrPoll
    generalize advance dt s = t at *
    refine (if_neg ?_).trans (if_neg (by omega))
    rcases hpoll with hpoll | hpoll <;> simp [hruns, hxlr, hempty, hidle, hpoll]
  case cycle =>
    show execHsMeasurementCycle dt n s = _
    exact if_pos (by rw [hdue, hruns]; rfl)
  case retry =>
    show execHsFaultRetry dt n s = _
    unfold execHsFaultRetry
    generalize advance dt s = t at *
    exact if_pos (by simp [hfault, hplug, hruns, hdue])
  case removal =>
    show execHsRemoval dt n s = _
    exact if_neg (by rw [hplug, hruns]; decide)
  case gone =>
    show execHsVerdict dt n m s = _
    unfold execHsVerdict
    generalize advance dt s = t at *
    exact (if_neg (by simp [hstate, hdue])).trans (if_pos (by rcases hgone with hgone | hgone <;> simp [hgone]))
  case limit =>
    show execHsSideAtLimit dt n right s = _
    exact if_neg (by rw [hdriven]; decide)
  case press =>
    show execButtonPress dt n uv ago s = _
    unfold execButtonPress
    generalize advance dt s = t at *
    exact if_neg (by simp [hon, hb, hnew, hago])
  case long =>
    show execButtonLongPress dt n s = _
    unfold execButtonLongPress
    generalize advance dt s = t at *
    exact if_pos (by simp [hb, hnew, hlong])
  case repeats =>
    show execButtonRepeat dt n s = _
    unfold execButtonRepeat
    generalize advance dt s = t at *
    exact if_pos (by simp [hb, hlong, hrep, hdue])
  case release =>
    show execButtonRelease dt n ago s = _
    exact congrArg Host.Outcome.next (if_neg (Nat.not_lt.mpr hago))
  case events =>
    refine opcodeN_reply hr hlen ((if_pos (checks_ok ?_)).trans ?_)
    · simp [Nat.one_le_iff_ne_zero.mp hmin, hmax, hzero]
    · simp only [List.isEmpty_iff, List.drop_eq_nil_iff]
  case free =>
    have hport : Fin.ofNat 2 (u8 p 1) = n := by rw [hn, Fin.ofNat_val_eq_self]
    refine opcodeN_reply hr hlen ((if_pos (checks_ok ?_)).trans ((if_pos hact).trans (by rw [hport])))
    have hle : ¬ 1 < u8 p 1 := by omega
    simp [hact, hle, hzero]
  case measure =>
    have hport : Fin.ofNat 2 (u8 p 1) = n := by rw [hn, Fin.ofNat_val_eq_self]
    refine opcodeN_reply hr hlen ((if_pos (checks_ok ?_)).trans ((if_neg (by simp [hact])).trans ((if_pos hact).trans (by rw [hport]))))
    have hle : ¬ 1 < u8 p 1 := by omega
    simp only [hport]
    simp [hact, hle, hzero, hwired]
  case idle =>
    have hport : Fin.ofNat 2 (u8 p 1) = n := by rw [hn, Fin.ofNat_val_eq_self]
    refine opcodeN_reply hr hlen ((if_pos (checks_ok ?_)).trans ((if_neg (by simp [hact])).trans ((if_neg (by simp [hact])).trans
      (by rw [hport]))))
    have hle : ¬ 1 < u8 p 1 := by omega
    simp only [hport]
    simp [hact, hle, hzero, hwired, hup]

end Sys2Proof.Machine

/-! # Serial audio ports (R380 to R412) -/

namespace Sys2Proof.Machine

open Sys2Proof.Safety

/-! ### What the monitoring of an edge leaves unchanged -/

/-- Settings, time and the run state of a port that is not stopped. -/
structure EdgeKept (k : Nat) (t s : State) : Prop where
  cfg : t.cfg = s.cfg
  sysCnt : t.sysCnt = s.sysCnt
  state : (portRt s k).state ≠ .stopped → (portRt t k).state = (portRt s k).state

theorem EdgeKept.refl (k : Nat) (s : State) : EdgeKept k s s := ⟨rfl, rfl, fun _ => rfl⟩

theorem EdgeKept.trans {k : Nat} {a b c : State} (hab : EdgeKept k a b) (hbc : EdgeKept k b c) : EdgeKept k a c where
  cfg := hab.cfg.trans hbc.cfg
  sysCnt := hab.sysCnt.trans hbc.sysCnt
  state h := (hab.state (by rw [hbc.state h]; exact h)).trans (hbc.state h)

theorem EdgeKept.ite {p : Prop} [Decidable p] {k : Nat} {a b s : State} (ha : EdgeKept k a s) (hb : EdgeKept k b s) :
    EdgeKept k (if p then a else b) s := by
  split
  · exact ha
  · exact hb

theorem EdgeKept.foldl {α : Type} {k : Nat} {g : State → α → State} (hg : ∀ s a, EdgeKept k (g s a) s) (l : List α)
    (s : State) : EdgeKept k (l.foldl g s) s := by
  induction l generalizing s with
  | nil => exact .refl k s
  | cons a l ih => exact (ih (g s a)).trans (hg s a)

theorem Reported.port {t s : State} (h : Reported t s) : t.port = s.port := congrArg (·.port) h
theorem Reported.clk {t s : State} (h : Reported t s) : t.clk = s.clk := congrArg (·.clk) h
theorem Reported.sysCnt {t s : State} (h : Reported t s) : t.sysCnt = s.sysCnt := congrArg (·.sysCnt) h

theorem Reported.portRt {t s : State} (h : Reported t s) (k : Nat) : portRt t k = portRt s k := by
  unfold Machine.portRt
  rw [h.port]

theorem Reported.edgeKept {t s : State} (h : Reported t s) (k : Nat) : EdgeKept k t s :=
  ⟨h.cfg, h.sysCnt, fun _ => by rw [h.portRt]⟩

theorem postEvent_reported (n : Nat) (s : State) : Reported (postEvent n s) s :=
  (noticed_reported ..).trans rfl

/-- A change of the clock chapter's state alone. -/
theorem edgeKept_clk (k : Nat) (c : Clk) (s : State) : EdgeKept k { s with clk := c } s := ⟨rfl, rfl, fun _ => rfl⟩

theorem portRt_setPort_of_ne {x : PortRt} (hx : x ≠ {}) (k : Nat) (s : State) : portRt (setPort k x s) k = x :=
  (tget_tset_of_ne hx s.port k k).trans (if_pos rfl)

theorem portRt_setPort_of_state {x : PortRt} (hx : x.state ≠ .stopped) (k : Nat) (s : State) :
    portRt (setPort k x s) k = x :=
  portRt_setPort_of_ne (fun h => hx (by rw [h])) k s

theorem portRt_setPort_of_frames {x : PortRt} (hx : x.frames ≠ 0) (k : Nat) (s : State) : portRt (setPort k x s) k = x :=
  portRt_setPort_of_ne (fun h => hx (by rw [h])) k s

theorem setPort_edgeKept {k : Nat} {x : PortRt} {s : State} (hx : x.state = (portRt s k).state) :
    EdgeKept k (setPort k x s) s :=
  ⟨rfl, rfl, fun h => by rw [portRt_setPort_of_state (by rwa [hx]), hx]⟩

theorem forceHold_edgeKept (k : Nat) (s : State) : EdgeKept k (forceHold s) s :=
  .ite (.refl k s) (((postEvent_reported ..).edgeKept k).trans (edgeKept_clk ..))

theorem loseActive_edgeKept (k : Nat) (s : State) : EdgeKept k (loseActive s) s :=
  .ite (forceHold_edgeKept k s)
    (.ite (((raise_reported ..).edgeKept k).trans (forceHold_edgeKept k s)) (forceHold_edgeKept k s))

theorem disqualify_edgeKept (k : Nat) (e : RefEntry) (s : State) : EdgeKept k (disqualify e s) s := by
  have hpost : ∀ c : Clk, EdgeKept k (postEvent 4 { s with clk := c }) s := fun c =>
    ((postEvent_reported ..).edgeKept k).trans (edgeKept_clk k c s)
  exact .ite (.ite ((loseActive_edgeKept ..).trans (hpost _)) (hpost _)) (.refl k s)

theorem monitorEdge_edgeKept (k i rate period : Nat) (bad : Bool) (s : State) :
    EdgeKept k (monitorEdge i rate period bad s).2 s :=
  .ite ((disqualify_edgeKept ..).trans (edgeKept_clk ..)) (edgeKept_clk ..)

theorem monitorLose_edgeKept (k i reason : Nat) (s : State) : EdgeKept k (monitorLose i reason s) s :=
  (disqualify_edgeKept ..).trans (edgeKept_clk ..)

theorem unlock_edgeKept (k key : Nat) (s : State) : EdgeKept k (unlock key s) s := edgeKept_clk ..

theorem decantLose_edgeKept (k key : Nat) (obj : Handle) (detail : Word) (s : State) :
    EdgeKept k (decantLose key obj detail s) s :=
  ((raise_reported ..).edgeKept k).trans (unlock_edgeKept ..)

theorem portLose_edgeKept (k reason : Nat) (s : State) : EdgeKept k (portLose k reason s) s := by
  have hunlock := EdgeKept.foldl (fun a key => unlock_edgeKept k key a) (portDecKeys s k) s
  refine ((raise_reported ..).edgeKept k).trans ((monitorLose_edgeKept ..).trans ?_)
  have hport : ∀ l : List Nat, (l.foldl (fun a key => unlock key a) s).port = s.port := fun l =>
    foldl_proj (g := fun a key => unlock key a) (·.port) (fun _ _ => rfl) l s
  refine EdgeKept.trans (setPort_edgeKept ?_) hunlock
  simp [portRt, hport]

theorem rateChange_edgeKept (k : Nat) (s : State) : EdgeKept k (rateChange k s) s := by
  unfold rateChange
  split
  · exact portLose_edgeKept k 3 s
  · exact (EdgeKept.foldl (fun a key => decantLose_edgeKept k key _ _ a) _ _).trans (edgeKept_clk ..)

theorem trackRate_edgeKept (k mean : Nat) (s : State) : EdgeKept k (trackRate k mean s) s :=
  .ite (.refl k s) (.ite (rateChange_edgeKept k s) (.foldl (fun a _ => edgeKept_clk k _ a) _ _))

theorem portGlitch_edgeKept (k : Nat) (s : State) : EdgeKept k (portGlitch k s) s :=
  ((raise_reported ..).edgeKept k).trans (setPort_edgeKept rfl)

/-- The monitoring of a port's edge (R403) changes neither settings nor time, and no run state. -/
theorem inputEdge_edgeKept (k period : Nat) (bad : Bool) (s : State) : EdgeKept k (inputEdge k period bad s).2 s := by
  unfold inputEdge
  split
  · exact .refl k s
  split
  · exact edgeKept_clk ..
  next rate _ =>
    have hglitch := (EdgeKept.ite (p := (monitorEdge k rate period bad s).1.glitch = true)
      (portGlitch_edgeKept k (monitorEdge k rate period bad s).2) (.refl k _)).trans
      (monitorEdge_edgeKept k k rate period bad s)
    exact EdgeKept.trans (.ite (rateChange_edgeKept ..) (.ite (portLose_edgeKept ..) (trackRate_edgeKept ..))) hglitch

/-! ### Frames that go in and out -/

/-- What the transmit side of a port's frame can change (R407). -/
def Sent (k : Nat) (t s : State) : Prop :=
  ∃ sent txq reps w v late early, portRt t k =
    { portRt s k with sent := sent, txq := txq, txReps := reps, txW := w, vOut := v, txUnder := late, txOver := early }

theorem Sent.ite {p : Prop} [Decidable p] {k : Nat} {a b s : State} (ha : Sent k a s) (hb : Sent k b s) :
    Sent k (if p then a else b) s := by
  split
  · exact ha
  · exact hb

theorem Sent.reported {k : Nat} {a b s : State} (ha : Sent k a s) (hb : Reported b a) : Sent k b s := by
  unfold Sent at *
  rwa [hb.portRt]

theorem setPort_sent {k : Nat} {s : State} (hframes : (portRt s k).frames ≠ 0) (sent : List Int) (txq : List TxFrame)
    (reps w : Nat) (v : Bool) (late early : Nat) :
    Sent k (setPort k { portRt s k with
      sent := sent, txq := txq, txReps := reps, txW := w, vOut := v, txUnder := late, txOver := early } s) s :=
  ⟨sent, txq, reps, w, v, late, early, portRt_setPort_of_frames (by exact hframes) k s⟩

theorem takeDecant_sent {k : Nat} {s : State} (hframes : (portRt s k).frames ≠ 0) (n : Nat) :
    Sent k (takeDecant k n s) s :=
  .ite (setPort_sent hframes ..) (setPort_sent hframes ..)

/-- A port that has counted a frame takes its next transmit frame, or repeats. -/
theorem takeTx_sent {k : Nat} {s : State} (hframes : (portRt s k).frames ≠ 0) : Sent k (takeTx k s) s := by
  unfold takeTx
  refine .ite (takeDecant_sent hframes _) ?_
  simp only []
  split
  · exact .ite ((setPort_sent hframes ..).reported (raise_reported ..)) (setPort_sent hframes ..)
  · exact .ite (setPort_sent hframes ..) ((setPort_sent hframes ..).reported (raise_reported ..))

/-- A frame that arrived at a port that has counted it: it waits for its presentation, or is late, or early (R405). -/
theorem placeFrame_portRt {k : Nat} {s : State} (f : RxFrame) (hframes : (portRt s k).frames ≠ 0) :
    let x := portRt s k
    let dec := isDecant s.cfg.clock.decant (rxDecant k)
    let late := s.clk.started && eighths (fsNow s) 15 f.capture (tickAt s)
    let early := decide (s.sysCnt + 20 * msCounts < f.capture)
    portRt (placeFrame k f s) k =
      if dec = true ∨ late = false ∧ early = false then { x with queue := x.queue ++ [f] }
      else if late then { x with rxUnder := sat32 (x.rxUnder + 1) } else { x with rxOver := sat32 (x.rxOver + 1) } := by
  unfold placeFrame
  intro x dec late early
  by_cases hdec : isDecant s.cfg.clock.decant (rxDecant k) = true
  · rw [if_pos hdec, if_pos (.inl hdec), portRt_setPort_of_frames (by exact hframes)]
  rw [if_neg hdec]
  by_cases hlate : (s.clk.started && eighths (fsNow s) 15 f.capture (tickAt s)) = true
  · rw [if_pos hlate, if_pos hlate, if_neg (by simp [dec, late, hdec, hlate]), (raise_reported ..).portRt k,
      portRt_setPort_of_frames (by exact hframes)]
  rw [if_neg hlate, if_neg hlate]
  by_cases hearly : s.sysCnt + 20 * msCounts < f.capture
  · rw [if_pos hearly, if_neg (by simp [dec, early, hdec, hearly]), (raise_reported ..).portRt k,
      portRt_setPort_of_frames (by exact hframes)]
  · rw [if_neg hearly, if_pos (.inr ⟨Bool.eq_false_iff.mpr hlate, decide_eq_false hearly⟩),
      portRt_setPort_of_frames (by exact hframes)]

/-- A received edge is counted and stamped (R404). -/
theorem portEdge_portRt (k edge : Nat) (s : State) :
    let x := portRt s k
    portRt (portEdge k edge s) k = { x with
      frames := x.frames + 1, lastEdge := s.sysCnt, rxStamp := stampEdge edge x.rxStamp
      txStamp := if k < 4 then stampEdge edge x.txStamp else x.txStamp } :=
  portRt_setPort_of_frames (Nat.succ_ne_zero _) k s

/-- A received frame whose edge was counted on the state `s`: it waits for its presentation where the edge was good (`ok`)
and it is neither late nor early (R404, R405). -/
theorem received_portRt {k edge : Nat} {s s2 : State} {y : PortRt} (hy : y.state ≠ .stopped)
    (hs2 : Reported s2 (portEdge k edge (setPort k y s))) (ok : Bool) (vals : List Int) (fade : List Bool) :
    let cap := captureTime (stampEdge edge y.rxStamp) edge
    let dec := isDecant s.cfg.clock.decant (rxDecant k)
    let late := s.clk.started && eighths (fsNow s) 15 cap (tickAt s)
    let early := decide (s.sysCnt + 20 * msCounts < cap)
    ∃ queue under more,
      portRt (if ok then placeFrame k ⟨captureTime (portRt s2 k).rxStamp edge, vals, fade⟩ s2 else s2) k =
        { y with
          frames := y.frames + 1, lastEdge := s.sysCnt, rxStamp := stampEdge edge y.rxStamp
          txStamp := if k < 4 then stampEdge edge y.txStamp else y.txStamp
          queue := queue, rxUnder := under, rxOver := more } ∧
      (ok = true →
        (dec = true ∨ (late = false ∧ early = false) → queue = y.queue ++ [⟨cap, vals, fade⟩]) ∧
        (dec = false → late = true → queue = y.queue ∧ under = sat32 (y.rxUnder + 1)) ∧
        (dec = false → late = false → early = true → queue = y.queue ∧ more = sat32 (y.rxOver + 1))) ∧
      (ok = false → queue = y.queue) := by
  intro cap dec late early
  have hedge := portEdge_portRt k edge (setPort k y s)
  simp only [portRt_setPort_of_state hy] at hedge
  rw [← hs2.portRt k] at hedge
  have hframes : (portRt s2 k).frames ≠ 0 := by
    rw [hedge]
    exact Nat.succ_ne_zero _
  have hstamp : (portRt s2 k).rxStamp = stampEdge edge y.rxStamp := by rw [hedge]
  rw [hstamp]
  cases ok with
  | false => exact ⟨y.queue, y.rxUnder, y.rxOver, hedge, nofun, fun _ => rfl⟩
  | true =>
    have hplace := placeFrame_portRt ⟨cap, vals, fade⟩ hframes
    have hclk : s2.clk = s.clk := hs2.clk
    simp only [fsNow, tickAt, hclk, show s2.cfg = s.cfg from hs2.cfg, show s2.sysCnt = s.sysCnt from hs2.sysCnt] at hplace
    rw [if_pos rfl, hplace]
    by_cases hkept : dec = true ∨ late = false ∧ early = false
    · refine ⟨y.queue ++ [⟨cap, vals, fade⟩], y.rxUnder, y.rxOver, (if_pos hkept).trans (by rw [hedge]; rfl),
        fun _ => ⟨fun _ => rfl, fun hd hl => ?_, fun hd hl he => ?_⟩, nofun⟩
      · simp [hd, hl] at hkept
      · simp [hd, he] at hkept
    by_cases hlate : late = true
    · refine ⟨y.queue, sat32 (y.rxUnder + 1), y.rxOver, (if_neg hkept).trans ((if_pos hlate).trans (by rw [hedge]; rfl)),
        fun _ => ⟨fun h => absurd h hkept, fun _ _ => ⟨rfl, rfl⟩, fun _ hl => ?_⟩, nofun⟩
      exact absurd (hlate.symm.trans hl) nofun
    · exact ⟨y.queue, y.rxUnder, sat32 (y.rxOver + 1), (if_neg hkept).trans ((if_neg hlate).trans (by rw [hedge]; rfl)),
        fun _ => ⟨fun h => absurd h hkept, fun _ hl => absurd hl hlate, fun _ _ _ => ⟨rfl, rfl⟩⟩, nofun⟩

/-- A block of channel status of 192 frames with its CRC: taken where it is right (R402). -/
theorem csBlock_crc (u : SubRt) {cs : Bytes} (user : Bytes) (hlen : cs.length = 24) (hpro : (cs.getD 0 0).getLsbD 0 = true) :
    (csBlock u cs user 192).1.passed = decide (crcc (cs.take 23) = u8 cs 23) ∧
      (csBlock u cs user 192).1.cs = if crcc (cs.take 23) = u8 cs 23 then cs else u.cs := by
  have hcs : (cs ++ zeros 24).take 24 = cs := List.take_left' hlen
  unfold csBlock
  simp only [hcs, hpro, if_true, ne_eq, not_true_eq_false, if_false]
  split <;> simp [*]

/-- A block of channel status without a CRC: taken where it repeats the one before (R402). -/
theorem csBlock_consumer (u : SubRt) {cs : Bytes} (user : Bytes) (hlen : cs.length = 24)
    (hcon : (cs.getD 0 0).getLsbD 0 = false) :
    (csBlock u cs user 192).1.passed = false ∧ (csBlock u cs user 192).1.cs = (if u.await = some cs then cs else u.cs) ∧
      (u.await ≠ some cs → (csBlock u cs user 192).1.await = some cs) := by
  have hcs : (cs ++ zeros 24).take 24 = cs := List.take_left' hlen
  unfold csBlock
  simp only [hcs, hcon, if_true, ne_eq, not_true_eq_false, if_false, Bool.false_eq_true]
  split <;> simp [*]

theorem subframe_parity (c : AesRxCfg) (limit : Nat) (u : SubRt) (f : Subframe) :
    (subframe c limit u f).2.2.2 = !f.parityOk := by
  unfold subframe
  cases f.parityOk <;> cases f.v <;> rfl

/-- Settles O48: the settings of the ports, their reports, and the frames they receive and send. -/
theorem ports : Obligations.Ports := by
  unfold Obligations.Ports
  refine ⟨fun h p s => ⟨fun hr hlen => ⟨fun hc => ?tdm, fun hc => ?tdmRefused⟩,
      fun hr hlen => ⟨fun hc => ⟨fun hrx => ?aesRx, fun htx => ?aesTx⟩, fun hc => ?aesRefused⟩,
      fun arr hrx => if_pos hrx,
      fun hr hlen hx hsub hzero => ⟨fun hdir => ?csRx, fun hdir => ?csTx⟩,
      fun hr hlen ht hi hzero => ⟨fun hv => ?unstamped, fun hv => ?stamped⟩,
      fun hr hlen hmax hzero => ⟨fun hkeep => ?status, fun hclear => ?statusClear⟩⟩,
    fun dt p s => ⟨fun hstate hdone => ?start, fun hstate hdone => ?stop⟩,
    fun dt p f s hrun => ?tdmFrame, fun dt x f s hrun => ?aesFrame, fun dt x sub cs user n s hrun => ?block,
    fun u cs user hlen => ⟨csBlock_crc u user hlen, csBlock_consumer u user hlen⟩, fun dt x s hrun hready => ?transmit⟩
  case tdm => exact opcodeN_reply hr hlen (by simp [guardSt, hc])
  case tdmRefused => exact opcodeN_reply hr hlen (by simp [guardSt, hc, refuse])
  case aesRx =>
    refine opcodeN_reply hr hlen ((landLive_ok hc).trans ?_)
    simp [prepare, aesStopped, hrx]
  case aesTx =>
    refine opcodeN_reply hr hlen ((landLive_ok hc).trans ?_)
    simp [prepare, aesStopped, htx]
  case aesRefused => exact opcodeN_reply hr hlen (landLive_refused hc)
  case csRx =>
    refine opcodeN_reply hr hlen ((if_pos (checks_ok ?_)).trans (if_pos hdir))
    simp [hdir, hx, hsub, hzero]
  case csTx =>
    refine opcodeN_reply hr hlen ((if_pos (checks_ok ?_)).trans ((if_neg (by omega)).trans ?_))
    · simp [hdir, hx, hsub, hzero]
    · generalize during _ h p s = t
      by_cases hstop : (portRt t (8 + u8 p 1)).state = .stopped <;> simp [hstop]
  case unstamped =>
    refine opcodeN_reply hr hlen ((if_pos (checks_ok ?_)).trans (if_pos (congrArg Bool.not hv)))
    simp only [List.forall_mem_cons]
    exact ⟨by simp; omega, by simp [hi], by simp [hzero], nofun⟩
  case stamped =>
    refine opcodeN_reply hr hlen ((if_pos (checks_ok ?_)).trans (if_neg (Bool.eq_false_iff.mp (congrArg Bool.not hv))))
    simp only [List.forall_mem_cons]
    exact ⟨by simp; omega, by simp [hi], by simp [hzero], nofun⟩
  case status =>
    refine opcodeN_reply hr hlen ((if_neg (by simp [hzero, hmax])).trans ?_)
    exact congrArg (Ans.reply .ok _) (if_neg (by omega))
  case statusClear =>
    refine opcodeN_reply hr hlen ((if_neg (by simp [hzero, hmax])).trans ?_)
    exact congrArg (Ans.reply .ok _) (if_pos hclear)
  case start =>
    show execPortStartComplete dt p s = _
    exact if_pos (by rw [hstate, hdone]; rfl)
  case stop =>
    show execPortStopComplete dt p s = _
    exact if_pos (by rw [hstate, hdone]; rfl)
  case tdmFrame =>
    have hkept := inputEdge_edgeKept p f.period ((decide (f.bclks ≠ (tdmCfg (advance dt s) p).frameBclks)
      || decide (50500000 < f.bclkHz)) && !(tdmCfg (advance dt s) p).master) (advance dt s)
    simp only [show exec (.tdmFrameReceived dt p f) s = execTdmFrameReceived dt p f s from rfl, execTdmFrameReceived,
      Bool.and_eq_true, decide_eq_true_eq]
    generalize advance dt s = t at *
    generalize inputEdge _ _ _ _ = e at *
    rw [if_neg hrun]
    obtain ⟨ok, t1⟩ := e
    have hcfg : t1.cfg = t.cfg := hkept.cfg
    have hcnt : t1.sysCnt = t.sysCnt := hkept.sysCnt
    obtain ⟨queue, under, more, hplaced, hgood, hbad⟩ := received_portRt (k := p) (edge := t.sysCnt - f.period) (s := t1)
      (y := { portRt t1 p with bclksLast := f.bclks, bclkHz := f.bclkHz }) ((hkept.state hrun).trans_ne hrun) (.refl _) ok
      ((List.range 32).map (fun i => if (tdmCfg t p).rx.getLsbD i = true ∧ i < (tdmCfg t p).slots then
        slotValue (tdmCfg t p).word
          ((if (portRt t1 p).loopback then loopSlots p t (portRt t1 p).sdo else f.slots).getD i 0) else 0))
      []
    obtain ⟨sent, txq, reps, w, v, late, early, hsent⟩ := takeTx_sent (by rw [hplaced]; exact Nat.succ_ne_zero _)
    rw [hplaced] at hsent
    simp only [hcfg, hcnt, Bool.and_eq_true, decide_eq_true_eq] at hgood
    refine ⟨_, rfl, ?_⟩
    rw [portRt_setPort_of_frames (by rw [hsent]; exact Nat.succ_ne_zero _), hsent]
    exact ⟨rfl, rfl, rfl, hgood, hbad⟩
  case aesFrame =>
    have hkept := inputEdge_edgeKept (4 + x) f.period false (advance dt s)
    simp only [show exec (.aes3FrameReceived dt x f) s = execAes3FrameReceived dt x f s from rfl, execAes3FrameReceived]
    generalize advance dt s = t at *
    generalize inputEdge _ _ _ _ = e at *
    rw [if_neg hrun]
    obtain ⟨ok, t1⟩ := e
    have hcfg : t1.cfg = t.cfg := hkept.cfg
    have hcnt : t1.sysCnt = t.sysCnt := hkept.sysCnt
    have hpa := subframe_parity (rxCfg t x) (repeatLimit t (rxCfg t x).group) (portRt t1 (4 + x)).subA f.subA
    have hpb := subframe_parity (rxCfg t x) (repeatLimit t (rxCfg t x).group) (portRt t1 (4 + x)).subB f.subB
    simp only []
    generalize subframe _ _ (portRt t1 (4 + x)).subA f.subA = a at *
    generalize subframe _ _ (portRt t1 (4 + x)).subB f.subB = b at *
    obtain ⟨a, va, ra, pa⟩ := a
    obtain ⟨b, vb, rb, pb⟩ := b
    simp only [← hpa, ← hpb]
    refine ⟨_, rfl, ?_⟩
    generalize hs4 : (if rb = true then _ else _) = s4
    obtain ⟨queue, under, more, hplaced, hgood, hbad⟩ := received_portRt (k := 4 + x) (edge := t.sysCnt - f.period) (s := t1)
      (s2 := s4)
      (y := { portRt t1 (4 + x) with
        subA := a, subB := b, parityCount := (portRt t1 (4 + x)).parityCount + bit pa + bit pb
        biphase := sat32 ((portRt t1 (4 + x)).biphase + (Config.measure qBiphase x t.sysCnt).toNat) })
      ((hkept.state hrun).trans_ne hrun)
      (by rw [← hs4]; exact Reported.trans (.ite (raise_reported ..) (.refl _)) (.ite (raise_reported ..) (.refl _)))
      ok [va, vb] [a.fade, b.fade]
    rw [hcfg, hcnt] at hgood
    rw [hplaced]
    refine ⟨rfl, rfl, rfl, rfl, fun hok => (hgood hok).1, fun hok hdec hout => ?_, hbad⟩
    obtain ⟨_, hlate, hearly⟩ := hgood hok
    by_cases hl : (t1.clk.started && eighths (fsNow t1) 15
        (captureTime (stampEdge (t.sysCnt - f.period) (portRt t1 (4 + x)).rxStamp) (t.sysCnt - f.period)) (tickAt t1)) = true
    · exact (hlate hdec hl).1
    · exact (hearly hdec (Bool.eq_false_iff.mpr hl) (hout.resolve_left hl)).1
  case block =>
    show ∃ u, execAesCsBlockComplete dt x sub cs user n s = _ ∧ _
    unfold execAesCsBlockComplete
    generalize advance dt s = t at *
    simp only []
    rw [if_neg hrun]
    refine ⟨_, rfl, ?_⟩
    have hset : ∀ (fault : Bool) (y : PortRt), y.state = (portRt t (4 + x)).state →
        portRt (if fault = true then raise .aesCsCrc (mkHandle 0x04 (2 * x + sub)) 0 (portDetail 3 (4 + x) 0)
          (setPort (4 + x) y t) else setPort (4 + x) y t) (4 + x) = y := fun fault y hy =>
      ((Reported.ite (raise_reported ..) (.refl _)).portRt _).trans (portRt_setPort_of_state (hy.trans_ne hrun) _ t)
    have hflt : ∀ (fault : Bool) (y : PortRt), fault = false →
        (if fault = true then raise .aesCsCrc (mkHandle 0x04 (2 * x + sub)) 0 (portDetail 3 (4 + x) 0)
          (setPort (4 + x) y t) else setPort (4 + x) y t).flt = t.flt := fun fault y hf => by rw [hf]; rfl
    by_cases hsub : sub = 0
    · simp only [hsub, if_true] at hset hflt ⊢
      rw [hset _ _ (by rfl)]
      exact ⟨rfl, rfl, rfl, hflt _ _⟩
    · simp only [if_neg hsub] at hset hflt ⊢
      rw [hset _ _ (by rfl)]
      exact ⟨rfl, rfl, rfl, hflt _ _⟩
  case transmit =>
    show ∃ u, execAes3TransmitFrame dt x s = _ ∧ _
    unfold execAes3TransmitFrame
    generalize advance dt s = t at *
    extract_lets t' k r c ready q down start fb back r1 s1 y v word
    rw [if_neg hrun]
    have hgo : ready = true := by
      rcases hready with h | h <;> simp [ready, r, c, k, t', h]
    rw [if_neg (by simp [hgo])]
    obtain ⟨sent, txq, reps, w, v', late, early, hsent⟩ := takeTx_sent (k := k) (s := setPort k r1 t)
      (by rw [portRt_setPort_of_frames (Nat.succ_ne_zero _)]; exact Nat.succ_ne_zero _)
    rw [portRt_setPort_of_frames (Nat.succ_ne_zero _)] at hsent
    have hy : y = { r1 with
        sent := sent, txq := txq, txReps := reps, txW := w, vOut := v', txUnder := late, txOver := early } :=
      hsent
    refine ⟨_, rfl, ?_⟩
    have hout : ∀ l n, portRt (setPort k { y with sdo := l, vOut := v, vSent := n } s1) k =
        { y with sdo := l, vOut := v, vSent := n } := fun l n =>
      portRt_setPort_of_frames (by rw [hy]; exact Nat.succ_ne_zero _) k s1
    rw [hout]
    refine ⟨congrArg PortRt.started hy, congrArg PortRt.frames hy, congrArg PortRt.blockPos hy, fun hstart => ?_,
      fun hdown => ?_, fun hup hfall => ?_⟩
    · have hs : start = true := by rcases hstart with h | h <;> simp [start, r, k, t', h]
      exact ⟨(congrArg PortRt.csA hy).trans (if_pos hs), (congrArg PortRt.csB hy).trans (if_pos hs)⟩
    · have hfb : fb = true := if_pos hdown
      refine ⟨(congrArg PortRt.fallback hy).trans hfb, ?_, ?_⟩
      · simp [v, hfb]
      · simp [word, hfb]
    · have hfb : fb = false := by simp [fb, down, t', hup, r, k, hfall]
      refine ⟨(congrArg PortRt.fallback hy).trans hfb, ?_⟩
      simp only [word, hfb]
      rfl

end Sys2Proof.Machine

/-! # Network links and the switch (R420 to R455) -/

namespace Sys2Proof.Machine

open Sys2Proof.Safety

/-! ### What a report leaves of the network unit -/

/-- Settings, the links' states and everything of the network unit but its links and what it has sent. -/
structure NetKept (t s : State) : Prop where
  cfg : t.cfg = s.cfg
  link : ∀ l, (linkOf t l).link = (linkOf s l).link
  net : t.net = { s.net with a := t.net.a, b := t.net.b, host := t.net.host, sent := t.net.sent }

theorem NetKept.of_net {t s : State} (hcfg : t.cfg = s.cfg) (hnet : t.net = s.net) : NetKept t s where
  cfg := hcfg
  link l := by cases l <;> simp [linkOf, hnet]
  net := by rw [hnet]

theorem NetKept.refl (s : State) : NetKept s s := .of_net rfl rfl

theorem NetKept.trans {a b c : State} (hab : NetKept a b) (hbc : NetKept b c) : NetKept a c where
  cfg := hab.cfg.trans hbc.cfg
  link l := (hab.link l).trans (hbc.link l)
  net := by rw [hab.net, hbc.net]

theorem NetKept.ite {p : Prop} [Decidable p] {a b s : State} (ha : NetKept a s) (hb : NetKept b s) :
    NetKept (if p then a else b) s := by
  split
  · exact ha
  · exact hb

theorem NetKept.foldl {α : Type} {g : State → α → State} (hg : ∀ s a, NetKept (g s a) s) (l : List α) (s : State) :
    NetKept (l.foldl g s) s := by
  induction l generalizing s with
  | nil => exact .refl s
  | cons a l ih => exact (ih (g s a)).trans (hg s a)

theorem setLink_netKept {l : LinkPort} {x : LinkRt} {s : State} (hx : x.link = (linkOf s l).link) :
    NetKept (setLink l x s) s where
  cfg := setLink_cfg ..
  link m := by cases l <;> cases m <;> simp_all [setLink, linkOf]
  net := by cases l <;> rfl

theorem moveCredits_link (g : Shaper) (t : Nat) (x : LinkRt) : (moveCredits g t x).link = x.link := by
  unfold moveCredits
  split <;> rfl

theorem serveQueues_link (g : Shaper) (now n : Nat) (x : LinkRt) (out : List SentFrame) :
    (serveQueues g now n x out).1.link = x.link := by
  induction n generalizing x out with
  | zero => rfl
  | succ n ih =>
    unfold serveQueues
    split
    · exact moveCredits_link ..
    · simp only []
      split
      · exact (ih ..).trans (moveCredits_link ..)
      · split
        · exact (ih ..).trans ((moveCredits_link ..).trans (moveCredits_link ..))
        · exact (moveCredits_link ..).trans (moveCredits_link ..)

theorem serveLink_netKept (l : LinkPort) (s : State) : NetKept (serveLink l s) s := by
  have hsent : ∀ (u : State) (f : List SentFrame), NetKept { u with net := { u.net with sent := f } } u := fun u f =>
    ⟨rfl, fun m => by cases m <;> rfl, rfl⟩
  exact (hsent ..).trans (setLink_netKept (serveQueues_link ..))

theorem sendFrame_netKept (l : LinkPort) (o : NetOut) (len : Nat) (s : State) : NetKept (sendFrame l o len s) s :=
  .ite ((serveLink_netKept ..).trans ((setLink_netKept (by rfl)).trans (serveLink_netKept ..))) (.refl s)

theorem sendDatagram_netKept (l ip udp key r s) : NetKept (sendDatagram l ip udp key r s) s := by
  cases key with
  | none => exact NetKept.trans (b := sendFrame l _ _ s) (.of_net rfl rfl) (sendFrame_netKept ..)
  | some k => exact NetKept.trans (b := sendFrame l _ _ s) (.of_net rfl rfl) (sendFrame_netKept ..)

theorem sendNotice_netKept (s : State) : NetKept (sendNotice s) s := by
  unfold sendNotice
  split
  · exact NetKept.trans (b := sendDatagram _ _ _ _ _ s) (.of_net rfl rfl) (sendDatagram_netKept ..)
  · exact .refl s

theorem noticed_netKept (s0 s : State) : NetKept (noticed s0 s) s := by
  unfold noticed
  refine .ite (.refl s) ?_
  split
  · exact .refl s
  · exact .ite (.of_net rfl rfl) (sendNotice_netKept s)

theorem postEvent_netKept (n : Nat) (s : State) : NetKept (postEvent n s) s :=
  (noticed_netKept ..).trans (.of_net rfl rfl)

theorem recordLosses_netKept (n : Nat) (s : State) : NetKept (recordLosses n s) s := by
  unfold recordLosses
  exact .ite (.refl s) (.ite (.of_net rfl rfl) (.of_net rfl rfl))

theorem newRecord_netKept (code object index detail injected s) :
    NetKept (newRecord code object index detail injected s) s :=
  (noticed_netKept ..).trans ((recordLosses_netKept ..).trans (.of_net rfl rfl))

theorem detect_netKept (code object index detail s) : NetKept (detect code object index detail s) s := by
  unfold detect
  split
  · exact .ite (.of_net rfl rfl) (.of_net rfl rfl)
  · have hnew := newRecord_netKept code object index detail false s
    exact .ite (NetKept.trans (b := newRecord code object index detail false s) (.of_net rfl rfl) hnew) hnew

theorem raise_netKept (code object index detail s) : NetKept (raise code object index detail s) s :=
  .ite (.refl s) (detect_netKept ..)

theorem release_netKept (code object index s) : NetKept (release code object index s) s := by
  unfold release
  split
  · exact .refl s
  · exact .of_net rfl rfl

theorem forceHold_netKept (s : State) : NetKept (forceHold s) s :=
  .ite (.refl s) ((postEvent_netKept ..).trans (.of_net rfl rfl))

theorem loseActive_netKept (s : State) : NetKept (loseActive s) s :=
  .ite (forceHold_netKept s) (.ite ((raise_netKept ..).trans (forceHold_netKept s)) (forceHold_netKept s))

theorem disqualify_netKept (e : RefEntry) (s : State) : NetKept (disqualify e s) s := by
  have hpost : ∀ c : Clk, NetKept (postEvent 4 { s with clk := c }) s := fun c =>
    (postEvent_netKept ..).trans (.of_net rfl rfl)
  exact .ite (.ite ((loseActive_netKept ..).trans (hpost _)) (hpost _)) (.refl s)

theorem updatePtpQual_netKept (s : State) : NetKept (updatePtpQual s) s := by
  have hclk : ∀ c : Clk, NetKept { s with clk := c } s := fun c => .of_net rfl rfl
  exact .ite (.trans (.ite (.refl _) ((postEvent_netKept ..).trans (.of_net rfl rfl))) (hclk _))
    ((disqualify_netKept ..).trans (hclk _))

theorem ptpLose_netKept (x : NetPort) (reason : Nat) (s : State) : NetKept (ptpLose x reason s) s :=
  (updatePtpQual_netKept _).trans ((raise_netKept ..).trans (.of_net rfl rfl))

theorem linkPathLost_netKept (b : Bool) (s : State) : NetKept (linkPathLost b s) s :=
  .foldl (fun a _ => .ite (raise_netKept ..) (.refl a)) _ s

/-! ### Links that restart -/

/-- A link that falls is down, and the other links stay as they were (R424). -/
theorem linkFall_netKept (l : LinkPort) (noCommon : Bool) (s : State) :
    NetKept (linkFall l noCommon s) (setLink l { linkOf s l with link := 0 } s) := by
  have hdown : ∀ x y : LinkRt, x.link = y.link → NetKept (setLink l x s) (setLink l y s) := fun x y hxy =>
    ⟨by simp, fun m => by cases l <;> cases m <;> simp [setLink, linkOf, hxy], by cases l <;> rfl⟩
  have hfall := (postEvent_netKept 5 _).trans ((raise_netKept .linkDown 0 (linkIdx l) (streamDetail (linkIdx l) 0 2) _).trans
    (hdown { linkOf s l with
      link := 0, noCommon := noCommon, queue := [], free := 0, sending := 8, creditA := 0, creditB := 0 }
      { linkOf s l with link := 0 } rfl))
  unfold linkFall
  cases l with
  | hostnet => exact hfall
  | neta => exact (linkPathLost_netKept ..).trans (.trans (.ite (ptpLose_netKept ..) (.refl _)) hfall)
  | netb => exact (linkPathLost_netKept ..).trans (.trans (.ite (ptpLose_netKept ..) (.refl _)) hfall)

theorem restartLink_netKept (l : LinkPort) (s : State) :
    NetKept (restartLink l s) (setLink l { linkOf s l with link := 0 } s) := by
  unfold restartLink
  split
  next hdown =>
    exact ⟨by simp, fun m => by cases l <;> cases m <;> simp_all [setLink, linkOf], by cases l <;> rfl⟩
  next => exact linkFall_netKept l false s

@[simp] theorem restartLink_cfg (l : LinkPort) (s : State) : (restartLink l s).cfg = s.cfg :=
  (restartLink_netKept l s).cfg.trans (setLink_cfg ..)

@[simp] theorem restartLink_fdb (l : LinkPort) (s : State) : (restartLink l s).net.fdb = s.net.fdb :=
  (congrArg Net.fdb (restartLink_netKept l s).net).trans (by cases l <;> rfl)

@[simp] theorem restartLink_hostGroups (l : LinkPort) (s : State) : (restartLink l s).net.hostGroups = s.net.hostGroups :=
  (congrArg Net.hostGroups (restartLink_netKept l s).net).trans (by cases l <;> rfl)

@[simp] theorem restartLink_neta_link (l : LinkPort) (s : State) :
    (restartLink l s).net.a.link = if l = .neta then 0 else s.net.a.link :=
  ((restartLink_netKept l s).link .neta).trans (by cases l <;> rfl)

@[simp] theorem restartLink_netb_link (l : LinkPort) (s : State) :
    (restartLink l s).net.b.link = if l = .netb then 0 else s.net.b.link :=
  ((restartLink_netKept l s).link .netb).trans (by cases l <;> rfl)

@[simp] theorem restartLink_hostnet_link (l : LinkPort) (s : State) :
    (restartLink l s).net.host.link = if l = .hostnet then 0 else s.net.host.link :=
  ((restartLink_netKept l s).link .hostnet).trans (by cases l <;> rfl)

/-- What NET_SET changes at once in the links and in what the switch has learned (R425). -/
theorem netStopped_links (p : Bytes) (s : State) :
    let o := netCfg s
    let c := netOf p
    let u := netStopped p s
    u.cfg.net = { s.cfg.net with net := { c with
      ctrlPcp := o.ctrlPcp, ctrlDscp := o.ctrlDscp, ptpDscp := o.ptpDscp, ptpPcp := o.ptpPcp, stormMbps := o.stormMbps
      igmpV2 := o.igmpV2 } } ∧
    u.net.a.link = (if o.switched = c.switched ∧ o.speedA = c.speedA then s.net.a.link else 0) ∧
    u.net.b.link = (if o.switched = c.switched ∧ o.speedB = c.speedB then s.net.b.link else 0) ∧
    u.net.host.link = (if o.switched = c.switched then s.net.host.link else 0) ∧
    u.net.fdb = (if o.switched = c.switched then s.net.fdb else []) ∧
    u.net.hostGroups = if o.switched = c.switched then s.net.hostGroups else [] := by
  intro o c u
  by_cases hmode : o.switched = c.switched
  · by_cases ha : o.speedA = c.speedA <;> by_cases hb : o.speedB = c.speedB <;>
      simp [u, netStopped, o, c, hmode, ha, hb]
  · simp [u, netStopped, o, c, hmode]

/-- A frame of a length that passes and that no storm limit is for enters (R431). -/
theorem enterFrame_passes {l : LinkPort} {f : EthFrame} {s : State} (hlen : f.len ≤ 1522)
    (hstorm : stormFrame (countRx l s) f = false) : enterFrame l f s = (countRx l s, true) := by
  simp [enterFrame, enterCounted, tooLong, Nat.not_lt.mpr hlen, hstorm]

/-- Settles O49: the network's settings and status, its links, and the frames the module answers and forwards. -/
theorem network : Obligations.Network := by
  unfold Obligations.Network
  refine ⟨fun h p s => ⟨fun hr hlen => ⟨fun hc => ?set, fun hc => ?refused⟩, fun arr => rfl,
      fun hr hlen => opcodeN_reply hr hlen rfl⟩,
    fun dt l fast s halive hdecl hspeed => ?up,
    fun dt l none s halive hdecl => ⟨fun hl => ?host, fun hl => ?a, fun hl => ?b⟩,
    fun dt l ip src mac data s hmode hup hown hip => ?answers, fun dt l v2 group s hmode hup hl => ?query,
    fun dt l f s hmode hsw hup => ⟨fun hlong => ?long, fun hlen hstorm => ?forward⟩,
    fun s l f => ⟨?notBack, fun hbpdu hdst hown x => ?flood⟩,
    fun dt fromHost toModule f s hmode hsw hbridge hup hlen hstorm => ?bridge, fun dt mac vlan s => rfl⟩
  case set =>
    obtain ⟨hcfg, ha, hb, hhost, hfdb, hgroups⟩ := netStopped_links p (during .netSet h p s)
    exact ⟨netStopped p (during .netSet h p s), opcodeN_reply hr hlen (landLive_ok hc), by rw [hcfg],
      by rw [hcfg], by rw [hcfg], ha, hb, hhost, hfdb, hgroups⟩
  case refused => exact opcodeN_reply hr hlen (landLive_refused hc)
  case up =>
    show execLinkUp dt l fast s = _
    exact if_neg (by simp [halive, hdecl, hspeed])
  case host =>
    subst hl
    exact if_neg (by simp [halive, hdecl])
  case a =>
    subst hl
    exact if_neg (by simp [halive, hdecl])
  case b =>
    subst hl
    exact if_neg (by simp [halive, hdecl])
  case answers =>
    have hon : ownOn (advance dt s) l ip = true := by
      rw [ownOn, hmode, hup, hown, beq_self_eq_true, bne_iff_ne.mpr hip]
      rfl
    exact ⟨if_pos hon, if_pos hon⟩
  case query => exact if_neg (by simp [hmode, hup, hl])
  case long =>
    show execSwitchForward dt l f s = _
    unfold execSwitchForward
    generalize advance dt s = t at *
    refine (if_neg (by simp [hmode, hsw, hup])).trans ?_
    simp [enterFrame, enterCounted, tooLong, hlong]
  case forward =>
    show execSwitchForward dt l f s = _
    unfold execSwitchForward
    generalize advance dt s = t at *
    refine (if_neg (by simp [hmode, hsw, hup])).trans ?_
    simp [enterFrame_passes hlen hstorm]
  case notBack =>
    unfold fwdPorts
    split
    · exact List.not_mem_nil
    split
    · simp
    split
    · simp
    split
    · simp
    split
    · split
      · exact List.not_mem_nil
      next hport => simpa [eq_comm] using hport
    · simp
  case flood =>
    unfold fwdPorts
    rw [if_neg hown, if_neg (by simp [hbpdu]), if_pos hdst]
    cases x <;> simp
  case bridge =>
    show execHostnetBridgeFrame dt fromHost toModule f s = _
    unfold execHostnetBridgeFrame
    generalize advance dt s = t at *
    have henter := enterFrame_passes hlen hstorm
    cases fromHost with
    | false =>
      refine (if_neg (by simp_all)).trans ?_
      cases toModule <;> simp_all
    | true =>
      refine (if_neg (by simp_all)).trans ?_
      cases toModule <;> simp_all

end Sys2Proof.Machine

/-! # Media streams (R436 to R455) -/

namespace Sys2Proof.Machine

open Sys2Proof.Safety

/-! ### What a packet changes of the receive slots -/

theorem NetKept.rxSlot {t s : State} (h : NetKept t s) (i : Nat) : rxSlot t i = rxSlot s i := by
  have hrx : t.net.rx = s.net.rx := by rw [h.net]
  unfold Machine.rxSlot
  rw [hrx]

/-- The counts of a receive slot that only an arriving packet advances. -/
structure CountsKept (y x : RxSlot) : Prop where
  packetsA : y.packetsA = x.packetsA
  packetsB : y.packetsB = x.packetsB
  lastA : y.lastA = x.lastA
  lastB : y.lastB = x.lastB

theorem CountsKept.refl (x : RxSlot) : CountsKept x x := ⟨rfl, rfl, rfl, rfl⟩

/-- A packet has arrived on one path at least. -/
def RxSlot.Heard (x : RxSlot) : Prop := x.lastA ≠ none ∨ x.lastB ≠ none

theorem CountsKept.heard {x y : RxSlot} (h : CountsKept y x) (hx : x.Heard) : y.Heard := by
  unfold RxSlot.Heard
  rwa [h.lastA, h.lastB]

theorem rxSlot_setRxSlot {x : RxSlot} (hx : x.Heard) (i j : Nat) (s : State) :
    rxSlot (setRxSlot i x s) j = if j = i then x else rxSlot s j :=
  tget_tset_of_ne (fun h => by rw [h] at hx; exact hx.elim (· rfl) (· rfl)) s.net.rx i j

/-- The slot `i` keeps its counts, and every other slot all it holds. -/
structure SlotCounted (i : Nat) (t s : State) : Prop where
  counts : CountsKept (rxSlot t i) (rxSlot s i)
  others : ∀ j, j ≠ i → rxSlot t j = rxSlot s j

theorem SlotCounted.refl (i : Nat) (s : State) : SlotCounted i s s := ⟨.refl _, fun _ _ => rfl⟩

theorem SlotCounted.trans {i : Nat} {a b c : State} (hab : SlotCounted i a b) (hbc : SlotCounted i b c) :
    SlotCounted i a c where
  counts := ⟨hab.counts.packetsA.trans hbc.counts.packetsA, hab.counts.packetsB.trans hbc.counts.packetsB,
    hab.counts.lastA.trans hbc.counts.lastA, hab.counts.lastB.trans hbc.counts.lastB⟩
  others j hj := (hab.others j hj).trans (hbc.others j hj)

theorem NetKept.slotCounted {t s : State} (h : NetKept t s) (i : Nat) : SlotCounted i t s :=
  ⟨by rw [h.rxSlot]; exact .refl _, fun j _ => h.rxSlot j⟩

theorem setRxSlot_slotCounted {i : Nat} {x : RxSlot} {s : State} (hkept : CountsKept x (rxSlot s i))
    (hx : (rxSlot s i).Heard) : SlotCounted i (setRxSlot i x s) s where
  counts := by rw [rxSlot_setRxSlot (hkept.heard hx), if_pos rfl]; exact hkept
  others j hj := by rw [rxSlot_setRxSlot (hkept.heard hx), if_neg hj]

theorem placeSample_slotCounted {i : Nat} {s : State} (hx : (rxSlot s i).Heard) (c : RxSlotCfg) (dec : Bool) (due m : Int)
    (v : StreamSample) : SlotCounted i (placeSample i c dec due m v s) s := by
  unfold placeSample
  simp only []
  split
  · exact ((raise_netKept ..).slotCounted i).trans (setRxSlot_slotCounted ⟨rfl, rfl, rfl, rfl⟩ hx)
  split
  · exact .refl i s
  · exact setRxSlot_slotCounted ⟨rfl, rfl, rfl, rfl⟩ hx

theorem SlotCounted.foldl {α : Type} {i : Nat} {g : State → α → State}
    (hg : ∀ s a, (rxSlot s i).Heard → SlotCounted i (g s a) s) (l : List α) {s : State} (hx : (rxSlot s i).Heard) :
    SlotCounted i (l.foldl g s) s := by
  induction l generalizing s with
  | nil => exact .refl i s
  | cons a l ih => exact (ih ((hg s a hx).counts.heard hx)).trans (hg s a hx)

theorem pathBack_netKept (i : Nat) (b : Bool) (s : State) : NetKept (pathBack i b s) s := by
  unfold pathBack
  split
  · exact .refl s
  · exact .ite ((postEvent_netKept ..).trans (release_netKept ..)) (.refl s)

theorem mergeSeq_counts (b : Bool) (q : BitVec 16) (now : Nat) (x : RxSlot) : CountsKept (mergeSeq b q now x).1 x := by
  unfold mergeSeq
  simp only []
  split
  · exact ⟨rfl, rfl, rfl, rfl⟩
  next p t _ =>
    by_cases hp : p = if b then .b else .a
    · rw [if_pos hp]
      exact ⟨rfl, rfl, rfl, rfl⟩
    · rw [if_neg hp]
      exact ⟨rfl, rfl, rfl, rfl⟩

/-- The receive slot that has counted a packet on path `b`. -/
def RxSlot.counted (b : Bool) (now : Nat) (x : RxSlot) : RxSlot :=
  if b then { x with packetsB := sat32 (x.packetsB + 1), lastB := some now }
  else { x with packetsA := sat32 (x.packetsA + 1), lastA := some now }

theorem RxSlot.counted_heard (b : Bool) (now : Nat) (x : RxSlot) : (x.counted b now).Heard := by
  cases b
  · exact .inl nofun
  · exact .inr nofun

/-- A packet counts in its slot, and changes no other (R441). -/
theorem takePacket_slots (i : Nat) (m : MediaPacket) (s : State) :
    CountsKept (rxSlot (takePacket i m s) i) ((rxSlot s i).counted (packetPath s m) s.sysCnt) ∧
      ∀ j, j ≠ i → rxSlot (takePacket i m s) j = rxSlot s j := by
  have hheard := RxSlot.counted_heard (packetPath s m) s.sysCnt (rxSlot s i)
  generalize hx1 : (rxSlot s i).counted (packetPath s m) s.sysCnt = x1 at hheard
  have hset : rxSlot (setRxSlot i x1 s) i = x1 := (rxSlot_setRxSlot hheard i i s).trans (if_pos rfl)
  suffices h : SlotCounted i (takePacket i m s) (setRxSlot i x1 s) by
    refine ⟨hset ▸ h.counts, fun j hj => (h.others j hj).trans ((rxSlot_setRxSlot hheard i j s).trans (if_neg hj))⟩
  unfold takePacket
  extract_lets c x b dec y1 s1 s2 s3 m0 n due margin
  have hy1 : setRxSlot i x1 s = s1 := by rw [← hx1]; rfl
  rw [hy1] at hset ⊢
  have h3 : NetKept s3 s1 :=
    (pathBack_netKept ..).trans (.ite ((postEvent_netKept ..).trans (release_netKept ..)) (.refl s1))
  have hs3 : rxSlot s3 i = x1 := (h3.rxSlot i).trans hset
  obtain ⟨x2, use, hmerge, hx2⟩ : ∃ x2 use,
      (if c.paths = 3 then mergeSeq b m.seq s.sysCnt y1 else (y1, true)) = (x2, use) ∧ CountsKept x2 x1 := by
    rw [← hx1]
    by_cases hp : c.paths = 3
    · exact ⟨_, _, if_pos hp, mergeSeq_counts b m.seq s.sysCnt y1⟩
    · exact ⟨_, _, if_neg hp, .refl y1⟩
  rw [hmerge]
  have h4 : SlotCounted i (setRxSlot i x2 s3) s1 :=
    (setRxSlot_slotCounted (by rwa [hs3]) (by rwa [hs3])).trans (h3.slotCounted i)
  refine .trans ?_ h4
  have hs4 : rxSlot (setRxSlot i x2 s3) i = x2 := (rxSlot_setRxSlot (hx2.heard hheard) i i s3).trans (if_pos rfl)
  have h5 : ∀ l, SlotCounted i (setRxSlot i { x2 with margins := l } (setRxSlot i x2 s3)) (setRxSlot i x2 s3) := fun l =>
    setRxSlot_slotCounted (by rw [hs4]; exact ⟨rfl, rfl, rfl, rfl⟩) (by rw [hs4]; exact hx2.heard hheard)
  have hfold : ∀ l u, (rxSlot u i).Heard → SlotCounted i
      (List.foldl (fun a k => placeSample i c dec due (m0 + (k : Nat)) (frameAt c m.payload k) a) u l) u := fun l u hu =>
    .foldl (fun a k ha => placeSample_slotCounted ha ..) l hu
  cases use with
  | false => exact .refl i _
  | true => exact (hfold _ _ ((h5 _).counts.heard (by rw [hs4]; exact hx2.heard hheard))).trans (h5 _)

/-- Settles O50: the settings and reports of the streams, the packets they take and send, and the losses they record. -/
theorem streams : Obligations.Streams := by
  unfold Obligations.Streams
  refine ⟨fun h p s => ⟨fun hr hlen => ⟨fun hc => ?rx, fun hc => ?rxRefused⟩,
      fun hr hlen => ⟨fun hc => ?tx, fun hc => ?txRefused⟩,
      fun hr hlen hdir hmin hmax hclr hfirst hend => ?status⟩,
    fun dt m s hmode hup => ?media, fun i m s => ?take, fun dt slot s hmode hon m l w last hnext => ?send,
    fun dt slot s hon => ⟨fun hstay hfree hheard ha hb => ?lost, fun hforce => ⟨?lostAlready, fun hdue => ?repeated⟩⟩,
    fun dt slot path s hon hstay hpaths hgone => ⟨fun hfree => ?path, fun hforce => ?pathAlready⟩⟩
  case rx =>
    refine opcodeN_reply hr hlen ((if_pos hc).trans ?_)
    split <;> rfl
  case rxRefused => exact opcodeN_reply hr hlen (if_neg hc)
  case tx =>
    refine opcodeN_reply hr hlen ((if_pos hc).trans ?_)
    split <;> rfl
  case txRefused => exact opcodeN_reply hr hlen (if_neg hc)
  case status =>
    refine opcodeN_reply hr hlen ((if_pos (checks_ok ?_)).trans ?_)
    · simp [hdir, hmax, hclr, hfirst, hend, Nat.one_le_iff_ne_zero.mp hmin]
    · simp
  case media =>
    show execMediaPacketReceived dt m s = _
    unfold execMediaPacketReceived
    refine (if_neg (by simp [hmode, hup])).trans ?_
    simp
  case take =>
    obtain ⟨⟨ha, hb, hla, hlb⟩, hothers⟩ := takePacket_slots i m s
    refine ⟨fun hpath => ?_, fun hpath => ?_, hothers⟩
    · rw [hpath] at ha hb hla
      exact ⟨ha, hb, hla⟩
    · rw [hpath] at ha hb hlb
      exact ⟨hb, ha, hlb⟩
  case send =>
    simp only [show exec (.streamPacketSend dt slot) s = execStreamPacketSend dt slot s from rfl, execStreamPacketSend]
    generalize advance dt s = t at *
    rw [if_neg (by simp [hon, hmode]), hnext]
    simp only []
    generalize List.foldl (sendMedia _ _ _) t [false, true] = u
    refine ⟨fun hstate => ?_, fun hstate => ?_, fun q hstate hsilent hdue => ?_⟩
    · simp [hstate]
    · simp [hstate]
    · simp [hstate, hsilent, hdue]
  case lost =>
    show execStreamLost dt slot s = _
    unfold execStreamLost
    generalize advance dt s = t at *
    have hnone : ((rxSlot t slot).lastA.isNone && (rxSlot t slot).lastB.isNone) = false := by
      rcases hheard with h | h <;> simp [← Option.not_isSome, h]
    exact if_neg (by rw [hnone, ha, hb, hfree]; simp [hon, hstay])
  case lostAlready =>
    show execStreamLost dt slot s = _
    unfold execStreamLost
    exact if_pos (by simp [hforce])
  case repeated =>
    show execStreamReportRepeat dt slot s = _
    unfold execStreamReportRepeat
    exact if_pos (by simp [rxActive, hon, hforce, hdue])
  case path =>
    show execPathLost dt slot path s = _
    unfold execPathLost
    generalize advance dt s = t at *
    refine (if_neg (by simp [hon, hstay, hpaths, hgone, hfree])).trans ?_
    cases linkIsUp t (linkPortOf path) <;> rfl
  case pathAlready =>
    show execPathLost dt slot path s = _
    unfold execPathLost
    exact if_pos (by simp [hforce])

end Sys2Proof.Machine

/-! # The commands and events of the Cooper cores (R460 to R500) -/

namespace Sys2Proof.Machine

open Sys2Proof.Safety

/-! ### Commands -/

/-- Settles O51: the loading of images, the parameters, the status and the debugging of a core. -/
theorem coopCommands : Obligations.CoopCommands := by
  unfold Obligations.CoopCommands
  refine fun h p s => ⟨fun hr hmin hk hzero hown => ?load, fun hr hact hc => ⟨fun hparams => ?params, fun hrb => ?readback⟩,
    fun hr hlen hmax hzero => ⟨fun hkeep => ?status, fun hclear => ?statusClear⟩,
    fun hr hlen hk hzero => ⟨fun hact => ?release, fun hstop => ⟨fun hact hlive => ?halt, fun hact hstate hlo hhi => ?step,
      fun hact hstate => ?resume⟩⟩⟩
  case load =>
    simp only [show exec (.coopLoad h p) s = execCoopLoad h p s from rfl, execCoopLoad]
    refine ⟨fun hpart hlen hlo hhi hstopped => ?begin_, fun hpart hstate hlo hhi hmod l hl hoff hroom => ?data,
      fun hpart hlen hv hstate l v hl hfull hhead hsig hroom => ?end_,
      fun hpart hlen hv hstate l hl hfull hhead hsig => ?unsigned, fun hpart hlen hv hstopped => ?remove⟩
    case begin_ =>
      refine opcode_reply hr ((if_pos (checks_ok ?_)).trans (by rw [hpart]; rfl))
      cases hl : (coreOf (during .coopLoad h p s) (u8 p 0)).load with
      | none => simp [hk, hzero, hpart, hlen, hlo, hhi, hstopped]
      | some l => simp [hk, hzero, hpart, hlen, hlo, hhi, hstopped, hown l hl]
    case data =>
      refine opcode_reply hr ((if_pos (checks_ok ?_)).trans ?_)
      · have hwords : (p.length - 8) % 4 = 0 := by omega
        have hmost : p.length - 8 ≤ if h.rq = .spi then 4088 else 1388 := by omega
        simp [hk, hzero, hpart, hstate, hl, hown l hl, hwords, hmost]
        omega
      · simp only [hpart, hl]
        exact if_neg (by omega)
    case end_ =>
      refine opcode_reply hr ((if_pos (checks_ok ?_)).trans ?_)
      · simp [hk, hzero, hpart, hlen, hv, hstate, hl, hown l hl, coreRuns]
      · simp only [hpart, hl]
        simp [coopEnd, hfull, hhead, hsig, hroom]
    case unsigned =>
      refine opcode_reply hr ((if_pos (checks_ok ?_)).trans ?_)
      · simp [hk, hzero, hpart, hlen, hv, hstate, hl, hown l hl, coreRuns]
      · simp only [hpart, hl]
        simp [coopEnd, hfull, hhead, hsig, refuse]
    case remove =>
      refine opcode_reply hr ((if_pos (checks_ok ?_)).trans (by rw [hpart]; rfl))
      cases hl : (coreOf (during .coopLoad h p s) (u8 p 0)).load with
      | none => simp [hk, hzero, hpart, hlen, hv, hstopped]
      | some l => simp [hk, hzero, hpart, hlen, hv, hstopped, hown l hl]
  case params =>
    refine opcode_reply hr ((if_neg hact).trans ((if_pos hc).trans ?_))
    simp [hparams]
  case readback =>
    refine opcode_reply hr ((if_neg hact).trans ((if_pos hc).trans ?_))
    simp [hrb]
  case status =>
    refine opcodeN_reply hr hlen ((if_neg (by simp [hzero, hmax])).trans ?_)
    exact congrArg (Ans.reply .ok _) (if_neg (by omega))
  case statusClear =>
    refine opcodeN_reply hr hlen ((if_neg (by simp [hzero, hmax])).trans ?_)
    exact congrArg (Ans.reply .ok _) (if_pos hclear)
  case release =>
    refine opcodeN_reply hr hlen ((if_pos (checks_ok ?_)).trans (by rw [hact]; rfl))
    simp [hk, hzero, hact]
  case halt =>
    refine opcodeN_reply hr hlen ((if_pos (checks_ok ?_)).trans ?_)
    · rcases hlive with hlive | hlive | hlive <;> simp [hk, hzero, hact, hstop, hlive]
    · simp only [hact, Bool.or_eq_true, beq_iff_eq]
      split <;> rfl
  case step =>
    refine opcodeN_reply hr hlen ((if_pos (checks_ok ?_)).trans (by rw [hact]; rfl))
    simp [hk, hzero, hact, hstop, hstate, hhi, Nat.one_le_iff_ne_zero.mp hlo]
  case resume =>
    refine opcodeN_reply hr hlen ((if_pos (checks_ok ?_)).trans (by rw [hact]; rfl))
    simp [hk, hzero, hact, hstop, hstate]

/-! ### Events -/

/-- A restart of a trapped core that may start (R469). -/
theorem startCore_trapped {n k : Nat} {c : Core} {s : State} (hstate : c.state = .trapped) (hheld : coresHeld s = false) :
    startCore n (setCore k c s) k = unmarkCore k (beginCore k n (setCore k c s)) := by
  have hcore : coreOf (setCore k c s) k = c :=
    (coreOf_setCore (by rw [hstate]; nofun) k k s).trans (if_pos rfl)
  have hheld' : coresHeld (setCore k c s) = false := hheld
  unfold startCore
  simp only [hcore, hstate, hheld']
  rfl

/-- Settles O52: the starts, the boundaries, the overruns, the restarts and the transfers of a core. -/
theorem coopEvents : Obligations.CoopEvents := by
  unfold Obligations.CoopEvents
  refine ⟨fun dt k s hstate hnew => ?init, fun dt k s hruns hinit hblock hfull hfresh => ⟨fun hstate hlate => ?onTime,
      fun hstate hlate => ?late, fun hstate hstop hw hlate => ?stops, fun hstate => ?halted⟩,
    fun k b s => ⟨fun hidle => if_neg (by rw [hidle]; nofun), fun hbusy hfree => ?waits, fun w hbusy hwaiting => ?drops⟩,
    fun dt k s => ⟨fun x l hunrec => ?overrun, fun hunrec hstate hfresh hfull hlate => ?noticed,
      fun hactive hhalted htrapped hlate => ?runaway,
      fun hstate hauto hrun hreason hcount hdue hfits => ⟨fun hheld => ?restart, fun hheld => ?marked⟩,
      fun hstate hcount => ?exhausted, fun hstate hdue => ?countReset⟩,
    fun dt k ch s ca lo n out hnow => ⟨fun hx => ?xmem, fun hy => ?ymem⟩⟩
  case init =>
    show execCoopInitComplete dt k s = _
    exact if_neg (by rw [hstate, hnew]; nofun)
  case onTime =>
    show execCoopBlockTrigger dt k s = _
    unfold execCoopBlockTrigger
    generalize advance dt s = t at *
    refine (if_neg (by simp [hruns, hinit, hblock, hfull])).trans ?_
    simp [hstate, hlate]
  case late =>
    show execCoopBlockTrigger dt k s = _
    unfold execCoopBlockTrigger
    generalize advance dt s = t at *
    refine (if_neg (by simp [hruns, hinit, hblock, hfull])).trans ?_
    simp [hstate, hlate, hfresh]
  case stops =>
    show execCoopBlockTrigger dt k s = _
    unfold execCoopBlockTrigger
    generalize advance dt s = t at *
    refine (if_neg (by simp [hruns, hinit, hblock, hfull])).trans ?_
    simp [hstate, hlate, hstop, hw]
  case halted =>
    show execCoopBlockTrigger dt k s = _
    unfold execCoopBlockTrigger
    generalize advance dt s = t at *
    refine (if_neg (by simp [hruns, hinit, hblock, hfull])).trans ?_
    simp [hstate]
  case waits => exact (if_pos hbusy).trans (if_pos (by rw [hfree]; rfl))
  case drops => exact (if_pos hbusy).trans (if_neg (by rw [hwaiting]; nofun))
  case overrun =>
    show execCoopOverrun dt k s = _
    unfold execCoopOverrun
    simp only [hunrec]
  case noticed =>
    show execCoopOverrun dt k s = _
    unfold execCoopOverrun
    simp only [hunrec]
    exact if_pos (by simp [hstate, hfresh, hfull, hlate])
  case runaway =>
    show execCoopRunaway dt k s = _
    exact if_pos (by simp [hactive, hhalted, htrapped, hlate])
  case restart =>
    show execCoopRestart dt k s = _
    unfold execCoopRestart
    generalize advance dt s = t at *
    refine (if_neg (by simp [hstate, hauto, hrun, hreason, hcount, hdue, hfits])).trans
      ((if_neg (by rw [hheld]; nofun)).trans ?_)
    exact congrArg Host.Outcome.next (startCore_trapped hstate hheld)
  case marked =>
    show execCoopRestart dt k s = _
    unfold execCoopRestart
    generalize advance dt s = t at *
    exact (if_neg (by simp [hstate, hauto, hrun, hreason, hcount, hdue, hfits])).trans (if_pos hheld)
  case exhausted =>
    show execCoopRestart dt k s = _
    exact if_pos (by simp [hcount])
  case countReset =>
    show execCoopRestartCountReset dt k s = _
    exact if_neg (by simp [hstate, hdue])
  case xmem =>
    show execDmaDone dt k ch s = _
    unfold execDmaDone
    simp only [hnow, hx]
    cases out <;> rfl
  case ymem =>
    show execDmaDone dt k ch s = _
    unfold execDmaDone
    simp only [hnow, Nat.not_lt.mpr hy]
    cases out <;> rfl

end Sys2Proof.Machine

/-! # The registers (R160 to R175) -/

namespace Sys2Proof.Machine

open Sys2Proof.Safety

/-! ### What is held per requester, and words in a payload -/

@[simp] theorem perRequester_putRequester {α : Type} (d : α) (rq : Requester) (x : α) (l : List (Requester × α)) :
    perRequester d (putRequester rq x l) rq = x := by
  have hnone : (l.filter (fun e => e.1 != rq)).find? (fun e => e.1 == rq) = none := by
    simp [List.find?_eq_none]
  simp [perRequester, putRequester, List.find?_append, hnone]

@[simp] theorem readShadowOf_setReadShadow (rq : Requester) (x : ReadShadow) (s : State) :
    readShadowOf (setReadShadow rq x s) rq = x := by
  simp only [readShadowOf, setReadShadow, perRequester_putRequester]

/-- The bytes of a write shadow are read back. -/
theorem shadowAt_shadowBytes (x : WriteShadow) (p : Bytes) : shadowAt (shadowBytes x ++ p) = x := by
  obtain ⟨addr, low, valid⟩ := x
  have hword : ∀ w : BitVec 32, BitVec.ofNat 32 (w.toNat % 256 + 256 * (w.toNat / 256 % 256)
      + 65536 * (w.toNat / 256 / 256 % 256 + 256 * (w.toNat / 256 / 256 / 256 % 256))) = w := fun w => by
    apply BitVec.eq_of_toNat_eq
    rw [BitVec.toNat_ofNat]
    omega
  simp [shadowAt, shadowBytes, le, u32, u16, u8, hword]
  cases valid <;> rfl

theorem shadowBytes_length (x : WriteShadow) : (shadowBytes x).length = 12 := by simp [shadowBytes]

theorem shadowBytes_drop (x : WriteShadow) (p : Bytes) : (shadowBytes x ++ p).drop 12 = p :=
  List.drop_left' (shadowBytes_length x)

/-! ### Reading -/

/-- A read of one word changes at most the read shadows. -/
theorem readWord_state (rq : Requester) (a : Nat) (s : State) :
    ∃ sh, (readWord rq a s).2.2 = { s with cmd := { s.cmd with readShadow := sh } } := by
  unfold readWord
  split
  · exact ⟨s.cmd.readShadow, rfl⟩
  · exact ⟨s.cmd.readShadow, rfl⟩
  · exact ⟨_, rfl⟩
  · simp only []
    split
    · exact ⟨_, rfl⟩
    · exact ⟨s.cmd.readShadow, rfl⟩

theorem readWords_state (rq : Requester) (n a : Nat) (s : State) :
    ∃ sh, (readWords rq n a s).2.2 = { s with cmd := { s.cmd with readShadow := sh } } ∧
      (readWords rq n a s).1.length = 4 * n := by
  induction n generalizing a s with
  | zero => exact ⟨s.cmd.readShadow, rfl, rfl⟩
  | succ n ih =>
    obtain ⟨sh, hword⟩ := readWord_state rq a s
    obtain ⟨sh', hrest, hlen⟩ := ih (a + 4) (readWord rq a s).2.2
    refine ⟨sh', hrest.trans (by rw [hword]), ?_⟩
    show (le 4 (readWord rq a s).1 ++ (readWords rq n (a + 4) (readWord rq a s).2.2).1).length = _
    rw [List.length_append, le_length, hlen]
    omega

/-- The low word of a 64-bit register keeps its high word. -/
theorem readWord_low {rq : Requester} {a v : Nat} {s : State} (h : regAt s a = .low v) :
    readWord rq a s =
      (v % 4294967296, false, setReadShadow rq ⟨BitVec.ofNat 32 a, BitVec.ofNat 32 (v / 4294967296), false⟩ s) := by
  simp only [readWord, h]

/-- A high word whose low word was read just before. -/
theorem readWord_high_fresh {rq : Requester} {a w : Nat} {s : State} (h : regAt s a = .high w)
    (haddr : (readShadowOf s rq).addr.toNat + 4 = a) (hnew : (readShadowOf s rq).consumed = false) :
    readWord rq a s =
      ((readShadowOf s rq).high.toNat, false, setReadShadow rq { readShadowOf s rq with consumed := true } s) := by
  simp only [readWord, h]
  exact if_pos ⟨haddr, hnew⟩

/-- A high word that was read already, or whose low word was not read, is stale. -/
theorem readWord_high_stale {rq : Requester} {a w : Nat} {s : State} (h : regAt s a = .high w)
    (hold : (readShadowOf s rq).consumed = true) : (readWord rq a s).2.1 = true := by
  simp [readWord, h, hold]

/-! ### Writing -/

/-- REG_WRITE lands where its words are written still (R18, R175). -/
theorem landRegWrite_written {h : Hdr} {p : Bytes} {x : WriteShadow} {u z : State}
    (hz : writeWords h.rq (u32 p 0) (regWords p) (setWriteShadow h.rq x u) = .ok z) :
    landRegWrite h (shadowBytes x ++ p) u =
      if z.cmd.expert.isNone then revertTests { z with cmd := { z.cmd with writeShadow := u.cmd.writeShadow } }
      else { z with cmd := { z.cmd with writeShadow := u.cmd.writeShadow } } := by
  simp only [landRegWrite, shadowBytes_drop, shadowAt_shadowBytes, hz]

/-- Settles O39: a read of words, the 64-bit registers, and a write of words from its execution to its tick. -/
theorem registers : Obligations.Registers := by
  unfold Obligations.Registers
  refine ⟨⟨fun h p s hr hlen hal hmin hmax hzero => ?read, readWords_state,
      fun rq a s => ⟨fun ha => ?absent, fun v hv => ?word, fun v w hv ha => ?wide⟩⟩,
    fun h p s hr hlen hal hmin hmax hzero => ?_, fun h p x u => ⟨fun z hz => ⟨fun hopen => ?lands, fun hclosed => ?reverts⟩,
      fun st hst => ?refusedThere⟩⟩
  case read =>
    refine opcodeN_reply hr hlen ((if_pos (checks_ok ?_)).trans rfl)
    simp [hal, hmax, hzero, Nat.one_le_iff_ne_zero.mp hmin]
  case absent => simp only [readWord, ha]
  case word => simp only [readWord, hv]
  case wide =>
    rw [readWord_low hv]
    refine ⟨rfl, rfl, fun hhigh => ?_⟩
    rw [readWord_high_fresh hhigh (by simp [Nat.mod_eq_of_lt ha]) (by simp)]
    refine ⟨by simp, rfl, fun hagain => readWord_high_stale hagain (by simp)⟩
  case lands =>
    rw [landRegWrite_written hz]
    exact if_neg (by simp [← Option.not_isSome, hopen])
  case reverts =>
    rw [landRegWrite_written hz]
    exact if_pos (by rw [hclosed]; rfl)
  case refusedThere => simp only [landRegWrite, shadowBytes_drop, shadowAt_shadowBytes, hst]
  intro t hopen
  have hc : checks
      [ (decide (p.length < 8) || p.length != 8 + 4 * u16 p 4, .badLength),
        (u32 p 0 % 4 != 0, .badParam),
        (u16 p 4 == 0 || decide (256 < u16 p 4), .outOfRange),
        (u16 p 6 != 0, .badParam),
        ((List.range (u16 p 4)).any (fun i => regReadOnly (u32 p 0 + 4 * i) t), .badParam) ] = .ok := by
    refine checks_ok ?_
    simp only [List.forall_mem_cons]
    refine ⟨?_, by simp [hal], by simp [hmax, Nat.one_le_iff_ne_zero.mp hmin], by simp [hzero], ?_, nofun⟩
    · simp [hlen]
    · simpa using hopen
  refine ⟨fun u hu => opcode_reply hr ((if_pos hc).trans ?_), fun st hst => opcode_reply hr ((if_pos hc).trans ?_)⟩
  · simp only [t, hu]
  · simp only [t, hst]

end Sys2Proof.Machine

/-! # The registers whose write is a command of its own (R478)

The clause on a core's register file admits every offset from 0x100 to 0x1EF at which a register stands. The bytes inside a word
are among them, and there REG_WRITE answers BAD_PARAM: its address must be a multiple of 4. -/

namespace Sys2Proof.Machine

open Sys2Proof.Safety

/-- A REG_WRITE at an address that is no multiple of 4 is refused (R175). -/
theorem regWrite_unaligned {h : Hdr} {p : Bytes} {s : State} (hr : ready .regWrite h p s = true)
    (hlen : p.length = 8 + 4 * u16 p 4) (hal : u32 p 0 % 4 ≠ 0) :
    execRegWrite h p s = .next (answered .regWrite h .badParam [] (during .regWrite h p s)) := by
  refine opcode_reply hr ?_
  simp [regWriteBody, guardSt, checks, hlen, hal, refuse]

/-- A packet over SPI, of class 0. -/
def spiPacket : Hdr := ⟨0, .spi, .neta, 1, 0, false, none⟩

/-- A module in HOLD with core 0 halted, SPI holding the expert session. -/
def coreHalted : State :=
  { life := { mode := .hold }, cmd := { expert := some ⟨.spi, 300, 0⟩ }, coop := [(0, { state := .halted })] }

/-- How many commands wait for the tick. -/
def landingCount : R → Nat
  | .next s => s.cmd.landing.length
  | _ => 0

/-- Refutes O40: on a halted core a write of 1 to offset 0x101, the second byte of D0, meets every condition of the clause on the
register file, and is answered BAD_PARAM; nothing waits for the tick. -/
theorem not_registersNamed : ¬ Obligations.RegistersNamed := by
  unfold Obligations.RegistersNamed
  intro hall
  obtain ⟨_, _, _, _, _, _, _, _, _, _, _, _, hfile, _⟩ := hall spiPacket 1 coreHalted
  have hready : ready .regWrite spiPacket (regPayload 0x500101 1) coreHalted = true := by decide +kernel
  obtain ⟨hanswer, -⟩ := hfile 0 0x101 (by decide) (by decide) (by decide) (by decide) hready
  have hwaits := congrArg landingCount (hanswer (by decide +kernel))
  have hrefused : exec (.coopRegisterWrite spiPacket 0 0x101 1) coreHalted = _ :=
    regWrite_unaligned hready (by decide) (by decide)
  rw [hrefused] at hwaits
  exact absurd hwaits (by decide +kernel)

end Sys2Proof.Machine
